-- ==== Sys2Proof/Word.lean ====
section
/-! DEFINITION. The word types of the module and the finite map that sparse state is held in. -/

namespace Sys2Proof

/-- The smallest addressable unit. -/
abbrev Byte := BitVec 8

/-- A scalar value, an instruction word, a memory word (R25, R32). -/
abbrev Word := BitVec 64

/-- A vector register: 2,048 bits (R136). -/
abbrev VReg := BitVec 2048

/-- Sparse data by number: pairs in ONE canonical form, keys strictly rising and no entry equal to the
default an unlisted key reads as, so that equal maps are equal lists (the operations stand in
Machine/FMap.lean). -/
abbrev FMap (α : Type) := List (Nat × α)

end Sys2Proof
end

