-- ==== Sys2Proof/Config.lean ====
section
/-! DEFINITION. What an implementation fixes and the spec does not state: constants without a body, so that no proof
can see what they are. Each has an entry in notes/assumptions. -/

namespace Sys2Proof

/-- Whether RENORM's exponential gives, of the two binary32 values around e^x, the upper one (R158 gives an error below
1 ulp; log 11). -/
opaque Config.renormExpUp : BitVec 32 → Bool

/-- The code of a summary register in CR_ETVAL (R42 codes s, lnk and v only; log 12). -/
opaque Config.smCode : Nat → BitVec 8

/-- Whether a fused multiply-add of zero, infinity and a quiet NaN sets NV (IEEE 754-2019 7.2 leaves it open; log 13). -/
opaque Config.fmaNanInvalid : Bool

/-- Unwrapping under the module's unique ECDH P-384 key (R370; log 14). -/
opaque Config.ecdhUnwrap : List Byte → Option (List Byte)

/-- The device public key with its certificate (R370; log 14). -/
opaque Config.deviceKey : List Byte

/-- The module serial number (R275; log 15). -/
opaque Config.serial : Word

/-- Whether the n-th reset pulse of 0.5 to 1 ms is taken (R360; log 16). -/
opaque Config.pulseTaken : Nat → Bool

/-- The values the keeper writes to CR_MTVDESC and CR_LANTERN_SP of a core (R364 step 6; log 17). -/
opaque Config.mtvdesc : Nat → BitVec 33
opaque Config.lanternSp : Nat → BitVec 40

/-- The granules that a granting device and binding on another module has granted to a client device and binding, and
whether its slot that holds a step passes the check of its CRCs on restore: nothing on this module shows them (R346, R348;
log 33). -/
opaque Config.peerReserve : Nat → Nat → Nat → Nat → List Nat
opaque Config.peerSlotGood : Nat → Nat → Nat → Nat → Nat → Bool

/-- Credits of a virtual channel above those of one packet, as a port's training leaves them (R266 and R282 give none; log 32). -/
opaque Config.vcCredits : Nat

/-- Bytes an output queue holds (R271, R284: CONG and combining depend on its fill; log 32). -/
opaque Config.outQueueBytes : Nat

/-- The end of an equaliser tap's range in steps, and the field of SK_LINKERR that counts a lane that reaches it: 0 REPLAY,
1 LFAIL, else RETRAIN (R304; log 37). -/
opaque Config.tapMax : Nat
opaque Config.tapCounter : Nat

/-- What `sel`, `pand`, `por` and `pnot` (0 to 3) give for a PRED whose value is neither 0 nor 1 (R28 gives results for 1
and 0; log 111). -/
opaque Config.predOther : Nat → List Word → Word

/-- A free word for the n-th open value (log 1). -/
opaque Config.freeWord : Nat → Word

/-- Digest of a vendor image region that the spec does not lay out is not modelled; the vendor keys' revocation bits,
one per key 0-3, as fused (R366; log 8). -/
opaque Config.keyRevoked : Nat → Bool

end Sys2Proof
end

