-- ==== Sys2Proof/Machine/Bits.lean ====
section
/-! DEFINITION. Bit fields, sign extension, byte order and other plain helpers. Byte order is little-endian
(R92, R130, R195 and R271 say so of their layouts; log 10 for the rest). -/

namespace Sys2Proof

/-- Field of `len` bits whose low bit is `lo`. -/
def fld {n : Nat} (w : BitVec n) (lo len : Nat) : Nat := (w.toNat >>> lo) % 2 ^ len

/-- One bit. -/
def bitAt {n : Nat} (w : BitVec n) (i : Nat) : Bool := w.getLsbD i

/-- The number read as two's complement of `len` bits. -/
def sextNat (x len : Nat) : Int := if x % 2 ^ len < 2 ^ (len - 1) then (x % 2 ^ len : Int) else (x % 2 ^ len : Int) - 2 ^ len

/-- A 64-bit word from an integer, modulo 2^64. -/
def wordOf (i : Int) : Word := BitVec.ofInt 64 i

/-- Field of a word, sign-extended to a word. -/
def sfld {n : Nat} (w : BitVec n) (lo len : Nat) : Word := wordOf (sextNat (fld w lo len) len)

/-- A Bool as a number. -/
def b2n (b : Bool) : Nat := if b then 1 else 0

/-- The number a little-endian run of bytes spells. -/
def leNat : List Byte → Nat
  | [] => 0
  | b :: t => b.toNat + 256 * leNat t

/-- The low `n` bytes of a number, least significant first. -/
def leBytes : Nat → Nat → List Byte
  | 0, _ => []
  | n + 1, x => BitVec.ofNat 8 (x % 256) :: leBytes n (x / 256)

/-- `n` bytes at offset `off` of a byte list, as a number; bytes beyond the list read zero. -/
def bytesAt (l : List Byte) (off n : Nat) : Nat := leNat ((l.drop off).take n)

/-- Saturating addition of an `n`-bit counter. -/
def satAdd {n : Nat} (c : BitVec n) (k : Nat) : BitVec n := BitVec.ofNat n (min (c.toNat + k) (2 ^ n - 1))

/-- `0, 1, …, n - 1`. -/
def upto (n : Nat) : List Nat := List.range n

/-- Ceiling of a quotient. -/
def cdiv (a b : Nat) : Nat := (a + b - 1) / b

/-- Replace element `i` of a list. -/
def setAt {α : Type} (l : List α) (i : Nat) (v : α) : List α := l.set i v

/-- The first element that answers, with what it answers. -/
def firstSome {α β : Type} (f : α → Option β) : List α → Option β
  | [] => none
  | a :: t => match f a with
    | some b => some b
    | none => firstSome f t

/-- Integer square root, bit by bit from bit `i` down (structural). -/
def isqrtGo (x : Nat) : Nat → Nat → Nat
  | 0, r => if (r + 1) * (r + 1) ≤ x then r + 1 else r
  | i + 1, r => isqrtGo x i (if (r + 2 ^ (i + 1)) * (r + 2 ^ (i + 1)) ≤ x then r + 2 ^ (i + 1) else r)

/-- Integer square root of a number below 2^256. -/
def isqrt (x : Nat) : Nat := isqrtGo x (x.log2 / 2 + 1) 0

/-- Sum of a list of integers. -/
def sumInt (l : List Int) : Int := l.foldl (· + ·) 0

end Sys2Proof
end

