-- ==== Sys2Proof/Machine/Float.lean ====
section
/-! DEFINITION. Floating-point formats and arithmetic (R28, R43, R44, R79-R85). A finite value is held exactly as
(-1)^neg * m * 2^e; an operation forms its exact result and rounds it once. -/

namespace Sys2Proof

/-- A floating-point format (R79): exponent bits, fraction bits, bias, and whether it is the OCP format without
infinities (E4M3). -/
structure FFmt where
  ew : Nat
  fw : Nat
  bias : Nat
  ocp : Bool
deriving DecidableEq, Repr

def binary64 : FFmt := ⟨11, 52, 1023, false⟩
def binary32 : FFmt := ⟨8, 23, 127, false⟩
def binary16 : FFmt := ⟨5, 10, 15, false⟩
def bfloat16 : FFmt := ⟨8, 7, 127, false⟩
def e4m3 : FFmt := ⟨4, 3, 7, true⟩
def e5m2 : FFmt := ⟨5, 2, 15, false⟩

/-- Width of a format in bits. -/
def FFmt.width (f : FFmt) : Nat := 1 + f.ew + f.fw

/-- Largest exponent of a finite value. E4M3 uses its top exponent for numbers (R79). -/
def FFmt.emax (f : FFmt) : Int := (2 ^ f.ew - 1 : Int) - (if f.ocp then 0 else 1) - f.bias

/-- Exponent of the smallest normal. -/
def FFmt.emin (f : FFmt) : Int := 1 - (f.bias : Int)

/-- The canonical NaN (R80). -/
def FFmt.nan (f : FFmt) : Nat :=
  if f.ocp then 2 ^ (f.ew + f.fw) - 1 else (2 ^ f.ew - 1) * 2 ^ f.fw + 2 ^ (f.fw - 1)

/-- Code of the largest finite magnitude. -/
def FFmt.maxFin (f : FFmt) : Nat :=
  if f.ocp then 2 ^ (f.ew + f.fw) - 2 else (2 ^ f.ew - 1) * 2 ^ f.fw - 1

/-- Code of the infinity magnitude; the canonical NaN in E4M3, which has none. -/
def FFmt.infCode (f : FFmt) : Nat := if f.ocp then f.nan else (2 ^ f.ew - 1) * 2 ^ f.fw

/-- The sign bit as a number. -/
def FFmt.sgn (f : FFmt) (neg : Bool) : Nat := if neg then 2 ^ (f.ew + f.fw) else 0

/-- An exact value. -/
inductive FVal where
  | nan (signalling : Bool)
  | inf (neg : Bool)
  | fin (neg : Bool) (m : Nat) (e : Int)
deriving DecidableEq, Repr

/-- Read a code of the format (R79). Which NaN codes are signalling, R80 leaves open for E4M3 and E5M2:
every E4M3 NaN is quiet here, and an E5M2 NaN with a clear top fraction bit is signalling, as in the
other formats (DESIGN CHOICE, log 144). -/
def FFmt.dec (f : FFmt) (x : Nat) : FVal :=
  let fr := x % 2 ^ f.fw
  let ex := x / 2 ^ f.fw % 2 ^ f.ew
  let neg := x / 2 ^ (f.ew + f.fw) % 2 = 1
  if f.ocp then
    if ex = 2 ^ f.ew - 1 ∧ fr = 2 ^ f.fw - 1 then .nan false
    else if ex = 0 then .fin neg fr (f.emin - f.fw) else .fin neg (2 ^ f.fw + fr) ((ex : Int) - f.bias - f.fw)
  else if ex = 2 ^ f.ew - 1 then
    if fr = 0 then .inf neg else .nan (fr < 2 ^ (f.fw - 1))
  else if ex = 0 then .fin neg fr (f.emin - f.fw) else .fin neg (2 ^ f.fw + fr) ((ex : Int) - f.bias - f.fw)

/-- Rounding directions (R43). -/
inductive RMode where
  | rne | rtz | rdn | rup | rna
deriving DecidableEq, Repr

/-- The RM encoding of R43; none for a reserved value. -/
def RMode.ofBits (n : Nat) : Option RMode :=
  match n with
  | 0 => some .rne
  | 1 => some .rtz
  | 2 => some .rdn
  | 3 => some .rup
  | 4 => some .rna
  | _ => none

/-- Exception flags as bits of CR_FFLAGS (R44). -/
abbrev FFlags := BitVec 5
def flagNV : FFlags := 0b10000#5
def flagDZ : FFlags := 0b01000#5
def flagOF : FFlags := 0b00100#5
def flagUF : FFlags := 0b00010#5
def flagNX : FFlags := 0b00001#5

/-- Whether a remainder `rem` of `2^d` (plus a sticky trace below it) rounds the magnitude up. -/
def roundsUp (rm : RMode) (neg : Bool) (odd : Bool) (rem d : Nat) (sticky : Bool) : Bool :=
  let half := if d = 0 then 0 else 2 ^ (d - 1)
  let gtHalf := decide (d ≠ 0) && (decide (rem > half) || (decide (rem = half) && sticky))
  let eqHalf := decide (d ≠ 0) && decide (rem = half) && !sticky
  let some' := decide (rem ≠ 0) || sticky
  match rm with
  | .rne => gtHalf || (eqHalf && odd)
  | .rna => gtHalf || eqHalf
  | .rtz => false
  | .rdn => neg && some'
  | .rup => !neg && some'

/-- A magnitude `m * 2^e` (with a trace below it if `sticky`) rounded to an integer multiple of `2^q`. -/
def roundAt (rm : RMode) (neg : Bool) (m : Nat) (e : Int) (sticky : Bool) (q : Int) : Nat × Bool :=
  if q ≤ e then (m * 2 ^ (e - q).toNat, sticky)
  else
    let d := (q - e).toNat
    let n := m / 2 ^ d
    let rem := m % 2 ^ d
    (n + b2n (roundsUp rm neg (n % 2 = 1) rem d sticky), decide (rem ≠ 0) || sticky)

/-- A number's code and the flags its rounding sets. -/
structure FRes where
  code : Nat
  flags : FFlags
deriving DecidableEq, Repr

/-- Overflow result of R84. -/
def overflowCode (f : FFmt) (rm : RMode) (sat neg : Bool) : Nat :=
  let toMax := sat || (match rm with
    | .rtz => true
    | .rdn => !neg
    | .rup => neg
    | _ => false)
  if toMax then f.sgn neg + f.maxFin else if f.ocp then f.nan else f.sgn neg + f.infCode

/-- Round a finite non-zero magnitude `m * 2^e` to the format (R44, R84). `m` must carry two bits more than the
format's precision where `sticky` is set. -/
def roundMag (f : FFmt) (rm : RMode) (sat neg : Bool) (m : Nat) (e : Int) (sticky : Bool) : FRes :=
  let msb : Int := e + (m.log2 : Int)
  let qn := msb - f.fw
  let q := max qn (f.emin - f.fw)
  let (n, inx) := roundAt rm neg m e sticky q
  let (n, q) := if n ≥ 2 ^ (f.fw + 1) then (n / 2, q + 1) else (n, q)
  let tooBig := decide (q + f.fw > f.emax) || (f.ocp && decide (q + f.fw = f.emax) && decide (n = 2 ^ (f.fw + 1) - 1))
  if tooBig then ⟨overflowCode f rm sat neg, flagOF ||| flagNX⟩
  else
    let code := if n < 2 ^ f.fw then n else ((q + f.fw + f.bias).toNat) * 2 ^ f.fw + (n - 2 ^ f.fw)
    let (nu, _) := roundAt rm neg m e sticky qn
    let tiny := decide (qn + f.fw + (if nu ≥ 2 ^ (f.fw + 1) then 1 else 0) < f.emin)
    ⟨f.sgn neg + code, if inx then (if tiny then flagUF ||| flagNX else flagNX) else 0⟩

/-- Code of a value in a format, rounded once (R84). `nv` flags of the operation are added by the caller. -/
def FFmt.enc (f : FFmt) (rm : RMode) (sat : Bool) : FVal → FRes
  | .nan s => ⟨f.nan, if s then flagNV else 0⟩
  | .inf neg =>
    if sat then ⟨f.sgn neg + f.maxFin, flagNX⟩
    else if f.ocp then ⟨f.nan, flagNV⟩ else ⟨f.sgn neg + f.infCode, 0⟩
  | .fin neg m e => if m = 0 then ⟨f.sgn neg, 0⟩ else roundMag f rm sat neg m e false

/-- A finite value as a signed multiple of a power of two. -/
def FVal.dy : FVal → Int × Int
  | .fin neg m e => (if neg then -(m : Int) else m, e)
  | _ => (0, 0)

def FVal.isNan : FVal → Bool
  | .nan _ => true
  | _ => false

def FVal.isSnan : FVal → Bool
  | .nan s => s
  | _ => false

def FVal.isInf : FVal → Bool
  | .inf _ => true
  | _ => false

def FVal.isZero : FVal → Bool
  | .fin _ 0 _ => true
  | _ => false

def FVal.sign : FVal → Bool
  | .nan _ => false
  | .inf n => n
  | .fin n _ _ => n

def FVal.negate : FVal → FVal
  | .nan s => .nan s
  | .inf n => .inf (!n)
  | .fin n m e => .fin (!n) m e

def FVal.abs : FVal → FVal
  | .nan s => .nan s
  | .inf _ => .inf false
  | .fin _ m e => .fin false m e

/-- `a * 2^ea + b * 2^eb`, exactly. -/
def dyAdd (a b : Int × Int) : Int × Int :=
  let e := min a.2 b.2
  (a.1 * 2 ^ (a.2 - e).toNat + b.1 * 2 ^ (b.2 - e).toNat, e)

/-- `a < b` of exact values. -/
def dyLt (a b : Int × Int) : Bool :=
  let e := min a.2 b.2
  decide (a.1 * 2 ^ (a.2 - e).toNat < b.1 * 2 ^ (b.2 - e).toNat)

/-- A signed dyadic as a value; `zneg` is the sign of a zero. -/
def FVal.ofDy (x : Int × Int) (zneg : Bool) : FVal :=
  if x.1 = 0 then .fin zneg 0 0 else .fin (x.1 < 0) x.1.natAbs x.2

/-- Numerical order of two values that are not NaN; -0 equals +0. -/
def FVal.lt (a b : FVal) : Bool :=
  match a, b with
  | .nan _, _ => false
  | _, .nan _ => false
  | .inf na, .inf nb => na && !nb
  | .inf na, .fin .. => na
  | .fin .., .inf nb => !nb
  | a, b => dyLt a.dy b.dy

def FVal.eq (a b : FVal) : Bool :=
  match a, b with
  | .nan _, _ => false
  | _, .nan _ => false
  | a, b => !(a.lt b) && !(b.lt a)

/-- Sum of two values under a rounding mode's rule for the sign of an exact zero (IEEE 754-2019 6.3). The Bool says
that the operation is invalid. -/
def FVal.add (rm : RMode) (a b : FVal) : FVal × Bool :=
  match a, b with
  | .nan _, _ => (.nan false, false)
  | _, .nan _ => (.nan false, false)
  | .inf na, .inf nb => if na = nb then (.inf na, false) else (.nan false, true)
  | .inf na, _ => (.inf na, false)
  | _, .inf nb => (.inf nb, false)
  | a, b =>
    let z := if a.isZero && b.isZero && (a.sign == b.sign) then a.sign else decide (rm = .rdn)
    (FVal.ofDy (dyAdd a.dy b.dy) z, false)

/-- Exact product. -/
def FVal.mul (a b : FVal) : FVal × Bool :=
  match a, b with
  | .nan _, _ => (.nan false, false)
  | _, .nan _ => (.nan false, false)
  | .inf na, b => if b.isZero then (.nan false, true) else (.inf (na != b.sign), false)
  | a, .inf nb => if a.isZero then (.nan false, true) else (.inf (a.sign != nb), false)
  | .fin na ma ea, .fin nb mb eb => (.fin (na != nb) (ma * mb) (ea + eb), false)

/-- NV of an operation: signalling operand (R80) or invalid operation. -/
def nvIf (b : Bool) : FFlags := if b then flagNV else 0

/-- Flush of a subnormal result (R82, R44). -/
def flushRes (f : FFmt) (ftz : Bool) (r : FRes) : FRes :=
  let ex := r.code / 2 ^ f.fw % 2 ^ f.ew
  let fr := r.code % 2 ^ f.fw
  if ftz && decide (ex = 0) && decide (fr ≠ 0) then
    ⟨r.code - fr, r.flags ||| flagUF ||| flagNX⟩
  else r

/-- Two-operand operation from its exact value. -/
def fin2 (f : FFmt) (rm : RMode) (ftz : Bool) (snan : Bool) (v : FVal × Bool) : FRes :=
  let r := flushRes f ftz (f.enc rm false v.1)
  ⟨r.code, r.flags ||| nvIf (snan || v.2)⟩

def fAdd (f : FFmt) (rm : RMode) (ftz : Bool) (x y : Nat) : FRes :=
  let a := f.dec x
  let b := f.dec y
  fin2 f rm ftz (a.isSnan || b.isSnan) (a.add rm b)

def fSub (f : FFmt) (rm : RMode) (ftz : Bool) (x y : Nat) : FRes :=
  let a := f.dec x
  let b := f.dec y
  fin2 f rm ftz (a.isSnan || b.isSnan) (a.add rm b.negate)

def fMul (f : FFmt) (rm : RMode) (ftz : Bool) (x y : Nat) : FRes :=
  let a := f.dec x
  let b := f.dec y
  fin2 f rm ftz (a.isSnan || b.isSnan) (a.mul b)

/-- Fused `x * y + z`, or `z - x * y` with `sub` (R145), rounded once. -/
def fFma (f : FFmt) (rm : RMode) (ftz sub : Bool) (x y z : Nat) : FRes :=
  let a := f.dec x
  let b := f.dec y
  let c := f.dec z
  let (p, bad) := a.mul b
  let p := if sub then p.negate else p
  let (s, bad2) := p.add rm c
  let quietThird := bad && c.isNan && !c.isSnan
  fin2 f rm ftz (a.isSnan || b.isSnan || c.isSnan) (s, (bad && (!quietThird || Config.fmaNanInvalid)) || bad2)

/-- Division: exact quotient to two bits beyond the precision, with a sticky trace. -/
def fDiv (f : FFmt) (rm : RMode) (ftz : Bool) (x y : Nat) : FRes :=
  let a := f.dec x
  let b := f.dec y
  let nv := nvIf (a.isSnan || b.isSnan)
  match a, b with
  | .nan _, _ => ⟨f.nan, nv⟩
  | _, .nan _ => ⟨f.nan, nv⟩
  | .inf na, .inf _ => let _ := na; ⟨f.nan, flagNV⟩
  | .inf na, .fin nb _ _ => ⟨f.sgn (na != nb) + f.infCode, 0⟩
  | .fin na _ _, .inf nb => ⟨f.sgn (na != nb), 0⟩
  | .fin na ma ea, .fin nb mb eb =>
    if mb = 0 then (if ma = 0 then ⟨f.nan, flagNV⟩ else ⟨f.sgn (na != nb) + f.infCode, flagDZ⟩)
    else if ma = 0 then ⟨f.sgn (na != nb), 0⟩
    else
      let k := f.fw + 4 + mb.log2
      let q := ma * 2 ^ k / mb
      let r := ma * 2 ^ k % mb
      flushRes f ftz (roundMag f rm false (na != nb) q (ea - eb - k) (r ≠ 0))

/-- Square root: integer root of the scaled significand, with a sticky trace. -/
def fSqrt (f : FFmt) (rm : RMode) (ftz : Bool) (x : Nat) : FRes :=
  match f.dec x with
  | .nan s => ⟨f.nan, nvIf s⟩
  | .inf neg => if neg then ⟨f.nan, flagNV⟩ else ⟨f.infCode, 0⟩
  | .fin neg m e =>
    if m = 0 then ⟨f.sgn neg, 0⟩
    else if neg then ⟨f.nan, flagNV⟩
    else
      let k := 2 * (f.fw + 3) + (if e % 2 = 0 then 0 else 1)
      let y := m * 2 ^ k
      let r := isqrt y
      flushRes f ftz (roundMag f rm false false r ((e - k) / 2) (r * r ≠ y))

/-- Minimum or maximum of R81: -0 below +0, the other operand for one NaN. -/
def fMinMax (f : FFmt) (ftz isMax : Bool) (x y : Nat) : FRes :=
  let a := f.dec x
  let b := f.dec y
  let nv := nvIf (a.isSnan || b.isSnan)
  let r :=
    if a.isNan then (if b.isNan then f.nan else y)
    else if b.isNan then x
    else
      let aLess := a.lt b || (a.isZero && b.isZero && a.sign && !b.sign)
      if isMax then (if aLess then y else x) else if aLess then x else y
  let res := flushRes f ftz ⟨r, 0⟩
  ⟨res.code, res.flags ||| nv⟩

/-- Conversion between formats (R84). -/
def fCvt (src dst : FFmt) (rm : RMode) (sat ftz : Bool) (x : Nat) : FRes :=
  flushRes dst ftz (dst.enc rm sat (src.dec x))

/-- Exact integer value of a rounding of a value to an integer. -/
def FVal.toInt (rm : RMode) : FVal → Int × Bool
  | .fin neg m e =>
    let (n, inx) := roundAt rm neg m e false 0
    (if neg then -(n : Int) else n, inx)
  | _ => (0, false)

/-- Conversion to a signed integer of `w` bits (R85): saturates; NaN gives 0; NV for NaN or saturation, else NX. -/
def fToInt (f : FFmt) (rm : RMode) (w : Nat) (x : Nat) : Int × FFlags :=
  let lo : Int := -(2 ^ (w - 1))
  let hi : Int := 2 ^ (w - 1) - 1
  match f.dec x with
  | .nan _ => (0, flagNV)
  | .inf neg => (if neg then lo else hi, flagNV)
  | v =>
    let (n, inx) := v.toInt rm
    if n < lo then (lo, flagNV) else if n > hi then (hi, flagNV) else (n, if inx then flagNX else 0)

/-- Conversion of an integer to a format. -/
def intToF (f : FFmt) (rm : RMode) (i : Int) : FRes := f.enc rm false (FVal.ofDy (i, 0) false)

/-- Quiet comparisons eq and un set NV only for a signalling NaN; lt and le for any NaN (R28). -/
inductive FCmp where
  | eq | lt | le | un
deriving DecidableEq, Repr

def fCompare (f : FFmt) (c : FCmp) (x y : Nat) : Bool × FFlags :=
  let a := f.dec x
  let b := f.dec y
  let anyNan := a.isNan || b.isNan
  let sn := a.isSnan || b.isSnan
  match c with
  | .eq => (a.eq b, nvIf sn)
  | .un => (anyNan, nvIf sn)
  | .lt => (a.lt b, nvIf anyNan)
  | .le => (!anyNan && !(b.lt a), nvIf anyNan)

/-- Exact sum of a list of values: NaN if any is NaN or both infinities occur. The Bool says invalid. An exact zero has
the sign of its terms where they agree, else that of IEEE 754-2019 6.3 (log 20). -/
def FVal.sum (rm : RMode) (l : List FVal) : FVal × Bool :=
  let anyNan := l.any FVal.isNan
  let pinf := l.any (fun v => v.isInf && !v.sign)
  let ninf := l.any (fun v => v.isInf && v.sign)
  if anyNan then (.nan false, pinf && ninf)
  else if pinf && ninf then (.nan false, true)
  else if pinf then (.inf false, false)
  else if ninf then (.inf true, false)
  else
    let zneg := if l.all (fun v => v.isZero && v.sign) then !l.isEmpty
      else if l.all (fun v => v.isZero && !v.sign) then false else decide (rm = .rdn)
    (FVal.ofDy (l.foldl (fun acc v => if v.isZero then acc else dyAdd acc v.dy) (0, 0)) zneg, false)

/-- floor of log2 of the magnitude of a finite non-zero value (R93). -/
def FVal.expo : FVal → Option Int
  | .fin _ m e => if m = 0 then none else some (e + (m.log2 : Int))
  | _ => none

end Sys2Proof
end

