-- ==== Sys2Proof/Syntax.lean ====
section
/-! DEFINITION. The commands of the block (one constructor per row of spec/opcode_table.json) and the operand types
they carry. -/

namespace Sys2Proof

/-- Register tags (R25). Values 0b1000-0b1101 and 0b1111 are reserved and no instruction produces them. -/
inductive Tag where
  | int | fp64 | ptr | desc | pend | pred | ret | smry | inval
deriving DecidableEq, Repr

/-- What a parity check found on the item an event moves (R229, R230). -/
inductive Parity where
  /-- Good parity. -/
  | ok
  /-- An error with a clean copy: replayed or fetched again, counted, invisible. -/
  | replayed
  /-- An error with no clean copy, or after the last replay, in the item's 32-bit word of this number: unrecoverable. -/
  | lost (word : Nat)
deriving DecidableEq, Repr

/-- The severity a stack reports with a read (R231, R232). -/
inductive EccSev where
  | clean | corrected | uncorrectable
deriving DecidableEq, Repr

/-- Rails whose windows are watched (R306). -/
inductive Rail where
  | vcore | vsram | vhbm | vser | vkeep | vaon
deriving DecidableEq, Repr

/-- The three rings a function's registers name (R311). -/
inductive RingSel where
  | sq | cq | evq
deriving DecidableEq, Repr

/-- Where a register write lands: an offset of the control and status range (R211) or of BAR 0 of a function at an
endpoint (R311). -/
inductive RegTarget where
  | ctl (off : Nat)
  | bar (ep f off : Nat)
deriving DecidableEq, Repr

/-- What the loops of R302 read of a die: the highest step each limit allows, and the sensors. -/
structure LoopReading where
  voltMHz : Nat
  thermMHz : Nat
  capMHz : Nat
  ceilMHz : Nat
  vcoreMv : Nat
  temp : Nat
deriving DecidableEq, Repr

/-- A firmware image as the boot ROM judges it (R366): its version, whether its signature verifies, the vendor key it
names, and its size in bytes. -/
structure Image where
  version : Nat
  sigOk : Bool
  key : Nat
  size : Nat
deriving DecidableEq, Repr

/-- Packet types (R271). -/
inductive PType where
  | data | exp | lanes | verdict | greq | cellar | beacon | link | ackf | reserved
deriving DecidableEq, Repr

/-- The collective sub-header (R271). -/
structure SubHdr where
  gid : Nat
  attempt : Nat
  blk : Nat
  nblk : Nat
  ncon : Nat
  owner : Nat
deriving DecidableEq, Repr

/-- A VX64 block on the wire: 64 lanes with residues, NANF and EXP (R92, R252). -/
structure VxBlock where
  lanes : List Word
  res : List (BitVec 7)
  nanf : Bool
  exp : BitVec 16
deriving DecidableEq, Repr

/-- The HELLO record (R275). -/
structure Hello where
  devid : BitVec 20
  valid : Bool
  port : BitVec 5
  build : BitVec 2
  rev : BitVec 4
  lepoch : BitVec 32
  serial : Word
deriving DecidableEq, Repr

/-- Outcomes that members and owners send one another (R245, R252, R255, R352). -/
inductive Verdict where
  /-- A bucket ended with this status at its owner. -/
  | bucket (status : Nat)
  /-- A member issued CLOSE with this NBKT; `good` says that every bucket it owns ended DONE. -/
  | close (nbkt : Nat) (good : Bool) (member : Nat)
  /-- The binding of a cellar group member stopped. -/
  | rollback (member : Nat)
  /-- A member's parameters of a bucket, where no exponent record carries them: ELEMS, ROP, CRC of the split, SFMT. -/
  | params (elems rop : Nat) (crc : BitVec 32) (sfmt member : Nat)
  /-- No gate of R350 holds a CLOSE at this observer. -/
  | ready (member : Nat)
deriving DecidableEq, Repr

/-- Requests between engines (R258-R261). -/
inductive GReq where
  /-- `pgather`: planes wanted, arrival format, VERIFY, requester's command. -/
  | gather (gid shard planes : Nat) (verify : Bool) (cmd : Nat)
  /-- The requester's answer: the shard has never been published. -/
  | noShard (cmd : Nat)
  /-- A receive was posted: group, receiver's member index, tag, bytes, receiver's command. -/
  | recv (gid member tag bytes cmd : Nat)
  /-- A send was posted. -/
  | send (gid member tag bytes cmd : Nat)
  /-- A receive ended LATE and is withdrawn. -/
  | withdraw (gid member cmd : Nat)
  /-- The receiver has written the bytes of a match. -/
  | moved (cmd bytes : Nat) (trunc : Bool)
deriving DecidableEq, Repr

/-- What a packet carries after its header (R271). -/
inductive Payload where
  | bytes (l : List Byte)
  /-- A stamp with the copy's format and planes and the bytes that follow. -/
  | stamp (l : List Byte) (nfmt planes len : Nat)
  | exps (sub : SubHdr) (crc : BitVec 32) (elems rop : Nat) (l : List (BitVec 16))
  | lanes (sub : SubHdr) (l : List VxBlock)
  | verdict (gid attempt : Nat) (v : Verdict)
  | greq (q : GReq)
  | beacon (fepoch : BitVec 32) (orig : BitVec 20) (fclass : BitVec 8)
  | hello (x : Hello)
  /-- Lane-rotation control: the lane whose role moves to the spare, and the flit from which it does (R269). -/
  | rotate (lane : Nat) (at' : BitVec 12)
  | none
deriving DecidableEq, Repr

/-- A packet (R271). -/
structure Packet where
  ddev : BitVec 20
  sdev : BitVec 20
  dbind : Nat
  sbind : Nat
  ptype : PType
  hidx : Nat
  path : Nat
  cong : Bool
  hops : List Nat
  rw2 : Word
  psn : BitVec 16
  xtag : BitVec 16
  ecrc : BitVec 32
  body : Payload
deriving DecidableEq, Repr

/-- A link flit (R266): the control word, whether its CRC-64 matches (the spec names no polynomial; log 32), the lane an
error lies on, and the 240 content bytes. -/
structure Flit where
  seq : BitVec 12
  ack : BitVec 12
  nak : Bool
  cvc : BitVec 2
  cret : BitVec 5
  crcOk : Bool
  lane : Nat
  content : List Byte
deriving DecidableEq, Repr

/-- The TYPE class of a flow (R272). -/
inductive FlowClass where
  | dataGreq | verdict | cellar
deriving DecidableEq, Repr

/-- A flow (R272), seen from this device: the local binding, the remote device and binding, and the class. -/
structure FlowKey where
  local' : Nat
  dev : BitVec 20
  bind : Nat
  cls : FlowClass
deriving DecidableEq, Repr

/-- How the repair of a unit ended (R357, R358). -/
inductive RepairKind where
  /-- A spare core took the core number. -/
  | core
  /-- A spare HBM lane took over data lane `lane`. -/
  | hbmLane (lane : Nat)
  /-- The port's spare lane became permanent in place of `lane`. -/
  | fabricLane (lane : Nat)
  /-- A spare half-link lane took over. -/
  | halfLinkLane
  /-- An L2 line frame was retired. -/
  | l2Frame
  /-- The unit is of a class without a spare (R358), or needs no repair (R361). -/
  | nothing
deriving DecidableEq, Repr


/-- The commands: one constructor per row of spec/opcode_table.json, in its order. An instruction row names the
hardware thread (global number, R14) and the 64-bit word it issues; the word's fields are read as R32, R33 say. -/
inductive Instr where
  /-- NOP: R50. -/
  | nop (g : Nat) (w : Word)
  /-- LI: R50. -/
  | li (g : Nat) (w : Word)
  /-- ADD: R28. -/
  | add (g : Nat) (w : Word)
  /-- SUB: R28. -/
  | sub (g : Nat) (w : Word)
  /-- AND: R28. -/
  | andI (g : Nat) (w : Word)
  /-- OR: R28. -/
  | orI (g : Nat) (w : Word)
  /-- XOR: R28. -/
  | xorI (g : Nat) (w : Word)
  /-- SHL: R28. -/
  | shl (g : Nat) (w : Word)
  /-- SHR: R28. -/
  | shr (g : Nat) (w : Word)
  /-- SRA: R28. -/
  | sra (g : Nat) (w : Word)
  /-- MIN: R28. -/
  | minI (g : Nat) (w : Word)
  /-- MAX: R28. -/
  | maxI (g : Nat) (w : Word)
  /-- SEL: R28. -/
  | sel (g : Nat) (w : Word)
  /-- MOV: R46. -/
  | mov (g : Nat) (w : Word)
  /-- TAGOF: R28. -/
  | tagof (g : Nat) (w : Word)
  /-- MUL: R36. -/
  | mul (g : Nat) (w : Word)
  /-- MULH: R36. -/
  | mulh (g : Nat) (w : Word)
  /-- MULHU: R36. -/
  | mulhu (g : Nat) (w : Word)
  /-- DIV: R28. -/
  | div (g : Nat) (w : Word)
  /-- DIVU: R28. -/
  | divu (g : Nat) (w : Word)
  /-- REM: R37. -/
  | rem (g : Nat) (w : Word)
  /-- REMU: R37. -/
  | remu (g : Nat) (w : Word)
  /-- FADD: R28. -/
  | fadd (g : Nat) (w : Word)
  /-- FSUB: R28. -/
  | fsub (g : Nat) (w : Word)
  /-- FMUL: R28. -/
  | fmul (g : Nat) (w : Word)
  /-- FFMA: R33. -/
  | ffma (g : Nat) (w : Word)
  /-- FMIN: R81. -/
  | fmin (g : Nat) (w : Word)
  /-- FMAX: R81. -/
  | fmax (g : Nat) (w : Word)
  /-- FDIV: R37. -/
  | fdiv (g : Nat) (w : Word)
  /-- FSQRT: R37. -/
  | fsqrt (g : Nat) (w : Word)
  /-- CMP: R28. -/
  | cmp (g : Nat) (w : Word)
  /-- FCMP: R28. -/
  | fcmp (g : Nat) (w : Word)
  /-- PAND: R28. -/
  | pand (g : Nat) (w : Word)
  /-- POR: R28. -/
  | por (g : Nat) (w : Word)
  /-- PNOT: R28. -/
  | pnot (g : Nat) (w : Word)
  /-- MKPTR: R28. -/
  | mkptr (g : Nat) (w : Word)
  /-- PTRINT: R28. -/
  | ptrint (g : Nat) (w : Word)
  /-- FBITS: R28. -/
  | fbits (g : Nat) (w : Word)
  /-- BITSF: R28. -/
  | bitsf (g : Nat) (w : Word)
  /-- ITOF: R28. -/
  | itof (g : Nat) (w : Word)
  /-- FTOI: R85. -/
  | ftoi (g : Nat) (w : Word)
  /-- SMV: R160. -/
  | smv (g : Nat) (w : Word)
  /-- B: R45. -/
  | b (g : Nat) (w : Word)
  /-- BT: R45. -/
  | bt (g : Nat) (w : Word)
  /-- BF: R45. -/
  | bf (g : Nat) (w : Word)
  /-- CALL: R46. -/
  | call (g : Nat) (w : Word)
  /-- CALLR: R46. -/
  | callr (g : Nat) (w : Word)
  /-- JR: R46. -/
  | jr (g : Nat) (w : Word)
  /-- RET: R75. -/
  | ret (g : Nat) (w : Word)
  /-- LD: R222. -/
  | ld (g : Nat) (w : Word)
  /-- LDF: R30. -/
  | ldf (g : Nat) (w : Word)
  /-- LDP: R30. -/
  | ldp (g : Nat) (w : Word)
  /-- LDT: R30. -/
  | ldt (g : Nat) (w : Word)
  /-- ST: R30. -/
  | st (g : Nat) (w : Word)
  /-- STT: R30. -/
  | stt (g : Nat) (w : Word)
  /-- AMO: R223. -/
  | amo (g : Nat) (w : Word)
  /-- MBAR: R225. -/
  | mbar (g : Nat) (w : Word)
  /-- TCFG: R106. -/
  | tcfg (g : Nat) (w : Word)
  /-- TLD: R113. -/
  | tld (g : Nat) (w : Word)
  /-- TLDC: R113. -/
  | tldc (g : Nat) (w : Word)
  /-- TST: R117. -/
  | tst (g : Nat) (w : Word)
  /-- TSB: R125. -/
  | tsb (g : Nat) (w : Word)
  /-- TSHIFT: R127. -/
  | tshift (g : Nat) (w : Word)
  /-- TMMA: R122. -/
  | tmma (g : Nat) (w : Word)
  /-- TZERO: R119. -/
  | tzero (g : Nat) (w : Word)
  /-- TREL: R118. -/
  | trel (g : Nat) (w : Word)
  /-- TWAIT: R120. -/
  | twait (g : Nat) (w : Word)
  /-- VLD: R143. -/
  | vld (g : Nat) (w : Word)
  /-- VST: R143. -/
  | vst (g : Nat) (w : Word)
  /-- VMOV: R145. -/
  | vmov (g : Nat) (w : Word)
  /-- VBCAST: R145. -/
  | vbcast (g : Nat) (w : Word)
  /-- VADD: R148. -/
  | vadd (g : Nat) (w : Word)
  /-- VSUB: R145. -/
  | vsub (g : Nat) (w : Word)
  /-- VMUL: R145. -/
  | vmul (g : Nat) (w : Word)
  /-- VFMA: R145. -/
  | vfma (g : Nat) (w : Word)
  /-- VMULW: R146. -/
  | vmulw (g : Nat) (w : Word)
  /-- VDOTW: R146. -/
  | vdotw (g : Nat) (w : Word)
  /-- VCVT: R147. -/
  | vcvt (g : Nat) (w : Word)
  /-- VRED: R145. -/
  | vred (g : Nat) (w : Word)
  /-- VCHAIN: R151. -/
  | vchain (g : Nat) (w : Word)
  /-- VFLOW: R152. -/
  | vflow (g : Nat) (w : Word)
  /-- TDESC: R172. -/
  | tdesc (g : Nat) (w : Word)
  /-- DINFO: R188. -/
  | dinfo (g : Nat) (w : Word)
  /-- DINFO_RETIRE: R166. -/
  | dinfoRetire (g : Nat) (w : Word)
  /-- DGTH: R180. -/
  | dgth (g : Nat) (w : Word)
  /-- DSCT: R180. -/
  | dsct (g : Nat) (w : Word)
  /-- PGATHER: R258. -/
  | pgather (g : Nat) (w : Word)
  /-- CBKT_OPEN: R243. -/
  | cbktOpen (g : Nat) (w : Word)
  /-- CBKT_BUCKET: R247. -/
  | cbktBucket (g : Nat) (w : Word)
  /-- CBKT_CLOSE: R245. -/
  | cbktClose (g : Nat) (w : Word)
  /-- CBKT_PUBLISH: R257. -/
  | cbktPublish (g : Nat) (w : Word)
  /-- CSEND: R261. -/
  | csend (g : Nat) (w : Word)
  /-- CRECV: R261. -/
  | crecv (g : Nat) (w : Word)
  /-- AWAIT: R39. -/
  | await (g : Nat) (w : Word)
  /-- TKPOLL: R39. -/
  | tkpoll (g : Nat) (w : Word)
  /-- REP: R48. -/
  | rep (g : Nat) (w : Word)
  /-- REPI: R48. -/
  | repi (g : Nat) (w : Word)
  /-- MSET: R43. -/
  | mset (g : Nat) (w : Word)
  /-- CSRR: R49. -/
  | csrr (g : Nat) (w : Word)
  /-- CSRW: R49. -/
  | csrw (g : Nat) (w : Word)
  /-- IFENCE: R52. -/
  | ifence (g : Nat) (w : Word)
  /-- ECALL: R57. -/
  | ecall (g : Nat) (w : Word)
  /-- BRK: R59. -/
  | brk (g : Nat) (w : Word)
  /-- ERET: R76. -/
  | eret (g : Nat) (w : Word)
  /-- TEND: R21. -/
  | tend (g : Nat) (w : Word)
  /-- FIXED_RESULT_COMMIT: R36. -/
  | fixedResultCommit (g : Nat)
  /-- REPEAT_ITERATION: R48. -/
  | repeatIteration (g : Nat) (w : Word)
  /-- FETCH_RETURN: R23. -/
  | fetchReturn (g : Nat) (par : Parity)
  /-- TICKET_COMPLETE: R37. -/
  | ticketComplete (g tk : Nat)
  /-- TICKET_FAULT: R40. -/
  | ticketFault (g tk : Nat)
  /-- TEND_COMPLETE: R21. -/
  | tendComplete (g : Nat)
  /-- TRAP_ENTRY: R69. -/
  | trapEntry (g : Nat) (par : Parity)
  /-- INTERRUPT_TAKEN: R74. -/
  | interruptTaken (g : Nat)
  /-- TIMER_COMPARE: R307. -/
  | timerCompare (g : Nat)
  /-- VECTOR_OP_START: R140. -/
  | vectorOpStart (c : Nat)
  /-- TILE_QUEUE_EXECUTE: R108. -/
  | tileQueueExecute (c : Nat) (par : Parity)
  /-- TILE_INSTRUCTION_COMPLETE: R109. -/
  | tileInstructionComplete (c : Nat)
  /-- CHAIN_QUEUE_EXECUTE: R150. -/
  | chainQueueExecute (c : Nat) (par : Parity)
  /-- VCHAIN_COMPLETE: R151. -/
  | vchainComplete (c : Nat)
  /-- VFLOW_COMPLETE: R152. -/
  | vflowComplete (c : Nat)
  /-- DESCRIPTOR_QUEUE_EXECUTE: R180. -/
  | descriptorQueueExecute (c : Nat) (par : Parity)
  /-- TRANSLATION_WALK_READ: R212. -/
  | translationWalkRead (g tk : Nat) (par : Parity)
  /-- MEM_ACCESS_PERFORMED: R217. -/
  | memAccessPerformed (g tk : Nat) (par : Parity)
  /-- L1_LINE_FILL: R215. -/
  | l1LineFill (c line : Nat) (par : Parity)
  /-- CROSS_HALF_ACCESS_TIMEOUT: R297. -/
  | crossHalfAccessTimeout (g tk : Nat)
  /-- MESH_FLIT_RECEIVE: R229. -/
  | meshFlitReceive (g tk : Nat) (good : Bool)
  /-- HBM_READ_RETURN: R232. -/
  | hbmReadReturn (n line : Nat) (sev : EccSev) (lane : Option Nat)
  /-- HBM_REFRESH: R231. -/
  | hbmRefresh (n : Nat) (bank : Nat)
  /-- FABRIC_FLIT_RECEIVE: R268. -/
  | fabricFlitReceive (p : Nat) (f : Flit)
  /-- PORT_RETRAIN_COMPLETE: R268. -/
  | portRetrainComplete (p : Nat) (bad : Option Nat)
  /-- SPARE_LANE_ROTATION: R269. -/
  | spareLaneRotation (p : Nat) (good : Bool)
  /-- PACKET_INJECT: R281. -/
  | packetInject (h i : Nat)
  /-- PACKET_FORWARD: R283. -/
  | packetForward (p : Nat)
  /-- DATA_RECEIVE: R273. -/
  | dataReceive (p : Nat)
  /-- EXP_RECEIVE: R252. -/
  | expReceive (p : Nat)
  /-- AGREED_EXPONENT_RECEIVE: R251. -/
  | agreedExponentReceive (p : Nat)
  /-- LANES_RECEIVE: R252. -/
  | lanesReceive (p : Nat)
  /-- VERDICT_RECEIVE: R245. -/
  | verdictReceive (p : Nat)
  /-- GREQ_RECEIVE: R260. -/
  | greqReceive (p : Nat)
  /-- CELLAR_RECEIVE: R273. -/
  | cellarReceive (p : Nat)
  /-- BEACON_RECEIVE: R286. -/
  | beaconReceive (p : Nat)
  /-- BEACON_KEY_TIMEOUT: R286. -/
  | beaconKeyTimeout (h i : Nat)
  /-- HELLO_SEND: R275. -/
  | helloSend (p : Nat)
  /-- HELLO_RECEIVE: R275. -/
  | helloReceive (p : Nat)
  /-- ACKF_RECEIVE: R272. -/
  | ackfReceive (p : Nat)
  /-- ACKF_SEND: R272. -/
  | ackfSend (fl : FlowKey)
  /-- PACKET_RETRANSMIT_TIMEOUT: R272. -/
  | packetRetransmitTimeout (fl : FlowKey) (psn : Nat)
  /-- PORT_OUTPUT_STALL_TIMEOUT: R282. -/
  | portOutputStallTimeout (p : Nat)
  /-- PORT_DRAINED_END: R282. -/
  | portDrainedEnd (p : Nat)
  /-- QUEUE_DEPTH_SAMPLE: R305. -/
  | queueDepthSample (h : Nat)
  /-- EQUALISER_ADAPT: R304. -/
  | equaliserAdapt (p lane : Nat) (up : Bool)
  /-- PORT_TRAINING_COMPLETE: R371. -/
  | portTrainingComplete (p : Nat) (lanes : BitVec 5)
  /-- PORT_TRAINING_RETRY: R371. -/
  | portTrainingRetry (p : Nat)
  /-- HEARTBEAT_SEND: R290. -/
  | heartbeatSend (h : Nat)
  /-- HEARTBEAT_RECEIVE: R294. -/
  | heartbeatReceive (h : Nat) (good : Bool)
  /-- HEARTBEAT_TIMEOUT: R293. -/
  | heartbeatTimeout (h : Nat)
  /-- HALF_LINK_FLIT_RECEIVE: R289. -/
  | halfLinkFlitReceive (h : Nat) (good : Bool) (c : Option Nat)
  /-- HALF_LINK_RETRAIN_COMPLETE: R289. -/
  | halfLinkRetrainComplete
  /-- HALF_LINK_DOWN_TIMEOUT: R289. -/
  | halfLinkDownTimeout
  /-- HALF_LINK_UP: R296. -/
  | halfLinkUp
  /-- HALF_LINK_TRAINING_COMPLETE: R371. -/
  | halfLinkTrainingComplete (good : Bool)
  /-- JOURNAL_ENTRY_RECEIVE: R291. -/
  | journalEntryReceive (h : Nat)
  /-- JOURNAL_ACK_RECEIVE: R291. -/
  | journalAckReceive (h : Nat)
  /-- COMPLETION_RECORD_RECEIVE: R292. -/
  | completionRecordReceive (h : Nat)
  /-- CORE_FREQUENCY_LOOP: R302. -/
  | coreFrequencyLoop (d : Nat) (r : LoopReading)
  /-- DROOP_TRIP: R302. -/
  | droopTrip (d : Nat)
  /-- DROOP_STRETCH_END: R302. -/
  | droopStretchEnd (d : Nat)
  /-- THERMAL_LOOP: R302. -/
  | thermalLoop (d temp : Nat)
  /-- POWER_CAP_LOOP: R302. -/
  | powerCapLoop (h watts : Nat)
  /-- THERMAL_TRIP: R303. -/
  | thermalTrip (d : Nat)
  /-- THERMAL_TRIP_TIMEOUT: R303. -/
  | thermalTripTimeout (d temp : Nat)
  /-- VIN_WARNING: R306. -/
  | vinWarning (mv : Nat)
  /-- VIN_LOSS_TIMEOUT: R306. -/
  | vinLossTimeout (mv : Nat)
  /-- RAIL_FAULT: R306. -/
  | railFault (r : Rail) (n : Nat)
  /-- POWER_UP: R364. -/
  | powerUp (mv : Nat)
  /-- KEEPER_BOOT: R366. -/
  | keeperBoot (h k : Nat)
  /-- HBM_TRAINING_COMPLETE: R371. -/
  | hbmTrainingComplete (n : Nat) (good : Bool)
  /-- KUWICK_READY: R364. -/
  | kuwickReady (h : Nat)
  /-- ENDPOINT_LINK_TRAINED: R365. -/
  | endpointLinkTrained (h : Nat)
  /-- PWR_EN_LOW: R364. -/
  | pwrEnLow (h : Nat)
  /-- PWR_EN_HIGH: R364. -/
  | pwrEnHigh (h : Nat)
  /-- CLIP_PRESENCE_BREAK: R372. -/
  | clipPresenceBreak
  /-- MODULE_RESET: R360. -/
  | moduleReset (us : Nat)
  /-- HALF_RESET: R360. -/
  | halfReset (h us : Nat)
  /-- KEEPER_RESET: R330. -/
  | keeperReset (h k : Nat)
  /-- KEEPER_STANDBY_RETURN: R330. -/
  | keeperStandbyReturn (h : Nat) (good : Bool)
  /-- NO_KEEPER_TIMEOUT: R360. -/
  | noKeeperTimeout (h : Nat)
  /-- ENDPOINT_RESET: R360. -/
  | endpointReset (h : Nat)
  /-- FUNCTION_LEVEL_RESET: R363. -/
  | functionLevelReset (n : Nat)
  /-- SMBUS_TELEMETRY: R375. -/
  | smbusTelemetry (h : Nat) (pec : Bool) (mv watts : Nat)
  /-- SMBUS_FAULT_RECORDS: R375. -/
  | smbusFaultRecords (h : Nat) (pec : Bool)
  /-- SMBUS_RESET_HALF: R375. -/
  | smbusResetHalf (h : Nat) (pec : Bool)
  /-- SMBUS_RESET_MODULE: R375. -/
  | smbusResetModule (pec : Bool)
  /-- SMBUS_RECOVERY_IMAGE_WRITE: R367. -/
  | smbusRecoveryImageWrite (h : Nat) (pec : Bool) (im : Image)
  /-- SMBUS_DEVICE_KEY: R370. -/
  | smbusDeviceKey (h : Nat) (pec : Bool)
  /-- SMBUS_OWNER_KEY: R370. -/
  | smbusOwnerKey (h : Nat) (pec : Bool) (wrapped : List Byte)
  /-- JTAG_BYPASS: R376. -/
  | jtagBypass (h : Nat)
  /-- JTAG_IDCODE: R376. -/
  | jtagIdcode (h : Nat)
  /-- JTAG_SAMPLE_PRELOAD: R376. -/
  | jtagSamplePreload (h : Nat)
  /-- JTAG_EXTEST: R376. -/
  | jtagExtest (h : Nat)
  /-- KW_SQ_TAIL_WRITE: R311. -/
  | kwSqTailWrite (ep f : Nat) (v : Word)
  /-- RING_ENABLE: R312. -/
  | ringEnable (ep f : Nat) (r : RingSel)
  /-- RING_DISABLE: R312. -/
  | ringDisable (ep f : Nat) (r : RingSel)
  /-- SQ_ENTRY_READ: R316. -/
  | sqEntryRead (h f : Nat) (entry buf : List Byte)
  /-- COMMAND_FINAL: R327. -/
  | commandFinal (f seq : Nat)
  /-- NOP_COMMAND: R321. -/
  | nopCommand (f seq : Nat)
  /-- QUERY: R321. -/
  | query (f seq : Nat)
  /-- LAUNCH: R323. -/
  | launch (f seq : Nat)
  /-- ABORT: R331. -/
  | abort (f seq : Nat)
  /-- IRQ_SET: R325. -/
  | irqSet (f seq : Nat)
  /-- RACK: R191. -/
  | rack (f seq : Nat)
  /-- PARTNER_LOAD: R279. -/
  | partnerLoad (f seq : Nat)
  /-- GROUP_SET: R238. -/
  | groupSet (f seq : Nat)
  /-- PREEMPT: R335. -/
  | preempt (f seq : Nat)
  /-- RESUME: R335. -/
  | resume (f seq : Nat)
  /-- CELLAR_GRANT: R346. -/
  | cellarGrant (f seq : Nat)
  /-- CELLAR_CLIENT: R346. -/
  | cellarClient (f seq : Nat)
  /-- CELLAR_REVOKE: R346. -/
  | cellarRevoke (f seq : Nat)
  /-- MAP: R336. -/
  | mapC (f seq : Nat)
  /-- BIND: R332. -/
  | bind (f seq : Nat)
  /-- REBIND: R332. -/
  | rebind (f seq : Nat)
  /-- UNBIND: R332. -/
  | unbind (f seq : Nat)
  /-- PRIMACY_SET at half `h`: its first sample of HOLD, or with `late` the one eight AON cycles later. R295. -/
  | primacySet (h seq : Nat) (late : Bool)
  /-- FABRIC_ID_SET: R274. -/
  | fabricIdSet (f seq : Nat)
  /-- KEY_SET: R319. -/
  | keySet (f seq : Nat)
  /-- KEY_CLEAR: R319. -/
  | keyClear (f seq : Nat)
  /-- EVENT_CFG: R301. -/
  | eventCfg (f seq : Nat)
  /-- SELFTEST: R337. -/
  | selftest (f seq : Nat) (r : Option Word)
  /-- SELFTEST_SPARE_OK: R337. -/
  | selftestSpareOk (f seq : Nat) (r : Option Word)
  /-- RESTORE: R358. -/
  | restore (f seq : Nat)
  /-- FW_UPDATE: R368. -/
  | fwUpdate (f seq : Nat) (im : Image)
  /-- REGISTER_WRITE: R4. -/
  | registerWrite (t : RegTarget) (v : Word)
  /-- CR_EPC_WRITE: R60. -/
  | crEpcWrite (g : Nat) (tag : Tag) (v : Word)
  /-- CR_ESTAT_WRITE: R63. -/
  | crEstatWrite (g : Nat) (v : Word)
  /-- CR_FFLAGS_WRITE: R44. -/
  | crFflagsWrite (g : Nat) (v : Word)
  /-- TL_STAT_READ: R126. -/
  | tlStatRead (c : Nat)
  /-- TL_STAT_WRITE: R126. -/
  | tlStatWrite (c : Nat) (v : Word)
  /-- VC_STAT_READ: R149. -/
  | vcStatRead (c : Nat)
  /-- DS_OOBCNT_READ: R189. -/
  | dsOobcntRead (c : Nat)
  /-- MC_STALL_READ: R235. -/
  | mcStallRead (c eng cause : Nat)
  /-- MC_STALLCTL_CLR: R235. -/
  | mcStallctlClr (c : Nat) (v : Word)
  /-- MC_PARCNT_READ: R235. -/
  | mcParcntRead (c : Nat)
  /-- HB_STAT_READ: R236. -/
  | hbStatRead (n : Nat)
  /-- CE_BUCKET_WRITE: R263. -/
  | ceBucketWrite (g : Nat) (v : Word)
  /-- CE_STAT_READ: R263. -/
  | ceStatRead (b h : Nat)
  /-- SK_RXERR_READ: R287. -/
  | skRxerrRead (b h : Nat)
  /-- SK_BCN_READ: R287. -/
  | skBcnRead (h : Nat)
  /-- SK_LINKERR_READ: R287. -/
  | skLinkerrRead (p : Nat)
  /-- HL_EVENT_WRITE: R307. -/
  | hlEventWrite (h : Nat) (v : Word)
  /-- PW_EVENT_WRITE: R307. -/
  | pwEventWrite (h : Nat) (v : Word)
  /-- PW_TCMP_WRITE: R307. -/
  | pwTcmpWrite (g : Nat) (v : Word)
  /-- KW_DBSTAT_READ: R341. -/
  | kwDbstatRead (c : Nat)
  /-- COLLECTIVE_SLOT_DEQUEUE: R242. -/
  | collectiveSlotDequeue (c : Nat)
  /-- BUCKET_DEQUEUE: R251. -/
  | bucketDequeue (h n : Nat)
  /-- BUCKET_WINDOW_EXPIRY: R255. -/
  | bucketWindowExpiry (h n : Nat)
  /-- CLOSE_WINDOW_EXPIRY: R245. -/
  | closeWindowExpiry (h n : Nat)
  /-- POST_WINDOW_EXPIRY: R261. -/
  | postWindowExpiry (h n : Nat)
  /-- GATHER_WINDOW_EXPIRY: R260. -/
  | gatherWindowExpiry (h n : Nat)
  /-- PUBLISH_PROCEED: R257. -/
  | publishProceed (h n : Nat)
  /-- SNAPSHOT_START: R349. -/
  | snapshotStart (b : Nat) (step : Word)
  /-- CAPTURE_COMPLETE: R350. -/
  | captureComplete (b : Nat)
  /-- DRAIN_COMPLETE: R348. -/
  | drainComplete (b : Nat)
  /-- BINDING_STOP: R352. -/
  | bindingStop (u : BitVec 16)
  /-- ROLLBACK_NOTICE_RECEIVE: R352. -/
  | rollbackNoticeReceive (p : Nat)
  /-- REPAIR_COMPLETE: R357. -/
  | repairComplete (u : BitVec 16) (r : RepairKind)
  /-- LSTEP_AGREEMENT: R353. -/
  | lstepAgreement (b : Nat) (others : List Nat)
  /-- RESTORE_COMPLETE: R354. -/
  | restoreComplete (b : Nat)
  /-- HALF_RESET_RELEASE: R360. -/
  | halfResetRelease (h : Nat)
  /-- MODULE_RESET_RELEASE: R360. -/
  | moduleResetRelease
  /-- DEFERRED_SELFTEST_RESULT: R337. -/
  | deferredSelftestResult (u : BitVec 16) (r : Option Word)
deriving DecidableEq, Repr

end Sys2Proof
end

