-- ==== Sys2Proof/Decode.lean ====
section
/-! DEFINITION. The fields of an instruction word (R32-R35, R50, R51) and the row of the table a word belongs to.
The table gives no row any bits, so `decodeTableWord` answers none. -/

namespace Sys2Proof

/-- The operation a word or a slot names: one constructor per instruction row. -/
inductive Op where
  | nop | li | add | sub | andI | orI | xorI | shl | shr | sra | minI | maxI | sel | mov | tagof
  | mul | mulh | mulhu | div | divu | rem | remu
  | fadd | fsub | fmul | ffma | fmin | fmax | fdiv | fsqrt
  | cmp | fcmp | pand | por | pnot | mkptr | ptrint | fbits | bitsf | itof | ftoi | smv
  | b | bt | bf | call | callr | jr | ret
  | ld | ldf | ldp | ldt | st | stt | amo | mbar
  | tcfg | tld | tldc | tst | tsb | tshift | tmma | tzero | trel | twait
  | vld | vst | vmov | vbcast | vadd | vsub | vmul | vfma | vmulw | vdotw | vcvt | vred
  | vchain | vflow
  | tdesc | dinfo | dinfoRetire | dgth | dsct
  | pgather | cbktOpen | cbktBucket | cbktClose | cbktPublish | csend | crecv
  | await | tkpoll | rep | repi | mset | csrr | csrw | ifence | ecall | brk | eret | tend
deriving DecidableEq, Repr

/-- The forms of a long word, and the two slots of a paired word (R32, R33). -/
inductive Form where
  | li | lr | lb | sr | si
deriving DecidableEq, Repr

/-- The fields of one operation. `fn` is fn8 (fn10[7:0] in a slot), `imm` the sign-extended immediate of the LI and SI
forms, `off` the branch offset in words; `sm` says that rs1 names a summary register (R160); `bad` that the encoding
itself is illegal. -/
structure Fields where
  op : Op
  form : Form
  rd : Nat
  rs1 : Nat
  rs2 : Nat
  rs3 : Nat
  tk : Nat
  fn : Nat
  x24 : Nat
  imm : Word
  off : Word
  sm : Bool
  bad : Bool
deriving DecidableEq, Repr

/-- The ALU immediate functions of opcode 0x17, in order (R50). -/
def aluImmOps : List Op := [.add, .sub, .andI, .orI, .xorI, .shl, .shr, .sra, .minI, .maxI]

/-- The opcode ranges of R50 in order: first value and mnemonics. -/
def longOps : List (Nat × List Op) :=
  [(0x01, [.nop, .li, .add, .sub, .andI, .orI, .xorI, .shl, .shr, .sra, .minI, .maxI, .sel, .mov, .tagof]),
   (0x10, [.mul, .mulh, .mulhu, .div, .divu, .rem, .remu]),
   (0x18, [.fadd, .fsub, .fmul, .ffma, .fmin, .fmax, .fdiv, .fsqrt]),
   (0x20, [.cmp, .fcmp, .pand, .por, .pnot, .mkptr, .ptrint, .fbits, .bitsf, .itof, .ftoi, .smv]),
   (0x30, [.b, .bt, .bf, .call, .callr, .jr, .ret]),
   (0x38, [.ld, .ldf, .ldp, .ldt, .st, .stt, .amo, .mbar]),
   (0x40, [.tcfg, .tld, .tldc, .tst, .tsb, .tshift, .tmma, .tzero, .trel, .twait]),
   (0x4A, [.ld, .ldf, .ldp, .ldt, .st, .stt]),
   (0x50, [.vld, .vst, .vmov, .vbcast, .vadd, .vsub, .vmul, .vfma, .vmulw, .vdotw, .vcvt, .vred]),
   (0x60, [.vchain, .vflow]),
   (0x64, [.tdesc, .dinfo, .dgth, .dsct]),
   (0x6C, [.pgather, .cbktOpen, .csend, .crecv]),
   (0x74, [.await, .tkpoll, .rep, .repi, .mset, .csrr, .csrw, .ifence, .ecall, .brk, .eret, .tend])]

/-- The short operations in op6 order (R51). -/
def shortOps : List Op :=
  [.nop, .li, .add, .sub, .andI, .orI, .xorI, .shl, .shr, .sra, .minI, .maxI, .mov, .mul, .mulh, .fadd, .fsub, .fmul,
   .ffma, .fmin, .fmax, .cmp, .fcmp, .pand, .por, .pnot, .vmov, .vadd, .vsub, .vmul, .vfma, .vmulw, .vdotw]

/-- Look a major opcode up in the ranges. -/
def opOfMajor (m : Nat) : Option Op :=
  firstSome (fun r : Nat × List Op => if r.1 ≤ m then r.2[m - r.1]? else none) longOps

/-- The form that the major opcode alone fixes (R32, R50). -/
def formOfMajor (m : Nat) : Form :=
  if m = 0x02 ∨ m = 0x17 ∨ (0x4A ≤ m ∧ m ≤ 0x4F) then .li else if 0x30 ≤ m ∧ m ≤ 0x36 then .lb else .lr

/-- The major opcode of a long word. -/
def majorOf (w : Word) : Nat := fld w 56 7

/-- The operation of a long word from its major opcode, [45:42], fn8 and x24[3:0]; none where reserved. -/
def longOp (major tk fn x24 : Nat) : Option Op :=
  let op0 := if major = 0x17 then aluImmOps[tk]? else opOfMajor major
  match op0 with
  | some .dinfo => some (if fn = 0x80 then Op.dinfoRetire else .dinfo)
  | some .cbktOpen => some (match x24 % 16 with
    | 1 => .cbktBucket
    | 2 => .cbktClose
    | 3 => .cbktPublish
    | _ => .cbktOpen)
  | o => o

/-- The operations that can name a summary register in rs1 (R160). -/
def namesSummary (op : Op) : Bool := op == .mov || op == .smv || op == .cmp || op == .fcmp

/-- The fields of a long word. A reserved opcode or ALU immediate function reads as an illegal `nop` (R35). -/
def longFields (w : Word) : Fields :=
  let m := majorOf w
  let form := formOfMajor m
  let op0 := longOp m (fld w 42 4) (fld w 24 8) (fld w 0 24)
  let op := op0.getD .nop
  { op := op
    form := form
    rd := fld w 51 5
    rs1 := if form = .lb then fld w 51 5 else fld w 46 5
    rs2 := fld w 41 5
    rs3 := fld w 36 5
    tk := if form = .li then fld w 42 4 else fld w 32 4
    fn := if form = .lb then fld w 47 4 else fld w 24 8
    x24 := fld w 0 24
    imm := sfld w 0 42
    off := sfld w 0 47
    sm := namesSummary op && bitAt w 31
    bad := op0.isNone }

/-- The fields of a slot of 31 bits (R33). -/
def slotFields (x : Nat) : Fields :=
  let op0 := shortOps[x / 2 ^ 25 % 64]?
  let op := op0.getD .nop
  let si := decide (op = .li)
  let fn10 := x % 2 ^ 10
  let smOp := namesSummary op
  { op := op
    form := if si then .si else .sr
    rd := x / 2 ^ 20 % 32
    rs1 := x / 2 ^ 15 % 32
    rs2 := if si then 0 else x / 2 ^ 10 % 32
    rs3 := x / 2 ^ 20 % 32
    tk := 0
    fn := fn10 % 256
    x24 := 0
    imm := wordOf (sextNat (x % 2 ^ 15) 15)
    off := 0
    sm := smOp && decide (fn10 / 512 = 1)
    bad := op0.isNone || (si && decide (x / 2 ^ 15 % 32 ≠ 0))
      || (!si && (decide (fn10 / 256 % 2 = 1) || (!smOp && decide (fn10 / 512 = 1)))) }

/-- Whether a word is paired (R33). -/
def isPair (w : Word) : Bool := bitAt w 63

def slotA (w : Word) : Fields := slotFields (fld w 32 31)
def slotB (w : Word) : Fields := slotFields (fld w 1 31)

/-- The row a word belongs to: its operation, or its slot A's. Illegal opcodes belong to the row NOP. -/
def opOf (w : Word) : Op := if isPair w then (slotA w).op else (longFields w).op

/-- Scalar and system operations that list no function: any other value of fn8 is reserved (R35, R50; log 49). -/
def noFunction (o : Op) : Bool :=
  [.add, .sub, .andI, .orI, .xorI, .shl, .shr, .sra, .minI, .maxI, .sel, .tagof, .mul, .mulh, .mulhu, .div, .divu, .rem, .remu,
   .fadd, .fsub, .fmul, .ffma, .fmin, .fmax, .fdiv, .fsqrt, .pand, .por, .pnot, .mkptr, .ptrint, .fbits, .bitsf, .itof, .ftoi,
   .nop, .await, .tkpoll, .csrr, .csrw, .ifence, .ecall, .brk, .eret, .tend].contains o

/-- Functions of an operation that are not reserved (R28, R35, R46, R48, R50, R112, R145, R160, R171, R222, R225, R240):
true where the function and zero fields are as the operation's rule asks. Rules that need the state stand with the
meanings. -/
def fieldsLegal (f : Fields) : Bool :=
  let fnv := f.fn % 128
  let lr0 := decide (f.rd = 0)
  !f.bad && (match f.op with
    | .li => if f.form = .li then decide (f.rs1 = 0 ∧ f.tk = 0) else true
    | .mov =>
      if f.form = .sr then decide (f.fn = 0) && (!f.sm || decide (f.rs1 < 4))
      else decide (f.fn % 32 = 0) && !(f.sm && decide (f.fn / 32 % 2 = 1)) && (!f.sm || decide (f.rs1 < 4))
    | .cmp => decide ((if f.form = .sr then f.fn else fnv) < 6) && (!f.sm || decide (f.rs1 < 4))
    | .fcmp => decide ((if f.form = .sr then f.fn else fnv) < 4) && (!f.sm || decide (f.rs1 < 4))
    | .smv => decide (f.fn / 2 % 64 = 0) && (!f.sm || decide (f.rs1 < 4))
    | .b => decide (f.fn = 0 ∧ f.rs1 = 0)
    | .bt => decide (f.fn = 0)
    | .bf => decide (f.fn = 0)
    | .call => decide (f.fn = 0 ∧ f.rs1 = 0)
    | .callr => decide (f.fn = 0 ∧ f.off = 0)
    | .jr => decide (f.fn = 0 ∧ f.off = 0)
    | .ret => decide (f.fn = 0 ∧ f.off = 0 ∧ f.rs1 = 0)
    | .ld => f.form = .li || decide (f.fn / 16 = 0 ∧ f.rs3 = 0)
    | .ldf => f.form = .li || decide (f.fn / 16 = 0 ∧ f.rs3 = 0 ∧ f.fn % 4 = 3)
    | .ldp => f.form = .li || decide (f.fn / 16 = 0 ∧ f.rs3 = 0 ∧ f.fn % 4 = 3)
    | .ldt => f.form = .li || decide (f.fn / 16 = 0 ∧ f.rs3 = 0 ∧ f.fn % 4 = 3)
    | .st => f.form = .li || decide (f.fn / 16 = 0)
    | .stt => f.form = .li || decide (f.fn / 16 = 0 ∧ f.fn % 4 = 3)
    | .amo => decide (f.fn / 16 < 10 ∧ f.fn / 8 % 2 = 0 ∧ 2 ≤ f.fn % 4)
    | .mbar => decide (f.x24 < 32 ∧ f.fn = 0)
    | .tcfg => decide (f.x24 < 12 ∧ f.rs2 = 0 ∧ f.rs3 = 0 ∧ f.fn = 0 ∧ f.tk = 0) && lr0
    | .tld => decide (f.x24 < 12 ∧ f.rs3 = 0 ∧ f.fn = 0) && lr0
    | .tldc => decide (f.x24 < 8 ∧ f.rs3 = 0 ∧ f.fn = 0) && lr0
    | .tst => decide (f.x24 < 12 ∧ f.rs3 = 0 ∧ f.fn = 0) && lr0
    | .tsb => decide (f.x24 < 2 ∧ f.fn = 0) && lr0
    | .tshift => decide (f.x24 < 4096 ∧ f.rs1 = 0 ∧ f.rs2 = 0 ∧ f.rs3 = 0 ∧ f.fn = 0) && lr0
    | .tmma => decide (f.x24 < 2 ^ 14 ∧ f.x24 / 8 % 2 = 0 ∧ f.x24 / 64 % 4 = 0 ∧ f.x24 / 1024 % 4 = 0
        ∧ f.rs1 = 0 ∧ f.rs2 = 0 ∧ f.rs3 = 0 ∧ f.fn = 0) && lr0
    | .tzero => decide (f.x24 < 12 ∧ f.rs2 = 0 ∧ f.rs3 = 0 ∧ f.fn = 0) && lr0
    | .trel => decide (f.x24 < 2 ^ 14 ∧ f.rs1 = 0 ∧ f.rs2 = 0 ∧ f.rs3 = 0 ∧ f.fn = 0) && lr0
    | .twait => decide (f.x24 = 0 ∧ f.rs1 = 0 ∧ f.rs2 = 0 ∧ f.rs3 = 0 ∧ f.fn = 0) && lr0
    | .tdesc => decide (f.rs3 = 0 ∧ f.tk = 0 ∧ f.fn = 0 ∧ f.x24 = 0)
    | .dinfo => decide (f.fn ≤ 6 ∨ (8 ≤ f.fn ∧ f.fn ≤ 12))
    | .pgather => decide (f.x24 = 0 ∧ f.rs2 = 0 ∧ f.rs3 = 0 ∧ f.fn = 0) && lr0
    | .cbktOpen => decide (f.x24 = 0 ∧ f.rs2 = 0 ∧ f.rs3 = 0 ∧ f.fn = 0) && lr0
    | .cbktBucket => decide (f.x24 = 1 ∧ f.rs2 = 0 ∧ f.rs3 = 0 ∧ f.fn = 0) && lr0
    | .cbktClose => decide (f.x24 = 2 ∧ f.rs2 = 0 ∧ f.rs3 = 0 ∧ f.fn = 0) && lr0
    | .cbktPublish => decide (f.x24 = 3 ∧ f.rs2 = 0 ∧ f.rs3 = 0 ∧ f.fn = 0) && lr0
    | .csend => decide (f.x24 = 0 ∧ f.rs2 = 0 ∧ f.rs3 = 0 ∧ f.fn = 0) && lr0
    | .crecv => decide (f.x24 = 0 ∧ f.rs2 = 0 ∧ f.rs3 = 0 ∧ f.fn = 0) && lr0
    | .rep => decide (f.x24 < 64 ∧ f.rs1 = 0 ∧ f.rs2 = 0 ∧ f.rs3 = 0 ∧ f.fn = 0 ∧ f.tk = 0) && lr0
    | .repi => decide (f.x24 = 0 ∧ f.rs2 = 0 ∧ f.rs3 = 0 ∧ f.fn = 0 ∧ f.tk = 0) && lr0
    | .mset => decide (f.x24 / 256 = 0 ∧ f.x24 / 8 % 2 = 0 ∧ f.x24 / 16 % 2 = 0 ∧ f.fn = 0)
    | o => !noFunction o || f.form = .li || decide (f.fn = 0))

/-- The command that a word spells by the table's bits. The table gives no row any bits. -/
def decodeTableWord (_nbits _w : Nat) : Option Instr := none

end Sys2Proof
end

