-- ==== Sys2Proof/Machine/FMap.lean ====
section
/-! DEFINITION. Reading and writing a finite map in its canonical form. Every map of State (registers, memory
bytes, press tags, tables, lanes) goes through these operations. -/

namespace Sys2Proof

/-- What key `k` reads as: its first entry, and `d` where it is not listed. -/
def FMap.get {α : Type} (d : α) : FMap α → Nat → α
  | [], _ => d
  | (k', v) :: t, k => if k = k' then v else FMap.get d t k

/-- Take every entry of key `k` out. -/
def FMap.del {α : Type} : FMap α → Nat → FMap α
  | [], _ => []
  | (k', v) :: t, k => if k = k' then FMap.del t k else (k', v) :: FMap.del t k

/-- Put `v` at key `k`, whatever `v` is. -/
def FMap.ins {α : Type} : FMap α → Nat → α → FMap α
  | [], k, v => [(k, v)]
  | (k', v') :: t, k, v =>
    if k = k' then (k, v) :: t else if k < k' then (k, v) :: (k', v') :: t else (k', v') :: FMap.ins t k v

/-- Write `v` at key `k`; writing the default removes the entry. -/
def FMap.set {α : Type} [DecidableEq α] (d : α) (m : FMap α) (k : Nat) (v : α) : FMap α :=
  if v = d then m.del k else m.ins k v

/-- The canonical form: every key above `lo`, strictly rising, and no default listed. -/
def FMap.wfFrom {α : Type} [DecidableEq α] (d : α) : Nat → FMap α → Bool
  | _, [] => true
  | lo, (k, v) :: t => decide (lo ≤ k) && !(decide (v = d)) && FMap.wfFrom d (k + 1) t

/-- The canonical form of a whole map. -/
def FMap.wf {α : Type} [DecidableEq α] (d : α) (m : FMap α) : Bool := FMap.wfFrom d 0 m

/-- Write a run of values at consecutive keys. -/
def FMap.setRun {α : Type} [DecidableEq α] (d : α) (m : FMap α) (k : Nat) : List α → FMap α
  | [] => m
  | v :: t => FMap.setRun d (FMap.set d m k v) (k + 1) t

/-- Read a run of `n` values at consecutive keys. -/
def FMap.getRun {α : Type} (d : α) (m : FMap α) (k : Nat) : Nat → List α
  | 0 => []
  | n + 1 => FMap.get d m k :: FMap.getRun d m (k + 1) n

/-- Drop every entry whose key lies in `[lo, hi)`. -/
def FMap.clear {α : Type} (m : FMap α) (lo hi : Nat) : FMap α :=
  m.filter (fun e => decide (e.1 < lo) || decide (hi ≤ e.1))

end Sys2Proof
end

