-- ==== Sys2Proof/Machine/State.lean ====
section
/-! DEFINITION. The state of a Helavo module as plain data, its value after reset, and the ways a step can stop. -/

namespace Sys2Proof.Machine

/-! ### Values -/

/-- A scalar register: value and tag (R25). -/
structure TReg where
  tag : Tag
  val : Word
deriving DecidableEq, Repr

/-- The three builds (R2). -/
inductive Build where
  | t8 | t4 | t2
deriving DecidableEq, Repr

/-! ### Threads -/

/-- Thread states of R21; `park` holds the mask of the `await`. -/
inductive RunState where
  | idle
  | run
  | park (mask : BitVec 16)
deriving DecidableEq, Repr

/-- A fixed-distance result on its way (R36): destination code (R42), scalar or vector value, and the slot at whose
start it commits. -/
structure FixedRes where
  dst : Nat
  val : TReg
  vec : VReg
  due : Nat
deriving DecidableEq, Repr

/-- CR_ESTAT (R63), field by field; IPEND is computed. -/
structure EStat where
  pmode : BitVec 8
  omode : BitVec 8
  shcnt : BitVec 2
  msh : Bool
  rpt : Bool
  eds : Bool
  slotb : Bool
  nst : Bool
  svi : Bool
  lnta : Bool
  imask : BitVec 6
  ie : Bool
  exl : Bool
  sprv : BitVec 2
  prv : BitVec 2
deriving DecidableEq, Repr

/-- CR_ECAUSE (R61). -/
structure ECause where
  stage : BitVec 2
  ocause : BitVec 6
  lnt : Bool
  deferred : Bool
  cause : BitVec 6
deriving DecidableEq, Repr

/-- A mode-change shadow (R43, R78): the mode in force, the mode that follows, the words left under the old one,
and whether an `eret` restored it (R76). -/
structure Shadow where
  old : BitVec 8
  new : BitVec 8
  left : Nat
  ret : Bool
deriving DecidableEq, Repr

/-- A branch that has issued and whose delay slot has not (R45). -/
structure Delay where
  branch : Word
  target : Word
  taken : Bool
deriving DecidableEq, Repr

/-- A repetition in progress (R48): address and word of the prefix, its kind, iterations left, whether W has not
yet been checked, and the ticket W names. -/
structure RepState where
  addr : Word
  word : Word
  isRepi : Bool
  left : Nat
  fresh : Bool
  joins : Bool
  tk : Option Nat
deriving DecidableEq, Repr

/-- The kinds of scalar and vector accesses (R222, R223, R143). -/
inductive AccOp where
  | load (size : Nat) (signed : Bool) (tag : Tag)
  | loadT
  | store (size : Nat) (val : Word)
  | storeT (v : TReg)
  | amo (size op : Nat) (signed : Bool) (val cmp : Word)
  | vload (n : Nat) (bytes : Nat)
  | vstore (data : List VReg) (bytes : Nat)
deriving DecidableEq, Repr

/-- How far an access is (R212, R217, R40): walking the tables at a level, translated, performed with the value
loaded, or failed. -/
inductive XPhase where
  | walk (level table : Nat)
  | ready (pa : Nat)
  | performed (v : List TReg) (vec : List VReg)
  | failed (cause : Nat) (etval : Word)
deriving DecidableEq, Repr

/-- A memory access of a ticket. `ord` is its place among the thread's accesses (R224, R225). -/
structure Access where
  op : AccOp
  va : Word
  prv : BitVec 2
  ord : Nat
  phase : XPhase
deriving DecidableEq, Repr

/-- How far the work of an engine queue is; `done` holds the register values it gives (R159). -/
inductive EngPhase where
  | waiting
  | done (v : List TReg)
  | failed (cause : Nat) (etval : Word)
deriving DecidableEq, Repr

/-- What a ticketed operation is (R37). -/
inductive TKind where
  | acc (a : Access)
  | calc (v : TReg) (flags : BitVec 5)
  | tile (e : EngPhase)
  | chain (e : EngPhase)
  | desc (e : EngPhase)
  | coll (e : EngPhase)
deriving DecidableEq, Repr

/-- One operation of a ticket: its kind, the address of its word (CR_TKPC, R42) and its destination codes. -/
structure TOp where
  kind : TKind
  iaddr : Word
  dst : List Nat
deriving DecidableEq, Repr

/-- A deferred fault not yet reported (R40); `settled` once a trap entry has left its destinations INVAL (R41). -/
structure TFault where
  cause : Nat
  etval : Word
  iaddr : Word
  dst : List Nat
  settled : Bool
deriving DecidableEq, Repr

/-- A ticket: in flight while `ops` is not empty (BUSY), FAULT while `fault` is set (R39). -/
structure Ticket where
  ops : List TOp
  fault : Option TFault
deriving DecidableEq, Repr

/-- A trap recognised and not yet entered (R69 step 1): what the entry will write. -/
structure Trap where
  cause : Nat
  etval : Word
  epc : Word
  eds : Bool
  rpt : Bool
  slotb : Bool
  deferred : Bool
  sync : Bool
  byEret : Bool
deriving DecidableEq, Repr

/-- An `mbar` (R225): accesses before `ord` against those at or after it, with its mask and V bit. -/
structure Fence where
  ord : Nat
  mask : BitVec 4
  vec : Bool
deriving DecidableEq, Repr

/-- The block of words a fetch returned (R23, R227): its base address and its eight words. -/
structure FetchBuf where
  base : Word
  words : List Word
deriving DecidableEq, Repr

/-- Everything that belongs to a thread (R20). -/
structure Thread where
  run : RunState
  ending : Bool
  stopped : Bool
  launch : Option Nat
  pc : Word
  fetch : Option FetchBuf
  regs : FMap TReg
  lnk : TReg
  sm : FMap TReg
  vregs : FMap VReg
  vpend : BitVec 32
  fixed : List FixedRes
  slot : Nat
  mode : BitVec 8
  shadow : Option Shadow
  fflags : BitVec 5
  tickets : FMap Ticket
  tkpc : Word
  loopcnt : BitVec 32
  delay : Option Delay
  rep : Option RepState
  rptResume : Bool
  epc : TReg
  ecause : ECause
  etval : Word
  estat : EStat
  tcmpEn : Bool
  tcmp : BitVec 63
  cirq : Bool
  trap : Option Trap
  memOrd : Nat
  fences : List Fence
deriving DecidableEq, Repr

/-! ### Descriptors -/

/-- One dimension of a record (R168). -/
structure Dim where
  stride : Int
  size : Nat
  padlo : Nat
  padhi : Nat
deriving DecidableEq, Repr

/-- The copied index descriptor (R170, R171). -/
structure IdxDesc where
  base : Word
  fmt : Nat
  stride : Int
  size : Nat
deriving DecidableEq, Repr

/-- A minted descriptor (R168-R173). `idim` and `bdim` are as DHDR codes them: 0 none, d + 1 for dimension d. -/
structure Desc where
  fmt : Nat
  pm1 : Nat
  cd1 : Nat
  rk1 : Nat
  colr : Nat
  idim : Nat
  bdim : Nat
  ro : Bool
  free : Bool
  phys : Bool
  base : Word
  fill : Word
  rangeLo : Int
  rangeLen : Nat
  dims : List Dim
  sbase : Word
  pstride : Nat
  slen : Nat
  idx : Option IdxDesc
deriving DecidableEq, Repr

/-- A slot of the descriptor table (R164-R166). -/
structure DescSlot where
  live : Option Desc
  gen : BitVec 24
deriving DecidableEq, Repr

/-! ### Tiles, chain, queues -/

/-- A tile's contents (R100, R101). Operand bytes at row * 256 + byte; scales at row * 8 + block; accumulator lanes of
96 + 2 bits at row * 128 + column (32-bit lanes in the low bits); the scale record of an SX96 accumulator. -/
structure Tile where
  hold : Bool
  bytes : FMap Byte
  scl : FMap Byte
  lanes : FMap (BitVec 98)
  scale : Option (FMap Byte)
deriving DecidableEq, Repr

/-- A stationary bank's contents (R100, R113): cells at k * 128 + column, raw element bits (the signed value v_p of
R90 as two's complement for PSI, 0 where R177 says zero), scales at (k / 32) * 128 + column. -/
structure Bank where
  hold : Bool
  fmt : Nat
  planes : Nat
  k : Nat
  n : Nat
  cells : FMap Word
  scl : FMap Byte
deriving DecidableEq, Repr

/-- A bank's shape in the issue view (R102). -/
structure BankShape where
  fmt : Nat
  planes : Nat
  k : Nat
  n : Nat
deriving DecidableEq, Repr

/-- A queued tile instruction with what it captured at issue (R102, R106, R112, R167); `sh` is the shape the issue view
showed of the bank it reads. -/
inductive TileOp where
  | load (tile : Nat) (col : Bool) (cfg : BitVec 32) (d : Desc) (l0 : Int)
  | store (tile : Nat) (cfg : BitVec 32) (d : Desc) (l0 : Int)
  | bank (bank : Nat) (redirected : Bool) (sh : BankShape) (t : Bool) (d : Desc) (l0 : Int)
  | shift (src : Nat) (n fill : Nat) (zf : Bool) (cfg : BitVec 32) (sh : BankShape)
  | mma (tile acc bank : Nat) (flip z : Bool) (slices : Nat) (cfg acfg : BitVec 32) (sh : BankShape)
  | zero (tile : Nat) (cfg : BitVec 32) (scale : Option Word)
  | rel (mask : BitVec 14)
  | wait
deriving DecidableEq, Repr

/-- `seen` is the memory as the instruction found it when it began: a word that another agent writes while it runs reads
old or new (R153, R198). -/
structure TileEntry where
  g : Nat
  tk : Nat
  prv : BitVec 2
  op : TileOp
  begun : Bool
  seen : List Host.Cell
deriving DecidableEq, Repr

/-- A stage record of a chain descriptor (R154). -/
structure Stage where
  sctl : Word
  p0 : Word
  p1 : Word
  p2 : Word
deriving DecidableEq, Repr

/-- A chain slot (R149, R151): header, stages, and the tables its stages name (stage index, bytes). -/
structure ChainSlot where
  valid : Bool
  hdr : Word
  stages : List Stage
  tables : List (Nat × List Byte)
deriving DecidableEq, Repr

inductive ChainOp where
  | chain (slot : Nat) (addr : Word)
  | flow (slot : Nat) (src : Word) (dst : TReg) (d : Option Desc) (aux : Option Word) (rows : Nat) (smask : BitVec 4) (acc : Bool)
deriving DecidableEq, Repr

structure ChainEntry where
  g : Nat
  tk : Nat
  prv : BitVec 2
  op : ChainOp
  begun : Bool
  seen : List Host.Cell
deriving DecidableEq, Repr

/-- A queued gather or scatter (R180). -/
structure DescEntry where
  g : Nat
  tk : Nat
  prv : BitVec 2
  gather : Bool
  d : Desc
  l0 : Int
  buf : Word
  rows : Nat
  planes : Nat
deriving DecidableEq, Repr

/-- A leaf of the translation cache (R212): virtual base, page size in bytes, physical base, U X W RD. -/
structure Leaf where
  va : Nat
  size : Nat
  pa : Nat
  perm : BitVec 4
deriving DecidableEq, Repr

/-- The operations of a collective command (R240). -/
inductive CollOp where
  | openE | bucket | close | publish | gather | send | recv
deriving DecidableEq, Repr

/-- A collective command with the record the core copied (R240, R241). -/
structure CollCmd where
  op : CollOp
  g : Nat
  tk : Nat
  b : Nat
  recAt : Word
  prv : BitVec 2
  record : List Byte
deriving DecidableEq, Repr

/-- Everything that belongs to a core and is shared by its threads (R20). `phys` is the physical core that carries the
number (R10): 0 the number's own, n + 1 the core at position n of the die. `press` is the bytes of its press that its
binding holds (R332). `l1` lists the lines the L1 holds; `reqs` the line
requests that missed it, oldest first, each with whether fetch or a scalar instruction made it (R215, R228). -/
structure Core where
  binding : Option Nat
  press : Nat
  suspended : Bool
  phys : Nat
  tcfg : FMap (BitVec 32)
  tiles : FMap Tile
  banks : FMap Bank
  act : Bool
  redir : BitVec 16
  sxovf : Bool
  vEmpty : BitVec 14
  vAct : Bool
  vScaled : BitVec 4
  vBanks : FMap BankShape
  tileQ : List TileEntry
  slots : FMap ChainSlot
  chainQ : List ChainEntry
  hold : BitVec 16
  vecQ : List Nat
  descs : FMap DescSlot
  descQ : List DescEntry
  oobRd : BitVec 32
  oobWr : BitVec 32
  tcache : List Leaf
  l1 : List Nat
  reqs : List (Nat × Bool)
  stalls : FMap (BitVec 64)
  freeze : Bool
  parcnt : BitVec 32
  meshTries : Nat
  tvbase : Word
  mtvdesc : BitVec 33
  lanternSp : BitVec 40
  dbstat : BitVec 8
  collQ : List CollCmd
deriving DecidableEq, Repr

/-! ### Collective engine -/

/-- A member entry and a partition-table entry of a group record (R237). -/
structure Member where
  ccnt : Nat
  role : Nat
  partner : Nat
deriving DecidableEq, Repr

structure Part where
  elems : Nat
  owner : Nat
deriving DecidableEq, Repr

/-- A group record (R237) with the member's last opened epoch and whether it is still open (R243, R245). -/
structure Group where
  binding : Nat
  window : Nat
  bktdef : Nat
  hdepth : Nat
  self : Nat
  members : List Member
  parts : List Part
  epoch : Option (Nat × Nat)
  opened : Bool
deriving DecidableEq, Repr

/-- States of a bucket at a member (R251). -/
inductive BucketPhase where
  | queued | exponent | sum | check
deriving DecidableEq, Repr

/-- What an owner has received of a block's lanes (R252, R253): lanes, residues, NANF, and contributions counted. -/
structure SumBlock where
  lanes : List Word
  res : List (BitVec 7)
  nanf : Bool
  ncon : Nat
deriving DecidableEq, Repr

/-- What members exchange about a bucket (R249, R253): ELEMS, ROP, CRC of the split, and SFMT for a maximum or minimum
(0 for a vintage sum). -/
structure BucketCfg where
  elems : Nat
  rop : Nat
  crc : BitVec 32
  sfmt : Nat
deriving DecidableEq, Repr

/-- A bucket at this member (R247, R251, R252). `cmd` is none while only other members' records have arrived. `expIn`
holds by block the largest exponent heard and the contributions counted, `agreed` the agreed exponents, `told` the
members whose parameters came outside an exponent record (log 126). -/
structure Bucket where
  cmd : Option CollCmd
  gid : Nat
  step : Nat
  attempt : Nat
  bseq : Nat
  phase : BucketPhase
  split : List Nat
  heard : List Nat
  cfgs : List BucketCfg
  told : List Nat
  expIn : FMap (BitVec 16 × Nat)
  agreed : FMap (Option (BitVec 16))
  sums : FMap SumBlock
deriving DecidableEq, Repr

/-- What a member said in its CLOSE (R245). -/
structure CloseSaid where
  member : Nat
  nbkt : Nat
  good : Bool
deriving DecidableEq, Repr

/-- The CLOSE of an attempt (R245): this member's command, whether it has told the others, what each member said, and
the observers of a cellar group that no gate of R350 holds (log 127). -/
structure CloseRec where
  cmd : Option CollCmd
  gid : Nat
  step : Nat
  attempt : Nat
  sent : Bool
  said : List CloseSaid
  ready : List Nat
deriving DecidableEq, Repr

/-- A published narrow copy with its stamp (R195, R256, R257). -/
structure Published where
  b : Nat
  gid : Nat
  shard : Nat
  step : Nat
  digest : BitVec 32
  addr : Word
  pstride : Nat
  saddr : Word
  nfmt : Nat
  planes : Nat
  core : Nat
  prv : BitVec 2
deriving DecidableEq, Repr

/-- A point-to-point post (R261), with its place in the posting order of the device. A send that is matched holds the
receiver's command number; a receive that is matched holds the sender's command number and bytes, and the bytes that have
arrived. -/
structure Post where
  cmd : CollCmd
  id : Nat
  order : Nat
  gid : Nat
  peer : Nat
  tag : Nat
  buf : Word
  bytes : Nat
  matched : Option Nat
  peerBytes : Nat
  got : List Byte
deriving DecidableEq, Repr

/-- A receive announced by a peer and not matched yet (R261). -/
structure Announced where
  b : Nat
  gid : Nat
  member : Nat
  tag : Nat
  bytes : Nat
  cmd : Nat
deriving DecidableEq, Repr

/-- A `pgather` (R258): its number, the stamp, format and planes delivered, and the bytes that have arrived. One that has
ended while its owner's answer is still on its way keeps its number, so that no later command takes that answer for its
own (R260); `live` is then false. -/
structure Gather where
  cmd : CollCmd
  id : Nat
  live : Bool
  gid : Nat
  shard : Nat
  stamp : Option (List Byte)
  nfmt : Nat
  planes : Nat
  len : Nat
  got : List Byte
deriving DecidableEq, Repr

/-- A bucket that has ended at this member (R244): the pair, its number, its status. -/
structure EndedBucket where
  gid : Nat
  step : Nat
  attempt : Nat
  bseq : Nat
  status : Nat
deriving DecidableEq, Repr

/-- A message an engine hands to the fabric (R281). -/
structure OutMsg where
  b : Nat
  partner : Nat
  ptype : PType
  rw2 : Word
  xtag : BitVec 16
  body : Payload
deriving DecidableEq, Repr

/-- The collective engine of a half. `spoiled` lists the attempts (group, step, attempt) with a bucket that ended before it
was queued (R245); `nextId` is where the search for a free command number begins. -/
structure Engine where
  groups : FMap (Option Group)
  buckets : List Bucket
  ended : List EndedBucket
  spoiled : List (Nat × Nat × Nat)
  closes : List CloseRec
  closed : List (Nat × Nat)
  published : List Published
  publishes : List CollCmd
  posts : List Post
  gathers : List Gather
  nextId : Nat
  outbox : List OutMsg
  bad : FMap (BitVec 16)
  late : FMap (BitVec 16)
  drop : FMap (BitVec 32)
deriving DecidableEq, Repr

/-! ### Fabric -/

/-- STATE of SK_PORT (R287). -/
inductive PortState where
  | down | training | up | miswired | mismatch | failed | drained | linkOnly
deriving DecidableEq, Repr

/-- A fabric port (R265-R270, R287). `wire` lists the flits sent, oldest first; `awaiting` says that a NAK is out and the
flit it asks for has not arrived; `credits` are the 64-byte units each virtual channel may still send, `owed` those it has to
return; `rxBytes` the content of a packet that has not ended; `dead` the failed lanes; `resume` the state that DRAINED gives
way to; `tested` how the latest rotation went (R338). -/
structure Port where
  state : PortState
  ndev : BitVec 20
  nport : BitVec 5
  nbuild : BitVec 2
  nrev : BitVec 4
  lmask : BitVec 5
  spare : BitVec 3
  lepoch : BitVec 32
  retrain : BitVec 16
  lfail : BitVec 16
  replay : BitVec 32
  rxSeq : BitVec 12
  txSeq : BitVec 12
  replayBuf : List Flit
  tries : Nat
  nakDue : Bool
  awaiting : Bool
  retraining : Bool
  laneErr : FMap (List Nat)
  credits : FMap Nat
  owed : FMap Nat
  wire : List Flit
  rxBytes : List Byte
  outQ : List Packet
  samples : FMap Nat
  nextLane : Nat
  taps : FMap Int
  rxQ : List Packet
  dead : List Nat
  resume : PortState
  tested : Option Bool
deriving DecidableEq, Repr

/-- A partner-table entry (R277). -/
structure Partner where
  valid : Bool
  bind : Nat
  dbind : Nat
  ddev : BitVec 20
  np1 : Nat
  adpt : Bool
  pdep : Nat
  paths : List (List Nat)
deriving DecidableEq, Repr

/-- One direction pair of a flow (R272). -/
structure Flow where
  key : FlowKey
  nextPsn : BitVec 16
  unacked : List (Packet × Nat)
  expPsn : BitVec 16
  held : List Packet
  sinceAck : Nat
  lastPath : Nat
  lastCong : Bool
  congAt : FMap Nat
  waits : Nat
deriving DecidableEq, Repr

/-- A live key of the beacon table (R286). -/
structure BeaconKey where
  odev : BitVec 20
  unit : BitVec 16
  fepoch : BitVec 32
  fclass : BitVec 8
  count : Nat
deriving DecidableEq, Repr

/-! ### Halves -/

/-- Primacy states (R293). -/
inductive PState where
  | split | follower | primary
deriving DecidableEq, Repr

/-- LINK of HL_STAT (R307). -/
inductive LinkState where
  | down | training | up
deriving DecidableEq, Repr

/-- The heartbeat record (R290). -/
structure Heartbeat where
  epoch : Word
  pstate : PState
  solo : Bool
  senior : Bool
  imgv : Nat
  hseq : Nat
  jack : Nat
deriving DecidableEq, Repr

/-- Where a half is in its power-up (R364), or why it is not. -/
inductive Stage' where
  | off | waitEn | boot | recovery | train | ready
deriving DecidableEq, Repr

/-- A keeper (R330): running as active, as standby, in reset or boot, or out of service. -/
inductive KeeperState where
  | active | standby | booting | out
deriving DecidableEq, Repr

/-- A die's loops and sensors (R302, R307). -/
structure Die where
  temp : BitVec 8
  lim : BitVec 4
  droop : BitVec 8
  trips : List Nat
  vcore : BitVec 10
  freq : BitVec 11
  stretched : Bool
  tripped : Bool
  l2left : BitVec 9
  cleft : BitVec 4
  spares : List Nat
deriving DecidableEq, Repr

/-- An HBM stack and its controller (R231-R236). -/
structure Stack where
  ce : BitVec 16
  ue : BitVec 8
  spused : BitVec 8
  spleft : BitVec 8
  state : BitVec 2
  lanes : FMap (List Nat)
  marked : List Nat
  bank : Nat
  recentred : Nat
deriving DecidableEq, Repr

/-- A slot of the sealed key store (R318): the key, the stored mark, the largest CTR accepted, and ctr_hi (R317). -/
structure KeySlot where
  key : Option (List Byte)
  mark : Nat
  acc : Nat
  ctrHi : Nat
deriving DecidableEq, Repr

/-- Non-volatile image state of a half (R366), the bank it runs, and that bank's image as it was at the boot. -/
structure Flash where
  bankA : Image
  bankB : Image
  active : Bool
  pending : Option Bool
  fuseMin : Nat
  running : Option Bool
  ran : Image
deriving DecidableEq, Repr

/-- The ring registers of a function at one half (R311). -/
structure Ring where
  sqBase : BitVec 52
  sqEn : Bool
  sqClosing : Bool
  cqBase : BitVec 52
  cqEn : Bool
  cqClosing : Bool
  evqBase : BitVec 52
  evqEn : Bool
  evqClosing : Bool
  logn : BitVec 5
  tail : Nat
  head : Nat
deriving DecidableEq, Repr

/-- A fault record the keeper keeps (R375 command 0x02): the unit and its fault epoch, a core's physical position (R10), and
a position finer than the unit, a lane or a row (R15). -/
structure FaultRec where
  unit : BitVec 16
  fepoch : BitVec 32
  phys : Option Nat
  pos : Option Nat
deriving DecidableEq, Repr

/-- One half of the module. `owes` says that its keeper has changed tables that both halves hold copies of and could not
send the copy (R289). -/
structure Half where
  stage : Stage'
  inReset : Bool
  pin : Bool
  promote : Bool
  pwrEn : Bool
  pgood : Bool
  monitor : Bool
  leftReset : Bool
  time : Word
  link : LinkState
  pstate : PState
  hold : Bool
  peerHold : Bool
  solo : Bool
  owes : Bool
  epoch : Word
  event : BitVec 4
  pwEvent : BitVec 6
  evx : BitVec 3
  dies : FMap Die
  hbms : FMap Stack
  hseq : Nat
  lastHseq : Option Nat
  peerEpoch : Word
  peerJack : Nat
  peerVersion : Option Nat
  hbIn : List Heartbeat
  linkTries : Nat
  linkSpares : Nat
  journal : List Nat
  journalIn : List Nat
  ackIn : List Nat
  compIn : List (Nat × Nat)
  compHeld : List (Nat × Nat)
  keeper0 : KeeperState
  keeper1 : KeeperState
  keys : FMap KeySlot
  flash : Flash
  faults : List FaultRec
  rings : FMap Ring
  epTrained : Bool
  partners0 : FMap Partner
  partners1 : FMap Partner
  eng : Engine
  keyTable : List BeaconKey
  bcnAbs : BitVec 32
  bcnOvf : BitVec 16
  tapIr : Nat
deriving DecidableEq, Repr

/-! ### Bindings, commands, outputs -/

/-- PHASE of CL_STAT (R359). -/
inductive ClPhase where
  | none | idle | capture | drain | stopped | repair | restore
deriving DecidableEq, Repr

/-- A region of a snapshot (R345). -/
structure Region where
  va : Word
  len : Nat
  par : Nat
deriving DecidableEq, Repr

/-- A slot of a reserve: STATE of SHDR0, step, and the saved regions and binding record (R347), the record also as the bytes
that stand behind the regions (log 46). -/
structure SnapSlot where
  state : Nat
  step : Nat
  data : List (Word × List Byte)
  image : List Byte
  partners : List (Nat × Partner × Partner)
  ptAct : Bool
  groups : List (Nat × Group)
  maps : List Leaf
  stamps : List Published
deriving DecidableEq, Repr

/-- A binding's cellar configuration as a client (R345). -/
structure CellarCfg where
  partner : Nat
  k : Nat
  gid : Nat
  auto : Bool
  rate : Nat
  stageFirst : Nat
  stageCount : Nat
  regions : List Region
deriving DecidableEq, Repr

/-- What a `RESTORE` names (R358): the granting device and binding, the original client device and binding. -/
structure RestoreFrom where
  gdev : BitVec 20
  gbind : Nat
  cdev : BitVec 20
  cbind : Nat
deriving DecidableEq, Repr

/-- A binding (R332) and the registers that have a copy per binding. `ranges` lists its partner numbers as first and count.
`captured` and `drainedTo` are the latest snapshot steps whose capture and drain are over (R350). `byReset` says that a half
reset alone stopped it (R361), `stranded` that its repair found no spare (R358). -/
structure Binding where
  live : Bool
  ranges : List (Nat × Nat)
  groups : Nat
  irqThread : Nat
  ttRoot : Nat
  ttEn : Bool
  ttUsed : Nat
  ptAct : Bool
  flips : BitVec 32
  unauth : FMap (BitVec 32)
  ecrc : FMap (BitVec 32)
  bcnPend : Bool
  stop : Bool
  byReset : Bool
  stranded : Bool
  cfg : Option CellarCfg
  phase : ClPhase
  lstep : BitVec 40
  lost : Bool
  slotSel : Bool
  lvalid : Bool
  snap : Option SnapSlot
  captured : Option Nat
  drainedTo : Option Nat
  slot0 : Option SnapSlot
  slot1 : Option SnapSlot
  agreed : Option Nat
  keepnet : Bool
  restFrom : Option RestoreFrom
  grants : FMap (List Nat)
  mirror : Option Nat
deriving DecidableEq, Repr

/-- How far a Kuwick command is (R322, R326, R331). -/
inductive CmdPhase where
  | journalled | accepted | running | ended | final
deriving DecidableEq, Repr

/-- A command read from a ring and validated (R313, R316): its function, sequence, opcode, entry and buffer; the
status, unit, detail and RESULT its final record will hold. -/
structure Cmd where
  func : Nat
  seq : Nat
  jseq : Nat
  opc : Nat
  entry : List Byte
  buf : List Byte
  phase : CmdPhase
  solo : Bool
  half : Nat
  status : Nat
  unit : BitVec 16
  detail : Nat
  result : List Byte
deriving DecidableEq, Repr

/-- KIND of a completion record (R315). -/
inductive RecKind where
  | accept | reject | final
deriving DecidableEq, Repr

/-- A completion record as posted (R315): function, CQ slot index, and contents. -/
structure CqRec where
  func : Nat
  slot : Nat
  seq : Nat
  phase : Bool
  solo : Bool
  kind : RecKind
  status : Nat
  unit : BitVec 16
  detail : Nat
  result : List Byte
deriving DecidableEq, Repr

/-- A record of the PF event ring (R339). -/
structure EvRec where
  type : Nat
  unit : BitVec 16
  fepoch : BitVec 32
  orig : BitVec 20
  count : Nat
  detail : List Nat
deriving DecidableEq, Repr

/-- An event record as posted: its slot of the ring and its PHASE (R315, R339). -/
structure EvSlot where
  slot : Nat
  phase : Bool
  entry : EvRec
deriving DecidableEq, Repr

/-- What PREEMPT saved at an address (R335): the binding, and the state of its cores and of their threads. How the save area
lays it out in memory the spec does not say (log 40). -/
structure Saved where
  b : Nat
  cores : List (Nat × Core)
  threads : List (Nat × Thread)
deriving DecidableEq, Repr

/-- The state of a Helavo module. `retired` lists HBM stacks, `gone` the units retired with no spare left (R358). `l2`
lists the lines that the L2 slices of all dies hold, latest use first, each with whether it is dirty (R216). -/
structure State where
  build : Build
  threads : FMap Thread
  cores : FMap Core
  mem : List Host.Cell
  tags : FMap (BitVec 4)
  poison : List Nat
  l2 : List (Nat × Bool)
  owner : FMap (Option Nat)
  granted : FMap (Option Nat)
  retired : List Nat
  gone : List (BitVec 16)
  bindings : FMap Binding
  half0 : Half
  half1 : Half
  ports : FMap Port
  devid : BitVec 20
  devValid : Bool
  flows : List Flow
  cmds : List Cmd
  cq : List CqRec
  events : List EvSlot
  evNext : Nat
  evWait : List EvRec
  msix : List (Nat × Nat)
  recvs : List Announced
  posted : Nat
  jnext : Nat
  fepochs : FMap (BitVec 32)
  deferredTests : List (BitVec 16)
  saved : FMap (Option Saved)
  readPort : List Word
  vin : Nat
  present : Bool
  pulses : Nat
  free : Nat
  pending : List Instr
deriving DecidableEq, Repr

/-- Why a command can stop the machine. No row of the spec stops it: every trap, fault record and rejection of the
spec is an effect on State. -/
inductive Fault where
  /-- Raised by no meaning; the module has no fault that leaves it without a next state. Safe. -/
  | never
deriving DecidableEq, Repr

/-- Why a command has no meaning. -/
inductive Refusal where
  /-- The row of this mnemonic has no meaning yet; raised by exec's refused arms only. Safe. -/
  | notModelled (mnemonic : String)
  /-- The term is no command of the table: an instruction row with a word of another row. Raised by the issue
  operation through WellFormed's check. Safe: the hardware has no such command. -/
  | malformed
deriving DecidableEq, Repr

/-! ### Reset values (R6) -/

/-- A register as reset and dispatch leave it: tag INVAL (R25); its value is the model's (log 3). -/
def TReg.reset : TReg := ⟨.inval, 0⟩

/-- `s0`: zero, tagged INT (R26). -/
def TReg.zero : TReg := ⟨.int, 0⟩

def Ticket.free : Ticket := ⟨[], none⟩

def EStat.reset : EStat := ⟨0, 0, 0, false, false, false, false, false, false, false, 0, false, false, 0, 0⟩

def ECause.reset : ECause := ⟨0, 0, false, false, 0⟩

/-- A thread after reset (R20, R333). -/
def Thread.reset : Thread :=
  { run := .idle, ending := false, stopped := false, launch := none, pc := 0, fetch := none, regs := [],
    lnk := TReg.reset, sm := [], vregs := [], vpend := 0, fixed := [], slot := 0, mode := 0, shadow := none,
    fflags := 0, tickets := [], tkpc := 0, loopcnt := 0, delay := none, rep := none, rptResume := false,
    epc := TReg.reset, ecause := ECause.reset, etval := 0, estat := EStat.reset, tcmpEn := false, tcmp := 0,
    cirq := false, trap := none, memOrd := 0, fences := [] }

def DescSlot.reset : DescSlot := ⟨none, 0⟩
def Tile.empty : Tile := ⟨false, [], [], [], none⟩
def Bank.empty : Bank := ⟨false, 0, 0, 0, 0, [], []⟩
def BankShape.none : BankShape := ⟨0, 0, 0, 0⟩
def ChainSlot.empty : ChainSlot := ⟨false, 0, [], []⟩

/-- A core after reset (R101, R126, R149, R189, R235). -/
def Core.reset : Core :=
  { binding := none, press := 0, suspended := false, phys := 0, tcfg := [], tiles := [], banks := [], act := false, redir := 0,
    sxovf := false, vEmpty := 0x3FFF, vAct := false, vScaled := 0, vBanks := [], tileQ := [], slots := [],
    chainQ := [], hold := 0, vecQ := [], descs := [], descQ := [], oobRd := 0, oobWr := 0, tcache := [], l1 := [], reqs := [],
    stalls := [], freeze := false, parcnt := 0, meshTries := 0, tvbase := 0, mtvdesc := 0, lanternSp := 0,
    dbstat := 0, collQ := [] }

def Engine.reset : Engine :=
  { groups := [], buckets := [], ended := [], spoiled := [], closes := [], closed := [], published := [], publishes := [],
    posts := [], gathers := [], nextId := 0, outbox := [], bad := [], late := [], drop := [] }

/-- A port after reset (R287). -/
def Port.reset : Port :=
  { state := .down, ndev := 0xF_FFFF, nport := 0b11111, nbuild := 0, nrev := 0, lmask := 0, spare := 7, lepoch := 0,
    retrain := 0, lfail := 0, replay := 0, rxSeq := 0, txSeq := 0, replayBuf := [], tries := 0, nakDue := false, awaiting := false, retraining := false,
    laneErr := [], credits := [], owed := [], wire := [], rxBytes := [], outQ := [], samples := [], nextLane := 0, taps := [], rxQ := [],
    dead := [], resume := .down, tested := none }

def Partner.invalid : Partner := ⟨false, 0, 0, 0, 0, false, 0, []⟩

/-- A die after reset: FREQ 0x4B0 (R307), its spares as shipped (log 8). -/
def Die.reset : Die := ⟨0, 0, 0, [], 0, 0x4B0, false, false, 256, 8, [64, 65, 66, 67, 68, 69, 70, 71]⟩

/-- A stack after reset: training (R236), with eight spare lanes as shipped (log 8). -/
def Stack.reset : Stack := ⟨0, 0, 0, 8, 0, [], [], 0, 0⟩

def KeySlot.empty : KeySlot := ⟨none, 0, 0, 0⟩

/-- An image as shipped (log 8). -/
def Image.shipped : Image := ⟨1, true, 0, 0⟩

def Flash.shipped : Flash := ⟨Image.shipped, Image.shipped, false, none, 0, none, Image.shipped⟩

/-- Ring registers after reset: EN 0, LOGN 6 (R311). -/
def Ring.reset : Ring := ⟨0, false, false, 0, false, false, 0, false, false, 6, 0, 0⟩

/-- A half before VIN is applied (log 7), with every register at its Reset value. -/
def Half.reset : Half :=
  { stage := .off, inReset := false, pin := false, promote := false, pwrEn := false, pgood := false, monitor := false, leftReset := false, time := 0,
    link := .down, pstate := .split, hold := false, peerHold := false, solo := false, owes := false, epoch := 0, event := 0,
    pwEvent := 0, evx := 0, dies := [], hbms := [], hseq := 0, lastHseq := none, peerEpoch := 0, peerJack := 0,
    peerVersion := none, hbIn := [], linkTries := 0, linkSpares := 2, journal := [], journalIn := [],
    ackIn := [], compIn := [], compHeld := [], keeper0 := .active, keeper1 := .standby, keys := [],
    flash := Flash.shipped, faults := [], rings := [], epTrained := false, partners0 := [], partners1 := [],
    eng := Engine.reset, keyTable := [], bcnAbs := 0, bcnOvf := 0, tapIr := 0 }

/-- A binding number that holds nothing (R332). -/
def Binding.empty : Binding :=
  { live := false, ranges := [], groups := 0, irqThread := 0, ttRoot := 0, ttEn := false,
    ttUsed := 0, ptAct := false, flips := 0, unauth := [], ecrc := [], bcnPend := false, stop := false, byReset := false, stranded := false, cfg := none,
    phase := .none, lstep := 0, lost := false, slotSel := false, lvalid := false, snap := none, captured := none, drainedTo := none, slot0 := none,
    slot1 := none, agreed := none, keepnet := false, restFrom := none, grants := [], mirror := none }

/-- The module right after reset: every register at its Reset value, nothing bound, no power yet; POWER_UP is the
first event of R364. -/
def State.reset : State :=
  { build := .t8, threads := [], cores := [], mem := [], tags := [], poison := [], l2 := [], owner := [], granted := [],
    retired := [], gone := [], bindings := [], half0 := Half.reset, half1 := Half.reset, ports := [], devid := 0xF_FFFF,
    devValid := false, flows := [], cmds := [], cq := [], events := [], evNext := 0, evWait := [], msix := [], recvs := [], posted := 0, jnext := 0, fepochs := [],
    deferredTests := [], saved := [], readPort := [], vin := 0, present := true, pulses := 0, free := 0, pending := [] }

end Sys2Proof.Machine
end

