-- ==== Sys2Proof/Machine/Digest.lean ====
section
/-! DEFINITION. CRC-32C (R195, R249, R347), HMAC-SHA-256 (R316, FIPS 180-4 and FIPS 198-1) and the unwrapping of keys
(R319). -/

namespace Sys2Proof

/-- One bit of the reflected Castagnoli CRC. -/
def crcBit (c : BitVec 32) : BitVec 32 := if c.getLsbD 0 then (c >>> 1) ^^^ 0x82F63B78#32 else c >>> 1

def crcByte (c : BitVec 32) (b : Byte) : BitVec 32 :=
  (upto 8).foldl (fun a _ => crcBit a) (c ^^^ b.setWidth 32)

/-- CRC-32C over a run of bytes. -/
def crc32c (l : List Byte) : BitVec 32 := ~~~(l.foldl crcByte 0xFFFFFFFF#32)

/-! ### SHA-256 (FIPS 180-4), its constants from their definition -/

/-- The largest `r` with `r ^ k ≤ x`, settling bit `n - 1` downwards. -/
def rootBits (k x : Nat) : Nat → Nat → Nat
  | 0, r => r
  | n + 1, r => rootBits k x n (if (r + 2 ^ n) ^ k ≤ x then r + 2 ^ n else r)

/-- The first 32 bits of the fraction of the `k`-th root of `p`. -/
def rootFraction (k p : Nat) : Nat := rootBits k (p * 2 ^ (32 * k)) 40 0 % 2 ^ 32

/-- The primes below 312, which are 64. -/
def smallPrimes : List Nat := (upto 312).filter (fun n => decide (2 ≤ n) && (upto n).all (fun d => decide (d < 2) || decide (n % d ≠ 0)))

/-- A 32-bit word turned right. -/
def turn (x n : Nat) : Nat := (x / 2 ^ n + x % 2 ^ n * 2 ^ (32 - n)) % 2 ^ 32

/-- The eight working words: `lo` holds a, b, c, d and `hi` holds e, f, g, h. -/
structure HashRegs where
  lo : Nat × Nat × Nat × Nat
  hi : Nat × Nat × Nat × Nat
deriving DecidableEq, Repr

def HashRegs.add (x y : HashRegs) : HashRegs :=
  let s := fun (m n : Nat) => (m + n) % 2 ^ 32
  let z := fun (p q : Nat × Nat × Nat × Nat) => (s p.1 q.1, s p.2.1 q.2.1, s p.2.2.1 q.2.2.1, s p.2.2.2 q.2.2.2)
  ⟨z x.lo y.lo, z x.hi y.hi⟩

/-- One round, with the sum of the round constant and the schedule word. -/
def HashRegs.mix (x : HashRegs) (kw : Nat) : HashRegs :=
  let (a, b, c, d) := x.lo
  let (e, f, g, h) := x.hi
  let pick := g ^^^ (e &&& (f ^^^ g))
  let vote := (a &&& b) ||| (c &&& (a ||| b))
  let x1 := h + (turn e 6 ^^^ turn e 11 ^^^ turn e 25) + pick + kw
  let x0 := (turn a 2 ^^^ turn a 13 ^^^ turn a 22) + vote
  ⟨((x0 + x1) % 2 ^ 32, a, b, c), ((d + x1) % 2 ^ 32, e, f, g)⟩

/-- The schedule word that enters the window of sixteen behind the others. -/
def nextWord (w : List Nat) : Nat :=
  let p := w.getD 1 0
  let q := w.getD 14 0
  ((turn p 7 ^^^ turn p 18 ^^^ (p / 8)) + (turn q 17 ^^^ turn q 19 ^^^ (q / 1024)) + w.headD 0 + w.getD 9 0) % 2 ^ 32

/-- The rounds over the constants left, sliding the window. -/
def hashRounds : List Nat → List Nat → HashRegs → HashRegs
  | [], _, x => x
  | k :: ks, w, x => hashRounds ks (w.tail ++ [nextWord w]) (x.mix (k + w.headD 0))

/-- A run of bytes as a number, most significant first. -/
def beNat (l : List Byte) : Nat := leNat l.reverse

/-- A number as `n` big-endian bytes. -/
def beBytes (n x : Nat) : List Byte := (leBytes n x).reverse

/-- Consecutive pieces of `m` bytes, `n` of them. -/
def piecesOf (m n : Nat) (l : List Byte) : List (List Byte) := (upto n).map (fun i => (l.drop (m * i)).take m)

/-- The digest so far after one block of 64 bytes. -/
def hashBlock (ks : List Nat) (x : HashRegs) (l : List Byte) : HashRegs := x.add (hashRounds ks ((piecesOf 4 16 l).map beNat) x)

def HashRegs.start (f : List Nat) : HashRegs :=
  ⟨(f.getD 0 0, f.getD 1 0, f.getD 2 0, f.getD 3 0), (f.getD 4 0, f.getD 5 0, f.getD 6 0, f.getD 7 0)⟩

def HashRegs.bytes (x : HashRegs) : List Byte :=
  ([x.lo.1, x.lo.2.1, x.lo.2.2.1, x.lo.2.2.2, x.hi.1, x.hi.2.1, x.hi.2.2.1, x.hi.2.2.2].map (beBytes 4)).flatten

def sha256 (l : List Byte) : List Byte :=
  let fill := 64 * cdiv (l.length + 9) 64 - l.length - 9
  let m := l ++ 0x80#8 :: List.replicate fill 0#8 ++ beBytes 8 (8 * l.length)
  ((piecesOf 64 (m.length / 64) m).foldl (hashBlock (smallPrimes.map (rootFraction 3)))
    (HashRegs.start ((smallPrimes.take 8).map (rootFraction 2)))).bytes

/-- HMAC-SHA-256. -/
def hmac256 (key l : List Byte) : List Byte :=
  let k0 := if key.length > 64 then sha256 key else key
  let k := k0 ++ List.replicate (64 - k0.length) 0#8
  sha256 (k.map (· ^^^ 0x5C#8) ++ sha256 (k.map (· ^^^ 0x36#8) ++ l))

/-! ### AES-256 key unwrap (R319: SP 800-38F, KW; FIPS 197) -/

/-- Twice an element of the AES field. -/
def gfTwice (a : Nat) : Nat := if a < 128 then 2 * a else (2 * a) ^^^ 0x11B

/-- The product in the AES field. -/
def gfMul (a b : Nat) : Nat :=
  ((upto 8).foldl (fun (x : Nat × Nat) i => (if b.testBit i then x.1 ^^^ x.2 else x.1, gfTwice x.2)) (0, a)).1

/-- The inverse in the AES field, the power 254; 0 for 0. -/
def gfInv (a : Nat) : Nat :=
  ((upto 7).foldl (fun (x : Nat × Nat) _ => let q := gfMul x.2 x.2; (gfMul x.1 q, q)) (1, a)).1

/-- The exclusive or of a byte's turns to the left. -/
def turns8 (l : List Nat) (a : Nat) : Nat := l.foldl (fun x n => x ^^^ ((a * 2 ^ n + a / 2 ^ (8 - n)) % 256)) 0

def subByte (a : Nat) : Nat := turns8 [0, 1, 2, 3, 4] (gfInv a) ^^^ 0x63
def unsubByte (a : Nat) : Nat := gfInv (turns8 [1, 3, 6] a ^^^ 0x05)

def xorNats (a b : List Nat) : List Nat := (a.zip b).map (fun e => e.1 ^^^ e.2)

/-- The key schedule of a 32-byte key: words of four bytes, `n` more from word `i` on. -/
def keyWords : Nat → Nat → List (List Nat) → List (List Nat)
  | 0, _, w => w
  | n + 1, i, w =>
    let t := w.getD (i - 1) []
    let t := if i % 8 = 0 then xorNats ((t.tail ++ t.take 1).map subByte) [(upto (i / 8 - 1)).foldl (fun r _ => gfTwice r) 1, 0, 0, 0]
      else if i % 8 = 4 then t.map subByte else t
    keyWords n (i + 1) (w ++ [xorNats (w.getD (i - 8) []) t])

/-- The sixteen bytes of a round key. -/
def roundKey (w : List (List Nat)) (r : Nat) : List Nat := ((w.drop (4 * r)).take 4).flatten

/-- One inverse round's rows and bytes: byte `r` of column `c` comes from column `c - r`. -/
def unshift (x : List Nat) : List Nat := (upto 16).map (fun i => unsubByte (x.getD (4 * ((i / 4 + 4 - i % 4) % 4) + i % 4) 0))

def unmix (x : List Nat) : List Nat :=
  (upto 16).map (fun i => (upto 4).foldl (fun a j =>
    a ^^^ gfMul (x.getD (4 * (i / 4) + j) 0) ([14, 11, 13, 9].getD ((j + 4 - i % 4) % 4) 0)) 0)

/-- The inverse cipher of one block under the words of a key schedule. -/
def aesInverse (w : List (List Nat)) (x : List Nat) : List Nat :=
  let y := (upto 13).foldl (fun y i => unmix (xorNats (unshift y) (roundKey w (13 - i)))) (xorNats x (roundKey w 14))
  xorNats (unshift y) (roundKey w 0)

/-- The integrity value of KW. -/
def wrapCheck : List Nat := List.replicate 8 0xA6

/-- One step of the unwrapping, `t` counting down: the block beside `a` is the last of `r`, which then goes first. -/
def unwrapSteps (w : List (List Nat)) : Nat → List Nat → List (List Nat) → List Nat × List (List Nat)
  | 0, a, r => (a, r)
  | t + 1, a, r =>
    let b := aesInverse w (xorNats a ((beBytes 8 (t + 1)).map (·.toNat)) ++ r.getLastD [])
    unwrapSteps w t (b.take 8) (b.drop 8 :: r.dropLast)

/-- The key that wrapped bytes hold under a 32-byte key; none where the check value differs. -/
def keyUnwrap (kek l : List Byte) : Option (List Byte) :=
  let n := l.length / 8 - 1
  let w := keyWords 52 8 ((piecesOf 4 8 kek).map (·.map (·.toNat)))
  let blocks := (piecesOf 8 (l.length / 8) l).map (·.map (·.toNat))
  if l.length % 8 ≠ 0 ∨ n < 2 ∨ kek.length ≠ 32 then none
  else
    let (a, r) := unwrapSteps w (6 * n) (blocks.headD []) blocks.tail
    if a = wrapCheck then some (r.flatten.map (BitVec.ofNat 8)) else none

end Sys2Proof
end

