-- ==== Sys2Proof/Machine/Wire.lean ====
section
/-! DEFINITION. The bytes of the fabric: headers, sub-headers, records and their ECRC (R92, R266, R271, R275, R285), and the
packets that a stream of flit contents spells. What the spec leaves to the engines has a layout of the model's own
(log 131). -/

namespace Sys2Proof

/-- A word of fields: value, low bit, width. -/
def fieldWord (l : List (Nat × Nat × Nat)) : Nat := l.foldl (fun a f => a + f.1 % 2 ^ f.2.2 * 2 ^ f.2.1) 0

def PType.code : PType → Nat
  | .data => 1
  | .exp => 2
  | .lanes => 3
  | .verdict => 4
  | .greq => 5
  | .cellar => 6
  | .beacon => 7
  | .link => 8
  | .ackf => 9
  | .reserved => 15

def PType.ofCode (n : Nat) : PType :=
  match n with
  | 1 => .data
  | 2 => .exp
  | 3 => .lanes
  | 4 => .verdict
  | 5 => .greq
  | 6 => .cellar
  | 7 => .beacon
  | 8 => .link
  | 9 => .ackf
  | _ => .reserved

/-! ### Data -/

/-- The collective sub-header (R271). -/
def SubHdr.bytes (x : SubHdr) : List Byte :=
  leBytes 8 (fieldWord [(x.gid, 52, 12), (x.attempt, 44, 8), (x.blk, 26, 18), (x.nblk, 23, 3), (x.ncon, 0, 23)])
    ++ leBytes 8 (fieldWord [(x.owner, 46, 18)])

def SubHdr.parse (l : List Byte) : SubHdr :=
  let a := BitVec.ofNat 64 (bytesAt l 0 8)
  ⟨fld a 52 12, fld a 44 8, fld a 26 18, fld a 23 3, fld a 0 23, bytesAt l 8 8 / 2 ^ 46⟩

/-- The EXP of a block that is no sum, the lanes of a maximum or minimum; no agreed exponent has it (log 131). -/
def expNoSum : BitVec 16 := 0x7FFF

/-- The 576 bytes of a VX64 block (R92). -/
def VxBlock.bytes (x : VxBlock) : List Byte :=
  (x.lanes.map (fun w => leBytes 8 w.toNat)).flatten
    ++ leBytes 8 (fieldWord [(if x.nanf then 1 else 0, 56, 1), (x.exp.toNat, 0, 16)])
    ++ leBytes 56 ((upto 64).foldl (fun a i => a + (x.res.getD i 0).toNat * 2 ^ (7 * i)) 0)

def VxBlock.parse (l : List Byte) : VxBlock :=
  let hd := BitVec.ofNat 64 (bytesAt l 512 8)
  let r := bytesAt l 520 56
  { lanes := (upto 64).map (fun i => BitVec.ofNat 64 (bytesAt l (8 * i) 8))
    res := if fld hd 0 16 = expNoSum.toNat then [] else (upto 64).map (fun i => BitVec.ofNat 7 (r / 2 ^ (7 * i)))
    nanf := bitAt hd 56, exp := BitVec.ofNat 16 (fld hd 0 16) }

/-- The HELLO record (R275). -/
def Hello.bytes (x : Hello) : List Byte :=
  leBytes 8 (fieldWord [(x.devid.toNat, 44, 20), (if x.valid then 1 else 0, 43, 1), (x.port.toNat, 38, 5), (x.build.toNat, 36, 2),
    (x.rev.toNat, 32, 4), (x.lepoch.toNat, 0, 32)]) ++ leBytes 8 x.serial.toNat

def Hello.parse (l : List Byte) : Hello :=
  let a := BitVec.ofNat 64 (bytesAt l 0 8)
  ⟨BitVec.ofNat 20 (fld a 44 20), bitAt a 43, BitVec.ofNat 5 (fld a 38 5), BitVec.ofNat 2 (fld a 36 2), BitVec.ofNat 4 (fld a 32 4),
    BitVec.ofNat 32 (fld a 0 32), BitVec.ofNat 64 (bytesAt l 8 8)⟩

/-- The beacon record (R285). -/
def beaconBytes (fepoch : BitVec 32) (orig : BitVec 20) (fclass : BitVec 8) : List Byte :=
  leBytes 4 fepoch.toNat ++ leBytes 4 orig.toNat ++ leBytes 8 fclass.toNat

/-- Numbers as 8-byte words, and read back: what engines exchange among themselves. -/
def wordsBytes (l : List Nat) : List Byte := (l.map (leBytes 8)).flatten
def bytesWords (l : List Byte) : List Nat := (upto (l.length / 8)).map (fun i => bytesAt l (8 * i) 8)

def boolNat (b : Bool) : Nat := if b then 1 else 0

def Verdict.words : Verdict → List Nat
  | .bucket st => [0, st]
  | .close n good m => [1, n, boolNat good, m]
  | .rollback m => [2, m]
  | .params e r c f m => [3, e, r, c.toNat, f, m]
  | .ready m => [4, m]

def Verdict.ofWords : List Nat → Option Verdict
  | [0, st] => some (.bucket st)
  | [1, n, good, m] => some (.close n (good == 1) m)
  | [2, m] => some (.rollback m)
  | [3, e, r, c, f, m] => some (.params e r (BitVec.ofNat 32 c) f m)
  | [4, m] => some (.ready m)
  | _ => none

def GReq.words : GReq → List Nat
  | .gather gid shard planes v cmd => [0, gid, shard, planes, boolNat v, cmd]
  | .noShard cmd => [1, cmd]
  | .recv gid m tag n cmd => [2, gid, m, tag, n, cmd]
  | .send gid m tag n cmd => [3, gid, m, tag, n, cmd]
  | .withdraw gid m cmd => [4, gid, m, cmd]
  | .moved cmd n tr => [5, cmd, n, boolNat tr]

def GReq.ofWords : List Nat → Option GReq
  | [0, gid, shard, planes, v, cmd] => some (.gather gid shard planes (v == 1) cmd)
  | [1, cmd] => some (.noShard cmd)
  | [2, gid, m, tag, n, cmd] => some (.recv gid m tag n cmd)
  | [3, gid, m, tag, n, cmd] => some (.send gid m tag n cmd)
  | [4, gid, m, cmd] => some (.withdraw gid m cmd)
  | [5, cmd, n, tr] => some (.moved cmd n (tr == 1))
  | _ => none

/-- The data of a packet (R271). -/
def Payload.data : Payload → List Byte
  | .bytes l => l
  | .stamp l nfmt planes len => l ++ leBytes 8 (nfmt + 16 * planes + 256 * len)
  | .exps sub crc elems rop l => sub.bytes ++ (l.map (fun e => leBytes 2 e.toNat)).flatten ++ leBytes 4 crc.toNat ++ leBytes 4 elems ++ leBytes 8 rop
  | .lanes sub l => sub.bytes ++ (l.map VxBlock.bytes).flatten
  | .verdict gid attempt v => wordsBytes (gid :: attempt :: v.words)
  | .greq q => wordsBytes q.words
  | .beacon e o c => beaconBytes e o c
  | .hello x => x.bytes
  | .rotate lane at' => wordsBytes [lane + 2 ^ 8 * at'.toNat]
  | .none => []

/-- How many bytes they are. -/
def bodyLen : Payload → Nat
  | .bytes l => l.length
  | .stamp l _ _ _ => l.length + 8
  | .exps _ _ _ _ l => 32 + 2 * l.length
  | .lanes _ l => 16 + 576 * l.length
  | .verdict _ _ v => 16 + 8 * v.words.length
  | .greq q => 8 * q.words.length
  | .beacon _ _ _ => 16
  | .hello _ => 16
  | .rotate _ _ => 8
  | .none => 0

/-- RW2 of a DATA packet that carries a stamp: no offset (log 131). -/
def stampOffset : Nat := 2 ^ 64 - 1

/-- What the data of a packet of this TYPE says; data of no such layout stay bytes. -/
def Payload.parse (t : PType) (rw2 : Nat) (l : List Byte) : Payload :=
  match t with
  | .data => if rw2 = stampOffset then .stamp (l.take (l.length - 8)) (bytesAt l (l.length - 8) 8 % 16)
      (bytesAt l (l.length - 8) 8 / 16 % 16) (bytesAt l (l.length - 8) 8 / 256) else .bytes l
  | .exp =>
    let sub := SubHdr.parse l
    .exps sub (BitVec.ofNat 32 (bytesAt l (16 + 2 * sub.nblk) 4)) (bytesAt l (20 + 2 * sub.nblk) 4) (bytesAt l (24 + 2 * sub.nblk) 8)
      ((upto sub.nblk).map (fun i => BitVec.ofNat 16 (bytesAt l (16 + 2 * i) 2)))
  | .lanes => .lanes (SubHdr.parse l) ((upto (SubHdr.parse l).nblk).map (fun i => VxBlock.parse ((l.drop (16 + 576 * i)).take 576)))
  | .verdict =>
    (match bytesWords l with
      | gid :: attempt :: v => ((Verdict.ofWords v).map (Payload.verdict gid attempt)).getD (.bytes l)
      | _ => .bytes l)
  | .greq => ((GReq.ofWords (bytesWords l)).map Payload.greq).getD (.bytes l)
  | .beacon => .beacon (BitVec.ofNat 32 (bytesAt l 0 4)) (BitVec.ofNat 20 (bytesAt l 4 4)) (BitVec.ofNat 8 (bytesAt l 8 1))
  | .link => if l.length = 16 then .hello (Hello.parse l) else .rotate (bytesAt l 0 1) (BitVec.ofNat 12 (bytesAt l 1 7))
  | .ackf => .none
  | .cellar => .bytes l
  | .reserved => .bytes l

/-! ### Headers and ECRC -/

/-- RW0 with the fields that a hop may change (R271). -/
def Packet.rw0 (k : Packet) (hidx path : Nat) (cong : Bool) : Nat :=
  fieldWord [(k.ddev.toNat, 44, 20), (k.sdev.toNat, 24, 20), (k.dbind, 18, 6), (k.sbind, 12, 6), (k.ptype.code, 8, 4), (hidx, 4, 4),
    (path, 2, 2), (boolNat cong, 1, 1)]

def Packet.rw1 (k : Packet) : Nat :=
  fieldWord ([(k.hops.length, 60, 4), (bodyLen k.body, 7, 13)] ++ k.hops.zipIdx.map (fun e => (e.1, 55 - 5 * e.2, 5)))

/-- ECRC (R271): HIDX, PATH and CONG count as zero, and the data of LANES and EXP do not. -/
def Packet.crc (k : Packet) : BitVec 32 :=
  crc32c (leBytes 8 (k.rw0 0 0 false) ++ leBytes 8 k.rw1 ++ leBytes 8 k.rw2.toNat ++ leBytes 2 k.xtag.toNat ++ leBytes 2 k.psn.toNat
    ++ (if k.ptype = .lanes ∨ k.ptype = .exp then [] else k.body.data))

/-- A packet with its ECRC. -/
def Packet.sealed (k : Packet) : Packet := { k with ecrc := k.crc }

def Packet.crcOk (k : Packet) : Bool := k.ecrc == k.crc

/-- The header, four little-endian words (R271). -/
def Packet.header (k : Packet) : List Byte :=
  leBytes 8 (k.rw0 k.hidx k.path k.cong) ++ leBytes 8 k.rw1 ++ leBytes 8 k.rw2.toNat
    ++ leBytes 8 (fieldWord [(k.psn.toNat, 48, 16), (k.xtag.toNat, 32, 16), (k.ecrc.toNat, 0, 32)])

/-- Content bytes of a packet: header and data, in whole 8-byte words (R266). -/
def packetContent (p : Packet) : Nat := 32 + cdiv (bodyLen p.body) 8 * 8

/-- A packet on the wire (R266). -/
def Packet.bytes (k : Packet) : List Byte :=
  k.header ++ k.body.data ++ List.replicate (packetContent k - 32 - bodyLen k.body) 0#8

/-- The packet a stream begins with, and how many bytes it takes; none while bytes are missing. -/
def Packet.parse (l : List Byte) : Option (Packet × Nat) :=
  let w0 := BitVec.ofNat 64 (bytesAt l 0 8)
  let w1 := BitVec.ofNat 64 (bytesAt l 8 8)
  let w2 := bytesAt l 16 8
  let w3 := BitVec.ofNat 64 (bytesAt l 24 8)
  let t := PType.ofCode (fld w0 8 4)
  let n := fld w1 7 13
  let size := 32 + cdiv n 8 * 8
  if l.length < 32 ∨ l.length < size then none
  else some (
    { ddev := BitVec.ofNat 20 (fld w0 44 20), sdev := BitVec.ofNat 20 (fld w0 24 20), dbind := fld w0 18 6, sbind := fld w0 12 6
      ptype := t, hidx := fld w0 4 4, path := fld w0 2 2, cong := bitAt w0 1
      hops := (upto (fld w1 60 4)).map (fun i => fld w1 (55 - 5 * i) 5)
      rw2 := BitVec.ofNat 64 w2, psn := BitVec.ofNat 16 (fld w3 48 16), xtag := BitVec.ofNat 16 (fld w3 32 16)
      ecrc := BitVec.ofNat 32 (fld w3 0 32), body := Payload.parse t w2 ((l.drop 32).take n) }, size)

/-- The packets that a stream spells, and the bytes of one that has not ended; zeros fill the rest of a flit (R266). -/
def takePackets : Nat → List Byte → List Packet × List Byte
  | 0, l => ([], l)
  | n + 1, l =>
    if l.length < 8 then ([], l)
    else if bytesAt l 0 8 = 0 then takePackets n (l.drop 8)
    else match Packet.parse l with
      | none => ([], l)
      | some (k, size) => let r := takePackets n (l.drop size); (k :: r.1, r.2)

end Sys2Proof
end

