-- ==== Sys2Proof/Machine/Ops.lean ====
section
/-! DEFINITION. Named operations over the state: numbering (R3, R14, R15), reading and writing threads, cores, halves,
ports and bindings, registers and tags (R25, R26), memory with its tags (R30, R206-R209, R217, R232), keeper records
(R285, R344), and the interrupt sources (R73). -/

namespace Sys2Proof.Machine

/-- What every command answers with when the spec gives it an effect. -/
abbrev Out := Host.Outcome State Fault Refusal

/-! ### Numbering -/

/-- Compute dies in a half (R2). -/
def Build.dies : Build → Nat
  | .t8 => 4
  | .t4 => 2
  | .t2 => 1

def Build.code : Build → Nat
  | .t8 => 0
  | .t4 => 1
  | .t2 => 2

def coreOf (g : Nat) : Nat := g / 16
def tidOf (g : Nat) : Nat := g % 16
def halfOfCore (c : Nat) : Nat := c / 256
def dieOfCore (c : Nat) : Nat := c / 64
def halfOfStack (n : Nat) : Nat := n / 8
def dieOfStack (n : Nat) : Nat := n / 8 * 4 + n % 8 / 2
def halfOfPort (p : Nat) : Nat := p / 12
def stackOfGranule (g : Nat) : Nat := g / 48

/-- Whether a core is populated on this build (R3). -/
def corePresent (b : Build) (c : Nat) : Bool := decide (c < 512) && decide (c % 256 / 64 < b.dies)
def diePresent (b : Build) (d : Nat) : Bool := decide (d < 8) && decide (d % 4 < b.dies)
def stackPresent (b : Build) (n : Nat) : Bool := decide (n < 16) && decide (n % 8 / 2 < b.dies)
def granulePresent (b : Build) (g : Nat) : Bool := stackPresent b (stackOfGranule g)
def threadPresent (b : Build) (g : Nat) : Bool := corePresent b (coreOf g)

/-- Unit identifier of R15. -/
def unitId (cls idx : Nat) : BitVec 16 := BitVec.ofNat 16 (cls * 4096 + idx)
def unitClass (u : BitVec 16) : Nat := fld u 12 4
def unitIdx (u : BitVec 16) : Nat := fld u 0 12

/-- Whether a unit identifier names a unit of this build (R15). -/
def unitPresent (b : Build) (u : BitVec 16) : Bool :=
  let i := unitIdx u
  match unitClass u with
  | 0 => corePresent b i
  | 1 => stackPresent b i
  | 2 => decide (i < 24)
  | 3 => decide (i = 0)
  | 4 => decide (i < 4)
  | 5 => decide (i < 2)
  | 6 => diePresent b i
  | 7 => decide (i < 2)
  | 8 => decide (i < 2)
  | _ => false

/-- Half that a unit lies in. -/
def unitHalf (u : BitVec 16) : Nat :=
  let i := unitIdx u
  match unitClass u with
  | 0 => i / 256
  | 1 => i / 8
  | 2 => i / 12
  | 4 => i / 2
  | 6 => i / 4
  | _ => i % 2

/-! ### Parts of the state -/

def State.thread (s : State) (g : Nat) : Thread := FMap.get Thread.reset s.threads g
def State.setThread (s : State) (g : Nat) (t : Thread) : State :=
  { s with threads := FMap.set Thread.reset s.threads g t }
def State.core (s : State) (c : Nat) : Core := FMap.get Core.reset s.cores c
def State.setCore (s : State) (c : Nat) (k : Core) : State := { s with cores := FMap.set Core.reset s.cores c k }
def State.half (s : State) (h : Nat) : Half := if h = 0 then s.half0 else s.half1
def State.setHalf (s : State) (h : Nat) (x : Half) : State :=
  if h = 0 then { s with half0 := x } else { s with half1 := x }
def State.port (s : State) (p : Nat) : Port := FMap.get Port.reset s.ports p
def State.setPort (s : State) (p : Nat) (x : Port) : State := { s with ports := FMap.set Port.reset s.ports p x }
def State.binding (s : State) (b : Nat) : Binding := FMap.get Binding.empty s.bindings b
def State.setBinding (s : State) (b : Nat) (x : Binding) : State :=
  { s with bindings := FMap.set Binding.empty s.bindings b x }
def Half.die (h : Half) (d : Nat) : Die := FMap.get Die.reset h.dies (d % 4)
def Half.setDie (h : Half) (d : Nat) (x : Die) : Half := { h with dies := FMap.set Die.reset h.dies (d % 4) x }
def Half.hbm (h : Half) (n : Nat) : Stack := FMap.get Stack.reset h.hbms (n % 8)
def Half.setHbm (h : Half) (n : Nat) (x : Stack) : Half := { h with hbms := FMap.set Stack.reset h.hbms (n % 8) x }
def Half.ring (h : Half) (f : Nat) : Ring := FMap.get Ring.reset h.rings f
def Half.setRing (h : Half) (f : Nat) (x : Ring) : Half := { h with rings := FMap.set Ring.reset h.rings f x }

/-- Every core number that is listed, changed by `f`. -/
def State.mapCores (s : State) (f : Nat → Core → Core) : State :=
  s.cores.foldl (fun a e => a.setCore e.1 (f e.1 (s.core e.1))) s

/-- Every thread that is listed, changed by `f`. -/
def State.mapThreads (s : State) (f : Nat → Thread → Thread) : State :=
  s.threads.foldl (fun a e => a.setThread e.1 (f e.1 (s.thread e.1))) s

/-- Every binding that is listed, changed by `f`. -/
def State.mapBindings (s : State) (f : Nat → Binding → Binding) : State :=
  s.bindings.foldl (fun a e => a.setBinding e.1 (f e.1 (s.binding e.1))) s

/-- The binding that holds a core. -/
def State.bindingOf (s : State) (c : Nat) : Option Nat := (s.core c).binding

/-- The cores a binding holds, in number order. -/
def State.coresOf (s : State) (b : Nat) : List Nat :=
  (s.cores.map (·.1)).filter (fun c => (s.core c).binding == some b)

def State.granOwner (s : State) (g : Nat) : Option Nat := FMap.get none s.owner g

/-- The granules a binding holds, in number order. -/
def State.granulesOf (s : State) (b : Nat) : List Nat := (s.owner.map (·.1)).filter (fun g => s.granOwner g == some b)

/-- Put a value on the register read port: what the last read command returned. -/
def State.answer (s : State) (l : List Word) : State := { s with readPort := l }

/-- Draw a free value and advance the counter (log 1). -/
def State.draw (s : State) : Word × State := (Config.freeWord s.free, { s with free := s.free + 1 })

/-! ### The two halves (R12, R289) -/

def State.linkUp (s : State) : Bool := decide (s.half0.link = .up)

/-- Change both halves. -/
def State.bothHalves (s : State) (f : Half → Half) : State := { s with half0 := f s.half0, half1 := f s.half1 }

/-- Half `h`'s keeper changes tables that both halves hold copies of (R289 class CTRL): the copy reaches the other half at once
while the link is UP, else when it returns (R12; log 136). -/
def State.ctrl (s : State) (h : Nat) (f : Half → Half) : State :=
  if s.linkUp then s.bothHalves f else s.setHalf h { f (s.half h) with owes := true }

/-! ### Registers and tags -/

def tagCode : Tag → Nat
  | .int => 0
  | .fp64 => 1
  | .ptr => 2
  | .desc => 3
  | .pend => 4
  | .pred => 5
  | .ret => 6
  | .smry => 7
  | .inval => 14

/-- The tag a stored code names; none for a reserved code (R25). -/
def tagOfCode (n : Nat) : Option Tag :=
  match n with
  | 0 => some .int
  | 1 => some .fp64
  | 2 => some .ptr
  | 3 => some .desc
  | 4 => some .pend
  | 5 => some .pred
  | 6 => some .ret
  | 7 => some .smry
  | 14 => some .inval
  | _ => none

/-- Register codes: those of R42, with 0x60 to 0x63 for the summary registers inside the model. -/
def codeLnk : Nat := 0x20
def codeV (v : Nat) : Nat := 0x40 + v
def codeSm (i : Nat) : Nat := 0x60 + i

/-- What CR_ETVAL shows for a register code (R42; summary registers: log 12). -/
def regEtval (code : Nat) : Nat := if code < 0x60 then code else (Config.smCode (code - 0x60)).toNat

/-- A code that names a scalar, link or summary register (R42; log 12). -/
def isRegCode (code : Nat) : Bool := decide (code ≤ codeLnk) || decide (0x60 ≤ code)

/-- Read a scalar, link or summary register by code. -/
def Thread.reg (t : Thread) (code : Nat) : TReg :=
  if code = 0 then TReg.zero
  else if code < 32 then FMap.get TReg.reset t.regs code
  else if code = codeLnk then t.lnk
  else if 0x60 ≤ code then FMap.get TReg.reset t.sm (code - 0x60)
  else TReg.reset

/-- Write a scalar, link or summary register by code; a write to `s0` is discarded (R26). -/
def Thread.setReg (t : Thread) (code : Nat) (v : TReg) : Thread :=
  if code = 0 then t
  else if code < 32 then { t with regs := FMap.set TReg.reset t.regs code v }
  else if code = codeLnk then { t with lnk := v }
  else if 0x60 ≤ code then { t with sm := FMap.set TReg.reset t.sm (code - 0x60) v }
  else t

def Thread.vreg (t : Thread) (v : Nat) : VReg := FMap.get 0#2048 t.vregs v
def Thread.setVreg (t : Thread) (v : Nat) (x : VReg) : Thread := { t with vregs := FMap.set 0#2048 t.vregs v x }

/-- Whether a code names a vector register. -/
def isVCode (code : Nat) : Bool := decide (0x40 ≤ code) && decide (code < 0x60)

/-- Whether a register holds PEND, or its pending bit (R25, R31). -/
def Thread.isPend (t : Thread) (code : Nat) : Bool :=
  if isVCode code then t.vpend.getLsbD (code - 0x40) else decide ((t.reg code).tag = .pend)

/-- Mark a destination: PEND, or its pending bit (R31, R36, R37). -/
def Thread.markPend (t : Thread) (code : Nat) : Thread :=
  if isVCode code then { t with vpend := t.vpend ||| BitVec.ofNat 32 (2 ^ (code - 0x40)) }
  else t.setReg code ⟨.pend, (t.reg code).val⟩

def Thread.markAll (t : Thread) (codes : List Nat) : Thread := codes.foldl Thread.markPend t

/-- Clear the pending bit of a vector register. -/
def Thread.clearV (t : Thread) (v : Nat) : Thread :=
  { t with vpend := t.vpend &&& ~~~(BitVec.ofNat 32 (2 ^ v)) }

/-- Make a destination INVAL, as a reported fault does (R40). A vector register has no tag; its pending bit clears. -/
def Thread.invalidate (t : Thread) (code : Nat) : Thread :=
  if isVCode code then t.clearV (code - 0x40) else t.setReg code ⟨.inval, (t.reg code).val⟩

/-- Write one fixed-distance result. -/
def Thread.commit1 (t : Thread) (r : FixedRes) : Thread :=
  if isVCode r.dst then (t.setVreg (r.dst - 0x40) r.vec).clearV (r.dst - 0x40) else t.setReg r.dst r.val

/-- The results that commit at the start of the thread's present slot (R36). -/
def Thread.commitDue (t : Thread) : Thread :=
  let due := t.fixed.filter (fun r => decide (r.due ≤ t.slot))
  due.foldl Thread.commit1 { t with fixed := t.fixed.filter (fun r => !decide (r.due ≤ t.slot)) }

/-- Every fixed-distance result at once, as trap entry commits them (R41). -/
def Thread.commitAll (t : Thread) : Thread := t.fixed.foldl Thread.commit1 { t with fixed := [] }

def Thread.ticket (t : Thread) (i : Nat) : Ticket := FMap.get Ticket.free t.tickets i
def Thread.setTicket (t : Thread) (i : Nat) (k : Ticket) : Thread :=
  { t with tickets := FMap.set Ticket.free t.tickets i k }

/-- BUSY and FAULT of a ticket (R39). -/
def Ticket.busy (k : Ticket) : Bool := !k.ops.isEmpty
def Ticket.faulted (k : Ticket) : Bool := k.fault.isSome

def maskOf (p : Nat → Bool) (n : Nat) : Nat := (List.range n).foldl (fun a i => if p i then a + 2 ^ i else a) 0

/-- CR_TKSTAT (R39). -/
def Thread.tkstat (t : Thread) : Word :=
  BitVec.ofNat 64 (maskOf (fun i => (t.ticket i).busy) 16 + 2 ^ 16 * maskOf (fun i => (t.ticket i).faulted) 16)

/-- The tickets a 16-bit mask names; zero names all (R39). -/
def ticketsNamed (mask : Nat) : List Nat :=
  (List.range 16).filter (fun i => mask % 2 ^ 16 == 0 || (BitVec.ofNat 16 mask).getLsbD i)

/-! ### Memory -/

/-- The check found an unrecoverable error. -/
def Parity.isLost : Parity → Bool
  | .lost _ => true
  | _ => false

/-- Physical address of the failing 32-bit word of an item of `n` bytes at `a` (R229, R230). -/
def Parity.failing (p : Parity) (a n : Nat) : Nat :=
  match p with
  | .lost k => (a / 4 + k % ((a + n - 1) / 4 + 1 - a / 4)) * 4
  | _ => a

/-- Word `k` of pieces of bytes, in 32-bit words. -/
def pieceWord : List (Nat × Nat) → Nat → Nat
  | [], _ => 0
  | p :: ps, k => let n := (p.1 + p.2 + 3) / 4 - p.1 / 4; if k < n then (p.1 / 4 + k) * 4 else pieceWord ps (k - n)

/-- Physical address of the failing 32-bit word of an item in pieces (R229, R230). -/
def Parity.failingOf (p : Parity) (l : List (Nat × Nat)) : Nat :=
  match p with
  | .lost k => pieceWord l (k % max 1 ((l.map (fun p => (p.1 + p.2 + 3) / 4 - p.1 / 4)).foldl (· + ·) 0))
  | _ => ((l.head?).map (·.1)).getD 0

/-- What a physical address names (R208, R209). -/
inductive PhysKind where
  | hbm (granule : Nat)
  | press (core off : Nat)
  | ctl (off : Nat)
  | none
deriving DecidableEq, Repr

def pressBase : Nat := 0xE0000000000
def ctlBase : Nat := 0xF0000000000

/-- The local physical address map (R206, R209); unpopulated units read as absent (R208). -/
def physKind (s : State) (a : Nat) : PhysKind :=
  if a < 0xC0000000000 then
    (if granulePresent s.build (a / 2 ^ 30) && !s.retired.contains (stackOfGranule (a / 2 ^ 30)) then .hbm (a / 2 ^ 30) else .none)
  else if pressBase ≤ a ∧ a < pressBase + 0x40000000 then
    (if corePresent s.build ((a - pressBase) / 0x200000) then .press ((a - pressBase) / 0x200000) ((a - pressBase) % 0x200000) else .none)
  else if ctlBase ≤ a ∧ a < ctlBase + 2 ^ 36 then .ctl (a - ctlBase)
  else .none

def isPress (a : Nat) : Bool := decide (pressBase ≤ a) && decide (a < pressBase + 0x40000000)

def State.byte (s : State) (a : Nat) : Byte := FMap.get 0#8 s.mem a
def State.readBytes (s : State) (a n : Nat) : List Byte := FMap.getRun 0#8 s.mem a n
def State.readNat (s : State) (a n : Nat) : Nat := leNat (s.readBytes a n)
def State.readWord (s : State) (a : Nat) : Word := BitVec.ofNat 64 (s.readNat a 8)

/-- The tag of the press word that holds an address (R30). -/
def State.tagAt (s : State) (a : Nat) : BitVec 4 := FMap.get 0#4 s.tags (a / 8)

/-- The word numbers that `n` bytes at `a` touch. -/
def wordsTouched (a n : Nat) : List Nat := if n = 0 then [] else (List.range ((a + n - 1) / 8 + 1 - a / 8)).map (· + a / 8)

/-- Set the tags of press words (R30): every write but `stt` leaves INT. -/
def State.setTags (s : State) (a n : Nat) (t : BitVec 4) : State :=
  if isPress a then { s with tags := (wordsTouched a n).foldl (fun m w => FMap.set 0#4 m w t) s.tags } else s

/-- The 128-byte lines that `n` bytes at `a` touch. -/
def linesTouched (a n : Nat) : List Nat := if n = 0 then [] else (List.range ((a + n - 1) / 128 + 1 - a / 128)).map (· + a / 128)

/-- A physical address that HBM of this build answers (R206, R208). -/
def State.isHbm (s : State) (a : Nat) : Bool :=
  match physKind s a with
  | .hbm _ => true
  | _ => false

/-- The word that the check of `n` bytes at `a` found bad: the one the check names, else the first on a poisoned line
(R230, R232). -/
def State.badWord (s : State) (par : Parity) (a n : Nat) : Nat :=
  match par with
  | .lost _ => Parity.failing par a n
  | _ =>
    match (linesTouched a n).find? s.poison.contains with
    | some l => max (a / 4 * 4) (l * 128)
    | none => a / 4 * 4

/-! ### Caches (R207, R214-R217, R228) -/

/-- The pseudo-channel of its stack in which an address lies; the same bits select the home L2 slice on the home die
(R207). -/
def pseudoChannel (a : Nat) : Nat := a / 2 ^ 7 % 64 ^^^ a / 2 ^ 13 % 64

/-- The die whose L2 caches a line of HBM, and the slice (R207, R216). -/
def homeSlice (line : Nat) : Nat × Nat := (dieOfStack (stackOfGranule (line * 128 / 2 ^ 30)), pseudoChannel (line * 128))

/-- Lines of an L2 slice: 2 MiB of 128 bytes (R216). -/
def sliceLines : Nat := 16384

/-- A line is used at its home L2 slice: it is held, dirty once it has been written and not yet written back; a full slice
writes back and drops its oldest line (R216; log 117). -/
def State.l2Use (s : State) (dirty : Bool) (line : Nat) : State :=
  if s.isHbm (line * 128) then
    let was := s.l2.contains (line, true)
    let rest := s.l2.filter (fun e => decide (e.1 ≠ line))
    let full := (rest.filter (fun e => decide (homeSlice e.1 = homeSlice line))).drop (sliceLines - 1)
    { s with l2 := (line, dirty || was) :: rest.filter (fun e => !full.contains e) }
  else s

/-- The only copy of a line of HBM is a dirty line of the L2 (R216, R229). -/
def State.dirtyAt (s : State) (a : Nat) : Bool := s.l2.contains (a / 128, true)

/-- The L1s that the directory of a line's home slice records: every one that holds a copy (R216). -/
def State.directory (s : State) (line : Nat) : List Nat := (s.cores.map (·.1)).filter (fun c => (s.core c).l1.contains line)

/-- A core sends a line request that missed its L1 (R215, R228). -/
def Core.request (k : Core) (scalar : Bool) (line : Nat) : Core :=
  if k.reqs.any (fun e => decide (e.1 = line)) then k else { k with reqs := k.reqs ++ [(line, scalar)] }

/-- A read of `n` bytes at `a` by core `c` takes its path (R214, R215): an L1 hit goes no further; a miss reaches the home L2
slice, and a line of the core's own half is requested for the L1. -/
def State.cached (s : State) (c : Nat) (scalar : Bool) (a n : Nat) : State :=
  (linesTouched a n).foldl (fun s l =>
    if (s.core c).l1.contains l || !s.isHbm (l * 128) then s
    else
      let s := s.l2Use false l
      if halfOfStack (stackOfGranule (l * 128 / 2 ^ 30)) = halfOfCore c then s.setCore c ((s.core c).request scalar l) else s) s

/-- The request table holds an entry for a line (R228): 256 entries, 16 of them for fetch and scalar instructions, the
others in the order of request; later requests wait. -/
def Core.requested (k : Core) (line : Nat) : Bool :=
  ((k.reqs.filter (·.2)).take 256).contains (line, true) || ((k.reqs.filter (fun e => !e.2)).take 240).contains (line, false)

/-- Every other L1 copy of the lines, as the directory records them, is invalidated before a write is performed (R217). -/
def State.invalidateL1 (s : State) (keep : Nat) (a n : Nat) : State :=
  s.mapCores (fun c k => if c = keep then k else { k with l1 := k.l1.filter (fun l => !(linesTouched a n).contains l) })

/-- Poison clears on lines that one request covers whole (R232). -/
def State.clearPoison (s : State) (a n : Nat) : State :=
  { s with poison := s.poison.filter (fun l => !(decide (a ≤ l * 128) && decide (l * 128 + 128 ≤ a + n))) }

/-- Write bytes at a physical address, for core `c` (512 for an engine that is no core): the L1 copies of other cores
go, the home L2 lines become dirty, press tags become INT, and a wholly covered line loses its poison. -/
def State.writeBytes (s : State) (c a : Nat) (l : List Byte) : State :=
  let s := (linesTouched a l.length).foldl (State.l2Use · true) (s.invalidateL1 c a l.length)
  let s := { s with mem := FMap.setRun 0#8 s.mem a l }
  (s.setTags a l.length 0).clearPoison a l.length

def State.writeNat (s : State) (c a n v : Nat) : State := s.writeBytes c a (leBytes n v)

/-- Whether bytes lie on a poisoned line (R232). -/
def State.poisoned (s : State) (a n : Nat) : Bool := (linesTouched a n).any s.poison.contains

/-- Zero a range (R333), tags INT. -/
def State.scrubRange (s : State) (lo n : Nat) : State :=
  { s with mem := FMap.clear s.mem lo (lo + n), tags := FMap.clear s.tags (lo / 8) ((lo + n) / 8),
           l2 := s.l2.filter (fun e => decide (e.1 * 128 < lo) || decide (lo + n ≤ e.1 * 128)),
           poison := s.poison.filter (fun l => decide (l * 128 < lo) || decide (lo + n ≤ l * 128)) }

def pressAddr (c off : Nat) : Nat := pressBase + c * 0x200000 + off

/-! ### Port outputs (R266, R268, R282) -/

/-- Virtual channel of a packet that leaves with HIDX already raised (R282). -/
def packetVc (p : Packet) : Nat := if p.ptype = .beacon then 3 else (p.hidx - 1) / 2

/-- The credits a packet takes, in 64-byte units (R266, R282). -/
def packetUnits (k : Packet) : Nat := cdiv (packetContent k) 64

/-- LINK packets alone pass a port that is trained and not UP (R274, R276). -/
def Port.mayCarry (p : Port) (k : Packet) : Bool :=
  p.state == .up || (k.ptype == .link && (p.state == .linkOnly || p.state == .miswired || p.state == .mismatch))

def Port.credit (p : Port) (vc : Nat) : Nat := FMap.get 0 p.credits vc
def Port.owes (p : Port) (vc : Nat) : Nat := FMap.get 0 p.owed vc

/-- The channel whose credits the next flit returns: the lowest that owes any (log 32). -/
def Port.returnVc (p : Port) : Nat := ((upto 4).find? (fun v => decide (p.owes v ≠ 0))).getD 0

/-- Send one flit with this content (R266, R268): it takes the next SEQ, acknowledges the last flit received in order,
carries a NAK that is due and returns credits. -/
def Port.sendFlit (p : Port) (content : List Byte) : Port :=
  let vc := p.returnVc
  let cret := min 31 (p.owes vc)
  let f : Flit := ⟨p.txSeq, p.rxSeq - 1, p.nakDue, BitVec.ofNat 2 vc, BitVec.ofNat 5 cret, true, 0,
    content ++ List.replicate (240 - content.length) 0#8⟩
  { p with txSeq := p.txSeq + 1, nakDue := false, owed := FMap.set 0 p.owed vc (p.owes vc - cret)
           replayBuf := p.replayBuf ++ [f], wire := p.wire ++ [f] }

/-- Send a run of content bytes as `n` flits. -/
def Port.sendBytes (p : Port) (n : Nat) (l : List Byte) : Port :=
  (upto n).foldl (fun p i => p.sendFlit ((l.drop (240 * i)).take 240)) p

/-- Content bytes of packets end to end (R266). -/
def contentOf (l : List Packet) : Nat := (l.map packetContent).foldl (· + ·) 0

/-- Whether the next packet of the queue goes out now, behind those in `out` (R266, R268, R282): the port carries it and is in
no retrain, no earlier one of its channel waits, its channel has the credits and the replay buffer the room. -/
def Port.sendsNow (p : Port) (out : List Packet) (k : Packet) : Bool :=
  !p.retraining && p.mayCarry k && p.outQ.all (fun w => decide (packetVc w ≠ packetVc k) || !p.mayCarry w)
    && decide (packetUnits k ≤ p.credit (packetVc k)) && decide (p.replayBuf.length + cdiv (contentOf out + packetContent k) 240 ≤ 512)

/-- What of the queue goes out and what stays. -/
def Port.choose (p : Port) : Port × List Packet :=
  p.outQ.foldl (fun (a : Port × List Packet) k =>
    if a.1.sendsNow a.2 k then
      ({ a.1 with credits := FMap.set 0 a.1.credits (packetVc k) (a.1.credit (packetVc k) - packetUnits k) }, a.2 ++ [k])
    else ({ a.1 with outQ := a.1.outQ ++ [k] }, a.2)) ({ p with outQ := [] }, [])

/-- Send what the output queue holds, in order, as far as credits and the replay buffer go, packed end to end (R266, R268,
R282). -/
def Port.pump (p : Port) : Port :=
  let r := p.choose
  r.1.sendBytes (cdiv (contentOf r.2) 240) (r.2.map Packet.bytes).flatten

/-- Put a packet on a port's output. -/
def State.output (s : State) (p : Nat) (k : Packet) : State :=
  s.setPort p ({ s.port p with outQ := (s.port p).outQ ++ [k] }).pump

/-! ### Keeper records -/

def State.fepoch (s : State) (u : BitVec 16) : BitVec 32 := FMap.get 0#32 s.fepochs u.toNat

/-- The PF's rings as the keepers post to them: the primary half's copy, else that of a half whose event ring is enabled
(R309, R311). -/
def State.pfRing (s : State) : Ring :=
  if s.half1.pstate = .primary then s.half1.ring 0 else if s.half0.pstate = .primary then s.half0.ring 0
  else if (s.half0.ring 0).evqEn then s.half0.ring 0 else s.half1.ring 0

def State.evqOn (s : State) : Bool := s.pfRing.evqEn

/-- Records of the event ring (R311). -/
def State.evqSize (s : State) : Nat := 2 ^ s.pfRing.logn.toNat

/-- Whether the event ring is full, once it has been filled for the first time: no register tells the device what the host
has read, so that is a free value (R339; log 137). -/
def State.evqFull (s : State) : Bool × State :=
  if s.evNext < s.evqSize then (false, s) else (s.draw.1.getLsbD 0, s.draw.2)

/-- Two beacon records of one key combine their counts (R339). -/
def EvRec.combines (a b : EvRec) : Bool :=
  decide (a.type = 1 ∧ b.type = 1 ∧ a.unit = b.unit ∧ a.fepoch = b.fepoch ∧ a.orig = b.orig)

/-- A record takes the next slot of the ring, with MSI-X vector 1 (R339). -/
def State.pushEvent (s : State) (e : EvRec) : State :=
  { s with events := s.events ++ [⟨s.evNext % s.evqSize, decide ((s.evNext / s.evqSize + 1) % 2 = 1), e⟩], evNext := s.evNext + 1,
           msix := s.msix ++ [(0, 1)] }

/-- A record waits in the keeper, where beacon records of one key combine (R339). -/
def State.holdEvent (s : State) (e : EvRec) : State :=
  if s.evWait.any (fun x => x.combines e) then
    { s with evWait := s.evWait.map (fun x => if x.combines e then { x with count := x.count + e.count } else x) }
  else { s with evWait := s.evWait ++ [e] }

/-- Records go to the PF event ring in order, as far as it takes them; the others wait (R339). -/
def State.placeEvents (s : State) (l : List EvRec) : State :=
  l.foldl (fun s e =>
    if s.evqOn && s.evWait.isEmpty then (if s.evqFull.1 then s.evqFull.2.holdEvent e else s.evqFull.2.pushEvent e) else s.holdEvent e) s

/-- Records that waited are posted once the ring takes them. -/
def State.flushEvents (s : State) : State := if s.evqOn then { s with evWait := [] }.placeEvents s.evWait else s

/-- Post an event record, behind those that wait (R339). -/
def State.postEvent (s : State) (e : EvRec) : State := s.flushEvents.placeEvents [e]

/-- Interrupt 0x23 goes to a binding with a partner entry for the device, and to all for the own device (R286). -/
def State.beaconIrq (s : State) (odev : BitVec 20) : State :=
  s.mapBindings (fun b x =>
    if x.live && (odev == s.devid || (s.half0.partners0 ++ s.half1.partners0).any (fun e => e.2.valid && e.2.bind == b && e.2.ddev == odev))
    then { x with bcnPend := true } else x)

/-- A beacon packet as its originator sends it, with its own DEVID as ORIG (R285). -/
def beaconPacket (s : State) (k : BeaconKey) : Packet :=
  Packet.sealed
  { ddev := 0xF_FFFF, sdev := s.devid, dbind := 0, sbind := 0, ptype := .beacon, hidx := 0, path := 0, cong := false,
    hops := [], rw2 := BitVec.ofNat 64 (k.odev.toNat * 2 ^ 44 + k.unit.toNat * 2 ^ 28), psn := 0, xtag := 0,
    ecrc := 0, body := .beacon k.fepoch s.devid k.fclass }

def BeaconKey.same (k e : BeaconKey) : Bool := e.odev == k.odev && e.unit == k.unit && e.fepoch == k.fepoch

/-- A half's table counts one more copy of a key. -/
def Half.countKey (x : Half) (k : BeaconKey) : Half :=
  { x with keyTable := x.keyTable.map (fun e => if k.same e then { e with count := e.count + 1 } else e) }

/-- Forward a beacon with HIDX raised out of every UP port except the one of arrival; the other half's ports are reached over
the half link (R12, R286). -/
def State.floodBeacon (s : State) (h : Nat) (q : Packet) (fromPort : Nat) : State :=
  if q.hidx < 15 then
    (List.range 24).foldl (fun a p =>
      if p ≠ fromPort ∧ (a.port p).state = .up ∧ (halfOfPort p = h ∨ (a.half h).link = .up) then a.output p { q with hidx := q.hidx + 1 } else a) s
  else s

/-- Steps 1 and 2 of R286 for a key that arrives at half `h` in packet `q` on port `fromPort` (24 for an own beacon). The
device acts once for each key: the other half's table is looked up too while the half link is UP. -/
def State.enterBeacon (s : State) (h : Nat) (k : BeaconKey) (q : Packet) (fromPort : Nat) : State :=
  let x := s.half h
  let absorb := { x with bcnAbs := satAdd x.bcnAbs 1 }
  if x.keyTable.any k.same then s.setHalf h (absorb.countKey k)
  else if x.link = .up ∧ (s.half (1 - h)).keyTable.any k.same then
    (s.setHalf h absorb).setHalf (1 - h) ((s.half (1 - h)).countKey k)
  else if x.keyTable.length < 1024 then
    ((s.setHalf h { x with keyTable := x.keyTable ++ [{ k with count := 1 }] }).floodBeacon h q fromPort).beaconIrq k.odev
  else (s.setHalf h { x with bcnOvf := satAdd x.bcnOvf 1 }).floodBeacon h q fromPort

/-- A device originates a beacon (R285). -/
def State.originate (s : State) (h : Nat) (k : BeaconKey) : State := s.enterBeacon h k (beaconPacket s k) 24

/-- The physical position in its die of the core that carries a number (R10). -/
def State.physOf (s : State) (u : BitVec 16) : Option Nat :=
  if unitClass u = 0 then some (if (s.core (unitIdx u)).phys = 0 then unitIdx u % 64 else (s.core (unitIdx u)).phys - 1) else none

/-- Keep a fault record (R375): the last 64 of the half. -/
def Half.addFault (x : Half) (f : FaultRec) : Half := { x with faults := (x.faults ++ [f]).drop (x.faults.length + 1 - 64) }

/-- The keeper records a fault of a unit, at a position within it where one is known: its fault epoch rises, the record is
kept (R10, R15, R285, R375), and a beacon of the class is originated. -/
def State.recordFaultAt (s : State) (u : BitVec 16) (fclass : Nat) (pos : Option Nat) : State :=
  let e := s.fepoch u + 1
  let h := unitHalf u
  let s := { s with fepochs := FMap.set 0#32 s.fepochs u.toNat e }
  let s := s.setHalf h ((s.half h).addFault ⟨u, e, s.physOf u, pos⟩)
  s.originate h ⟨s.devid, u, e, BitVec.ofNat 8 fclass, 0⟩

def State.recordFault (s : State) (u : BitVec 16) (fclass : Nat) : State := s.recordFaultAt u fclass none

/-- The first thread of a launch that is stopped other than by `tend` is what its RESULT will hold (R324). -/
def State.noteStop (s : State) (g : Nat) : State :=
  match (s.thread g).launch with
  | none => s
  | some j => { s with cmds := s.cmds.map (fun c => if c.jseq = j ∧ c.result = [] then { c with result := leBytes 8 g ++ leBytes 8 0 } else c) }

/-! ### Interrupt sources (R73) -/

/-- Whether a thread is its binding's interrupt thread. -/
def State.isIrqThread (s : State) (g : Nat) : Bool :=
  match s.bindingOf (coreOf g) with
  | some b => decide ((s.binding b).irqThread = tidOf g)
  | none => decide (tidOf g = 0)

/-- IPEND of a thread (R63, R73): bit i is interrupt 0x20 + i. -/
def State.ipend (s : State) (g : Nat) : BitVec 6 :=
  let t := s.thread g
  let c := coreOf g
  let h := s.half (halfOfCore c)
  let irq := s.isIrqThread g
  let timer := t.tcmpEn && decide (t.tcmp.toNat ≤ h.time.toNat % 2 ^ 63)
  let door := irq && decide ((s.core c).dbstat ≠ 0)
  let bcn := irq && (match s.bindingOf c with
    | some b => (s.binding b).bcnPend
    | none => false)
  BitVec.ofNat 6 (b2n timer + 2 * b2n door + 4 * b2n t.cirq + 8 * b2n bcn + 16 * b2n (irq && decide (h.event ≠ 0))
    + 32 * b2n (irq && decide (h.pwEvent ≠ 0)))

/-- Raise bits of HL_EVENT (R307). -/
def Half.raise (h : Half) (bits : BitVec 4) : Half := { h with event := h.event ||| bits }
def evPchg : BitVec 4 := 1
def evLinkDown : BitVec 4 := 2
def evLinkUp : BitVec 4 := 4
def evSplit : BitVec 4 := 8

end Sys2Proof.Machine
end

