-- ==== Sys2Proof/Machine/Operands.lean ====
section
/-! DEFINITION. Operand forms and checks: the synchronous conditions with their priorities (R57), the register checks
of R27 with the tags of R28, tickets (R39, R40), and the second source of the ALU forms (R28, R50). -/

namespace Sys2Proof.Machine

/-! ### Conditions -/

/-- A synchronous condition: ten times its priority in R57 (the group checks of R138 add their order), cause, CR_ETVAL, and the ticket whose deferred fault it reports. -/
structure Cond where
  prio : Nat
  cause : Nat
  etval : Word
  tk : Option Nat
deriving DecidableEq, Repr

def cIllegal (w : Word) : Cond := ⟨30, 0x01, w, none⟩
def cPrivReg (n : Nat) : Cond := ⟨40, 0x04, BitVec.ofNat 64 n, none⟩
def cNotReadyReg (code : Nat) : Cond := ⟨50, 0x03, BitVec.ofNat 64 (regEtval code), none⟩
def cNotReadyTk (i : Nat) : Cond := ⟨50, 0x03, BitVec.ofNat 64 (256 + i), none⟩
def cTag (t : Tag) (code : Nat) : Cond := ⟨60, 0x02, BitVec.ofNat 64 (tagCode t * 256 + regEtval code), none⟩
def cPrivAddr (va : Word) : Cond := ⟨70, 0x04, va, none⟩
def cMisaligned (va : Word) : Cond := ⟨80, 0x05, va, none⟩
def cTileShape (n : Nat) : Cond := ⟨90, 0x09, BitVec.ofNat 64 n, none⟩
def cTileBusy (n : Nat) : Cond := ⟨90, 0x0A, BitVec.ofNat 64 n, none⟩
/-- A descriptor fault (R186): reason, dimension (15 for none), detail. -/
def descEtval (reason dim detail : Nat) : Word := BitVec.ofNat 64 (reason * 2 ^ 40 + dim * 2 ^ 36 + detail % 2 ^ 32)
def cDesc (reason dim : Nat) : Cond := ⟨100, 0x0C, descEtval reason dim 0, none⟩
/-- A vector group fault (R138); `k` is its place in the order of the checks. -/
def cVec (k reason reg : Nat) : Cond := ⟨100 + k, 0x0D, BitVec.ofNat 64 (reason * 256 + regEtval reg), none⟩
def cReturn (checks : Nat) : Cond := ⟨110, 0x0F, BitVec.ofNat 64 checks, none⟩
def cCall (cause : Nat) (v : Word) : Cond := ⟨110, cause, v, none⟩

/-- The condition with the lowest priority number; a tie goes to the first (R57). -/
def minCond : Option Cond → Option Cond → Option Cond
  | none, c => c
  | c, none => c
  | some a, some b => if b.prio < a.prio then some b else some a

def firstCond (l : List (Option Cond)) : Option Cond := l.foldl minCond none

/-- A condition where `b` holds. -/
def condIf (b : Bool) (c : Cond) : Option Cond := if b then some c else none

/-! ### Register checks -/

/-- Tags an operand accepts (R28). -/
abbrev Accept := List Tag

/-- Any tag except PEND and INVAL. -/
def anyTag : Accept := [.int, .fp64, .ptr, .desc, .pred, .ret, .smry]

/-- The lowest ticket with its FAULT bit set whose destination is `code` (R58). -/
def Thread.faultOn (t : Thread) (code : Nat) : Option Nat :=
  (List.range 16).find? (fun i => match (t.ticket i).fault with
    | some f => !f.settled && f.dst.contains code
    | none => false)

/-- Report of a ticket's deferred fault (R40, R58). -/
def Thread.deferredCond (t : Thread) (i : Nat) : Option Cond :=
  (t.ticket i).fault.map (fun f => ⟨50, f.cause, f.etval, some i⟩)

/-- Step 2 of R27: the first source whose tag is not accepted. -/
def Thread.checkTags (t : Thread) (srcs : List (Nat × Accept)) : Option Cond :=
  firstSome (fun e : Nat × Accept =>
    if isVCode e.1 || e.2.contains (t.reg e.1).tag then none else some (cTag (t.reg e.1).tag e.1)) srcs

/-- What a word meets that names registers and, if it is ticketed, a ticket (R27 step 1, R39, R40): the deferred fault
of the lowest-numbered ticket named, else a pending register, else a ticket in flight (log 19). A repeated word joins
its own ticket (R48). -/
def Thread.checkReady (t : Thread) (codes : List Nat) (tk : Option Nat) (join : Bool) : Option Cond :=
  let pend := codes.filter (fun c => t.isPend c)
  let named := pend.filterMap t.faultOn ++ (tk.toList.filter (fun i => (t.ticket i).faulted))
  match named.min? with
  | some i => t.deferredCond i
  | none =>
    match pend.head?, tk with
    | some c, _ => some (cNotReadyReg c)
    | none, some i => if (t.ticket i).busy && !join then some (cNotReadyTk i) else none
    | none, none => none

/-- The lowest-numbered deferred fault among named tickets and pending destinations (R39, R40). -/
def Thread.checkNamed (t : Thread) (codes tks : List Nat) : Option Cond :=
  let pend := codes.filter (fun c => t.isPend c)
  match (pend.filterMap t.faultOn ++ tks.filter (fun i => (t.ticket i).faulted)).min? with
  | some i => t.deferredCond i
  | none => pend.head?.map cNotReadyReg

/-- Both steps: a tag fault is only reached when nothing is pending. -/
def Thread.checkRegs (t : Thread) (srcs : List (Nat × Accept)) (dsts : List Nat) : Option Cond :=
  match t.checkReady (srcs.map (·.1) ++ dsts) none false with
  | some c => some c
  | none => t.checkTags srcs

/-! ### Operand forms -/

/-- The second source of a scalar ALU operation: the register rs2, or sext(imm42) tagged INT in the ALU immediate form
(R28, R50). -/
def src2Of (f : Fields) (t : Thread) : TReg := if f.form = .li then ⟨.int, f.imm⟩ else t.reg f.rs2

/-- The source named by rs1 where it may name a summary register (R160). -/
def src1CodeOf (f : Fields) : Nat := if f.sm then codeSm f.rs1 else f.rs1

/-- The rs2 source in a check list; none in the immediate form. -/
def src2CheckOf (f : Fields) (acc : Accept) : List (Nat × Accept) :=
  if f.form = .li then [] else [(f.rs2, acc)]

end Sys2Proof.Machine
end

