-- ==== Sys2Proof/Machine/Flags.lean ====
section
/-! DEFINITION. The exception flags CR_FFLAGS (R44, R83) and the rounding and flush that CR_MODE selects (R43, R82).
The flags each operation computes stand with it in Machine/Float.lean. -/

namespace Sys2Proof.Machine

/-- RM of the mode in force (R43). No write leaves a reserved value. -/
def Thread.rm (t : Thread) : RMode := (RMode.ofBits (fld t.mode 0 3)).getD .rne

/-- FTZ of the mode in force (R43). -/
def Thread.ftz (t : Thread) : Bool := bitAt t.mode 5

/-- VGRP of the mode in force: registers in a group (R43, R137). -/
def Thread.vgrp (t : Thread) : Nat := 2 ^ fld t.mode 6 2

/-- Flags accumulate (R44). -/
def Thread.orFlags (t : Thread) (f : FFlags) : Thread := { t with fflags := t.fflags ||| f }

/-- A write of ones clears flags (R44). -/
def Thread.clearFlags (t : Thread) (v : Word) : Thread := { t with fflags := t.fflags &&& ~~~(BitVec.ofNat 5 v.toNat) }

end Sys2Proof.Machine
end

