-- ==== Sys2Proof/Machine/Issue.lean ====
section
/-! DEFINITION. Issuing a word: eligibility (R22, R23), the
recognition of a trap (R69 step 1, R77, R78), and what follows a word that executes (R36, R43, R45). -/

namespace Sys2Proof.Machine

/-! ### Contexts and results -/

/-- Where a word goes next. -/
inductive Next where
  /-- The next word. -/
  | seq
  /-- A branch with its delay slot. -/
  | branch (target : Word) (taken : Bool)
  /-- Park on a mask with the word to issue again (R39). -/
  | park (mask : BitVec 16)
  /-- The program counter becomes this; no delay slot, and no shadow is counted (`rep`, `repi`). -/
  | jump (pc : Word)
  /-- As `jump`, and the saved repeat state is in force (`eret`, R76). -/
  | resume (pc : Word) (rpt : Bool)
deriving DecidableEq, Repr

/-- A word's fields with the state it meets; `th` has its due results committed. -/
structure Ctx where
  s : State
  g : Nat
  th : Thread
  f : Fields
  w : Word
  join : Bool

/-- What a word does: a trap, or a new state and thread. -/
inductive Res where
  | trap (c : Cond) (slotb : Bool := false)
  | ok (s : State) (th : Thread) (flow : Next)

abbrev Body := Ctx → Res

/-- A fixed-distance operation's outcome (R34, R36): the condition it meets, what it writes and at which distance, and
the flags it sets; `pumps` and `first` serve the pump count of R138. -/
structure FixedOp where
  fault : Option Cond
  writes : List (Nat × TReg × VReg × Nat)
  flags : FFlags
  pumps : Nat
  first : Nat
deriving DecidableEq, Repr

/-- An operation that only faults. -/
def FixedOp.faulty (c : Cond) : FixedOp := ⟨some c, [], 0, 0, 0⟩

abbrev FBody := Word → Fields → Thread → FixedOp

/-- One scalar result at a distance, after the register checks. -/
def fixed1 (t : Thread) (srcs : List (Nat × Accept)) (rd : Nat) (dist : Nat) (v : TReg) (fl : FFlags) : FixedOp :=
  ⟨t.checkRegs srcs [rd], [(rd, v, 0, dist)], fl, 0, 0⟩

/-- An illegal encoding shows before any register check (R35, R57). -/
def guardLegal (w : Word) (f : Fields) (ok : Bool) (r : FixedOp) : FixedOp :=
  if fieldsLegal f && ok then r else FixedOp.faulty (cIllegal w)

/-- Queue the writes of an operation (R36): each destination pending, its result due at slot k + n. A write to `s0` is
discarded (R26). -/
def Thread.queueFixed (t : Thread) (ws : List (Nat × TReg × VReg × Nat)) : Thread :=
  ws.foldl (fun t w => if w.1 = 0 then t
    else { t.markPend w.1 with fixed := t.fixed ++ [⟨w.1, w.2.1, w.2.2.1, t.slot + w.2.2.2⟩] }) t

/-- A pair's two operations as one (R34): both read before either writes, the lower priority number is reported and a
tie is slot A's. -/
def FixedOp.join (a b : FixedOp) : FixedOp × Bool :=
  let c := minCond a.fault b.fault
  (⟨c, a.writes ++ b.writes, a.flags ||| b.flags, a.pumps + b.pumps, a.first⟩,
    match a.fault, b.fault with
    | none, some _ => true
    | some x, some y => decide (y.prio < x.prio)
    | _, _ => false)

/-- Vector operations enter the datapath's backlog in issue order (R140, R149). -/
def State.pushPumps (s : State) (g : Nat) (ps : List Nat) : State :=
  let k := s.core (coreOf g)
  match ps.filter (· ≠ 0) with
  | [] => s
  | l => s.setCore (coreOf g) { k with vecQ := k.vecQ ++ l }

/-- The result of one long fixed-distance operation. Its flags enter CR_FFLAGS as it issues, where those of `fdiv` and
`fsqrt` enter with the result (R44 does not say when; log 113). -/
def FixedOp.res (r : FixedOp) (x : Ctx) : Res :=
  match r.fault with
  | some c => .trap c
  | none => .ok (x.s.pushPumps x.g [r.pumps]) ((x.th.queueFixed r.writes).orFlags r.flags) .seq

/-! ### Recognising a trap -/

/-- Report of a deferred fault (R40): CR_TKPC, the destination INVAL, the ticket free. A vector register that a trap entry
has settled keeps what has been issued for it since. -/
def Thread.reportTicket (t : Thread) (i : Nat) : Thread :=
  match (t.ticket i).fault with
  | some f =>
    ((f.dst.filter (fun c => !(f.settled && isVCode c))).foldl Thread.invalidate { t with tkpc := f.iaddr }).setTicket i
      { t.ticket i with fault := none }
  | none => t

/-- Trap entry leaves the destinations of a ticket that has faulted INVAL and its FAULT bit set (R41): no handler finds
PEND in a register it must save. -/
def Thread.settleTicket (t : Thread) (i : Nat) : Thread :=
  match (t.ticket i).fault with
  | some f => if f.settled then t else (f.dst.foldl Thread.invalidate t).setTicket i { t.ticket i with fault := some { f with settled := true } }
  | none => t

def Thread.settleFaults (t : Thread) : Thread := (upto 16).foldl Thread.settleTicket t

/-- Step 1 and 2 of R69: the thread stops issuing, fixed-distance results commit (R41), and what the entry will write
is recorded. CR_EPC is the branch for a delay slot (R77) and the prefix for a repeated word (R48). -/
def Thread.raise (t : Thread) (c : Cond) (slotb sync byEret : Bool) : Thread :=
  let epc := match t.rep, t.delay with
    | some r, _ => r.addr
    | none, some d => d.branch
    | none, none => t.pc
  let t := match c.tk with
    | some i => t.reportTicket i
    | none => t
  let t := t.commitAll.settleFaults
  { t with
    run := .run, pc := epc, delay := none, rep := none, rptResume := false
    loopcnt := (match t.rep with
      | some r => if r.fresh && sync then t.loopcnt else BitVec.ofNat 32 r.left
      | none => t.loopcnt)
    trap := some { cause := c.cause, etval := c.etval, epc := epc, eds := t.delay.isSome,
                   rpt := (match t.rep with
                     | some r => !(r.fresh && sync) || r.joins
                     | none => t.rptResume), slotb := slotb,
                   deferred := c.tk.isSome, sync := sync, byEret := byEret }
    shadow := (match t.shadow with
      | some sh => some (if t.delay.isSome then { sh with left := sh.left + 1 } else sh)
      | none => none) }

/-! ### Advancing -/

/-- One word of a mode-change shadow has issued (R43): the third word runs under the new mode. -/
def Thread.stepShadow (t : Thread) : Thread :=
  match t.shadow with
  | some sh =>
    if sh.left ≤ 1 then { t with mode := sh.new, shadow := none, estat := { t.estat with msh := t.estat.msh && !sh.ret } } else { t with shadow := some { sh with left := sh.left - 1 } }
  | none => t

/-- The word has executed: the slot ends, and the program counter moves (R36, R45). -/
def Thread.advance (t : Thread) (flow : Next) (hadShadow : Bool) : Thread :=
  let t1 := if hadShadow then t.stepShadow else t
  match flow with
  | .park m => { t with run := .park m }
  | .jump p => { t with pc := p, slot := t.slot + 1, delay := none, rptResume := false }
  | .resume p rpt => { t with pc := p, slot := t.slot + 1, delay := none, rptResume := rpt }
  | .branch tgt taken => { t1 with delay := some ⟨t.pc, tgt, taken⟩, pc := t.pc + 8, slot := t.slot + 1, rptResume := false }
  | .seq =>
    match t.delay with
    | some d => { t1 with pc := (if d.taken then d.target else t.pc + 8), delay := none, slot := t.slot + 1, rptResume := false }
    | none => { t1 with pc := t.pc + 8, slot := t.slot + 1, rptResume := false }

/-! ### Issuing -/

/-- The word at the program counter, where the fetch buffer holds its block (R22, R227). -/
def Thread.word? (t : Thread) : Option Word :=
  match t.fetch with
  | some b => if t.pc &&& 0xFFFF_FFFF_FFFF_FFC0#64 = b.base then b.words[fld t.pc 3 3]? else none
  | none => none

/-- The interrupt a thread would take (R74): pending, enabled, EXL = 0, and IE = 1 or the route is M; the highest. -/
def interruptOf (s : State) (g : Nat) : Option Nat :=
  let t := s.thread g
  let p := s.ipend g
  if t.estat.exl then none
  else [5, 4, 3, 2, 1, 0].find? (fun i => bitAt p i && bitAt t.estat.imask i && (t.estat.ie || decide (i ≥ 4)))

/-- Whether a thread is at a place where interrupts are checked (R74): in RUN or PARK, not between a branch and its
delay slot, not in a mode-change shadow, not inside `rep`. -/
def atInterruptPoint (t : Thread) : Bool :=
  decide (t.run ≠ .idle) && t.trap.isNone && !t.ending && t.delay.isNone && t.shadow.isNone
    && (match t.rep with
      | some r => r.isRepi
      | none => true)

/-- A thread takes an interrupt before its next word: that word does not issue (R74). -/
def State.interrupted (s : State) (g : Nat) : Bool := (interruptOf s g).isSome && atInterruptPoint (s.thread g)

/-- A thread may issue `w` (R21, R22): it is in RUN on a populated core that is not suspended, no trap is being
entered and no repetition runs, it has not issued `tend`, no interrupt is taken first (R74), and `w` is its next word. The 4-cycle spacing and the rotating search are timing
(log 2). -/
def State.mayIssue (s : State) (g : Nat) (w : Word) : Bool :=
  let t := s.thread g
  threadPresent s.build g && decide (t.run = .run) && t.trap.isNone && t.rep.isNone && !t.ending && !(s.core (coreOf g)).suspended
    && !s.interrupted g && decide (t.word? = some w)

/-- The checks a word meets from its place (R45, R78): a word in a delay slot is no branch, `rep`, `repi`, `eret` or
`tend`. -/
def branchOp (o : Op) : Bool := o == .b || o == .bt || o == .bf || o == .call || o == .callr || o == .jr || o == .ret
def delayIllegal (o : Op) : Bool := branchOp o || o == .rep || o == .repi || o == .eret || o == .tend

/-- Pumps of issued vector operations that have not started (R149 BACKLOG). -/
def Core.backlog (k : Core) : Nat := k.vecQ.foldl (· + ·) 0

/-- The room rule (R141): a word's pumps and those that wait come to at most 24. `s'` is the state after the word. -/
def State.hasRoom (s s' : State) (c : Nat) : Bool :=
  decide ((s'.core c).backlog ≤ (s.core c).backlog) || decide ((s'.core c).backlog ≤ 24)

/-- A thread is passed over for lack of room: VC_STAT.HOLD counts it (R141, R149; log 2). -/
def State.passOver (s : State) (c : Nat) : State := s.setCore c { s.core c with hold := satAdd (s.core c).hold 1 }

/-- Finish a body's result: record the trap, or advance where the word has room. -/
def finish (x : Ctx) (r : Res) : State :=
  match r with
  | .trap c slotb => x.s.setThread x.g (x.th.raise c slotb true (decide (x.f.op = .eret) && decide (c.cause = 0x0F)))
  | .ok s th flow =>
    if x.s.hasRoom s (coreOf x.g) then s.setThread x.g (th.advance flow x.th.shadow.isSome) else x.s.passOver (coreOf x.g)

/-- A long word's result: illegal where its fields or its place in a delay slot are (R35, R45). -/
def longRes (x : Ctx) (body : Body) : Res :=
  if !fieldsLegal x.f || (x.th.delay.isSome && delayIllegal x.f.op) then .trap (cIllegal x.w) else body x

/-- The context of a long word. -/
def longCtx (s : State) (g : Nat) (w : Word) (join : Bool) : Ctx := ⟨s, g, (s.thread g).commitDue, longFields w, w, join⟩

/-- Issue a long word with body `body`. -/
def issueLong (s : State) (g : Nat) (w : Word) (body : Body) (join : Bool) : State :=
  finish (longCtx s g w join) (longRes (longCtx s g w join) body)

/-! ### Paired words -/

/-- Register codes a slot names as destination and as sources, vector operands as whole groups (R34, R137). -/
structure SlotRegs where
  dsts : List Nat
  srcs : List Nat
deriving DecidableEq, Repr

/-- R34: slot B names a destination of slot A, or both write one register. -/
def pairConflict (a b : SlotRegs) : Bool :=
  a.dsts.any (fun d => decide (d ≠ 0) && (b.srcs.contains d || b.dsts.contains d))

/-- The context of a paired word, with slot A's fields. -/
def pairCtx (s : State) (g : Nat) (w : Word) : Ctx := ⟨s, g, (s.thread g).commitDue, slotA w, w, false⟩

/-- A paired word's result (R34, R57, R138): the two operations from `fop`, their registers from `regs`. What is illegal
of the word as a whole is slot A's (a tie, R57); a reserved function of slot B alone is slot B's. -/
def pairRes (x : Ctx) (fop : Op → FBody) (regs : Fields → Thread → SlotRegs) : Res :=
  let a := slotA x.w
  let b := slotB x.w
  if bitAt x.w 0 || !fieldsLegal a || pairConflict (regs a x.th) (regs b x.th) then .trap (cIllegal x.w)
  else if !fieldsLegal b then .trap (cIllegal x.w) true
  else
    let ra := fop a.op x.w a x.th
    let rb := fop b.op x.w b x.th
    let (r, slotb) := ra.join rb
    match r.fault with
    | some c => .trap c slotb
    | none =>
      if r.pumps > 24 then .trap (cVec 3 3 (codeV rb.first)) true
      else .ok (x.s.pushPumps x.g [ra.pumps, rb.pumps]) ((x.th.queueFixed r.writes).orFlags r.flags) .seq

/-- Issue a paired word. -/
def issuePair (s : State) (g : Nat) (w : Word) (fop : Op → FBody) (regs : Fields → Thread → SlotRegs) : State :=
  finish (pairCtx s g w) (pairRes (pairCtx s g w) fop regs)

end Sys2Proof.Machine
end

