-- ==== Sys2Proof/Machine/Csr.lean ====
section
/-! DEFINITION. Control and status registers: numbers and levels (R49, R55, R107, R149, R189, R235, R236, R263, R287,
R307, R341, R355 and their layouts), reads with their side effects, writes field by field (R4, R5), and the control
and status range (R210, R211). -/

namespace Sys2Proof.Machine

/-- Who accesses a register, or which copy an address of the control range names: thread, core, binding, half. -/
structure CsrAt where
  g : Nat
  c : Nat
  b : Nat
  h : Nat
deriving DecidableEq, Repr

/-- The copies that `csrr` and `csrw` of a thread reach. -/
def State.csrOf (s : State) (g : Nat) : CsrAt :=
  ⟨g, coreOf g, ((s.core (coreOf g)).binding).getD 0, halfOfCore (coreOf g)⟩

/-- The copies a register has. -/
inductive Copies where
  | thread | core | binding | half
deriving DecidableEq, Repr

/-- Whether a stall counter has this number (R235). -/
def isStall (n : Nat) : Bool := decide (0x4100 ≤ n) && decide (n < 0x4170) && decide ((n - 0x4100) % 16 ≤ 8)

/-- Lowest level and copies of a register; none where the number has no register on this build (R49, R3). -/
def csrInfo (b : Build) (n : Nat) : Option (Nat × Copies) :=
  if n = 0x0001 ∨ (0x0010 ≤ n ∧ n ≤ 0x0014) then some (0, .thread)
  else if 0x0020 ≤ n ∧ n ≤ 0x0023 then some (1, .thread)
  else if n = 0x0030 then some (1, .core)
  else if n = 0x0031 ∨ n = 0x0032 then some (3, .core)
  else if (0x1000 ≤ n ∧ n ≤ 0x100B) ∨ n = 0x1010 then some (0, .core)
  else if (0x2000 ≤ n ∧ n ≤ 0x2003) ∨ n = 0x2010 then some (0, .core)
  else if n = 0x3000 then some (0, .core)
  else if n = 0x3001 then some (0, .thread)
  else if n = 0x4000 ∨ n = 0x4001 ∨ isStall n then some (0, .core)
  else if n = 0x4002 then some (3, .binding)
  else if 0x5000 ≤ n ∧ n < 0x5010 ∧ stackPresent b (n - 0x5000) then some (3, .half)
  else if n = 0x6000 ∨ n = 0x6001 then some (1, .half)
  else if n = 0x6002 then some (3, .half)
  else if n = 0x7000 then some (0, .half)
  else if n = 0x7001 ∨ n = 0x7002 then some (0, .binding)
  else if n = 0x7003 ∨ (0x7010 ≤ n ∧ n < 0x7028) ∨ (0x7040 ≤ n ∧ n < 0x7058) then some (1, .half)
  else if n = 0x8000 then some (0, .thread)
  else if n = 0x8001 then some (0, .binding)
  else if n = 0x9000 then some (0, .core)
  else if n = 0x9001 then some (1, .core)
  else if n = 0xA000 then some (0, .half)
  else if n = 0xA001 then some (1, .thread)
  else if 0xA002 ≤ n ∧ n < 0xA00A ∧ diePresent b (n - 0xA002) then some (1, .half)
  else if n = 0xA010 ∨ n = 0xA011 then some (3, .half)
  else if n = 0xB000 then some (0, .binding)
  else if 0xB010 ≤ n ∧ n < 0xB018 ∧ diePresent b (n - 0xB010) then some (1, .half)
  else if n = 0xC000 then some (3, .half)
  else if n = 0xC001 then some (1, .half)
  else none

/-! ### Register images -/

/-- A word from fields: value and low bit. -/
def wordFields (l : List (Nat × Nat)) : Word := BitVec.ofNat 64 (l.foldl (fun a e => a + e.1 * 2 ^ e.2) 0)

/-- Keep bits `lo` to `hi` of a word. -/
def maskBits (v : Word) (lo hi : Nat) : Word := BitVec.ofNat 64 (fld v lo (hi + 1 - lo) * 2 ^ lo)

/-- CR_ESTAT (R63). -/
def estatWord (e : EStat) (ipend : BitVec 6) : Word :=
  wordFields [(e.prv.toNat, 0), (e.sprv.toNat, 2), (b2n e.exl, 4), (b2n e.ie, 5), (e.imask.toNat, 8), (ipend.toNat, 16),
    (b2n e.lnta, 31), (b2n e.svi, 32), (b2n e.nst, 33), (b2n e.slotb, 34), (b2n e.eds, 35), (b2n e.rpt, 36),
    (b2n e.msh, 37), (e.shcnt.toNat, 38), (e.omode.toNat, 40), (e.pmode.toNat, 48)]

/-- A write of CR_ESTAT at level `prv` (R63): NST, SVI and IMASK[13:12] at M only. -/
def EStat.write (e : EStat) (v : Word) (prv : Nat) : EStat :=
  let m := decide (prv = 3)
  { e with
    pmode := BitVec.ofNat 8 (fld v 48 8), omode := BitVec.ofNat 8 (fld v 40 8), shcnt := BitVec.ofNat 2 (fld v 38 2)
    msh := bitAt v 37, rpt := bitAt v 36, eds := bitAt v 35, slotb := bitAt v 34
    nst := if m then bitAt v 33 else e.nst
    svi := if m then bitAt v 32 else e.svi
    imask := if m then BitVec.ofNat 6 (fld v 8 6) else BitVec.ofNat 6 (fld v 8 4 + 16 * fld e.imask 4 2)
    ie := bitAt v 5, exl := bitAt v 4, sprv := BitVec.ofNat 2 (fld v 2 2) }

/-- CR_ECAUSE (R61). -/
def ecauseWord (e : ECause) : Word :=
  wordFields [(e.cause.toNat, 0), (b2n e.deferred, 6), (b2n e.lnt, 7), (e.ocause.toNat, 8), (e.stage.toNat, 14)]

def ECause.ofWord (v : Word) : ECause :=
  ⟨BitVec.ofNat 2 (fld v 14 2), BitVec.ofNat 6 (fld v 8 6), bitAt v 7, bitAt v 6, BitVec.ofNat 6 (fld v 0 6)⟩

/-- EMPTY of TL_STAT as left by the instructions executed so far (R126). -/
def Core.emptyMask (k : Core) : Nat :=
  maskOf (fun n => if n < 12 then !(FMap.get Tile.empty k.tiles n).hold else !(FMap.get Bank.empty k.banks (n - 12)).hold) 14

def tlStat (k : Core) : Word :=
  wordFields [(k.emptyMask, 0), (b2n k.act, 16), (b2n k.sxovf, 32), (k.redir.toNat, 48)]

/-- VC_SLOTn (R149). -/
def vcSlot (x : ChainSlot) : Word :=
  if x.valid then wordFields [(1, 0), (fld x.hdr 20 2, 2), (x.tables.length, 4), (fld x.hdr 0 3, 8), (fld x.hdr 32 13, 16)] else 0

def vcStat (k : Core) : Word :=
  wordFields [(min k.chainQ.length 256, 0), (min k.backlog 255, 16), (k.hold.toNat, 48)]

def Core.desc (k : Core) (i : Nat) : DescSlot := FMap.get DescSlot.reset k.descs i
def Core.setDesc (k : Core) (i : Nat) (d : DescSlot) : Core := { k with descs := FMap.set DescSlot.reset k.descs i d }

/-- DS_LIVE of a thread (R189): its slots are number tid * 64 + slot. -/
def dsLive (k : Core) (tid : Nat) : Word := BitVec.ofNat 64 (maskOf (fun i => (k.desc (tid * 64 + i)).live.isSome) 64)

def stackStat (x : Stack) : Word :=
  wordFields [(x.state.toNat, 0), (x.spleft.toNat, 24), (x.spused.toNat, 32), (x.ue.toNat, 40), (x.ce.toNat, 48)]

def PState.code : PState → Nat
  | .split => 0
  | .follower => 1
  | .primary => 2

def LinkState.code : LinkState → Nat
  | .down => 0
  | .training => 1
  | .up => 2

def hlStat (x : Half) (h : Nat) : Word :=
  wordFields [(x.link.code, 0), (x.pstate.code, 4), (b2n (decide (h = 0)), 8), (b2n x.solo, 9), (b2n x.hold, 10), (b2n x.peerHold, 11)]

def PortState.code : PortState → Nat
  | .down => 0
  | .training => 1
  | .up => 2
  | .miswired => 3
  | .mismatch => 4
  | .failed => 5
  | .drained => 6
  | .linkOnly => 7

def skPort (p : Port) : Word :=
  wordFields [(fld p.lepoch 0 16, 0), (p.spare.toNat, 20), (p.lmask.toNat, 23), (p.state.code, 28), (p.nport.toNat, 39), (p.ndev.toNat, 44)]

def skLinkerr (p : Port) : Word := wordFields [(p.replay.toNat, 0), (p.lfail.toNat, 32), (p.retrain.toNat, 48)]

def skBcn (x : Half) : Word := wordFields [(x.keyTable.length, 0), (x.bcnOvf.toNat, 16), (x.bcnAbs.toNat, 32)]

def dieStat (d : Die) : Word :=
  wordFields [(d.freq.toNat, 0), (d.vcore.toNat, 16), (d.droop.toNat, 32), (d.lim.toNat, 40), (d.temp.toNat, 48)]

/-- Collective commands of a thread in flight (R263). -/
def Thread.collInFlight (t : Thread) : Nat :=
  ((upto 16).filter (fun i => (t.ticket i).ops.any (fun o => match o.kind with
    | .coll _ => true
    | _ => false))).length

def ClPhase.code : ClPhase → Nat
  | .none => 0
  | .idle => 1
  | .capture => 2
  | .drain => 3
  | .stopped => 4
  | .repair => 5
  | .restore => 6

def clStat (b : Binding) : Word :=
  wordFields [(b.phase.code, 0), (b2n ((b.cfg.map (·.auto)).getD false), 8), (b2n b.lvalid, 9), (b2n b.slotSel, 10), (b2n b.lost, 11), (b.lstep.toNat, 24)]

/-- The running image of a half, as it was when the half booted it; the active bank's before a boot (R342, R366). -/
def Flash.image (f : Flash) : Image := if f.running.isSome then f.ran else if f.active then f.bankB else f.bankA

def secStat (x : Half) : Word :=
  wordFields [(b2n (x.flash.running.getD x.flash.active), 0), (b2n x.flash.pending.isSome, 1), (x.flash.image.key % 4, 10),
    (maskOf (fun k => (FMap.get KeySlot.empty x.keys k).key.isSome) 16, 48)]

def secImgver (x : Half) : Word := wordFields [(x.flash.image.version % 2 ^ 32, 0), (x.flash.fuseMin % 2 ^ 32, 32)]

/-! ### Reads with their side effects, as rows of the table name them -/

/-- TL_STAT with REDIR cleared (R126). -/
def readTlStat (s : State) (c : Nat) : Word × State := (tlStat (s.core c), s.setCore c { s.core c with redir := 0 })
/-- VC_STAT with HOLD cleared (R149). -/
def readVcStat (s : State) (c : Nat) : Word × State := (vcStat (s.core c), s.setCore c { s.core c with hold := 0 })
/-- DS_OOBCNT, both counts cleared (R189). -/
def readOob (s : State) (c : Nat) : Word × State :=
  (wordFields [((s.core c).oobRd.toNat, 0), ((s.core c).oobWr.toNat, 32)], s.setCore c { s.core c with oobRd := 0, oobWr := 0 })
/-- A stall counter, cleared (R235). -/
def readStall (s : State) (c i : Nat) : Word × State :=
  (FMap.get 0 (s.core c).stalls i, s.setCore c { s.core c with stalls := FMap.set 0 (s.core c).stalls i 0 })
/-- MC_PARCNT, cleared (R235). -/
def readParcnt (s : State) (c : Nat) : Word × State :=
  (wordFields [((s.core c).parcnt.toNat, 0)], s.setCore c { s.core c with parcnt := 0 })
/-- HB_STAT, CE and UE cleared (R236). -/
def readHbStat (s : State) (n : Nat) : Word × State :=
  let h := s.half (halfOfStack n)
  (stackStat (h.hbm n), s.setHalf (halfOfStack n) (h.setHbm n { h.hbm n with ce := 0, ue := 0 }))
/-- SK_RXERR of a binding and half, cleared (R287). -/
def readRxerr (s : State) (b h : Nat) : Word × State :=
  let x := s.binding b
  (wordFields [((FMap.get 0#32 x.ecrc h).toNat, 0), ((FMap.get 0#32 x.unauth h).toNat, 32)],
    s.setBinding b { x with ecrc := FMap.set 0 x.ecrc h 0, unauth := FMap.set 0 x.unauth h 0 })
/-- SK_BCN, ABS and OVF cleared (R287). -/
def readBcn (s : State) (h : Nat) : Word × State :=
  (skBcn (s.half h), s.setHalf h { s.half h with bcnAbs := 0, bcnOvf := 0 })
/-- SK_LINKERR, cleared (R287). -/
def readLinkerr (s : State) (p : Nat) : Word × State :=
  (skLinkerr (s.port p), s.setPort p { s.port p with replay := 0, lfail := 0, retrain := 0 })
/-- CE_STAT of a binding and half, cleared (R263). -/
def readCeStat (s : State) (b h : Nat) : Word × State :=
  let e := (s.half h).eng
  (wordFields [((FMap.get 0#32 e.drop b).toNat, 0), ((FMap.get 0#16 e.late b).toNat, 32), ((FMap.get 0#16 e.bad b).toNat, 48)],
    s.setHalf h { s.half h with eng := { e with drop := FMap.set 0 e.drop b 0, late := FMap.set 0 e.late b 0, bad := FMap.set 0 e.bad b 0 } })
/-- KW_DBSTAT, cleared (R341). -/
def readDbstat (s : State) (c : Nat) : Word × State :=
  (wordFields [((s.core c).dbstat.toNat, 0)], s.setCore c { s.core c with dbstat := 0 })

/-- The value of a register and the state after the read (R4). -/
def csrRead (s : State) (x : CsrAt) (n : Nat) : Word × State :=
  let t := s.thread x.g
  let k := s.core x.c
  let h := s.half x.h
  let ro := fun (w : Word) => (w, s)
  if n = 0x0001 then ro (BitVec.ofNat 64 x.g)
  else if n = 0x0010 then ro (BitVec.ofNat 64 t.mode.toNat)
  else if n = 0x0011 then ro t.tkstat
  else if n = 0x0012 then ro t.tkpc
  else if n = 0x0013 then ro (BitVec.ofNat 64 t.loopcnt.toNat)
  else if n = 0x0014 then ro (BitVec.ofNat 64 t.fflags.toNat)
  else if n = 0x0020 then ro t.epc.val
  else if n = 0x0021 then ro (ecauseWord t.ecause)
  else if n = 0x0022 then ro t.etval
  else if n = 0x0023 then ro (estatWord t.estat (s.ipend x.g))
  else if n = 0x0030 then ro k.tvbase
  else if n = 0x0031 then ro (wordFields [(k.mtvdesc.toNat, 11)])
  else if n = 0x0032 then ro (wordFields [(k.lanternSp.toNat, 4)])
  else if 0x1000 ≤ n ∧ n ≤ 0x100B then ro (BitVec.ofNat 64 (FMap.get 0#32 k.tcfg (n - 0x1000)).toNat)
  else if n = 0x1010 then readTlStat s x.c
  else if 0x2000 ≤ n ∧ n ≤ 0x2003 then ro (vcSlot (FMap.get ChainSlot.empty k.slots (n - 0x2000)))
  else if n = 0x2010 then readVcStat s x.c
  else if n = 0x3000 then readOob s x.c
  else if n = 0x3001 then ro (dsLive k (tidOf x.g))
  else if n = 0x4000 then readParcnt s x.c
  else if n = 0x4001 then ro (wordFields [(b2n k.freeze, 1)])
  else if n = 0x4002 then ro (wordFields [(b2n (s.binding x.b).ttEn, 0), ((s.binding x.b).ttRoot / 4096, 12)])
  else if isStall n then readStall s x.c (n - 0x4100)
  else if 0x5000 ≤ n ∧ n < 0x5010 then readHbStat s (n - 0x5000)
  else if n = 0x6000 then ro (hlStat h x.h)
  else if n = 0x6001 then ro h.epoch
  else if n = 0x6002 then ro (wordFields [(h.event.toNat, 0)])
  else if n = 0x7000 then ro (wordFields [(s.devid.toNat, 0), (b2n s.devValid, 20)])
  else if n = 0x7001 then ro (wordFields [(b2n (s.binding x.b).ptAct, 0), ((s.binding x.b).flips.toNat, 32)])
  else if n = 0x7002 then readRxerr s x.b x.h
  else if n = 0x7003 then readBcn s x.h
  else if 0x7010 ≤ n ∧ n < 0x7028 then ro (skPort (s.port (n - 0x7010)))
  else if 0x7040 ≤ n ∧ n < 0x7058 then readLinkerr s (n - 0x7040)
  else if n = 0x8000 then ro (wordFields [(b2n t.cirq, 0), (t.collInFlight, 32)])
  else if n = 0x8001 then readCeStat s x.b x.h
  else if n = 0x9000 then ro (wordFields [((k.binding.getD 0) % 64, 0)])
  else if n = 0x9001 then readDbstat s x.c
  else if n = 0xA000 then ro h.time
  else if n = 0xA001 then ro (wordFields [(t.tcmp.toNat, 0), (b2n t.tcmpEn, 63)])
  else if 0xA002 ≤ n ∧ n < 0xA00A then ro (dieStat ((s.half ((n - 0xA002) / 4)).die (n - 0xA002)))
  else if n = 0xA010 then ro (wordFields [(h.pwEvent.toNat, 0)])
  else if n = 0xA011 then ro (wordFields [(h.evx.toNat, 0)])
  else if n = 0xB000 then ro (clStat (s.binding x.b))
  else if 0xB010 ≤ n ∧ n < 0xB018 then
    ro (wordFields [(((s.half ((n - 0xB010) / 4)).die (n - 0xB010)).cleft.toNat, 0), (((s.half ((n - 0xB010) / 4)).die (n - 0xB010)).l2left.toNat, 16)])
  else if n = 0xC000 then ro (secStat h)
  else if n = 0xC001 then ro (secImgver h)
  else ro 0

/-! ### Writes -/

/-- A write of CR_EPC: ADDR and the source's tag (R60). -/
def writeEpc (s : State) (g : Nat) (tag : Tag) (v : Word) : State :=
  s.setThread g { s.thread g with epc := ⟨tag, maskBits v 3 47⟩ }

/-- A write of CR_ESTAT at a level (R63). -/
def writeEstat (s : State) (g : Nat) (v : Word) (prv : Nat) : State :=
  s.setThread g { s.thread g with estat := (s.thread g).estat.write v prv }

/-- A write of CR_FFLAGS clears the flags written as 1 (R44). -/
def writeFflags (s : State) (g : Nat) (v : Word) : State := s.setThread g ((s.thread g).clearFlags v)

/-- A write of TL_STAT clears SXOVF (R126). -/
def writeTlStat (s : State) (c : Nat) (v : Word) : State :=
  s.setCore c { s.core c with sxovf := (s.core c).sxovf && !bitAt v 32 }

/-- A write of MC_STALLCTL: FREEZE, and CLR clears every counter (R235). -/
def writeStallctl (s : State) (c : Nat) (v : Word) : State :=
  s.setCore c { s.core c with freeze := bitAt v 1, stalls := if bitAt v 0 then [] else (s.core c).stalls }

/-- A write of CE_BUCKET clears CIRQ (R263). -/
def writeCeBucket (s : State) (g : Nat) (v : Word) : State :=
  s.setThread g { s.thread g with cirq := (s.thread g).cirq && !bitAt v 0 }

/-- A write of HL_EVENT (R307). -/
def writeHlEvent (s : State) (h : Nat) (v : Word) : State :=
  s.setHalf h { s.half h with event := (s.half h).event &&& ~~~(BitVec.ofNat 4 v.toNat) }

/-- A write of PW_EVENT (R307). -/
def writePwEvent (s : State) (h : Nat) (v : Word) : State :=
  s.setHalf h { s.half h with pwEvent := (s.half h).pwEvent &&& ~~~(BitVec.ofNat 6 v.toNat) }

/-- A write of PW_TCMP (R307). -/
def writeTcmp (s : State) (g : Nat) (v : Word) : State :=
  s.setThread g { s.thread g with tcmpEn := bitAt v 63, tcmp := BitVec.ofNat 63 v.toNat }

/-- A mode write starts its shadow of two words (R43). -/
def Thread.startShadow (t : Thread) (m : BitVec 8) : Thread := { t with shadow := some ⟨t.mode, m, 2, false⟩ }

/-- CR_MODE under a mask (R43): reserved bits stay zero. -/
def modeUnder (old : BitVec 8) (mask v : Nat) : BitVec 8 :=
  let m := BitVec.ofNat 8 (if mask % 256 = 0 then 0xE7 else mask &&& 0xE7)
  (old &&& ~~~m) ||| (BitVec.ofNat 8 v &&& m)

/-! ### Tile configuration (R103-R106) -/

/-- Whether a configuration value is consistent (R105). -/
def tcfgConsistent (n : Nat) (v : Word) : Bool :=
  let rows := fld v 16 8
  if v = 0 then true
  else if n < 8 then
    let fmt := fld v 24 4
    let rb := fld v 0 9
    decide (fld v 32 32 = 0 ∧ fld v 28 3 = 0 ∧ fld v 9 7 = 0 ∧ 1 ≤ fmt ∧ fmt ≤ 7 ∧ 1 ≤ rows ∧ rows ≤ 128 ∧ rb % 8 = 0 ∧ 8 ≤ rb ∧ rb ≤ 256)
      && !(bitAt v 31 && decide (fmt ≠ 1))
  else
    let mode := fld v 30 2
    let cols := fld v 0 8
    let ofmt := fld v 12 4
    decide (fld v 32 32 = 0 ∧ fld v 24 2 = 0 ∧ fld v 8 4 = 0 ∧ mode ≠ 3 ∧ fld v 26 3 ≤ 4 ∧ 1 ≤ rows ∧ rows ≤ 128 ∧ 1 ≤ cols
        ∧ cols ≤ (if mode = 2 then 64 else 128))
      && (match mode with
        | 0 => decide (2 ≤ ofmt ∧ ofmt ≤ 6)
        | 1 => decide (ofmt = 9)
        | _ => decide (ofmt = 7 ∨ ofmt = 10))

/-- The shape fields of a configuration (R106). -/
def shapeOf (n : Nat) (v : BitVec 32) : Nat × Nat × Nat × Nat :=
  if n < 8 then (fld v 24 4, fld v 16 8, fld v 0 9, fld v 31 1) else (fld v 30 2, fld v 16 8, fld v 0 8, 0)

/-- The tiles and banks a queued instruction names (R106): tile numbers, banks from 12. -/
def TileOp.names (o : TileOp) : List Nat :=
  match o with
  | .load t _ _ _ _ => [t]
  | .store t _ _ _ => [t]
  | .bank b _ _ _ _ _ => [12 + b]
  | .shift _ _ fill zf _ _ => if zf then [12, 13] else [fill, 12, 13]
  | .mma t a b _ _ _ _ _ _ => [t, 8 + a, 12 + b]
  | .zero t _ _ => [t]
  | .rel m => (upto 14).filter (fun i => m.getLsbD i)
  | .wait => []

/-- Apply a consistent configuration of tile `n`: none where R106 raises tile busy. -/
def tcfgApply (k : Core) (n : Nat) (v : BitVec 32) : Option Core :=
  let old := FMap.get 0#32 k.tcfg n
  let k' := { k with tcfg := FMap.set 0#32 k.tcfg n v }
  if shapeOf n old = shapeOf n v then some k'
  else if k.tileQ.any (fun e => e.op.names.contains n) then none
  else some { k' with tiles := FMap.set Tile.empty k.tiles n Tile.empty, vEmpty := k.vEmpty ||| BitVec.ofNat 14 (2 ^ n),
                      vScaled := if n < 8 then k.vScaled else k.vScaled &&& ~~~(BitVec.ofNat 4 (2 ^ (n - 8))) }

/-- What `tcfg` does to its core (R103, R105, R106): a tile shape or tile busy fault, or the new configuration. -/
def tcfgDo (k : Core) (n : Nat) (v : Word) : Except Cond Core :=
  if !tcfgConsistent n v then .error (cTileShape n)
  else match tcfgApply k n (BitVec.ofNat 32 v.toNat) with
    | none => .error (cTileBusy n)
    | some k' => .ok k'

/-- A write of a register field by field (R4); a write of an RO or RC field is ignored. CR_MODE starts the shadow of
R43 where the value is legal; TL_CFG behaves as `tcfg` where it would not fault. -/
def csrWrite (s : State) (x : CsrAt) (n : Nat) (tag : Tag) (v : Word) (prv : Nat) : State :=
  let t := s.thread x.g
  let k := s.core x.c
  let h := s.half x.h
  if n = 0x0010 then
    (if (RMode.ofBits (fld v 0 3)).isSome ∧ t.shadow.isNone then s.setThread x.g (t.startShadow (modeUnder t.mode 0 v.toNat)) else s)
  else if n = 0x0013 then s.setThread x.g { t with loopcnt := BitVec.ofNat 32 v.toNat }
  else if n = 0x0014 then writeFflags s x.g v
  else if n = 0x0020 then writeEpc s x.g tag v
  else if n = 0x0021 then s.setThread x.g { t with ecause := ECause.ofWord v }
  else if n = 0x0022 then s.setThread x.g { t with etval := v }
  else if n = 0x0023 then writeEstat s x.g v prv
  else if n = 0x0030 then s.setCore x.c { k with tvbase := maskBits v 10 47 ||| maskBits v 0 0 }
  else if n = 0x0031 then s.setCore x.c { k with mtvdesc := BitVec.ofNat 33 (fld v 11 33) }
  else if n = 0x0032 then s.setCore x.c { k with lanternSp := BitVec.ofNat 40 (fld v 4 40) }
  else if 0x1000 ≤ n ∧ n ≤ 0x100B then
    (match tcfgDo k (n - 0x1000) v with
      | .ok k' => s.setCore x.c k'
      | .error _ => s)
  else if n = 0x1010 then writeTlStat s x.c v
  else if n = 0x4001 then writeStallctl s x.c v
  else if n = 0x6002 then writeHlEvent s x.h v
  else if n = 0x8000 then writeCeBucket s x.g v
  else if n = 0xA001 then writeTcmp s x.g v
  else if n = 0xA010 then writePwEvent s x.h v
  else if n = 0xA011 then s.setHalf x.h { h with evx := BitVec.ofNat 3 v.toNat }
  else s

/-! ### The control and status range (R211) -/

/-- The register and copy that an offset of the range names; none where the address is unassigned. -/
def ctlDecode (s : State) (off : Nat) : Option (Nat × CsrAt) :=
  let scope := off / 2 ^ 33
  let i1 := off / 2 ^ 23 % 1024
  let i2 := off / 2 ^ 19 % 16
  let reg := off / 8 % 2 ^ 16
  if off % 8 ≠ 0 then none
  else
    match csrInfo s.build reg with
    | none => none
    | some (_, cp) =>
      if scope = 0 ∧ cp = .thread ∧ corePresent s.build i1 then some (reg, s.csrOf (i1 * 16 + i2))
      else if scope = 1 ∧ cp = .core ∧ corePresent s.build i1 ∧ i2 = 0 then some (reg, s.csrOf (i1 * 16))
      else if scope = 2 ∧ cp = .binding ∧ i1 < 64 ∧ i2 < 2 then some (reg, ⟨0, 0, i1, i2⟩)
      else if scope = 3 ∧ cp = .half ∧ i1 = 0 ∧ i2 < 2 then some (reg, ⟨0, 0, 0, i2⟩)
      else none

end Sys2Proof.Machine
end

