-- ==== Sys2Proof/Machine/ScalarOps.lean ====
section
/-! DEFINITION. What the scalar operations compute: integer ALU, multiply and divide, FP64, compare, predicate and
conversion (R28, R36, R37, R46, R50, R80-R85, R160). Short and long forms share one body (R51). -/

namespace Sys2Proof.Machine

/-! ### Integer ALU -/

/-- The value of a two-source integer operation, modulo 2^64; shifts use bits [5:0] of the count, `min` and `max`
compare signed (R28). -/
def aluVal (o : Op) (a b : Word) : Word :=
  match o with
  | .add => a + b
  | .sub => a - b
  | .andI => a &&& b
  | .orI => a ||| b
  | .xorI => a ^^^ b
  | .shl => a <<< (b.toNat % 64)
  | .shr => a >>> (b.toNat % 64)
  | .sra => a.sshiftRight (b.toNat % 64)
  | .minI => if b.slt a then b else a
  | .maxI => if a.slt b then b else a
  | _ => 0

/-- The tags rs1 accepts (R28). -/
def aluAcc1 (o : Op) : Accept :=
  match o with
  | .add => [.int, .ptr]
  | .sub => [.int, .ptr]
  | .andI => [.int, .ptr]
  | _ => [.int]

/-- The tags the second source accepts beside the first source's tag (R28). -/
def aluAcc2 (o : Op) (t1 : Tag) : Accept := if o = .sub ∧ t1 = .ptr then [.int, .ptr] else [.int]

/-- The result's tag (R28). -/
def aluTag (o : Op) (t1 t2 : Tag) : Tag :=
  match o with
  | .add => t1
  | .sub => if t1 = .ptr ∧ t2 = .ptr then .int else t1
  | .andI => t1
  | _ => .int

/-- An integer ALU operation at distance 1 (R28, R36, R50). -/
def aluF (o : Op) : FBody := fun w f t =>
  let a := t.reg f.rs1
  let b := src2Of f t
  guardLegal w f true
    (fixed1 t ((f.rs1, aluAcc1 o) :: src2CheckOf f (aluAcc2 o a.tag)) f.rd 1 ⟨aluTag o a.tag b.tag, aluVal o a.val b.val⟩ 0)

/-- `nop`: no register, no effect. -/
def nopF : FBody := fun w f _ => guardLegal w f true ⟨none, [], 0, 0, 0⟩

/-- `li` (R50). -/
def liF : FBody := fun w f t =>
  guardLegal w f true
    (fixed1 t [] f.rd 1 ⟨.int, if f.form = .si then wordOf (sextNat (f.imm.toNat) 64) else f.imm⟩ 0)

/-- Whether a PRED holds one of the two values that R28 gives results for. -/
def isTruth (v : Word) : Bool := decide (v = 0) || decide (v = 1)

/-- The choice of `sel`: rs2 for 1, rs3 for 0; for any other PRED the value is free, the tag is the sources' (R28; log 111). -/
def selVal (p : Word) (a b : TReg) : TReg :=
  if p = 1 then a else if p = 0 then b else ⟨a.tag, Config.predOther 0 [p, a.val, b.val]⟩

/-- `sel`: PRED in rs1, two sources of one tag (R28). -/
def selF : FBody := fun w f t =>
  let p := t.reg f.rs1
  let a := t.reg f.rs2
  let b := t.reg f.rs3
  guardLegal w f true
    (fixed1 t [(f.rs1, [.pred]), (f.rs2, anyTag), (f.rs3, anyTag.filter (· == a.tag))] f.rd 1
      (selVal p.val a b) 0)

/-- `mov`, with `lnk` under fn8[6] and fn8[5] of the long form and a summary register under fn8[7] (R46, R160). -/
def movF : FBody := fun w f t =>
  let long := decide (f.form = .lr)
  let toLnk := long && bitAt (BitVec.ofNat 8 f.fn) 6
  let fromLnk := long && bitAt (BitVec.ofNat 8 f.fn) 5
  let src := if fromLnk then codeLnk else src1CodeOf f
  guardLegal w f true
    (fixed1 t [(src, if toLnk then [.ret] else anyTag)] (if toLnk then codeLnk else f.rd) 1 (t.reg src) 0)

/-- `tagof`: every tag but PEND (R28). -/
def tagofF : FBody := fun w f t =>
  guardLegal w f true
    (fixed1 t [(f.rs1, .inval :: anyTag)] f.rd 1 ⟨.int, BitVec.ofNat 64 (tagCode (t.reg f.rs1).tag)⟩ 0)

/-! ### Multiply and divide -/

/-- Low or high half of a product (R36); the high half signed or unsigned. -/
def mulVal (o : Op) (a b : Word) : Word :=
  match o with
  | .mul => a * b
  | .mulh => wordOf (a.toInt * b.toInt / 2 ^ 64)
  | _ => BitVec.ofNat 64 (a.toNat * b.toNat / 2 ^ 64)

def mulF (o : Op) : FBody := fun w f t =>
  guardLegal w f true
    (fixed1 t [(f.rs1, [.int]), (f.rs2, [.int])] f.rd 2 ⟨.int, mulVal o (t.reg f.rs1).val (t.reg f.rs2).val⟩ 0)

/-- Quotient and remainder; a zero divisor gives all ones and the dividend (R28). Signed division truncates; the
most negative number over -1 wraps modulo 2^64 (R28; log 18). -/
def divVal (o : Op) (a b : Word) : Word :=
  match o with
  | .div => if b = 0 then BitVec.allOnes 64 else wordOf (a.toInt.tdiv b.toInt)
  | .divu => if b = 0 then BitVec.allOnes 64 else a / b
  | .rem => if b = 0 then a else wordOf (a.toInt.tmod b.toInt)
  | _ => if b = 0 then a else a % b

/-! ### FP64 -/

def fpVal (o : Op) (rm : RMode) (ftz : Bool) (a b c : Word) : FRes :=
  match o with
  | .fadd => fAdd binary64 rm ftz a.toNat b.toNat
  | .fsub => fSub binary64 rm ftz a.toNat b.toNat
  | .fmul => fMul binary64 rm ftz a.toNat b.toNat
  | .ffma => fFma binary64 rm ftz false a.toNat b.toNat c.toNat
  | .fmin => fMinMax binary64 ftz false a.toNat b.toNat
  | .fmax => fMinMax binary64 ftz true a.toNat b.toNat
  | .fdiv => fDiv binary64 rm ftz a.toNat b.toNat
  | _ => fSqrt binary64 rm ftz a.toNat

/-- FP64 scalar arithmetic at distance 4 (R28, R36). -/
def fpF (o : Op) : FBody := fun w f t =>
  let r := fpVal o t.rm t.ftz (t.reg f.rs1).val (t.reg f.rs2).val (t.reg f.rs3).val
  guardLegal w f true
    (fixed1 t ((f.rs1, [.fp64]) :: (f.rs2, [.fp64]) :: (if o = .ffma then [(f.rs3, [.fp64])] else [])) f.rd 4
      ⟨.fp64, BitVec.ofNat 64 r.code⟩ r.flags)

/-! ### Compare and predicate -/

/-- The functions of `cmp` in the order of R50: eq, ne, lt, le, ltu, leu. -/
def cmpVal (fn : Nat) (a b : Word) : Bool :=
  match fn with
  | 0 => a == b
  | 1 => a != b
  | 2 => a.slt b
  | 3 => a.sle b
  | 4 => a.ult b
  | _ => a.ule b

/-- The functions of `fcmp` in the order of R50: eq, lt, le, un. -/
def fcmpFn (fn : Nat) : FCmp :=
  match fn with
  | 0 => .eq
  | 1 => .lt
  | 2 => .le
  | _ => .un

def predOf (b : Bool) : TReg := ⟨.pred, BitVec.ofNat 64 (b2n b)⟩

/-- The function of a comparison: fn8[6:0] beside the summary bit, fn10[7:0] in a slot (R50, R160). -/
def cmpFnOf (f : Fields) : Nat := if f.form = .sr then f.fn else f.fn % 128

def cmpF : FBody := fun w f t =>
  let a := t.reg (src1CodeOf f)
  let acc2 : Accept := if a.tag = .ptr then [.ptr] else [.int]
  guardLegal w f true
    (fixed1 t [(src1CodeOf f, [.int, .ptr, .smry]), (f.rs2, acc2)] f.rd 1
      (predOf (cmpVal (cmpFnOf f) a.val (t.reg f.rs2).val)) 0)

def fcmpF : FBody := fun w f t =>
  let r := fCompare binary64 (fcmpFn (cmpFnOf f)) (t.reg (src1CodeOf f)).val.toNat (t.reg f.rs2).val.toNat
  guardLegal w f true
    (fixed1 t [(src1CodeOf f, [.fp64, .smry]), (f.rs2, [.fp64])] f.rd 1 (predOf r.1) r.2)

def predVal (o : Op) (a b : Bool) : Bool :=
  match o with
  | .pand => a && b
  | .por => a || b
  | _ => !a

/-- A predicate operation; a source that is neither 0 nor 1 makes the value free (R28; log 111). -/
def predRes (o : Op) (a b : Word) : TReg :=
  if isTruth a && (o == .pnot || isTruth b) then predOf (predVal o (decide (a = 1)) (decide (b = 1)))
  else ⟨.pred, Config.predOther (if o = .pand then 1 else if o = .por then 2 else 3) (if o = .pnot then [a] else [a, b])⟩

def predF (o : Op) : FBody := fun w f t =>
  guardLegal w f true
    (fixed1 t ((f.rs1, [.pred]) :: (if o = .pnot then [] else [(f.rs2, [.pred])])) f.rd 1
      (predRes o (t.reg f.rs1).val (t.reg f.rs2).val) 0)

/-! ### Conversions -/

/-- A change of tag that keeps the value, at distance 1: `mkptr`, `ptrint`, `fbits`, `bitsf` (R28). -/
def retagF (src dst : Tag) : FBody := fun w f t =>
  guardLegal w f true (fixed1 t [(f.rs1, [src])] f.rd 1 ⟨dst, (t.reg f.rs1).val⟩ 0)

/-- `itof` (R28, R83). -/
def itofF : FBody := fun w f t =>
  let r := intToF binary64 t.rm (t.reg f.rs1).val.toInt
  guardLegal w f true (fixed1 t [(f.rs1, [.int])] f.rd 4 ⟨.fp64, BitVec.ofNat 64 r.code⟩ r.flags)

/-- `ftoi` (R85). -/
def ftoiF : FBody := fun w f t =>
  let r := fToInt binary64 t.rm 64 (t.reg f.rs1).val.toNat
  guardLegal w f true (fixed1 t [(f.rs1, [.fp64])] f.rd 4 ⟨.int, wordOf r.1⟩ r.2)

/-- `smv` (R160): fn8[0] gives the tag. -/
def smvF : FBody := fun w f t =>
  guardLegal w f true
    (fixed1 t [(src1CodeOf f, [.smry])] f.rd 1 ⟨if f.fn % 2 = 1 then .fp64 else .int, (t.reg (src1CodeOf f)).val⟩ 0)

/-! ### Bodies -/

/-- A fixed-distance operation as a long body. -/
def fixedBody (fb : FBody) : Body := fun x => (fb x.w x.f x.th).res x

/-- Add an operation to a ticket and mark its destinations (R37, R48). -/
def Thread.addOp (t : Thread) (i : Nat) (op : TOp) : Thread :=
  let k := t.ticket i
  (t.setTicket i { k with ops := k.ops ++ [op] }).markAll (op.dst.filter (· ≠ 0))

/-- A repeated ticketed word finds its own destination pending from an earlier iteration of the same ticket: it joins
it (R48). The codes that the join exempts from the pending check. -/
def Ctx.exempt (x : Ctx) (codes : List Nat) : List Nat :=
  if x.join then codes.filter (fun c => !(x.th.ticket x.f.tk).ops.any (fun o => o.dst.contains c)) else codes

/-- The register and ticket checks of a ticketed word, in the order of R57. -/
def Ctx.checkTicketed (x : Ctx) (srcs : List (Nat × Accept)) (dsts : List Nat) : Option Cond :=
  minCond (x.th.checkReady (srcs.map (·.1) ++ x.exempt dsts) (some x.f.tk) x.join) (x.th.checkTags srcs)

/-- A computation that ends on its ticket: `div`, `rem`, `fdiv`, `fsqrt` and their unsigned forms (R37). -/
def calcBody (srcs : Fields → List (Nat × Accept)) (val : Fields → Thread → TReg × FFlags) : Body := fun x =>
  match x.checkTicketed (srcs x.f) [x.f.rd] with
  | some c => .trap c
  | none => .ok x.s (x.th.addOp x.f.tk ⟨.calc (val x.f x.th).1 (val x.f x.th).2, x.th.pc, [x.f.rd]⟩) .seq

def divBody (o : Op) : Body :=
  calcBody (fun f => [(f.rs1, [.int]), (f.rs2, [.int])])
    (fun f t => (⟨.int, divVal o (t.reg f.rs1).val (t.reg f.rs2).val⟩, 0))

def fdivBody : Body :=
  calcBody (fun f => [(f.rs1, [.fp64]), (f.rs2, [.fp64])])
    (fun f t =>
      let r := fpVal .fdiv t.rm t.ftz (t.reg f.rs1).val (t.reg f.rs2).val 0
      (⟨.fp64, BitVec.ofNat 64 r.code⟩, r.flags))

def fsqrtBody : Body :=
  calcBody (fun f => [(f.rs1, [.fp64])])
    (fun f t =>
      let r := fpVal .fsqrt t.rm t.ftz (t.reg f.rs1).val 0 0
      (⟨.fp64, BitVec.ofNat 64 r.code⟩, r.flags))

end Sys2Proof.Machine
end

