-- ==== Sys2Proof/Machine/VectorOps.lean ====
section
/-! DEFINITION. The vector operations: groups and their checks (R136-R138), lane formats and functions (R144, R145),
widening (R146), lane arithmetic (R147), and VX64 addition (R148). -/

namespace Sys2Proof.Machine

/-! ### Formats and groups -/

/-- Width of a lane format (R144). -/
def vfWidth (vf : Nat) : Nat :=
  if vf = 0 ∨ vf = 4 ∨ vf = 5 then 8 else if vf = 1 ∨ vf = 6 ∨ vf = 7 then 16 else if vf = 2 ∨ vf = 8 then 32 else 64

def vfIsInt (vf : Nat) : Bool := decide (vf < 4)
def vxFormat : Nat := 10

/-- The floating format of a lane format (R144). -/
def vfFloat (vf : Nat) : FFmt :=
  match vf with
  | 4 => e4m3
  | 5 => e5m2
  | 6 => bfloat16
  | 7 => binary16
  | 8 => binary32
  | _ => binary64

/-- Group of an operand of width `w` beside sources of width `ws` (R137). -/
def groupFor (g w ws : Nat) : Nat := max 1 (g * w / ws)

def vfOf (f : Fields) : Nat := f.fn % 16
def vfnOf (f : Fields) : Nat := f.fn / 16 % 16

/-- VF and FN that R145 and R146 list; a reserved value or an unlisted combination is illegal (R144). An unsigned
product of floating lanes is not listed (log 21). -/
def vecLegal (f : Fields) : Bool :=
  let vf := vfOf f
  let fn := vfnOf f
  let nonVx := decide (vf < vxFormat)
  match f.op with
  | .vmov => decide (fn = 0 ∧ vf ≤ vxFormat)
  | .vld => decide (fn = 0 ∧ vf ≤ vxFormat)
  | .vst => decide (fn = 0 ∧ vf ≤ vxFormat)
  | .vbcast => decide (fn = 0) && nonVx
  | .vadd => decide (fn = 0 ∧ vf ≤ vxFormat) || (nonVx && decide (fn = 1 ∨ fn = 2)) || (vfIsInt vf && decide (3 ≤ fn ∧ fn ≤ 5))
  | .vsub => decide (fn = 0) && nonVx
  | .vmul => nonVx && (decide (fn = 0) || (vfIsInt vf && decide (fn ≤ 2)))
  | .vfma => nonVx && decide (fn ≤ 1)
  | .vmulw => (decide (vf < 3) && decide (fn ≤ 1)) || (decide (4 ≤ vf ∧ vf ≤ 8) && decide (fn = 0))
  | .vdotw => (decide (vf = 0) && decide (fn ≤ 1)) || (decide (4 ≤ vf ∧ vf ≤ 6) && decide (fn = 0))
  | .vcvt => decide (fn = 0) && nonVx && decide (f.x24 % 16 < vxFormat)
  | .vred => nonVx && decide (fn ≤ 3)
  | _ => true

/-- The vector operands of an operation in the order of R138, each with its group; the first is the destination where
`vdst` says so. -/
structure VOperands where
  ops : List (Nat × Nat)
  vdst : Bool
  widening : Bool
deriving DecidableEq, Repr

/-- Destination format of a widening product (R146). -/
def widenTo (vf : Nat) : Nat :=
  match vf with
  | 0 => 1
  | 1 => 2
  | 2 => 3
  | 4 => 6
  | 5 => 6
  | 6 => 8
  | 7 => 8
  | _ => 9

def vOperands (f : Fields) (g : Nat) : VOperands :=
  match f.op with
  | .vld => ⟨[(f.rd, g)], true, false⟩
  | .vst => ⟨[(f.rd, g)], false, false⟩
  | .vbcast => ⟨[(f.rd, g)], true, false⟩
  | .vmov => ⟨[(f.rd, g), (f.rs1, g)], true, false⟩
  | .vcvt => ⟨[(f.rd, groupFor g (vfWidth (f.x24 % 16)) (vfWidth (vfOf f))), (f.rs1, g)], true, false⟩
  | .vmulw => ⟨[(f.rd, 2 * g), (f.rs1, g), (f.rs2, g)], true, !vfIsInt (vfOf f)⟩
  | .vred => ⟨[(f.rs1, g)], false, false⟩
  | .vadd => ⟨[(f.rd, g), (f.rs1, g), (f.rs2, g)], true, false⟩
  | .vsub => ⟨[(f.rd, g), (f.rs1, g), (f.rs2, g)], true, false⟩
  | .vmul => ⟨[(f.rd, g), (f.rs1, g), (f.rs2, g)], true, false⟩
  | .vfma => ⟨[(f.rd, g), (f.rs1, g), (f.rs2, g)], true, false⟩
  | .vdotw => ⟨[(f.rd, g), (f.rs1, g), (f.rs2, g)], true, false⟩
  | _ => ⟨[], false, false⟩

/-- Pumps of an operation (R139). -/
def pumpsOf (f : Fields) (v : VOperands) : Nat :=
  if f.op = .vld ∨ f.op = .vst then 0 else 2 * (v.ops.map (·.2)).foldl max 0

/-- Register codes of a group, as far as `v31`. -/
def groupCodes (d n : Nat) : List Nat := ((upto n).map (fun i => d + i)).filter (· < 32) |>.map codeV

/-- The group checks of R138 but for the pump count. -/
def groupCheck (f : Fields) (g : Nat) (v : VOperands) : Option Cond :=
  if vfOf f = vxFormat ∧ g ≠ 4 then some (cVec 0 5 (codeV (v.ops.headD (0, 0)).1))
  else
    match firstSome (fun o : Nat × Nat =>
        if o.2 > 8 then some (cVec 1 2 (codeV o.1)) else if o.1 % o.2 ≠ 0 then some (cVec 1 1 (codeV o.1))
        else if o.1 + o.2 > 32 then some (cVec 1 2 (codeV o.1)) else none) v.ops with
    | some c => some c
    | none =>
      match v.ops with
      | d :: srcs =>
        if v.widening && srcs.any (fun o => decide (o.1 < d.1 + d.2) && decide (d.1 < o.1 + o.2)) then some (cVec 2 4 (codeV d.1))
        else none
      | [] => none

/-- The registers an operation names (R34). -/
def vecRegs (f : Fields) (g : Nat) : SlotRegs :=
  let v := vOperands f g
  let all := v.ops.map (fun o => groupCodes o.1 o.2)
  if v.vdst then ⟨all.headD [], all.drop 1 |>.flatten⟩ else ⟨[], all.flatten⟩

/-! ### Lanes -/

/-- A group read as one vector (R137). -/
def groupNat (t : Thread) (d n : Nat) : Nat :=
  (upto n).foldr (fun i acc => (t.vreg ((d + i) % 32)).toNat + 2 ^ 2048 * acc) 0

/-- Lane `i` of width `w` (R136). -/
def laneOf (img w i : Nat) : Nat := img >>> (w * i) % 2 ^ w

/-- Lanes packed upward from lane 0. -/
def packLanes (w : Nat) (l : List Nat) : Nat := l.foldr (fun x acc => x % 2 ^ w + 2 ^ w * acc) 0

/-- The writes of a group at distance 8 (R36). -/
def vWrites (d n img : Nat) : List (Nat × TReg × VReg × Nat) :=
  (upto n).map (fun i => (codeV (d + i), TReg.reset, BitVec.ofNat 2048 (img >>> (2048 * i)), 8))

/-- Flags of many lanes together. -/
def orAll (l : List (Nat × FFlags)) : FFlags := l.foldl (fun a e => a ||| e.2) 0

/-- One lane of a lane-wise operation (R145, R147). -/
def laneOp (o : Op) (fn vf : Nat) (rm : RMode) (ftz : Bool) (a b c : Nat) : Nat × FFlags :=
  let w := vfWidth vf
  if vfIsInt vf then
    let sa := sextNat a w
    let sb := sextNat b w
    let r : Int :=
      match o, fn with
      | .vadd, 0 => sa + sb
      | .vadd, 1 => min sa sb
      | .vadd, 2 => max sa sb
      | .vadd, 3 => (a &&& b : Nat)
      | .vadd, 4 => (a ||| b : Nat)
      | .vadd, _ => (a ^^^ b : Nat)
      | .vsub, _ => sa - sb
      | .vmul, 0 => sa * sb
      | .vmul, 1 => sa * sb / 2 ^ w
      | .vmul, _ => (a * b / 2 ^ w : Nat)
      | .vfma, 0 => sextNat c w + sa * sb
      | _, _ => sextNat c w - sa * sb
    ((r % 2 ^ w).toNat, 0)
  else
    let f := vfFloat vf
    let z := ftz && decide (vf = 9)
    let r :=
      match o, fn with
      | .vadd, 0 => fAdd f rm z a b
      | .vadd, 1 => fMinMax f z false a b
      | .vadd, _ => fMinMax f z true a b
      | .vsub, _ => fSub f rm z a b
      | .vmul, _ => fMul f rm z a b
      | .vfma, 0 => fFma f rm z false a b c
      | _, _ => fFma f rm z true a b c
    (r.code, r.flags)

/-! ### Operations -/

/-- A vector operation from its checks, its image of the destination group and its flags. -/
def vecRes (w : Word) (f : Fields) (t : Thread) (srcs : List (Nat × Accept)) (dsts : List Nat)
    (writes : List (Nat × TReg × VReg × Nat)) (fl : FFlags) : FixedOp :=
  let v := vOperands f t.vgrp
  guardLegal w f (vecLegal f)
    ⟨minCond (t.checkRegs (srcs ++ (vecRegs f t.vgrp).srcs.map (fun c => (c, anyTag))) (dsts ++ (vecRegs f t.vgrp).dsts))
      (groupCheck f t.vgrp v), writes, fl, pumpsOf f v, (v.ops.headD (0, 0)).1⟩

/-- Lane-wise `vadd`, `vsub`, `vmul` and `vfma`. -/
def vLanewise (w : Word) (f : Fields) (t : Thread) : FixedOp :=
  let g := t.vgrp
  let wd := vfWidth (vfOf f)
  let a := groupNat t f.rs1 g
  let b := groupNat t f.rs2 g
  let c := groupNat t f.rd g
  let l := (upto (g * 2048 / wd)).map (fun i =>
    laneOp f.op (vfnOf f) (vfOf f) t.rm t.ftz (laneOf a wd i) (laneOf b wd i) (laneOf c wd i))
  vecRes w f t [] [] (vWrites f.rd g (packLanes wd (l.map (·.1)))) (orAll l)

/-! ### VX64 (R92, R148) -/

def vxLane (img i : Nat) : Nat := laneOf img 64 i
def vxExp (img : Nat) : Nat := img >>> 4096 % 2 ^ 16
def vxNanf (img : Nat) : Bool := decide (img >>> 4152 % 2 = 1)
def vxRes (img i : Nat) : Nat := img >>> (4160 + 7 * i) % 128

/-- A block image from its parts; reserved bits zero. -/
def vxPack (lanes : List Nat) (nanf : Bool) (e : Nat) (res : List Nat) : Nat :=
  packLanes 64 lanes + 2 ^ 4096 * (e + 2 ^ 56 * b2n nanf) + 2 ^ 4160 * packLanes 7 res

/-- The EXP two operands give, and whether it marks the lanes (R148). -/
def vxExpJoin (a b : Nat) : Nat × Bool :=
  if a = 0x8000 then (b, false) else if b = 0x8000 then (a, false) else if a = b then (a, false)
  else (if sextNat a 16 < sextNat b 16 then b else a, true)

/-- Residues add modulo 127; 0b111_1111 stays (R96, R148). -/
def resAdd (a b : Nat) : Nat := if a = 127 ∨ b = 127 then 127 else (a + b) % 127

/-- VX64 addition of two block images (R148). -/
def vxAdd (a b : Nat) : Nat :=
  let (e, bad) := vxExpJoin (vxExp a) (vxExp b)
  vxPack ((upto 64).map (fun i => (vxLane a i + vxLane b i) % 2 ^ 64)) (vxNanf a || vxNanf b) e
    ((upto 64).map (fun i => if bad then 127 else resAdd (vxRes a i) (vxRes b i)))

def vaddF : FBody := fun w f t =>
  if vfOf f = vxFormat then
    vecRes w f t [] [] (vWrites f.rd 4 (vxAdd (groupNat t f.rs1 4) (groupNat t f.rs2 4))) 0
  else vLanewise w f t

def vsubF : FBody := vLanewise
def vmulF : FBody := vLanewise
def vfmaF : FBody := vLanewise

def vmovF : FBody := fun w f t =>
  vecRes w f t [] [] (vWrites f.rd t.vgrp (groupNat t f.rs1 t.vgrp)) 0

/-- `vbcast`: the low bits of INT, or the FP64 value rounded to VF (R145). -/
def vbcastF : FBody := fun w f t =>
  let vf := vfOf f
  let wd := vfWidth vf
  let x := (t.reg f.rs1).val
  let r : FRes := if vfIsInt vf then ⟨x.toNat % 2 ^ wd, 0⟩
    else fCvt binary64 (vfFloat vf) t.rm false (t.ftz && decide (vf = 9)) x.toNat
  vecRes w f t [(f.rs1, if vfIsInt vf then [.int] else [.fp64])] []
    (vWrites f.rd t.vgrp (packLanes wd (List.replicate (t.vgrp * 2048 / wd) r.code))) r.flags

/-- `vmulw`: exact products in a wider format (R146). -/
def vmulwF : FBody := fun w f t =>
  let g := t.vgrp
  let vf := vfOf f
  let ws := vfWidth vf
  let a := groupNat t f.rs1 g
  let b := groupNat t f.rs2 g
  let src := vfFloat vf
  let dst := vfFloat (widenTo vf)
  let l := (upto (g * 2048 / ws)).map (fun i =>
    let x := laneOf a ws i
    let y := laneOf b ws i
    if vfIsInt vf then
      ((if vfnOf f = 1 then x * y else ((sextNat x ws * sextNat y ws) % 2 ^ (2 * ws)).toNat), (0 : FFlags))
    else
      let r := fin2 dst t.rm (t.ftz && decide (vf = 8)) ((src.dec x).isSnan || (src.dec y).isSnan) ((src.dec x).mul (src.dec y))
      (r.code, r.flags))
  vecRes w f t [] [] (vWrites f.rd (2 * g) (packLanes (2 * ws) (l.map (·.1)))) (orAll l)

/-- `vdotw`: exact products summed into the addend vd, rounded once (R146). -/
def vdotwF : FBody := fun w f t =>
  let g := t.vgrp
  let vf := vfOf f
  let ws := vfWidth vf
  let m := 32 / ws
  let a := groupNat t f.rs1 g
  let b := groupNat t f.rs2 g
  let c := groupNat t f.rd g
  let src := vfFloat vf
  let l := (upto (g * 64)).map (fun i =>
    let xs := (upto m).map (fun k => (laneOf a ws (m * i + k), laneOf b ws (m * i + k)))
    if vfIsInt vf then
      (((sextNat (laneOf c 32 i) 32 + sumInt (xs.map (fun (p : Nat × Nat) =>
        (if vfnOf f = 1 then (p.1 : Int) else sextNat p.1 8) * sextNat p.2 8))) % 2 ^ 32).toNat, (0 : FFlags))
    else
      let ps := xs.map (fun (p : Nat × Nat) => (src.dec p.1).mul (src.dec p.2))
      let cv := binary32.dec (laneOf c 32 i)
      let sn := cv.isSnan || xs.any (fun (p : Nat × Nat) => (src.dec p.1).isSnan || (src.dec p.2).isSnan)
      let s := FVal.sum t.rm (cv :: ps.map (·.1))
      let r := fin2 binary32 t.rm false sn (s.1, s.2 || ps.any (·.2))
      (r.code, r.flags))
  vecRes w f t [] [] (vWrites f.rd g (packLanes 32 (l.map (·.1)))) (orAll l)

/-- One lane of `vcvt` (R84, R85, R147; integer to floating with SAT: log 22). A conversion to a wider
floating format is exact and has no flags, whatever SAT is (R83). -/
def cvtLane (vs vd : Nat) (rm : RMode) (sat ftz : Bool) (x : Nat) : Nat × FFlags :=
  let ws := vfWidth vs
  let wd := vfWidth vd
  if vfIsInt vs then
    let i := sextNat x ws
    if vfIsInt vd then
      let r := if sat then max (-(2 ^ (wd - 1))) (min (2 ^ (wd - 1) - 1) i) else i
      ((r % 2 ^ wd).toNat, 0)
    else
      let r := (vfFloat vd).enc rm sat (FVal.ofDy (i, 0) false)
      (r.code, r.flags)
  else if vfIsInt vd then
    let r := fToInt (vfFloat vs) rm wd x
    ((r.1 % 2 ^ wd).toNat, r.2)
  else if ws < wd then (((vfFloat vd).enc .rne false ((vfFloat vs).dec x)).code, 0)
  else
    let r := fCvt (vfFloat vs) (vfFloat vd) rm sat (ftz && decide (vd = 9)) x
    (r.code, r.flags)

def vcvtF : FBody := fun w f t =>
  let g := t.vgrp
  let vs := vfOf f
  let vd := f.x24 % 16
  let ws := vfWidth vs
  let wd := vfWidth vd
  let a := groupNat t f.rs1 g
  let l := (upto (g * 2048 / ws)).map (fun i => cvtLane vs vd t.rm (f.x24 / 16 % 2 = 1) t.ftz (laneOf a ws i))
  vecRes w f t [] [] (vWrites f.rd (groupFor g wd ws) (packLanes wd (l.map (·.1)))) (orAll l)

/-- `vred` over integer lanes (R145). -/
def redInt (fn w : Nat) (l : List Nat) : Word :=
  let s := l.map (fun x => sextNat x w)
  match fn with
  | 0 => wordOf (sumInt s)
  | 1 => wordOf (s.foldl min (s.headD 0))
  | 2 => wordOf (s.foldl max (s.headD 0))
  | _ => wordOf ((s.map (fun x => (x.natAbs : Int))).foldl max 0)

/-- `vred` over floating lanes (R145, R81, R82). -/
def redFloat (fn : Nat) (fm : FFmt) (rm : RMode) (ftz : Bool) (l : List Nat) : FRes :=
  let vs := l.map fm.dec
  let nv := nvIf (vs.any FVal.isSnan)
  let wide := vs.map (fun v => (binary64.enc .rne false v).code)
  match fn with
  | 0 =>
    let s := FVal.sum rm vs
    fin2 binary64 rm ftz (vs.any FVal.isSnan) s
  | 1 =>
    let r := flushRes binary64 ftz ⟨wide.foldl (fun a x => (fMinMax binary64 false false a x).code) binary64.nan, 0⟩
    ⟨r.code, r.flags ||| nv⟩
  | 2 =>
    let r := flushRes binary64 ftz ⟨wide.foldl (fun a x => (fMinMax binary64 false true a x).code) binary64.nan, 0⟩
    ⟨r.code, r.flags ||| nv⟩
  | _ =>
    if vs.any FVal.isNan then ⟨binary64.nan, nv⟩
    else
      let r := flushRes binary64 ftz ⟨(wide.map (· % 2 ^ 63)).foldl max 0, 0⟩
      ⟨r.code, r.flags ||| nv⟩

def vredF : FBody := fun w f t =>
  let g := t.vgrp
  let vf := vfOf f
  let ws := vfWidth vf
  let a := groupNat t f.rs1 g
  let l := (upto (g * 2048 / ws)).map (laneOf a ws)
  let r : FRes := if vfIsInt vf then ⟨(redInt (vfnOf f) ws l).toNat, 0⟩ else redFloat (vfnOf f) (vfFloat vf) t.rm t.ftz l
  vecRes w f t [] [f.rd] [(f.rd, ⟨if vfIsInt vf then .int else .fp64, BitVec.ofNat 64 r.code⟩, 0, 8)] r.flags

/-- The backlog's oldest operation starts on the datapath (R140). -/
def startVec (s : State) (c : Nat) : State :=
  s.setCore c { s.core c with vecQ := (s.core c).vecQ.drop 1 }

end Sys2Proof.Machine
end

