-- ==== Sys2Proof/Machine/Memory.lean ====
section
/-! DEFINITION. Address translation (R55, R208, R212, R213), scalar and vector accesses and where they are performed
(R30, R210, R214-R218, R222-R225, R229, R230, R232), and instruction fetch (R23, R59, R227). -/

namespace Sys2Proof.Machine

/-! ### Translation -/

/-- The permission an access needs (R212). -/
inductive Need where
  | rd | wr | rw | x
deriving DecidableEq, Repr

/-- Permissions of a leaf, [3] U [2] X [1] W [0] RD, against a level and a need (R212). -/
def permOk (p : BitVec 4) (prv : BitVec 2) (n : Need) : Bool :=
  (decide (prv ≠ 0) || bitAt p 3) && (match n with
    | .rd => bitAt p 0
    | .wr => bitAt p 1
    | .rw => bitAt p 0 && bitAt p 1
    | .x => bitAt p 2)

/-- What the cache path alone says of a virtual address: a physical address, a failure (`wOnly`: only W is missing), or a walk
from the root. -/
inductive Xlat where
  | pa (a : Nat)
  | fail (wOnly : Bool)
  | walk (root : Nat)
deriving DecidableEq, Repr

/-- A leaf that lets an `amo` read and not write (R59). -/
def lacksW (p : BitVec 4) (prv : BitVec 2) (n : Need) : Bool := decide (n = .rw) && permOk p prv .rd

def Leaf.covers (l : Leaf) (va : Nat) : Bool := decide (l.va ≤ va) && decide (va < l.va + l.size)
def Leaf.apply (l : Leaf) (va : Nat) : Nat := l.pa + (va - l.va)

/-- Whether a press address lies in the bytes that a binding holds of a core it holds (R212, R332). -/
def State.pressHeld (s : State) (b : Option Nat) (a : Nat) : Bool :=
  match physKind s a, b with
  | .press c off, some b => decide ((s.core c).binding = some b) && decide (off < (s.core c).press)
  | _, _ => false

/-- Translation without a table read (R55, R212). `b` is the binding that the access belongs to, `tc` the cache. -/
def State.xlatQuick (s : State) (b : Option Nat) (tc : List Leaf) (prv : BitVec 2) (n : Need) (va : Word) : Xlat :=
  let a := va.toNat
  if prv = 3 then .pa a
  else if a ≥ 2 ^ 48 then .fail false
  else if isPress a then (if n ≠ .x && s.pressHeld b a then .pa a else .fail false)
  else
    match tc.find? (fun l => l.covers a) with
    | some l => if permOk l.perm prv n && s.isHbm (l.apply a) then .pa (l.apply a) else .fail (lacksW l.perm prv n)
    | none =>
      match b with
      | some b => if (s.binding b).ttEn then .walk (s.binding b).ttRoot else .fail false
      | none => .fail false

/-- What an entry of a table says (R212). -/
inductive WalkRes where
  | table (a : Nat)
  | leaf (l : Leaf)
  | bad
deriving DecidableEq, Repr

/-- Address of the entry that a level reads. -/
def entryAddr (table level va : Nat) : Nat := table + 8 * (va / 2 ^ (12 + 9 * level) % 512)

/-- Judge an entry at a level (R212). -/
def walkEntry (e : Word) (level va : Nat) : WalkRes :=
  let ppn := fld e 12 32 * 4096
  let size := 2 ^ (12 + 9 * level)
  if !bitAt e 63 || decide (fld e 44 18 ≠ 0) || decide (fld e 6 6 ≠ 0) || decide (fld e 0 2 ≠ 0) then .bad
  else if bitAt e 62 then
    (if level = 3 ∨ ppn % size ≠ 0 then .bad else .leaf ⟨va / size * size, size, ppn, BitVec.ofNat 4 (fld e 2 4)⟩)
  else if level = 0 then .bad
  else .table ppn

/-- The half that owns a physical address (R206, R209). -/
def homeHalf (s : State) (a : Nat) : Nat :=
  match physKind s a with
  | .hbm g => halfOfStack (stackOfGranule g)
  | .press c _ => halfOfCore c
  | .ctl off => if off / 2 ^ 33 < 2 then halfOfCore (off / 2 ^ 23 % 1024) else off / 2 ^ 19 % 2
  | .none => 0

/-- Whether a cross-half access must wait for the link (R297). -/
def State.linkWait (s : State) (c a : Nat) : Bool :=
  decide (homeHalf s a ≠ halfOfCore c) && decide ((s.half (halfOfCore c)).link ≠ .up)

/-- What ends an engine's access, or holds it: a failed translation of a virtual address, unrecoverable parity at a
physical one, a physical address of the other half while the link is not UP (R297), or a fault with its cause and value. -/
inductive EErr where
  | xlat (va : Word)
  | parity (pa : Nat)
  | link (pa : Nat)
  | code (cause : Nat) (etval : Word)
deriving DecidableEq, Repr

/-- A walk for core `c` from a table at a level down to its leaf (R212): its reads consume poison and wait for the link as
any access does (R232, R297). -/
def State.walkFrom (s : State) (c va : Nat) : Nat → Nat → Except EErr Leaf
  | 0, table =>
    let ea := entryAddr table 0 va
    if s.linkWait c ea then .error (.link ea)
    else if s.poisoned ea 8 then .error (.parity (s.badWord .ok ea 8))
    else
      match walkEntry (s.readWord ea) 0 va with
      | .leaf l => .ok l
      | _ => .error (.xlat (BitVec.ofNat 64 va))
  | level + 1, table =>
    let ea := entryAddr table (level + 1) va
    if s.linkWait c ea then .error (.link ea)
    else if s.poisoned ea 8 then .error (.parity (s.badWord .ok ea 8))
    else
      match walkEntry (s.readWord ea) (level + 1) va with
      | .leaf l => .ok l
      | .table t => s.walkFrom c va level t
      | .bad => .error (.xlat (BitVec.ofNat 64 va))

/-- A walk fills the translation cache with the leaf it found; beyond 1,024 leaves the oldest goes (R212; log 23). -/
def Core.fillCache (k : Core) (l : Leaf) : Core := { k with tcache := (l :: k.tcache.filter (· ≠ l)).take 1024 }

/-- A whole translation, as the engines use it row by row: the physical address and the filled cache. -/
def State.xlat (s : State) (c : Nat) (prv : BitVec 2) (n : Need) (va : Word) : Except EErr Nat × State :=
  match s.xlatQuick (s.bindingOf c) (s.core c).tcache prv n va with
  | .pa a => (.ok a, s)
  | .fail _ => (.error (.xlat va), s)
  | .walk root =>
    match s.walkFrom c va.toNat 3 root with
    | .ok l =>
      let s' := s.setCore c ((s.core c).fillCache l)
      (if permOk l.perm prv n && s.isHbm (l.apply va.toNat) then .ok (l.apply va.toNat) else .error (.xlat va), s')
    | .error e => (.error e, s)

/-- The control and status range (R210). -/
def inCtlRange (a : Nat) : Bool := decide (ctlBase ≤ a) && decide (a < ctlBase + 2 ^ 36)

/-- Where a translated data access of core `c` may go: HBM or the press (R208, R210), once the link to it is UP (R297). -/
def State.engineLands (s : State) (c : Nat) (va : Word) (a : Nat) : Except EErr Nat :=
  match physKind s a with
  | .hbm _ => if s.linkWait c a then .error (.link a) else .ok a
  | .press _ _ => if s.linkWait c a then .error (.link a) else .ok a
  | _ => .error (.xlat va)

/-- A data access of an engine. Below M an address in the control range is a privilege fault, deferred as what an engine
finds is (R40, R210; log 118). -/
def State.engineXlat (s : State) (c : Nat) (prv : BitVec 2) (n : Need) (va : Word) : Except EErr Nat × State :=
  if prv ≠ 3 && inCtlRange va.toNat then (.error (.code 0x04 va), s)
  else
    match s.xlat c prv n va with
    | (.ok a, s') => (s.engineLands c va a, s')
    | r => r

/-- The pages that `n` bytes at `va` touch, as (first byte, length). -/
def pagesOf (va : Nat) (n : Nat) : List (Nat × Nat) :=
  (upto (if n = 0 then 0 else (va + n - 1) / 4096 + 1 - va / 4096)).map (fun i =>
    let lo := max va ((va / 4096 + i) * 4096)
    (lo, min (va + n) ((va / 4096 + i + 1) * 4096) - lo))

/-- Translate a run of bytes page by page: the physical pieces, or what ended it. -/
def State.xlatRun (s : State) (c : Nat) (prv : BitVec 2) (nd : Need) (va : Word) (n : Nat) : Except EErr (List (Nat × Nat)) × State :=
  (pagesOf va.toNat n).foldl (fun acc p =>
    match acc with
    | (.error v, s) => (.error v, s)
    | (.ok l, s) =>
      match s.engineXlat c prv nd (BitVec.ofNat 64 p.1) with
      | (.ok a, s') => (.ok (l ++ [(a, p.2)]), s')
      | (.error e, s') => (.error e, s')) (.ok [], s)

def State.readPieces (s : State) (l : List (Nat × Nat)) : List Byte := (l.map (fun p => s.readBytes p.1 p.2)).flatten
/-- The failing word of pieces that touch a poisoned line (R230, R232). -/
def State.poisonedPieces (s : State) (l : List (Nat × Nat)) : Option Nat :=
  (l.find? (fun p => s.poisoned p.1 p.2)).map (fun p => s.badWord .ok p.1 p.2)
/-- The pieces that core `c` reads take their path through the caches (R214). -/
def State.cachedPieces (s : State) (c : Nat) (l : List (Nat × Nat)) : State := l.foldl (fun s p => s.cached c false p.1 p.2) s

/-- Write bytes over physical pieces in order, for core `c`. -/
def State.writePieces (s : State) (c : Nat) : List (Nat × Nat) → List Byte → State
  | [], _ => s
  | p :: ps, l => (s.writeBytes c p.1 (l.take p.2)).writePieces c ps (l.drop p.2)

/-! ### Where an address lives -/

/-- The unit that an unrecoverable error at a physical address is a fault of (R230): the stack of a line that HBM lost, the
core of a press word. -/
def unitOfPa (s : State) (a : Nat) : BitVec 16 :=
  match physKind s a with
  | .hbm g => unitId 1 (stackOfGranule g)
  | .press c _ => unitId 0 c
  | _ => unitId 3 0

/-- The unit of an error that the check of a cached copy found: the die of a dirty L2 line, else as `unitOfPa` (R229, R230). -/
def lostUnit (s : State) (a : Nat) : BitVec 16 :=
  match physKind s a with
  | .hbm g => unitId 6 (dieOfStack (stackOfGranule g))
  | _ => unitOfPa s a

/-- What a check of bytes at physical pieces comes to (R229): a press word or a dirty L2 line is lost; of an L1 line or a
clean L2 line the clean copy is read again. -/
def State.settlePar (s : State) (par : Parity) (l : List (Nat × Nat)) : Parity :=
  match par with
  | .lost _ => let w := Parity.failingOf par l; if isPress w || s.dirtyAt w then par else .replayed
  | p => p

/-- A replay or refetch is counted (R229). -/
def State.countReplay (s : State) (c : Nat) : State :=
  s.setCore c { s.core c with parcnt := satAdd (s.core c).parcnt 1 }

/-! ### Beginning an access -/

/-- Size in bytes, need, and the fault for a failed translation of an access (R59; `amo` reads first, log 24). -/
def AccOp.bytes (o : AccOp) : Nat :=
  match o with
  | .load n _ _ => n
  | .loadT => 8
  | .store n _ => n
  | .storeT _ => 8
  | .amo n _ _ _ _ => n
  | .vload _ b => b
  | .vstore _ b => b

def AccOp.need (o : AccOp) : Need :=
  match o with
  | .load _ _ _ => .rd
  | .loadT => .rd
  | .vload _ _ => .rd
  | .amo _ _ _ _ _ => .rw
  | _ => .wr

def AccOp.isLoad (o : AccOp) : Bool := o.need == .rd || o.need == .rw
def AccOp.isStore (o : AccOp) : Bool := o.need == .wr || o.need == .rw
def AccOp.isVec (o : AccOp) : Bool :=
  match o with
  | .vload _ _ => true
  | .vstore _ _ => true
  | _ => false

/-- Cause of a failed translation: 0x06 for a read, 0x07 for a write; an `amo` that may read and not write is a write
fault (R59; log 24). -/
def AccOp.faultCause (o : AccOp) : Nat := if o.need = .wr then 0x07 else 0x06

/-- Whether an access may reach the control range (R210): an 8-byte `ld` or `st`. -/
def AccOp.ctlOk (o : AccOp) : Bool :=
  match o with
  | .load n _ t => decide (n = 8) && decide (t = .int)
  | .store n _ => decide (n = 8)
  | _ => false

/-- Judge a translated physical address (R208, R210, R211). -/
def State.landing (s : State) (o : AccOp) (va : Word) (a : Nat) : XPhase :=
  match physKind s a with
  | .hbm _ => .ready a
  | .press _ _ => .ready a
  | .ctl off => if o.ctlOk && (ctlDecode s off).isSome then .ready a else .failed o.faultCause va
  | .none => .failed o.faultCause va

/-- The phase in which an access begins (R212). -/
def State.beginAccess (s : State) (g : Nat) (o : AccOp) (va : Word) (prv : BitVec 2) : XPhase :=
  match s.xlatQuick (s.bindingOf (coreOf g)) (s.core (coreOf g)).tcache prv o.need va with
  | .pa a => s.landing o va a
  | .fail wOnly => .failed (if wOnly then 0x07 else o.faultCause) va
  | .walk root => .walk 3 root

/-- Put an access on a ticket of a thread. -/
def Thread.addAccess (t : Thread) (tk : Nat) (o : AccOp) (va : Word) (ph : XPhase) (dst : List Nat) : Thread :=
  { t.addOp tk ⟨.acc ⟨o, va, t.estat.prv, t.memOrd, ph⟩, t.pc, dst⟩ with memOrd := t.memOrd + 1 }

/-! ### Order (R224, R225) -/

/-- Bytes that a scalar access moves at a physical address: a pair outside the press is 16 (R30). -/
def AccOp.span (o : AccOp) (pa : Nat) : Nat :=
  match o with
  | .loadT => if isPress pa then 8 else 16
  | .storeT _ => if isPress pa then 8 else 16
  | o => o.bytes

/-- Whether an access has completed at its point of coherence. -/
def XPhase.isOver (p : XPhase) : Bool :=
  match p with
  | .performed _ _ => true
  | .failed _ _ => true
  | _ => false

/-- The accesses of a thread's tickets. -/
def Thread.accesses (t : Thread) : List Access :=
  (upto 16).flatMap (fun i => (t.ticket i).ops.filterMap (fun o => match o.kind with
    | .acc a => some a
    | _ => none))

/-- Whether a fence orders an earlier kind before a later one; a mask of zero orders all four (R225). -/
def Fence.orders (f : Fence) (e l : AccOp) : Bool :=
  let all := decide (f.mask = 0)
  ((all || bitAt f.mask 3) && e.isStore && l.isStore || (all || bitAt f.mask 2) && e.isStore && l.isLoad
    || (all || bitAt f.mask 1) && e.isLoad && l.isStore || (all || bitAt f.mask 0) && e.isLoad && l.isLoad)
  && (f.vec || (!e.isVec && !l.isVec))

/-- Where an access is or will be performed. -/
def State.paOf (s : State) (c : Nat) (a : Access) : Option Nat :=
  match a.phase with
  | .ready pa => some pa
  | .walk level table => (s.walkFrom c a.va.toNat level table).toOption.map (fun l => l.apply a.va.toNat)
  | _ => none

/-- The physical pieces of an access whose first byte lands at `pa`: a vector access goes page by page (R143, R212). -/
def State.runOf (s : State) (c : Nat) (a : Access) (pa : Nat) : List (Nat × Nat) :=
  if a.op.isVec then
    match pagesOf a.va.toNat a.op.bytes with
    | [] => []
    | p :: ps => (pa, p.2) :: ps.filterMap (fun q => (s.engineXlat c a.prv a.op.need (BitVec.ofNat 64 q.1)).1.toOption.map (fun b => (b, q.2)))
  else [(pa, a.op.span pa)]

/-- The physical address at which an access waits for the half link, if any (R218, R297). -/
def State.linkHolds (s : State) (c : Nat) (a : Access) (pa : Nat) : Option Nat :=
  if s.linkWait c pa then some pa
  else if a.op.isVec then
    firstSome (fun p : Nat × Nat => match (s.engineXlat c a.prv a.op.need (BitVec.ofNat 64 p.1)).1 with
      | .error (.link q) => some q
      | _ => none) ((pagesOf a.va.toNat a.op.bytes).drop 1)
  else none

/-- Whether two runs of bytes touch one 8-byte word. -/
def sameWord (a n b m : Nat) : Bool := (wordsTouched a n).any (wordsTouched b m).contains

def piecesMeet (l m : List (Nat × Nat)) : Bool := l.any (fun p => m.any (fun q => sameWord p.1 p.2 q.1 q.2))

/-- An access waits for an earlier one of its thread behind a fence, to the same word, or to the control range
(R210, R224, R225). -/
def State.blocked (s : State) (c : Nat) (t : Thread) (a : Access) (pa : Nat) : Bool :=
  t.accesses.any (fun e => decide (e.ord < a.ord) && !e.phase.isOver &&
    (t.fences.any (fun f => decide (e.ord < f.ord) && decide (f.ord ≤ a.ord) && f.orders e.op a.op)
     || (match s.paOf c e with
        | some q => piecesMeet (s.runOf c e q) (s.runOf c a pa) || (decide (pa ≥ ctlBase) && decide (q ≥ ctlBase))
        | none => false)))

/-- `mbar` (R225): a fence between the accesses issued so far and later ones. -/
def mbarBody : Body := fun x =>
  let t := x.th
  let live := t.fences.filter (fun f => t.accesses.any (fun e => decide (e.ord < f.ord) && !e.phase.isOver))
  .ok x.s { t with fences := live ++ [⟨t.memOrd, BitVec.ofNat 4 (x.f.x24 % 16), decide (x.f.x24 / 16 = 1)⟩] } .seq

/-! ### Performing an access -/

/-- The new value of an `amo` (R223) on `n` bytes. -/
def amoVal (op n : Nat) (old v cmp : Nat) : Nat :=
  let w := 8 * n
  let m := 2 ^ w
  let so := sextNat old w
  let sv := sextNat v w
  (match op with
  | 0 => old + v
  | 1 => v
  | 2 => if old = cmp % m then v else old
  | 3 => old &&& v
  | 4 => old ||| v
  | 5 => old ^^^ v
  | 6 => if so < sv then v else old
  | 7 => if sv < so then v else old
  | 8 => if old < v % m then v else old
  | _ => if v % m < old then v else old) % m

/-- A load's value, extended to 64 bits (R222). -/
def extend (n : Nat) (signed : Bool) (v : Nat) : Word := if signed then wordOf (sextNat v (8 * n)) else BitVec.ofNat 64 v

/-- The keeper's record of a permanent fault of a unit, and the failed phase (R230, R232). -/
def State.failParity (s : State) (u : BitVec 16) (pa : Nat) : XPhase × State :=
  (.failed 0x10 (BitVec.ofNat 64 pa), s.recordFault u 0x01)

/-- An access consumes a poisoned line: CR_ETVAL names the failing word (R230, R232). -/
def State.failPoison (s : State) (pa n : Nat) : XPhase × State :=
  s.failParity (unitOfPa s pa) (s.badWord .ok pa n)

/-- A vector access's image padded to its registers (R143). -/
def vecOfBytes (n : Nat) (l : List Byte) : List VReg := (upto n).map (fun i => BitVec.ofNat 2048 (leNat ((l.drop (256 * i)).take 256)))

/-- The bytes a `vst` moves (R143). -/
def bytesOfVecs (l : List VReg) (n : Nat) : List Byte := ((l.map (fun v => leBytes 256 v.toNat)).flatten).take n

/-- What ended the translation of a vector access's pages; one that waits for the link stays where it is. -/
def State.failRun (s : State) (p : XPhase) (cause : Nat) (e : EErr) : XPhase × State :=
  match e with
  | .xlat v => (.failed cause v, s)
  | .parity q => s.failParity (unitOfPa s q) q
  | .link _ => (p, s)
  | .code c v => (.failed c v, s)

/-- Perform a translated access at its point of coherence (R30, R210, R214, R217, R223, R232). `dst` is the code of the
register it writes. -/
def State.perform (s : State) (g : Nat) (a : Access) (dst pa : Nat) : XPhase × State :=
  let c := coreOf g
  match a.op with
  | .load n signed tag =>
    (match physKind s pa with
      | .ctl off =>
        (match ctlDecode s off with
          | some (r, at') => let (v, s') := csrRead s at' r; (.performed [⟨.int, v⟩] [], s')
          | none => (.failed 0x06 a.va, s))
      | _ =>
        if s.poisoned pa n then s.failPoison pa n
        else if isPress pa && (s.tagAt pa == 3 || s.tagAt pa == 6) then
          (.failed 0x02 (BitVec.ofNat 64 ((s.tagAt pa).toNat * 256 + dst)), s)
        else (.performed [⟨tag, extend n signed (s.readNat pa n)⟩] [], s.cached c true pa n))
  | .loadT =>
    if s.poisoned pa (a.op.span pa) then s.failPoison pa (a.op.span pa)
    else if isPress pa then (.performed [⟨(tagOfCode (s.tagAt pa).toNat).getD .inval, s.readWord pa⟩] [], s)
    else
      let tw := s.readNat (pa + 8) 8
      (match tagOfCode (tw % 16) with
        | some tg => if tg = .pend ∨ tw ≥ 16 then (.failed 0x02 (BitVec.ofNat 64 (tw % 16 * 256 + dst)), s)
            else (.performed [⟨tg, s.readWord pa⟩] [], s.cached c true pa 16)
        | none => (.failed 0x02 (BitVec.ofNat 64 (tw % 16 * 256 + dst)), s))
  | .store n v =>
    (match physKind s pa with
      | .ctl off =>
        (match ctlDecode s off with
          | some (r, at') => (.performed [] [], csrWrite s at' r .int v 3)
          | none => (.failed 0x07 a.va, s))
      | _ => (.performed [] [], s.writeNat c pa n v.toNat))
  | .storeT v =>
    if isPress pa then (.performed [] [], (s.writeNat c pa 8 v.val.toNat).setTags pa 8 (BitVec.ofNat 4 (tagCode v.tag)))
    else (.performed [] [], s.writeNat c pa 16 (v.val.toNat + 2 ^ 64 * tagCode v.tag))
  | .amo n op signed v cmp =>
    if s.poisoned pa n then s.failPoison pa n
    else
      let old := s.readNat pa n
      (.performed [⟨.int, extend n signed old⟩] [], s.writeNat c pa n (amoVal op n old v.toNat cmp.toNat))
  | .vload n b =>
    (match s.xlatRun c a.prv .rd a.va b with
      | (.error e, s') => s'.failRun a.phase 0x06 e
      | (.ok ps, s') =>
        (match s'.poisonedPieces ps with
          | some q => s'.failParity (unitOfPa s' q) q
          | none => (.performed [] (vecOfBytes n (s'.readPieces ps)), s'.cachedPieces c ps)))
  | .vstore data b =>
    (match s.xlatRun c a.prv .wr a.va b with
      | (.error e, s') => s'.failRun a.phase 0x07 e
      | (.ok ps, s') => (.performed [] [], s'.writePieces c ps (bytesOfVecs data b)))

/-- Replace operation `i` of a ticket. -/
def Thread.setOp (t : Thread) (tk i : Nat) (o : TOp) : Thread :=
  t.setTicket tk { t.ticket tk with ops := (t.ticket tk).ops.set i o }

def Thread.setPhase (t : Thread) (tk i : Nat) (o : TOp) (a : Access) (p : XPhase) : Thread :=
  t.setOp tk i { o with kind := .acc { a with phase := p } }

/-- The first operation of a ticket whose access meets a test, with its place. -/
def Thread.findAcc (t : Thread) (tk : Nat) (p : Access → Bool) : Option (Nat × TOp × Access) :=
  firstSome (fun e : TOp × Nat => match e.1.kind with
    | .acc a => if p a then some (e.2, e.1, a) else none
    | _ => none) (t.ticket tk).ops.zipIdx

/-- Whether an access may be performed now. -/
def State.mayPerform (s : State) (g : Nat) (a : Access) : Bool :=
  match a.phase with
  | .ready pa => !s.blocked (coreOf g) (s.thread g) a pa && (s.linkHolds (coreOf g) a pa).isNone
  | _ => false

/-- One access of a ticket is performed (R217, R229, R230): nothing where none may be. -/
def doMemAccess (s : State) (g tk : Nat) (par : Parity) : State :=
  let t := s.thread g
  match t.findAcc tk (s.mayPerform g) with
  | none => s
  | some (i, o, a) =>
    match a.phase with
    | .ready pa =>
      let run := s.runOf (coreOf g) a pa
      let par := s.settlePar par run
      let s := if par = .replayed then s.countReplay (coreOf g) else s
      let (p, s) := if Parity.isLost par then s.failParity (lostUnit s (Parity.failingOf par run)) (Parity.failingOf par run)
        else s.perform g a (o.dst.headD 0) pa
      s.setThread g ((s.thread g).setPhase tk i o a p)
    | _ => s

/-- One table read of a walk returns (R212). -/
def doWalkRead (s : State) (g tk : Nat) (par : Parity) : State :=
  let t := s.thread g
  let c := coreOf g
  match t.findAcc tk (fun a => match a.phase with
    | .walk _ _ => true
    | _ => false) with
  | none => s
  | some (i, o, a) =>
    match a.phase with
    | .walk level table =>
      let ea := entryAddr table level a.va.toNat
      let put := fun (s : State) (p : XPhase) => s.setThread g ((s.thread g).setPhase tk i o a p)
      let par := s.settlePar par [(ea, 8)]
      if s.linkWait c ea then s
      else if Parity.isLost par || s.poisoned ea 8 then
        (let (p, s') := if Parity.isLost par then s.failParity (lostUnit s ea) (Parity.failing par ea 8) else s.failPoison ea 8
         put s' p)
      else
        let s := if par = .replayed then s.countReplay c else s
        match walkEntry (s.readWord ea) level a.va.toNat with
        | .table tb => put s (.walk (level - 1) tb)
        | .leaf l =>
          let s := s.setCore c ((s.core c).fillCache l)
          put s (if permOk l.perm a.prv a.op.need && s.isHbm (l.apply a.va.toNat) then s.landing a.op a.va (l.apply a.va.toNat)
            else .failed (if lacksW l.perm a.prv a.op.need then 0x07 else a.op.faultCause) a.va)
        | .bad => put s (.failed a.op.faultCause a.va)
    | _ => s

/-- Where an access, or a table read of its walk, waits for the half link. -/
def State.accWait (s : State) (c : Nat) (a : Access) : Option Nat :=
  match a.phase with
  | .ready pa => s.linkHolds c a pa
  | .walk l tb => let ea := entryAddr tb l a.va.toNat; if s.linkWait c ea then some ea else none
  | _ => none

/-- An access of a ticket, or a table read of its walk, has waited 1 ms on a link that is not UP (R297): the physical
address it ends with. -/
def accTimeout (s : State) (g tk : Nat) : Option State :=
  let t := s.thread g
  match t.findAcc tk (fun a => (s.accWait (coreOf g) a).isSome) with
  | none => none
  | some (i, o, a) => some ((s.setThread g (t.setPhase tk i o a
      (.failed 0x10 (BitVec.ofNat 64 ((s.accWait (coreOf g) a).getD 0))))).recordFault (unitId 3 0) 0x01)

/-- A mesh flit of an access arrives (R229): replayed up to 3 times, then an unrecoverable error. -/
def doMeshFlit (s : State) (g tk : Nat) (good : Bool) : State :=
  let c := coreOf g
  let k := s.core c
  if good then s.setCore c { k with meshTries := 0 }
  else if k.meshTries < 3 then (s.setCore c { k with meshTries := k.meshTries + 1 }).countReplay c
  else
    match (s.thread g).findAcc tk (fun a => !a.phase.isOver) with
    | none => s.setCore c { k with meshTries := 0 }
    | some (i, o, a) =>
      let pa := match a.phase with
        | .ready pa => pa
        | .walk l tb => entryAddr tb l a.va.toNat
        | _ => 0
      let s := s.setCore c { k with meshTries := 0 }
      (s.setThread g ((s.thread g).setPhase tk i o a (.failed 0x10 (BitVec.ofNat 64 pa)))).recordFault (unitId 6 (dieOfCore c)) 0x01

/-- A missed line that the core has requested returns and is allocated in the L1 (R214, R215, R226, R228): 8 ways, the
oldest of a full set goes (log 23). A parity error of the line drops it, and it is fetched again (R229). -/
def doLineFill (s : State) (c line : Nat) (par : Parity) : State :=
  if (s.core c).requested line then
    let s := if par = .ok then s else s.countReplay c
    let k := s.core c
    let others := k.l1.filter (· ≠ line)
    let sameSet := others.filter (fun l => l % 64 = line % 64)
    let kept := if sameSet.length < 8 then others else others.filter (fun l => !((sameSet.drop 7).contains l))
    s.setCore c { k with l1 := line :: kept, reqs := k.reqs.filter (fun e => decide (e.1 ≠ line)) }
  else s

/-! ### Memory instructions (R222, R223, R143) -/

/-- Size of a scalar access. -/
def memSize (f : Fields) : Nat := if f.form = .li then 8 else 2 ^ (f.fn % 4)

/-- Post-increment (R222). -/
def memPi (f : Fields) : Bool := decide (f.form = .lr) && decide (f.fn / 8 % 2 = 1) && decide (f.op ≠ .amo)

/-- The address of a scalar access (R222, R223). -/
def memAddr (f : Fields) (t : Thread) : Word :=
  let b := (t.reg f.rs1).val
  if f.form = .li then b + f.imm
  else if f.op = .amo then b + wordOf (sextNat f.x24 24)
  else if memPi f then b + (t.reg f.rs2).val
  else b + (t.reg f.rs2).val + wordOf (sextNat f.x24 24)

/-- The data register of a store (R222). -/
def memData (f : Fields) : Nat := if f.form = .li then f.rd else f.rs3

/-- `ldt` and `stt` move a pair outside the press (R30). -/
def isTagged (o : Op) : Bool := o == .ldt || o == .stt

/-- The first of `n` bytes at an address that lies in the control range (R210). -/
def ctlHit (va : Word) (n : Nat) : Option Word :=
  if inCtlRange va.toNat then some va
  else if decide (va.toNat < ctlBase) && decide (ctlBase < va.toNat + n) then some (BitVec.ofNat 64 ctlBase)
  else none

/-- Privilege by address: the control range below M (R210), and `ldt` or `stt` outside the press at U (R30; press bytes
the binding does not hold lie outside it, log 25). -/
def privAddrCheck (s : State) (g : Nat) (t : Thread) (o : Op) (va : Word) (n : Nat) : Option Cond :=
  if decide (t.estat.prv ≠ 3) && (ctlHit va n).isSome then some (cPrivAddr ((ctlHit va n).getD va))
  else condIf (isTagged o && decide (t.estat.prv = 0) && !(isPress va.toNat && s.pressHeld (s.bindingOf (coreOf g)) va.toNat)) (cPrivAddr va)

/-- Natural alignment, 16 bytes for a pair outside the press (R222, R30). -/
def alignCheck (o : Op) (n : Nat) (va : Word) : Option Cond :=
  condIf (decide (va.toNat % (if isTagged o && !isPress va.toNat then 16 else n) ≠ 0)) (cMisaligned va)

/-- A scalar memory instruction: its checks, its access, and the post-increment of the base at distance 1. A load into
its own base stays PEND and ends with the value loaded (R37, R38; log 87). -/
def memBody (srcs : Fields → List (Nat × Accept)) (dsts : Fields → List Nat) (op : Fields → Thread → AccOp) : Body := fun x =>
  let f := x.f
  let t := x.th
  let va := memAddr f t
  match firstCond [x.checkTicketed (srcs f) (dsts f), privAddrCheck x.s x.g t f.op va (memSize f), alignCheck f.op (memSize f) va] with
  | some c => .trap c
  | none =>
    let o := op f t
    let t := t.addAccess f.tk o va (x.s.beginAccess x.g o va t.estat.prv) (dsts f)
    .ok x.s (if memPi f && !(dsts f).contains f.rs1 then t.queueFixed [(f.rs1, ⟨.ptr, (x.th.reg f.rs1).val + wordOf (sextNat f.x24 24)⟩, 0, 1)] else t) .seq

/-- Base and index of an access (R28). -/
def memSrcs (f : Fields) : List (Nat × Accept) :=
  (f.rs1, [.ptr]) :: (if f.form = .li ∨ f.op = .amo then [] else [(f.rs2, [.int])])

/-- Tags that `st` data accepts (R28). -/
def stAccept : Accept := [.int, .fp64, .ptr, .pred, .smry]

def loadBody (tag : Tag) : Body :=
  memBody memSrcs (fun f => [f.rd]) (fun f _ => .load (memSize f) (decide (f.form = .lr) && decide (f.fn / 4 % 2 = 1)) tag)

def ldtBody : Body := memBody memSrcs (fun f => [f.rd]) (fun _ _ => .loadT)
def stBody : Body :=
  memBody (fun f => memSrcs f ++ [(memData f, stAccept)]) (fun _ => []) (fun f t => .store (memSize f) (t.reg (memData f)).val)
def sttBody : Body :=
  memBody (fun f => memSrcs f ++ [(memData f, anyTag)]) (fun _ => []) (fun f t => .storeT (t.reg (memData f)))

/-- `amo` (R223); fn8[2] extends a narrower old value as it does a load's. -/
def amoBody : Body :=
  memBody (fun f => memSrcs f ++ [(f.rs2, [.int]), (f.rs3, [.int])]) (fun f => [f.rd])
    (fun f t => .amo (memSize f) (f.fn / 16) (decide (f.fn / 4 % 2 = 1)) (t.reg f.rs2).val (t.reg f.rs3).val)

/-- Bytes that `vld` and `vst` move (R143). -/
def vecBytes (f : Fields) (g : Nat) : Nat := if vfOf f = vxFormat then 576 else g * 256

def vecAddr (f : Fields) (t : Thread) : Word := (t.reg f.rs1).val + (t.reg f.rs2).val

/-- `vld` and `vst` (R143, R145). -/
def vecMemBody (load : Bool) : Body := fun x =>
  let f := x.f
  let t := x.th
  let va := vecAddr f t
  let codes := groupCodes f.rd t.vgrp
  if !vecLegal f then .trap (cIllegal x.w)
  else
    match firstCond [x.checkTicketed ([(f.rs1, [.ptr]), (f.rs2, [.int])] ++ (if load then [] else codes.map (fun c => (c, anyTag))))
        (if load then codes else []), privAddrCheck x.s x.g t .vld va (vecBytes f t.vgrp), condIf (decide (va.toNat % 64 ≠ 0)) (cMisaligned va),
        groupCheck f t.vgrp (vOperands f t.vgrp)] with
    | some c => .trap c
    | none =>
      let n := t.vgrp
      let o := if load then AccOp.vload n (vecBytes f n) else .vstore ((upto n).map (fun i => t.vreg (f.rd + i))) (vecBytes f n)
      .ok x.s (t.addAccess f.tk o va (x.s.beginAccess x.g o va t.estat.prv) (if load then codes else [])) .seq

/-! ### Fetch (R23, R59, R227) -/

/-- Translate a fetch: the physical address, or none for a fetch fault. -/
def State.fetchPa (s : State) (g : Nat) (va : Word) : Except EErr Nat × State :=
  match s.xlat (coreOf g) (s.thread g).estat.prv .x va with
  | (.ok a, s') => (if s.isHbm a then (if s.linkWait (coreOf g) (a / 64 * 64) then .error (.link a) else .ok a) else .error (.xlat va), s')
  | r => r

/-- Whether the thread's next block is to be fetched. -/
def State.fetches (s : State) (g : Nat) : Bool :=
  let t := s.thread g
  threadPresent s.build g && decide (t.run = .run) && t.trap.isNone && !t.ending && t.word?.isNone && !(s.core (coreOf g)).suspended

/-- A fetch that meets unrecoverable parity: precise, at the word not fetched (R57, R59, R230). -/
def fetchParity (s : State) (g : Nat) (t : Thread) (u : BitVec 16) (pa : Nat) : State :=
  (s.setThread g (t.raise ⟨10, 0x10, BitVec.ofNat 64 pa, none⟩ false true false)).recordFault u 0x01

/-- A repetition whose word meets a fault of its fetch ends with RPT = 1 (R48). -/
def Thread.fetched (t : Thread) : Thread := { t with rep := t.rep.map (fun r : RepState => { r with fresh := false }) }

/-- A fetched block arrives: the buffer, or the fetch fault or unrecoverable parity that the word meets. -/
def doFetchReturn (s : State) (g : Nat) (par : Parity) : State :=
  let t := s.thread g
  if s.fetches g then
    match s.fetchPa g t.pc with
    | (.error (.link _), _) => s
    | (.error (.parity q), s') => fetchParity s' g t.fetched (unitOfPa s' q) q
    | (.error _, s') => s'.setThread g (t.fetched.raise ⟨20, 0x08, t.pc, none⟩ false true false)
    | (.ok a, s') =>
      let blk := a / 64 * 64
      let par := s'.settlePar par [(blk, 64)]
      if Parity.isLost par then fetchParity s' g t.fetched (lostUnit s' blk) (Parity.failing par blk 64)
      else if s'.poisoned blk 64 then fetchParity s' g t.fetched (unitOfPa s' a) (a / 4 * 4)
      else
        let s' := (if par = .replayed then s'.countReplay (coreOf g) else s').cached (coreOf g) true blk 64
        s'.setThread g { s'.thread g with fetch := some ⟨t.pc &&& 0xFFFF_FFFF_FFFF_FFC0#64, (upto 8).map (fun i => s'.readWord (blk + 8 * i))⟩ }
  else s

/-- A fetch has waited 1 ms on a link that is not UP: cause 0x10, precise (R297; log 119). -/
def fetchTimeout (s : State) (g : Nat) : Option State :=
  let t := s.thread g
  if s.fetches g then
    match s.fetchPa g t.pc with
    | (.error (.link a), _) => some (fetchParity s g t.fetched (unitId 3 0) (a / 64 * 64))
    | _ => none
  else none

/-! ### The end of a ticket (R37-R41) -/

/-- What an operation has come to: values to write, or a failure, or nothing yet. -/
inductive OpEnd where
  | waiting
  | writes (v : List TReg) (vec : List VReg) (flags : BitVec 5)
  | failed (cause : Nat) (etval : Word)

def engEnd (e : EngPhase) : OpEnd :=
  match e with
  | .waiting => .waiting
  | .done v => .writes v [] 0
  | .failed c v => .failed c v

def TKind.finish (k : TKind) : OpEnd :=
  match k with
  | .acc a =>
    (match a.phase with
      | .performed v vec => .writes v vec 0
      | .failed c v => .failed c v
      | _ => .waiting)
  | .calc v fl => .writes [v] [] fl
  | .tile e => engEnd e
  | .chain e => engEnd e
  | .desc e => engEnd e
  | .coll e => engEnd e

/-- Write an operation's destinations; `s0` discards (R26). -/
def Thread.writeOp (t : Thread) (o : TOp) : Thread :=
  match o.kind.finish with
  | .writes v vec fl =>
    let t := t.orFlags fl
    let t := (o.dst.zip v).foldl (fun t e => t.setReg e.1 e.2) t
    (o.dst.zip vec).foldl (fun t e => (t.setVreg (e.1 - 0x40) e.2).clearV (e.1 - 0x40)) t
  | _ => t

/-- A parked thread leaves PARK once no named ticket is in flight, and at once when a named ticket has faulted; then the
`await` issues again (R21, R39). -/
def Thread.wake (t : Thread) : Thread :=
  match t.run with
  | .park m =>
    let named := ticketsNamed m.toNat
    if named.any (fun i => (t.ticket i).faulted) then { t with run := .run }
    else if named.any (fun i => (t.ticket i).busy) then t
    else { t with run := .run }.advance .seq t.shadow.isSome
  | _ => t

def OpEnd.isWrites (e : OpEnd) : Bool :=
  match e with
  | .writes _ _ _ => true
  | _ => false

/-- Whether a repetition still joins the ticket (R48). -/
def Thread.repeating (t : Thread) (tk : Nat) : Bool :=
  match t.rep with
  | some r => decide (r.tk = some tk)
  | none => false

/-- A ticket completes: every operation has ended well; destinations are written, the ticket is free (R37). -/
def doTicketComplete (s : State) (g tk : Nat) : State :=
  let t := s.thread g
  let k := t.ticket tk
  if k.busy && k.ops.all (fun o => o.kind.finish.isWrites) && !t.repeating tk then
    s.setThread g ((k.ops.foldl Thread.writeOp (t.setTicket tk { k with ops := [] })).wake)
  else s

/-- A ticket ends with a deferred fault (R40): the first failed operation's; its FAULT bit is set, its destinations stay
PEND, or become INVAL while a trap is being entered (R41). Its other operations are dropped (log 26). -/
def doTicketFault (s : State) (g tk : Nat) : State :=
  let t := s.thread g
  let k := t.ticket tk
  match firstSome (fun o : TOp => match o.kind.finish with
      | .failed c v => some (c, v, o.iaddr)
      | _ => none) k.ops with
  | none => s
  | some (c, v, ia) =>
    let dst := (k.ops.flatMap (·.dst)).eraseDups.filter (· ≠ 0)
    let t := if t.trap.isSome then (dst.foldl Thread.invalidate t).setTicket tk ⟨[], some ⟨c, v, ia, dst, true⟩⟩
      else t.setTicket tk ⟨[], some ⟨c, v, ia, dst, false⟩⟩
    s.setThread g t.wake

end Sys2Proof.Machine
end

