-- ==== Sys2Proof/Machine/DescOps.lean ====
section
/-! DEFINITION. Tensor descriptors: minting (R164-R173), index to address (R174-R177), collision writes (R178, R179),
plane and scale arrays (R182-R185), and the engine's reading and writing of elements through translation. -/

namespace Sys2Proof.Machine

/-! ### Formats -/

/-- Element size in bits (R170); 0 for a format that names none. -/
def fmtBits (f : Nat) : Nat :=
  match f with
  | 1 => 8
  | 2 => 8
  | 3 => 8
  | 4 => 16
  | 5 => 16
  | 6 => 32
  | 7 => 64
  | 8 => 1
  | 9 => 32
  | 10 => 128
  | 11 => 64
  | 12 => 16
  | _ => 0

/-- The floating format of an encoding of R104 and R170. -/
def fmtFloat (f : Nat) : FFmt :=
  match f with
  | 2 => e4m3
  | 3 => e5m2
  | 4 => bfloat16
  | 5 => binary16
  | 6 => binary32
  | _ => binary64

def fmtIsFloat (f : Nat) : Bool := decide (2 ≤ f) && decide (f ≤ 7)
def fmtPsi : Nat := 8
def fmtSx : Nat := 10

/-! ### Index space (R174) -/

/-- Logical extent m(d) of a dimension. -/
def Desc.extent (d : Desc) (i : Nat) : Nat :=
  if d.idim = i + 1 then (d.idx.map (·.size)).getD 1
  else match d.dims[i]? with
    | some x => x.padlo + x.size + x.padhi
    | none => 1

/-- Place value Mp(i), an exact integer. -/
def Desc.place (d : Desc) : Nat → Nat
  | 0 => 1
  | i + 1 => d.place i * d.extent i

def Desc.tot (d : Desc) : Nat := d.place (d.rk1 + 1)
def Desc.rowLen (d : Desc) : Nat := d.place (d.cd1 + 1)

/-- Logical coordinate j(i) of a linear index. -/
def Desc.coord (d : Desc) (L : Int) (i : Nat) : Nat := ((L / (d.place i : Int)) % (d.extent i : Int)).toNat

/-- The classes of a position (R176); a DATA position carries its data coordinates and its element offset. -/
inductive Pos where
  | oob
  | pad
  | data (o : Int) (is : List Int)
deriving DecidableEq, Repr

/-- Translation as an engine sees it, leaving the cache as it is. -/
def State.peek (s : State) (c : Nat) (prv : BitVec 2) (n : Need) (va : Word) : Except EErr Nat := (s.engineXlat c prv n va).1

/-- The walks of an engine's rows fill the translation cache with their leaves (R212), one address per page, and its reads
take their path through the caches, one address per line (R214). -/
def State.touch (s : State) (c : Nat) (prv : BitVec 2) (n : Need) (vas : List Word) : State :=
  let s := ((vas.map (fun v => v.toNat / 4096)).eraseDups).foldl (fun s p => (s.engineXlat c prv n (BitVec.ofNat 64 (p * 4096))).2) s
  ((vas.map (fun v => v.toNat / 128)).eraseDups).foldl (fun s l =>
    match s.peek c prv n (BitVec.ofNat 64 (l * 128)) with
    | .ok a => s.cached c false a 1
    | .error _ => s) s

/-- Read `n` bytes that lie in one page. -/
def State.engRead (s : State) (c : Nat) (prv : BitVec 2) (va : Word) (n : Nat) : Except EErr Nat :=
  match s.peek c prv .rd va with
  | .error e => .error e
  | .ok a => if s.poisoned a n then .error (.parity (s.badWord .ok a n)) else .ok (s.readNat a n)

/-- The 8-byte words in which two memories differ. -/
def changedWords (seen now : List Host.Cell) : List Nat :=
  if seen = now then []
  else (((seen ++ now).map (fun e => e.1 / 8)).eraseDups).filter (fun w => decide (FMap.getRun 0#8 seen (8 * w) 8 ≠ FMap.getRun 0#8 now (8 * w) 8))

/-- The memory as an engine reads it that has run since memory was `seen`: of a word that was written meanwhile it sees the
old or the new value, whole (R153, R198): a free choice for each word (log 1, log 121). -/
def State.mixed (s : State) (seen : List Host.Cell) : State :=
  (changedWords seen s.mem).zipIdx.foldl (fun m e =>
    if bitAt (Config.freeWord (s.free + e.2)) 0 then { m with mem := FMap.setRun 0#8 m.mem (8 * e.1) (FMap.getRun 0#8 seen (8 * e.1) 8) } else m) s

/-- The free values that `mixed` has drawn. -/
def State.mixedFree (s : State) (seen : List Host.Cell) : Nat := (changedWords seen s.mem).length

/-- Index element j of an index descriptor, sign-extended (R170, R176). -/
def State.indexElem (s : State) (c : Nat) (prv : BitVec 2) (x : IdxDesc) (j : Nat) : Except EErr Int :=
  let n := fmtBits x.fmt / 8
  match s.engRead c prv (x.base + wordOf (j * x.stride * n)) n with
  | .ok v => .ok (sextNat v (8 * n))
  | .error e => .error e

/-- Classify position `e` of linear index `L` (R176). -/
def State.classify (s : State) (c : Nat) (prv : BitVec 2) (d : Desc) (L : Int) (e : Nat) : Except EErr Pos :=
  if d.rowLen ≤ e ∨ L < 0 ∨ (d.tot : Int) ≤ L then .ok .oob
  else
    let plain := (upto (d.rk1 + 1)).filter (fun i => decide (d.idim ≠ i + 1))
    let i0 := fun (i : Nat) => (d.coord L i : Int) - ((d.dims[i]?).map (fun x => (x.padlo : Int))).getD 0
    let size := fun (i : Nat) => (((d.dims[i]?).map (·.size)).getD 1 : Int)
    if plain.any (fun i => decide (i0 i < 0) || decide (size i ≤ i0 i)) then .ok .pad
    else
      let finish := fun (is : List Int) =>
        Pos.data (sumInt ((upto (d.rk1 + 1)).map (fun i => is.getD i 0 * ((d.dims[i]?).map (·.stride)).getD 0))) is
      match d.idx with
      | none => .ok (finish ((upto (d.rk1 + 1)).map i0))
      | some x =>
        let k := d.idim - 1
        match s.indexElem c prv x (d.coord L k) with
        | .error e => .error e
        | .ok v => if v < 0 ∨ size k ≤ v then .ok .oob else .ok (finish ((upto (d.rk1 + 1)).map (fun i => if i = k then v else i0 i)))

/-- Byte address of the element at offset `o` of a byte format (R176, R182). -/
def Desc.byteAddr (d : Desc) (o : Int) : Word := d.base + wordOf (o * (fmtBits d.fmt) / 8)

/-- Byte address of the plane-`k` bit at offset `o` (R183). -/
def Desc.planeAddr (d : Desc) (o : Int) (k : Nat) : Word := d.base + wordOf ((d.pm1 - k : Nat) * (d.pstride : Int) + o / 8)

/-- Scale address of data coordinates (R184). -/
def Desc.scaleAddr (d : Desc) (is : List Int) : Word :=
  let b := d.bdim - 1
  let n := fun (i : Nat) => let sz := ((d.dims[i]?).map (·.size)).getD 1; if i = b then cdiv sz 32 else sz
  let i' := fun (i : Nat) => if i = b then is.getD i 0 / 32 else is.getD i 0
  let np := fun (i : Nat) => (upto i).foldl (fun a k => a * n k) 1
  d.sbase + wordOf (sumInt ((upto (d.rk1 + 1)).map (fun i => i' i * (np i : Int))))

/-- Scale count Np(RK1 + 1) (R184). -/
def Desc.scaleCount (d : Desc) : Nat :=
  (upto (d.rk1 + 1)).foldl (fun a i => let sz := ((d.dims[i]?).map (·.size)).getD 1; a * (if d.bdim = i + 1 then cdiv sz 32 else sz)) 1

/-! ### Minting (R168-R173) -/

/-- Collision-free by the test of R173. -/
def nested (dims : List Dim) : Bool :=
  let l := (dims.zipIdx.filter (fun e => decide (e.1.size > 1))).mergeSort
    (fun a b => decide (a.1.stride.natAbs < b.1.stride.natAbs) || (decide (a.1.stride.natAbs = b.1.stride.natAbs) && decide (a.2 ≤ b.2)))
  (l.foldl (fun (acc : Option Nat) e =>
    match acc with
    | none => none
    | some reach => if e.1.stride.natAbs ≤ reach then none else some (reach + e.1.stride.natAbs * (e.1.size - 1))) (some 0)).isSome

/-- A handle (R164). -/
def handleOf (gen : BitVec 24) (phys : Bool) (core tid slot : Nat) : Word :=
  wordFields [(slot, 0), (tid, 6), (core, 10), (b2n phys, 19), (gen.toNat, 32)]

/-- The descriptor a valid handle names (R165). -/
def State.handleDesc (s : State) (c : Nat) (prv : BitVec 2) (h : Word) : Option Desc :=
  let x := (s.core c).desc (fld h 6 4 * 64 + fld h 0 6)
  if fld h 10 9 = c ∧ x.gen.toNat = fld h 32 24 ∧ (bitAt h 19 = decide (prv = 3)) ∧ fld h 20 12 = 0 ∧ fld h 56 8 = 0 then x.live else none

/-- COLR is allowed for a format (R178). -/
def colrAllowed (colr fmt : Nat) : Bool :=
  match colr with
  | 0 => true
  | 3 => decide (fmt ≠ fmtPsi)
  | _ => fmtIsFloat fmt || fmt == 1 || fmt == 9 || fmt == 11 || fmt == 12

/-- The sixteen words of a record with their press tags. -/
structure Record where
  words : List Word
  tags : List Nat
deriving DecidableEq, Repr

def Record.w (r : Record) (i : Nat) : Word := r.words.getD i 0
def Record.tag (r : Record) (i : Nat) : Nat := r.tags.getD i 0

/-- The dimensions a record states. -/
def Record.dims (r : Record) : List Dim :=
  (upto (fld (r.w 0) 16 2 + 1)).map (fun d =>
    ⟨(r.w (4 + 2 * d)).toInt, fld (r.w (5 + 2 * d)) 0 32, fld (r.w (5 + 2 * d)) 32 16, fld (r.w (5 + 2 * d)) 48 16⟩)

/-- Faults of the record without a dimension, then with one, in the order of R172: reason and dimension. The handle in
IDX names `ix`. -/
def recordFault (r : Record) (base : Word) (ix : Option Desc) (liveSlots : Nat) : Option (Nat × Nat) :=
  let h := r.w 0
  let rk1 := fld h 16 2
  let cd1 := fld h 18 2
  let fmt := fld h 28 4
  let bdim := fld h 34 3
  let idim := fld h 37 3
  let colr := fld h 32 2
  let pm1 := fld h 25 3
  let dims := r.dims
  let es := fmtBits fmt
  let pad := fun (i : Nat) => match dims[i - 1]? with
    | some x => decide (x.padlo ≠ 0 ∨ x.padhi ≠ 0)
    | none => false
  let bad2 := decide (fld h 41 23 ≠ 0 ∨ fld h 20 5 ≠ 0 ∨ fld h 0 16 ≠ 0 ∨ cd1 > rk1)
    || ([0, 1, 2, 3].any (fun d => decide (d > rk1) && decide (r.w (4 + 2 * d) ≠ 0 ∨ r.w (5 + 2 * d) ≠ 0)))
    || ((upto 16).any (fun i => decide (i ≠ 12 ∧ i ≠ 15) && decide (r.tag i ≠ 0)))
    || (if bdim = 0 then decide (r.tag 12 ≠ 0 ∨ r.w 12 ≠ 0 ∨ r.w 14 ≠ 0) else decide (r.tag 12 ≠ 2))
    || (if idim = 0 then decide (r.tag 15 ≠ 0 ∨ r.w 15 ≠ 0) else decide (r.tag 15 ≠ 3))
    || (decide (fmt ≠ fmtPsi) && decide (r.w 13 ≠ 0 ∨ pm1 ≠ 0))
  let bad3 := decide (es = 0 ∨ bdim > rk1 + 1 ∨ idim > rk1 + 1)
    || (decide (bdim ≠ 0) && decide (fmt ≠ 1 ∧ fmt ≠ fmtPsi)) || (decide (fmt = fmtPsi) && decide (bdim = 0))
    || (decide (fmt = fmtPsi) && dims.any (fun x => decide (x.padlo ≠ 0 ∨ x.padhi ≠ 0)))
    || (decide (bdim ≠ 0) && (pad bdim || decide (bdim = idim))) || (decide (idim ≠ 0) && pad idim)
    || (match ix with
      | some x => decide (idim ≠ 0) && (decide (x.rk1 ≠ 0 ∨ x.idim ≠ 0 ∨ x.bdim ≠ 0) || !(x.fmt == 9 || x.fmt == 11)
          || x.dims.any (fun y => decide (y.padlo ≠ 0 ∨ y.padhi ≠ 0)))
      | none => false)
    || (decide (fmt = fmtSx) && decide (r.w 1 ≠ 0)) || !colrAllowed colr fmt
  let bad4 := (decide (es ≥ 8) && decide (base.toNat % (es / 8) ≠ 0)) || (decide (fmt = fmtPsi) && decide (base.toNat % 64 ≠ 0))
    || (decide (bdim ≠ 0) && decide ((r.w 12).toNat % 8 ≠ 0))
  let len := (r.w 3).toNat
  let slen := (r.w 14).toNat
  let pstride := (r.w 13).toNat
  let bad5 := decide (len = 0 ∨ len > 2 ^ 47 ∨ slen > 2 ^ 47) || (decide (fmt = fmtPsi) && decide (pstride % 64 ≠ 0))
  let dimBad := dims.zipIdx.find? (fun e => decide (e.1.size = 0) || decide (e.1.stride.natAbs ≥ 2 ^ 40))
  let spans := dims.map (fun x => x.stride * ((x.size : Int) - 1))
  let lo := sumInt (spans.filter (· < 0))
  let hi := sumInt (spans.filter (fun v => decide (0 ≤ v)))
  let psi := decide (fmt = fmtPsi)
  let blo := if psi then lo / 8 else lo * es / 8
  let bhi0 := if psi then hi / 8 + 1 else (hi + 1) * es / 8
  let bhi := if psi then bhi0 + pm1 * pstride else bhi0
  let rlo := (r.w 2).toInt
  let d : Desc := ⟨fmt, pm1, cd1, rk1, colr, idim, bdim, false, false, false, base, 0, 0, 0, dims, 0, 0, 0, none⟩
  if bad2 then some (2, 15)
  else if idim ≠ 0 ∧ ix.isNone then some (8, 15)
  else if bad3 then some (3, 15)
  else if bad4 then some (4, 15)
  else if bad5 then some (5, 15)
  else match dimBad with
    | some e => some (5, e.2)
    | none =>
      if psi ∧ bhi0 - blo > pstride then some (5, 15)
      else if blo < rlo ∨ bhi > rlo + len then some (6, 15)
      else if bdim ≠ 0 ∧ d.scaleCount > slen then some (6, 15)
      else if liveSlots ≥ 64 then some (7, 15)
      else none

/-- The descriptor that a valid record and base give (R172, R173). -/
def Record.mint (r : Record) (base : Word) (ix : Option Desc) (phys : Bool) : Desc :=
  let h := r.w 0
  let idim := fld h 37 3
  let colr := fld h 32 2
  let free := decide (idim = 0) && nested r.dims
  { fmt := fld h 28 4, pm1 := fld h 25 3, cd1 := fld h 18 2, rk1 := fld h 16 2, colr := colr, idim := idim,
    bdim := fld h 34 3, ro := bitAt h 40 || (!free && decide (colr = 0)), free := free, phys := phys, base := base,
    fill := r.w 1, rangeLo := (r.w 2).toInt, rangeLen := (r.w 3).toNat, dims := r.dims, sbase := r.w 12,
    pstride := (r.w 13).toNat, slen := (r.w 14).toNat,
    idx := if idim = 0 then none else ix.map (fun x => ⟨x.base, x.fmt, ((x.dims[0]?).map (·.stride)).getD 0, ((x.dims[0]?).map (·.size)).getD 1⟩) }

/-- The record at an offset of the core's press (R168). -/
def State.readRecord (s : State) (c off : Nat) : Record :=
  ⟨(upto 16).map (fun i => s.readWord (pressAddr c (off + 8 * i))), (upto 16).map (fun i => (s.tagAt (pressAddr c (off + 8 * i))).toNat)⟩

/-- `tdesc` (R171, R172). -/
def tdescBody : Body := fun x =>
  let c := coreOf x.g
  let t := x.th
  match t.checkRegs [(x.f.rs1, [.ptr]), (x.f.rs2, [.int])] [x.f.rd] with
  | some cd => .trap cd
  | none =>
    let base := (t.reg x.f.rs1).val
    let off := (t.reg x.f.rs2).val.toNat
    let press := if (x.s.bindingOf c).isSome then (x.s.core c).press else 0
    if off % 64 ≠ 0 ∨ off + 128 > press then .trap (cDesc 1 15)
    else
      let r := x.s.readRecord c off
      let ix := x.s.handleDesc c t.estat.prv (r.w 15)
      let k := x.s.core c
      let tid := tidOf x.g
      let live := ((upto 64).filter (fun i => (k.desc (tid * 64 + i)).live.isSome)).length
      match recordFault r base ix live with
      | some (rs, d) => .trap (cDesc rs d)
      | none =>
        let slot := ((upto 64).find? (fun i => (k.desc (tid * 64 + i)).live.isNone)).getD 0
        let phys := decide (t.estat.prv = 3)
        let gen := (k.desc (tid * 64 + slot)).gen
        .ok (x.s.setCore c (k.setDesc (tid * 64 + slot) ⟨some (r.mint base ix phys), gen⟩))
          (t.queueFixed [(x.f.rd, ⟨.desc, handleOf gen phys c tid slot⟩, 0, 1)]) .seq

/-- What `dinfo` reports (R188). -/
def dinfoVal (d : Desc) (fn : Nat) : Word :=
  let dim := fun (i : Nat) => if i ≤ d.rk1 then d.dims[i]? else none
  if fn = 0 then
    wordFields [(b2n d.ro, 0), (b2n d.free, 1), (d.colr, 2), (d.fmt, 4), (d.rk1, 8), (d.cd1, 10), (d.idim, 12), (d.bdim, 15), (b2n d.phys, 18)]
  else if fn ≤ 4 then BitVec.ofNat 64 (((dim (fn - 1)).map (·.size)).getD 0)
  else if fn = 5 then BitVec.ofNat 64 (min d.rowLen (2 ^ 64 - 1))
  else if fn = 6 then BitVec.ofNat 64 (min d.tot (2 ^ 64 - 1))
  else if fn = 12 then d.base
  else wordOf (((dim (fn - 8)).map (·.stride)).getD 0)

/-- `dinfo` with a query (R188). -/
def dinfoBody : Body := fun x =>
  match x.th.checkRegs [(x.f.rs1, [.desc])] [x.f.rd] with
  | some c => .trap c
  | none =>
    match x.s.handleDesc (coreOf x.g) x.th.estat.prv (x.th.reg x.f.rs1).val with
    | none => .trap (cDesc 8 15)
    | some d => .ok x.s (x.th.queueFixed [(x.f.rd, ⟨.int, dinfoVal d x.f.fn⟩, 0, 1)]) .seq

/-- `dinfo` with function 0x80 retires the slot (R166, R188). -/
def dinfoRetireBody : Body := fun x =>
  let c := coreOf x.g
  let h := (x.th.reg x.f.rs1).val
  match x.th.checkRegs [(x.f.rs1, [.desc])] [x.f.rd] with
  | some cd => .trap cd
  | none =>
    match x.s.handleDesc c x.th.estat.prv h with
    | none => .trap (cDesc 8 15)
    | some _ =>
      let i := fld h 6 4 * 64 + fld h 0 6
      let k := x.s.core c
      .ok (x.s.setCore c (k.setDesc i ⟨none, (k.desc i).gen + 1⟩)) (x.th.queueFixed [(x.f.rd, ⟨.int, 0⟩, 0, 1)]) .seq

/-! ### Reading and writing elements -/

/-- An element as read: its bits (for PSI the plane bits read, plane n - 1 at the top) and its class. -/
structure Elem where
  bits : Nat
  pos : Pos
deriving DecidableEq, Repr

/-- Read the top `p` planes at an offset (R183), plane n - 1 first. -/
def State.readPlanes (s : State) (c : Nat) (prv : BitVec 2) (d : Desc) (o : Int) (p : Nat) : Except EErr Nat :=
  (upto p).foldl (fun acc i =>
    match acc with
    | .error e => .error e
    | .ok v =>
      match s.engRead c prv (d.planeAddr o (d.pm1 - i)) 1 with
      | .ok b => .ok (2 * v + b / 2 ^ ((o % 8).toNat) % 2)
      | .error e => .error e) (.ok 0)

/-- Read the element at a position: FILL outside the data (R177). `p` is the number of planes read of a PSI tensor. -/
def State.readElem (s : State) (c : Nat) (prv : BitVec 2) (d : Desc) (p : Nat) (L : Int) (e : Nat) : Except EErr Elem :=
  match s.classify c prv d L e with
  | .error x => .error x
  | .ok pos =>
    match pos with
    | .data o _ =>
      (match (if d.fmt = fmtPsi then s.readPlanes c prv d o p else s.engRead c prv (d.byteAddr o) (fmtBits d.fmt / 8)) with
        | .ok v => .ok ⟨v, pos⟩
        | .error x => .error x)
    | _ => .ok ⟨if d.fmt = fmtPsi then d.fill.toNat % 2 ^ (d.pm1 + 1) / 2 ^ (d.pm1 + 1 - p) else d.fill.toNat % 2 ^ fmtBits d.fmt, pos⟩

/-- The first error of a list of readings, or all of them. -/
def collect {α β : Type} (f : α → Except EErr β) : List α → Except EErr (List β)
  | [] => .ok []
  | a :: t =>
    match f a with
    | .error e => .error e
    | .ok b =>
      match collect f t with
      | .error e => .error e
      | .ok l => .ok (b :: l)

/-- The pages a list of positions touches, for the translation cache. -/
def dataAddrs (d : Desc) (es : List Elem) : List Word :=
  es.filterMap (fun e => match e.pos with
    | .data o _ => some (if d.fmt = fmtPsi then d.planeAddr o d.pm1 else d.byteAddr o)
    | _ => none)

/-- Number of OOB positions. -/
def oobCount (es : List Elem) : Nat := (es.filter (fun e => decide (e.pos = .oob))).length

/-- Alignment of blocks of 32 consecutive positions (R185): every coordinate but the blocked one is the same, and the
blocked one starts at a multiple of 32. Positions that R176 calls OOB without coordinates are skipped (log 28). The
first failing L. -/
def blockFault (d : Desc) (ps : List (Int × Nat)) : Option Int :=
  let b := d.bdim - 1
  let inside := (ps.zipIdx).filter (fun e => decide (e.1.2 < d.rowLen ∧ 0 ≤ e.1.1 ∧ e.1.1 < (d.tot : Int)))
  match inside.head? with
  | none => none
  | some f =>
    let others := (upto (d.rk1 + 1)).filter (fun i => decide (i ≠ b))
    (inside.find? (fun e => others.any (fun i => decide (d.coord e.1.1 i ≠ d.coord f.1.1 i))
      || decide (((d.coord e.1.1 b : Int) - e.2) % 32 ≠ 0) || decide (((d.coord e.1.1 b : Int) - e.2) ≠ (d.coord f.1.1 b : Int) - f.2))).map (·.1.1)

/-- Whether the descriptor and the fields alone break R185: there is no blocked dimension, or a block has more than one of
the `n` positions along it, which step L by `step`, and the blocked dimension does not vary along them. -/
def blockFieldsBad (d : Desc) (step n : Nat) : Bool :=
  d.bdim == 0 || (decide (1 < n) && (decide (d.place (d.bdim - 1) ≠ step) || decide (d.extent (d.bdim - 1) = 1)))

/-- The scale of a block (R185): of its first in-bounds element, else FILL[15:8]. -/
def State.blockScale (s : State) (c : Nat) (prv : BitVec 2) (d : Desc) (es : List Elem) : Except EErr Nat :=
  match firstSome (fun e : Elem => match e.pos with
      | .data _ is => some is
      | _ => none) es with
  | none => .ok (d.fill.toNat / 256 % 256)
  | some is => s.engRead c prv (d.scaleAddr is) 1

/-- Split a list into blocks of 32. -/
def blocks32 {α : Type} (l : List α) : List (List α) :=
  (upto (cdiv l.length 32)).map (fun i => (l.drop (32 * i)).take 32)

/-- Combine a value with what memory holds under a collision reduction (R178). -/
def colrVal (colr fmt old v : Nat) : Nat :=
  let w := fmtBits fmt
  match colr with
  | 1 => if fmtIsFloat fmt then (fAdd (fmtFloat fmt) .rne false old v).code else (old + v) % 2 ^ w
  | 2 => if fmtIsFloat fmt then (fMinMax (fmtFloat fmt) false true old v).code else if sextNat old w < sextNat v w then v else old
  | _ => v

/-- What a write through a descriptor needs of its leaf (R212). -/
def Desc.writeNeed (d : Desc) : Need := if d.colr = 1 ∨ d.colr = 2 then .rw else .wr

/-- A write that has passed its checks: physical address, bytes, value, or one plane bit. -/
structure ElemWrite where
  pa : Nat
  bytes : Nat
  val : Nat
  bit : Option Nat
deriving DecidableEq, Repr

/-- The writes of one element of a byte format; none for PAD and OOB (R177). An add or max reads the element, so it
consumes a poisoned line (R179, R232). -/
def State.planWrite (s : State) (c : Nat) (prv : BitVec 2) (d : Desc) (L : Int) (e v : Nat) : Except EErr (Pos × List ElemWrite) :=
  match s.classify c prv d L e with
  | .error x => .error x
  | .ok pos =>
    match pos with
    | .data o _ =>
      if d.fmt = fmtPsi then
        (match collect (fun k => match s.peek c prv d.writeNeed (d.planeAddr o k) with
            | .ok a => .ok ⟨a, 1, v / 2 ^ k % 2, some (o % 8).toNat⟩
            | .error e => .error e) (upto (d.pm1 + 1)) with
          | .ok l => .ok (pos, l)
          | .error x => .error x)
      else
        (match s.peek c prv d.writeNeed (d.byteAddr o) with
          | .ok a =>
            if decide (d.writeNeed = .rw) && s.poisoned a (fmtBits d.fmt / 8) then .error (.parity (s.badWord .ok a (fmtBits d.fmt / 8)))
            else .ok (pos, [⟨a, fmtBits d.fmt / 8, v, none⟩])
          | .error e => .error e)
    | _ => .ok (pos, [])

/-- Perform planned writes in order, each an indivisible read-modify-write (R178, R179). -/
def State.doWrites (s : State) (c : Nat) (d : Desc) (l : List ElemWrite) : State :=
  l.foldl (fun s w =>
    match w.bit with
    | some b =>
      let old := s.readNat w.pa 1
      s.writeNat c w.pa 1 (old - old / 2 ^ b % 2 * 2 ^ b + w.val * 2 ^ b)
    | none => s.writeNat c w.pa w.bytes (colrVal d.colr d.fmt (s.readNat w.pa w.bytes) w.val)) s

/-- The runs of elements at consecutive addresses that an engine moves, latest first (R181). -/
def runsOf (l : List ElemWrite) : List (Nat × Nat) :=
  l.foldl (fun acc w =>
    match acc with
    | r :: rest => if w.bit.isNone && decide (w.pa = r.1 + r.2) then (r.1, r.2 + w.bytes) :: rest else (w.pa, if w.bit.isNone then w.bytes else 0) :: acc
    | [] => [(w.pa, if w.bit.isNone then w.bytes else 0)]) []

/-- An engine moves a run of consecutive elements as one request: a line that one run covers whole loses its poison, one
that several smaller writes cover together keeps it (R232; log 122). An add or max writes element by element. -/
def State.clearCovered (s : State) (d : Desc) (l : List ElemWrite) : State :=
  if d.writeNeed = .rw then s else (runsOf l).foldl (fun s r => s.clearPoison r.1 r.2) s

/-- Count OOB positions (R177, R189). -/
def Core.countOob (k : Core) (write : Bool) (n : Nat) : Core :=
  if write then { k with oobWr := satAdd k.oobWr n } else { k with oobRd := satAdd k.oobRd n }

/-- PSI writes that the descriptor alone forbids (R183). -/
def psiWriteBad (d : Desc) : Bool :=
  decide (d.fmt = fmtPsi) && (decide (d.colr ≠ 0) || decide (((d.dims[0]?).map (·.stride)).getD 0 ≠ 1)
    || (d.dims.drop 1).any (fun x => decide (x.stride % 32 ≠ 0)))

/-! ### The descriptor queue: `dgth` and `dsct` (R180, R181) -/

/-- Bytes of a buffer (R181). -/
def bufBytes (d : Desc) (rows planes : Nat) : Nat :=
  let C := d.rowLen
  if d.fmt = fmtPsi then planes * rows * (cdiv C 64 * 8) + cdiv (rows * (C / 32)) 8 * 8 else rows * (cdiv (C * fmtBits d.fmt) 64 * 8)

/-- A buffer overlaps the descriptor's allocated range (R180); both are compared as addresses of the user. -/
def overlapsRange (d : Desc) (buf n : Nat) : Bool :=
  let lo := (d.base.toNat : Int) + d.rangeLo
  decide ((buf : Int) < lo + d.rangeLen) && decide (lo < (buf : Int) + n)

/-- Whether `n` bytes at an address lie in the core's own press as the binding holds it. -/
def State.inOwnPress (s : State) (c : Nat) (a n : Nat) : Bool :=
  (s.bindingOf c).isSome && decide (pressAddr c 0 ≤ a ∧ a + n ≤ pressAddr c 0 + (s.core c).press)

/-- Issue-time checks of a gather or scatter: reason, in the order of their values (R180, R181, R187; log 29). -/
def queueDescFault (s : State) (c : Nat) (d : Desc) (buf rows planes : Nat) (scatter : Bool) : Option Nat :=
  let n := bufBytes d rows planes
  if scatter && d.ro then some 9
  else if decide (d.fmt = fmtPsi) && (decide (d.bdim ≠ 1 ∨ d.cd1 ≠ 0 ∨ d.rowLen % 32 ≠ 0)
      || (scatter && psiWriteBad d)) then some 11
  else if decide (d.bdim ≠ 0 ∧ d.fmt ≠ fmtPsi) && blockFieldsBad d 1 (min 32 d.rowLen) then some 11
  else if decide (d.fmt = fmtPsi) && (if scatter then decide (planes ≠ d.pm1 + 1) else decide (planes > d.pm1 + 1)) then some 12
  else if buf % 8 ≠ 0 ∨ !s.inOwnPress c buf n ∨ overlapsRange d buf n then some 13
  else none

/-- `dgth` and `dsct` at issue (R167, R180). -/
def gatherBody (gather : Bool) : Body := fun x =>
  let c := coreOf x.g
  let t := x.th
  let f := x.f
  match x.checkTicketed [(f.rs1, [.desc]), (f.rs2, [.int]), (f.rs3, [.ptr])] [] with
  | some cd => .trap cd
  | none =>
    match x.s.handleDesc c t.estat.prv (t.reg f.rs1).val with
    | none => .trap (cDesc 8 15)
    | some d =>
      let rows := f.x24 % 2 ^ 16 + 1
      let planes := f.x24 / 2 ^ 16 % 16 + 1
      let l0 := (t.reg f.rs2).val.toInt
      let buf := (t.reg f.rs3).val
      match queueDescFault x.s c d buf.toNat rows planes (!gather) with
      | some r => .trap (cDesc r 15)
      | none =>
        let k := x.s.core c
        let e : DescEntry := ⟨x.g, f.tk, t.estat.prv, gather, d, l0, buf, rows, planes⟩
        .ok (x.s.setCore c { k with descQ := k.descQ ++ [e] }) (t.addOp f.tk ⟨.desc .waiting, t.pc, []⟩) .seq

/-- How an engine error ends a ticket of the descriptor queue: 0x06 or 0x07 for translation (R59), 0x10 for parity and for
a link that stayed down (R297). -/
def eerrPhase (e : EErr) (write : Bool) : EngPhase :=
  match e with
  | .xlat va => .failed (if write then 0x07 else 0x06) va
  | .parity pa => .failed 0x10 (BitVec.ofNat 64 pa)
  | .link pa => .failed 0x10 (BitVec.ofNat 64 pa)
  | .code c v => .failed c v

/-- Parity that an engine finds is recorded by the keeper (R230), as is a half link that stayed down (R297). -/
def State.recordEErr (s : State) (e : EErr) : State :=
  match e with
  | .parity pa => s.recordFault (unitOfPa s pa) 0x01
  | .link _ => s.recordFault (unitId 3 0) 0x01
  | _ => s

/-- The physical address at which an engine's work waits for the half link (R218, R297). -/
def EErr.waits (e : EErr) : Option Nat :=
  match e with
  | .link pa => some pa
  | _ => none

/-- The engine's ticket phase is written at the oldest waiting operation of its kind. -/
def Thread.setEng (t : Thread) (tk : Nat) (isKind : TKind → Bool) (mk : EngPhase → TKind) (p : EngPhase) : Thread :=
  match (t.ticket tk).ops.findIdx? (fun o => isKind o.kind) with
  | some i =>
    (match (t.ticket tk).ops[i]? with
      | some o => t.setOp tk i { o with kind := mk p }
      | none => t)
  | none => t

def isDescWaiting (k : TKind) : Bool := k == .desc .waiting
def isTileWaiting (k : TKind) : Bool := k == .tile .waiting
def isChainWaiting (k : TKind) : Bool := k == .chain .waiting
def isCollWaiting (k : TKind) : Bool := k == .coll .waiting

/-- Positions of a row (R175). -/
def rowPositions (l0 : Int) (C r n : Nat) : List (Int × Nat) := (upto n).map (fun x => (l0 + (r * C + x : Nat), x))

/-- A deferred descriptor fault with the L that failed (R186). -/
def descDetail (reason : Nat) (L : Int) : EErr := .code 0x0C (descEtval reason 15 (wordOf L).toNat)

/-- Bits packed low first into bytes of rows padded to `padBits`. -/
def packBits (w padBits : Nat) (l : List Nat) : List Byte :=
  leBytes (cdiv (w * l.length) padBits * padBits / 8) (packLanes w l)

/-- What a gather reads (R180, R181): the buffer's bytes, its OOB count, and the addresses it touched. -/
def gatherData (s : State) (c : Nat) (e : DescEntry) : Except EErr (List Byte × Nat × List Word) :=
  let d := e.d
  let C := d.rowLen
  let rows := (upto e.rows).map (fun r => rowPositions e.l0 C r C)
  match collect (fun ps => match (if d.bdim ≠ 0 then firstSome (blockFault d) (blocks32 ps) else none) with
      | some L => .error (descDetail 11 L)
      | none => collect (fun p : Int × Nat => s.readElem c e.prv d e.planes p.1 p.2) ps) rows with
  | .error x => .error x
  | .ok els =>
    let all := els.flatten
    if d.fmt = fmtPsi then
      (match collect (fun b => s.blockScale c e.prv d b) (els.flatMap blocks32) with
        | .error x => .error x
        | .ok sc =>
          let planes := (upto e.planes).flatMap (fun i => els.flatMap (fun row =>
            packBits 1 64 (row.map (fun el => el.bits / 2 ^ (e.planes - 1 - i) % 2))))
          .ok (planes ++ packBits 8 64 sc, oobCount all, dataAddrs d all))
    else .ok (els.flatMap (fun row => packBits (fmtBits d.fmt) 64 (row.map (·.bits))), oobCount all, dataAddrs d all)

/-- Bit or element `i` of a packed row. -/
def packedAt (l : List Byte) (off w i : Nat) : Nat :=
  if w = 1 then bytesAt l (off + i / 8) 1 / 2 ^ (i % 8) % 2 else bytesAt l (off + i * w / 8) (w / 8)

/-- The value a scatter writes for element `x` of row `r` from its buffer (R181). -/
def scatterVal (d : Desc) (rows : Nat) (buf : List Byte) (r x : Nat) : Nat :=
  let C := d.rowLen
  if d.fmt = fmtPsi then
    let rb := cdiv C 64 * 8
    (upto (d.pm1 + 1)).foldl (fun a i => 2 * a + packedAt buf (i * rows * rb + r * rb) 1 x) 0
  else packedAt buf (r * (cdiv (C * fmtBits d.fmt) 64 * 8)) (fmtBits d.fmt) x

/-- What a scatter writes (R180, R181, R183, R185): its element writes in ascending L, its scale writes, its OOB count. -/
def scatterPlan (s : State) (c : Nat) (e : DescEntry) : Except EErr (List ElemWrite × List ElemWrite × Nat) :=
  let d := e.d
  let C := d.rowLen
  let buf := s.readBytes e.buf.toNat (bufBytes d e.rows e.planes)
  if d.fmt = fmtPsi ∧ e.l0 % 32 ≠ 0 then .error (descDetail 11 e.l0)
  else if s.poisoned e.buf.toNat (bufBytes d e.rows e.planes) then .error (.parity (s.badWord .ok e.buf.toNat (bufBytes d e.rows e.planes)))
  else
    let rows := (upto e.rows).map (fun r => (r, rowPositions e.l0 C r C))
    match collect (fun rp : Nat × List (Int × Nat) =>
        match (if d.bdim ≠ 0 then firstSome (blockFault d) (blocks32 rp.2) else none) with
        | some L => .error (descDetail 11 L)
        | none => collect (fun p : Int × Nat => s.planWrite c e.prv d p.1 p.2 (scatterVal d e.rows buf rp.1 p.2)) rp.2) rows with
    | .error x => .error x
    | .ok ws =>
      let scales := if d.fmt = fmtPsi then
          collect (fun b : List (Pos × List ElemWrite) × Nat =>
            match firstSome (fun e : Pos × List ElemWrite => match e.1 with
                | .data _ is => some is
                | _ => none) b.1 with
            | none => .ok []
            | some is =>
              match s.peek c e.prv .wr (d.scaleAddr is) with
              | .error x => .error x
              | .ok a => .ok [⟨a, 1, bytesAt buf (e.planes * e.rows * (cdiv C 64 * 8) + b.2) 1, none⟩]) (ws.flatMap blocks32).zipIdx
        else .ok []
      match scales with
      | .error x => .error x
      | .ok sc => .ok (ws.flatMap (fun row => row.flatMap (·.2)), sc.flatten, (ws.flatten.filter (fun e => decide (e.1 = .oob))).length)

/-- What the head of a descriptor queue waits for at the half link (R218, R297). -/
def descWait (s : State) (c : Nat) (e : DescEntry) : Option Nat :=
  match (if e.gather then (gatherData s c e).map (fun _ => ()) else (scatterPlan s c e).map (fun _ => ())) with
  | .error x => x.waits
  | .ok _ => none

/-- Execute the head of a core's descriptor queue (R180): it reads and checks everything, then writes; it waits while an
address of the other half is behind a link that is not UP. -/
def doDescExecute (s : State) (c : Nat) (par : Parity) : State :=
  let k := s.core c
  match k.descQ with
  | [] => s
  | e :: rest =>
    if k.suspended || (descWait s c e).isSome then s
    else
      let s := if par = .replayed then s.countReplay c else s
      let fin := fun (s : State) (p : EngPhase) =>
        let s := s.setCore c { s.core c with descQ := rest }
        s.setThread e.g ((s.thread e.g).setEng e.tk isDescWaiting .desc p)
      if Parity.isLost par then
        (fin s (.failed 0x10 (BitVec.ofNat 64 (Parity.failing par e.buf.toNat (bufBytes e.d e.rows e.planes))))).recordFault (unitId 0 c) 0x01
      else if e.gather then
        match gatherData s c e with
        | .error x => (fin s (eerrPhase x false)).recordEErr x
        | .ok (bytes, oob, vas) =>
          let s := (s.touch c e.prv .rd vas).writeBytes c e.buf.toNat bytes
          fin (s.setCore c ((s.core c).countOob false oob)) (.done [])
      else
        match scatterPlan s c e with
        | .error x => (fin s (eerrPhase x true)).recordEErr x
        | .ok (ws, sc, oob) =>
          let s := ((s.doWrites c e.d ws).doWrites c { e.d with colr := 0 } sc).clearCovered e.d ws
          fin (s.setCore c ((s.core c).countOob true oob)) (.done [])

end Sys2Proof.Machine
end

