-- ==== Sys2Proof/Machine/TileOps.lean ====
section
/-! DEFINITION. Tiles, banks and the matrix array: what each tile instruction checks at issue against the issue view
(R102, R112-R127), the tile queue (R108-R111), and the arithmetic of a pass (R86, R87, R121-R123, R130-R132, R98,
R99). -/

namespace Sys2Proof.Machine

/-! ### Parts of a core -/

def Core.cfg (k : Core) (n : Nat) : BitVec 32 := FMap.get 0#32 k.tcfg n
def Core.tile (k : Core) (n : Nat) : Tile := FMap.get Tile.empty k.tiles n
def Core.setTile (k : Core) (n : Nat) (t : Tile) : Core := { k with tiles := FMap.set Tile.empty k.tiles n t }
def Core.bank (k : Core) (n : Nat) : Bank := FMap.get Bank.empty k.banks n
def Core.setBank (k : Core) (n : Nat) (b : Bank) : Core := { k with banks := FMap.set Bank.empty k.banks n b }
def Core.shape (k : Core) (n : Nat) : BankShape := FMap.get BankShape.none k.vBanks n

def cfgRows (v : BitVec 32) : Nat := fld v 16 8
def cfgFmt (v : BitVec 32) : Nat := fld v 24 4
def cfgRbytes (v : BitVec 32) : Nat := fld v 0 9
def cfgScl (v : BitVec 32) : Bool := bitAt v 31
def acfgMode (v : BitVec 32) : Nat := fld v 30 2
def acfgOfmt (v : BitVec 32) : Nat := fld v 12 4
def acfgCols (v : BitVec 32) : Nat := fld v 0 8
def acfgSat (v : BitVec 32) : Bool := bitAt v 29
def acfgRnd (v : BitVec 32) : RMode := (RMode.ofBits (fld v 26 3)).getD .rne

/-- The raw form of an accumulator's MODE (R117). -/
def rawForm (mode : Nat) : Nat := if mode = 0 then 6 else if mode = 1 then 9 else fmtSx

def isEmptyView (k : Core) (n : Nat) : Bool := bitAt k.vEmpty n
def setEmptyView (k : Core) (n : Nat) (e : Bool) : Core :=
  { k with vEmpty := if e then k.vEmpty ||| BitVec.ofNat 14 (2 ^ n) else k.vEmpty &&& ~~~(BitVec.ofNat 14 (2 ^ n)) }

/-- Bank 0 or 1 that is active in the issue view, and the shadow. -/
def Core.viewActive (k : Core) : Nat := b2n k.vAct
def Core.viewShadow (k : Core) : Nat := 1 - b2n k.vAct

/-- Queue a tile instruction with its ticket (R102, R108). -/
def queueTile (x : Ctx) (k : Core) (op : TileOp) : Res :=
  .ok (x.s.setCore (coreOf x.g) { k with tileQ := k.tileQ ++ [⟨x.g, x.f.tk, x.th.estat.prv, op, false, []⟩] })
    (x.th.addOp x.f.tk ⟨.tile .waiting, x.th.pc, []⟩) .seq

/-! ### Issue (R112-R127) -/

/-- Formats that a load widens exactly (R116): source, destination. -/
def widenPairs : List (Nat × Nat) := [(2, 4), (2, 5), (2, 6), (3, 4), (3, 5), (3, 6), (4, 6), (5, 6), (1, 6)]

/-- Whether a load may move a descriptor's format into FMT (R116, R175). -/
def loadFmtOk (src dst : Nat) : Bool := src == dst || widenPairs.contains (src, dst)

/-- `tcfg` (R103, R105, R106). -/
def tcfgBody : Body := fun x =>
  match x.th.checkRegs [(x.f.rs1, [.int])] [] with
  | some c => .trap c
  | none =>
    match tcfgDo (x.s.core (coreOf x.g)) x.f.x24 (x.th.reg x.f.rs1).val with
    | .error c => .trap c
    | .ok k => .ok (x.s.setCore (coreOf x.g) k) x.th .seq

/-- The descriptor operand of a tile instruction with a check of its own; the shape check comes first (R57). -/
def withDesc (x : Ctx) (shape : Option Cond) (check : Desc → Option Nat) (go : Desc → Int → Res) (extra : List (Nat × Accept)) : Res :=
  match firstCond [x.checkTicketed ([(x.f.rs1, [.desc]), (x.f.rs2, [.int])] ++ extra) [], shape] with
  | some c => .trap c
  | none =>
    match x.s.handleDesc (coreOf x.g) x.th.estat.prv (x.th.reg x.f.rs1).val with
    | none => .trap (cDesc 8 15)
    | some d =>
      match check d with
      | some r => .trap (cDesc r 15)
      | none => go d (x.th.reg x.f.rs2).val.toInt

/-- How many elements a tile row takes (R175). -/
def tileElems (n : Nat) (cfg : BitVec 32) : Nat := if n ≥ 8 then acfgCols cfg else cfgRbytes cfg * 8 / fmtBits (cfgFmt cfg)

/-- `tld` and `tldc` (R113, R116, R117, R185). -/
def tldBody (col : Bool) : Body := fun x =>
  let k := x.s.core (coreOf x.g)
  let n := x.f.x24
  let cfg := k.cfg n
  let acc := decide (n ≥ 8)
  let sx := acc && decide (acfgMode cfg = 2)
  withDesc x (condIf (decide (cfgRows cfg = 0) || (sx && !bitAt k.vScaled (n - 8))) (cTileShape n))
    (fun d =>
      if !(if acc then d.fmt == rawForm (acfgMode cfg) else loadFmtOk d.fmt (cfgFmt cfg)) then some 10
      else if !acc && cfgScl cfg && blockFieldsBad d (if col then d.rowLen else 1)
          (min 32 (min (tileElems n cfg) (if col then d.tot / d.rowLen else d.rowLen))) then some 11
      else none)
    (fun d l0 => queueTile x (setEmptyView k n false) (.load n col cfg d l0)) []

/-- `tst` (R113, R117, R173). -/
def tstBody : Body := fun x =>
  let k := x.s.core (coreOf x.g)
  let n := x.f.x24
  let cfg := k.cfg n
  let fmt := if n ≥ 8 then acfgOfmt cfg else cfgFmt cfg
  withDesc x (condIf (isEmptyView k n || decide (cfgRows cfg = 0) || (decide (n ≥ 8) && decide (fmt = 0))) (cTileShape n))
    (fun d => if d.ro then some 9 else if d.fmt ≠ fmt then some 10 else none)
    (fun d l0 => queueTile x k (.store n cfg d l0)) []

/-- q of R121: the planes a PSI pass runs at. -/
def psiQ (p : Nat) : Nat := if p ≤ 1 then 1 else if p = 2 then 2 else if p ≤ 4 then 4 else 8

/-- K per pass of a bank format (R121). -/
def maxK (fmt p : Nat) : Nat :=
  match fmt with
  | 1 => 256
  | 2 => 256
  | 3 => 256
  | 4 => 128
  | 5 => 128
  | 6 => 64
  | 7 => 32
  | 8 => 2048 / psiQ p
  | _ => 0

/-- The shape a `tsb` word states, where it keeps the ranges of R112. -/
def bankShapeOf (v : Word) : Option BankShape :=
  let fmt := fld v 24 4
  let p := fld v 28 3 + 1
  let n := fld v 16 8
  let kk := fld v 0 12
  if fld v 32 32 = 0 ∧ fld v 12 4 = 0 ∧ 1 ≤ fmt ∧ fmt ≤ 8 ∧ (fmt = 8 ∨ p = 1) ∧ 1 ≤ n ∧ n ≤ (if fmt = 7 then 64 else 128)
      ∧ 1 ≤ kk ∧ kk ≤ maxK fmt p then some ⟨fmt, p, kk, n⟩ else none

/-- `tsb` (R112, R113, R116, R125, R185): it always fills the shadow bank. -/
def tsbBody : Body := fun x =>
  let k := x.s.core (coreOf x.g)
  let v := (x.th.reg x.f.rs3).val
  let target := k.viewShadow
  let red := decide (x.f.x24 = k.viewActive)
  let sh := bankShapeOf v
  let t := bitAt v 31
  withDesc x (condIf sh.isNone (cTileShape (12 + target)))
    (fun d => match sh with
      | none => none
      | some h =>
        if h.fmt = fmtPsi then
          (if d.fmt ≠ fmtPsi then some 10 else if blockFieldsBad d (if t then 1 else d.rowLen) (min 32 (min h.k (if t then d.rowLen else d.tot / d.rowLen))) then some 11
            else if h.planes > d.pm1 + 1 then some 12 else none)
        else if loadFmtOk d.fmt h.fmt then none else some 10)
    (fun d l0 => match sh with
      | none => .trap (cTileShape (12 + target))
      | some h =>
        let k := { setEmptyView k (12 + target) false with vBanks := FMap.set BankShape.none k.vBanks target h }
        queueTile x k (.bank target red h t d l0)) [(x.f.rs3, [.int])]

/-- Tile rows that hold one value of k of a bank's format (R127). -/
def fillRowsPer (fmt : Nat) : Nat := if fmt = 7 then 2 else 1

/-- Whether a fill tile's rows hold N values of a bank's format (R127). -/
def fillMatches (cfg : BitVec 32) (h : BankShape) : Bool :=
  decide (cfgFmt cfg = h.fmt) && decide (cfgRbytes cfg * fillRowsPer h.fmt = h.n * (fmtBits h.fmt / 8))

/-- `tshift` (R127). -/
def tshiftBody : Body := fun x =>
  let k := x.s.core (coreOf x.g)
  let n := x.f.x24 % 256
  let fill := x.f.x24 / 256 % 8
  let zf := decide (x.f.x24 / 2048 % 2 = 1)
  let a := k.viewActive
  let h := k.shape a
  let shape :=
    if isEmptyView k (12 + a) then some (cTileShape (12 + a))
    else if h.fmt = fmtPsi then some (cTileShape (12 + a))
    else if n < 1 ∨ n > h.k - 1 then some (cTileShape (12 + a))
    else if !zf && (isEmptyView k fill || !fillMatches (k.cfg fill) h) then some (cTileShape fill)
    else none
  match firstCond [x.checkTicketed [] [], shape] with
  | some c => .trap c
  | none =>
    let k' := { setEmptyView k (12 + k.viewShadow) false with vBanks := FMap.set BankShape.none k.vBanks k.viewShadow h }
    queueTile x k' (.shift a n fill zf (k.cfg fill) h)

/-- Whether a bank format and a streamed format form a mode (R121), and its accumulator MODE and G. -/
def arrayMode (bank planes stream : Nat) : Option (Nat × Nat) :=
  if bank = fmtPsi then (if stream = 1 then some (0, 8 / psiQ planes) else none)
  else if bank = 1 ∧ stream = 1 then some (1, 1)
  else if bank = 7 ∧ stream = 7 then some (2, 1)
  else if (bank = 2 ∨ bank = 3) ∧ (stream = 2 ∨ stream = 3) then some (0, 1)
  else if bank = stream ∧ (bank = 4 ∨ bank = 5 ∨ bank = 6) then some (0, 1)
  else none

/-- The checks of `tmma` in the order of R122. -/
def tmmaCheck (k : Core) (s acc bank : Nat) (z : Bool) (sl : Nat) : Option Cond :=
  let cfg := k.cfg s
  let ac := k.cfg (8 + acc)
  let h := k.shape bank
  if isEmptyView k s then some (cTileShape s)
  else if isEmptyView k (12 + bank) then some (cTileShape (12 + bank))
  else match arrayMode h.fmt h.planes (cfgFmt cfg) with
    | none => some (cTileShape s)
    | some (mode, G) =>
      if cfgRows cfg % G ≠ 0 ∨ (sl ≠ 0 ∧ h.fmt ≠ 7) then some (cTileShape s)
      else if G * cfgRbytes cfg / (fmtBits (cfgFmt cfg) / 8) ≠ h.k then some (cTileShape (12 + bank))
      else if acfgMode ac ≠ mode ∨ cfgRows ac ≠ cfgRows cfg / G ∨ acfgCols ac ≠ h.n then some (cTileShape (8 + acc))
      else if (!z && isEmptyView k (8 + acc)) || (decide (mode = 2) && !bitAt k.vScaled acc) then some (cTileShape (8 + acc))
      else none

/-- `tmma` (R121, R122, R125). -/
def tmmaBody : Body := fun x =>
  let k := x.s.core (coreOf x.g)
  let s := x.f.x24 % 8
  let acc := x.f.x24 / 16 % 4
  let flip := decide (x.f.x24 / 256 % 2 = 1)
  let z := decide (x.f.x24 / 512 % 2 = 1)
  let sl := x.f.x24 / 4096 % 4
  let bank := if flip then k.viewShadow else k.viewActive
  match firstCond [x.checkTicketed [] [], tmmaCheck k s acc bank z sl] with
  | some c => .trap c
  | none =>
    let k' := { setEmptyView k (8 + acc) false with vAct := if flip then !k.vAct else k.vAct }
    queueTile x k' (.mma s acc bank flip z (7 - sl) (k.cfg s) (k.cfg (8 + acc)) (k.shape bank))

/-- `tzero` (R119). -/
def tzeroBody : Body := fun x =>
  let k := x.s.core (coreOf x.g)
  let n := x.f.x24
  let cfg := k.cfg n
  let sx := decide (n ≥ 8) && decide (acfgMode cfg = 2)
  let va := (x.th.reg x.f.rs1).val
  if !sx && decide (x.f.rs1 ≠ 0) then .trap (cIllegal x.w)
  else
    match firstCond [x.checkTicketed (if sx then [(x.f.rs1, [.ptr])] else []) [],
        if sx then privAddrCheck x.s x.g x.th .tzero va 384 else none,
        condIf (sx && decide (va.toNat % 16 ≠ 0)) (cMisaligned va), condIf (decide (cfgRows cfg = 0)) (cTileShape n)] with
    | some c => .trap c
    | none =>
      let k' := setEmptyView k n false
      let k' := if sx then { k' with vScaled := k'.vScaled ||| BitVec.ofNat 4 (2 ^ (n - 8)) } else k'
      queueTile x k' (.zero n cfg (if sx then some va else none))

/-- `trel` (R118). -/
def trelBody : Body := fun x =>
  let k := x.s.core (coreOf x.g)
  let m := BitVec.ofNat 14 x.f.x24
  match x.checkTicketed [] [] with
  | some c => .trap c
  | none => queueTile x { k with vEmpty := k.vEmpty ||| m, vScaled := k.vScaled &&& ~~~(BitVec.ofNat 4 (x.f.x24 / 256)) } (.rel m)

/-- `twait` (R120). -/
def twaitBody : Body := fun x =>
  match x.checkTicketed [] [] with
  | some c => .trap c
  | none => queueTile x (x.s.core (coreOf x.g)) .wait

/-! ### Contents -/

/-- A byte of an operand tile. What a tile holds that a failed load left empty is a free value (log 1, log 30). -/
def Tile.byteAt (t : Tile) (fr i : Nat) : Nat :=
  if t.hold then (FMap.get 0#8 t.bytes i).toNat else (Config.freeWord (fr + i)).toNat % 256

/-- Element `x` of tile row `r`. -/
def Tile.elem (t : Tile) (fr eb r x : Nat) : Nat := leNat ((upto eb).map (fun i => BitVec.ofNat 8 (t.byteAt fr (r * 256 + x * eb + i))))

/-- The scale of block `b` of tile row `r`; 127 where the tile carries none (R87). -/
def Tile.scaleOf (t : Tile) (scl : Bool) (fr r b : Nat) : Nat :=
  if scl then (if t.hold then (FMap.get 0#8 t.scl (r * 8 + b)).toNat else (Config.freeWord (fr + r * 8 + b)).toNat % 256) else 127

/-- A lane of an accumulator. -/
def Tile.lane (t : Tile) (fr r c : Nat) : BitVec 98 :=
  if t.hold then FMap.get 0#98 t.lanes (r * 128 + c) else BitVec.ofNat 98 ((Config.freeWord (fr + r * 128 + c)).toNat + 2 ^ 64 * (Config.freeWord (fr + 2 ^ 14 + r * 128 + c)).toNat)

/-- A cell and a scale of a bank. -/
def Bank.cell (b : Bank) (fr k j : Nat) : Word := if b.hold then FMap.get 0#64 b.cells (k * 128 + j) else Config.freeWord (fr + k * 128 + j)
def Bank.scaleOf (b : Bank) (fr kb j : Nat) : Nat :=
  if b.hold then (FMap.get 0#8 b.scl (kb * 128 + j)).toNat else (Config.freeWord (fr + kb * 128 + j)).toNat % 256

/-- r_i and c_j of a scale record (R130). -/
def recordScale (m : FMap Byte) (i : Nat) : Int := sextNat (leNat (FMap.getRun 0#8 m (2 * i) 2)) 16
/-- The scale record of an SX96 accumulator; a failed `tzero` leaves it unstated: free bytes (log 30). -/
def Tile.record (t : Tile) (fr : Nat) : FMap Byte :=
  match t.scale with
  | some m => m
  | none => FMap.setRun 0#8 [] 0 ((upto 384).map (fun i => BitVec.ofNat 8 (Config.freeWord (fr + 2 ^ 20 + i)).toNat))

/-- The contents of a tile are stated, with its scale record where `sx` asks for one. -/
def Tile.stated (t : Tile) (sx : Bool) : Bool := t.hold && (!sx || t.scale.isSome)

def Bank.shape (b : Bank) : BankShape := ⟨b.fmt, b.planes, b.k, b.n⟩

/-- A bank as the issue view showed it (R102). Where a failed load left the bank empty or in another shape, its
contents in that shape are unstated (log 30). -/
def Core.bankShown (k : Core) (b : Nat) (sh : BankShape) : Bank :=
  if (k.bank b).hold && decide ((k.bank b).shape = sh) then k.bank b else ⟨false, sh.fmt, sh.planes, sh.k, sh.n, [], []⟩

def rowScale (m : FMap Byte) (i : Nat) : Int := recordScale m i
def colScale (m : FMap Byte) (j : Nat) : Int := recordScale m (128 + j)

/-- X of a lane (R130). -/
def laneX (m : FMap Byte) (i j : Nat) : Int := rowScale m i + colScale m j - 58

/-! ### Loads -/

/-- Positions of a tile load or of a bank load (R175), one list per row. -/
def loadPositions (col : Bool) (d : Desc) (l0 : Int) (rows nx : Nat) : List (List (Int × Nat)) :=
  let C := d.rowLen
  (upto rows).map (fun r => (upto nx).map (fun x => if col then (l0 + (x * C + r : Nat), r) else (l0 + (r * C + x : Nat), x)))

/-- An element converted to the tile's format (R116). -/
def widenBits (src dst v : Nat) : Nat :=
  if src = dst then v
  else if src = 1 then ((fmtFloat dst).enc .rne false (FVal.ofDy (sextNat v 8, 0) false)).code
  else ((fmtFloat dst).enc .rne false ((fmtFloat src).dec v)).code

/-- A row's error in the layout of R114; other errors as they are. -/
def rowErr (write : Bool) (row : Nat) (e : EErr) : EErr :=
  match e with
  | .xlat va => .code 0x0B (wordFields [(fld va 0 48, 0), (row % 4096, 48), (b2n write, 60)])
  | e => e

/-- Read rows in ascending order up to the first that fails: the rows read, and that row with its error. -/
def readUpTo {α : Type} (rd : α → Except EErr (List Elem)) (row : Nat) : List α → List (List Elem) × Option (Nat × EErr)
  | [] => ([], none)
  | r :: rest =>
    match rd r with
    | .error e => ([], some (row, e))
    | .ok l => let q := readUpTo rd (row + 1) rest; (l :: q.1, q.2)

/-- The block alignment of a load that takes scales (R185), for blocks along x or along k. -/
def blocksCheck (d : Desc) (bs : List (List (Int × Nat))) : Except EErr Unit :=
  match firstSome (blockFault d) bs with
  | some L => .error (descDetail 11 L)
  | none => .ok ()

/-- The columns of a list of rows. -/
def columns {α : Type} (rows : List (List α)) (n : Nat) : List (List α) := (upto n).map (fun j => rows.filterMap (fun r => r[j]?))

/-- The row of a load at which a block's scale is first needed: that of its first in-bounds element (R114, R185). `rowOf`
gives the row of the block's element `i`. -/
def scaleRow (rowOf : Nat → Nat) (b : List Elem) : Nat :=
  match b.findIdx? (fun e => match e.pos with
    | .data _ _ => true
    | _ => false) with
  | some i => rowOf i
  | none => 0

/-- What a load reads (R114, R185): its rows, checked in ascending row order with the scales each needs; the first row that
fails, in data or in scale, ends it. `blocks` gives the blocks of the rows read, each with the row of its elements. -/
def readLoad (s : State) (c : Nat) (prv : BitVec 2) (d : Desc) (p : Nat) (rows : List (List (Int × Nat)))
    (blocks : List (List Elem) → List (List Elem × (Nat → Nat))) : Except EErr (List (List Elem) × List Nat) :=
  let q := readUpTo (fun r : List (Int × Nat) => collect (fun x : Int × Nat => s.readElem c prv d p x.1 x.2) r) 0 rows
  let scales := (blocks q.1).map (fun b => (scaleRow b.2 b.1, s.blockScale c prv d b.1))
  let bad := scales.filterMap (fun x => match x.2 with
    | .error e => some (x.1, e)
    | .ok _ => none)
  let first := (bad ++ q.2.toList).foldl (fun (m : Option (Nat × EErr)) x => match m with
    | none => some x
    | some y => if x.1 < y.1 then some x else some y) none
  match first with
  | some x => .error (rowErr false x.1 x.2)
  | none => .ok (q.1, scales.filterMap (fun x => x.2.toOption))

/-- What a `tld` or `tldc` puts into its tile. -/
def loadTile (s : State) (e : TileEntry) (c n : Nat) (col : Bool) (cfg : BitVec 32) (d : Desc) (l0 : Int) (old : Tile) :
    Except EErr (Tile × List Elem) :=
  let rows := loadPositions col d l0 (cfgRows cfg) (tileElems n cfg)
  let scl := decide (n < 8) && cfgScl cfg
  match (if scl then blocksCheck d (rows.flatMap blocks32) else .ok ()) with
  | .error x => .error x
  | .ok _ =>
    match readLoad s c e.prv d 1 rows (fun els =>
        if scl then els.zipIdx.flatMap (fun r => (blocks32 r.1).map (fun b => (b, fun _ => r.2))) else []) with
    | .error x => .error x
    | .ok (els, sc) =>
      if n ≥ 8 then
        let lanes := els.zipIdx.foldl (fun m r => r.1.zipIdx.foldl (fun m x => FMap.set 0#98 m (r.2 * 128 + x.2) (BitVec.ofNat 98 x.1.bits)) m) []
        .ok (⟨true, [], [], lanes, old.scale⟩, els.flatten)
      else
        let eb := fmtBits (cfgFmt cfg) / 8
        let bytes := els.zipIdx.foldl (fun m r => FMap.setRun 0#8 m (r.2 * 256) (r.1.flatMap (fun x => leBytes eb (widenBits d.fmt (cfgFmt cfg) x.bits)))) []
        let per := cdiv (tileElems n cfg) 32
        .ok (⟨true, bytes, sc.zipIdx.foldl (fun m v => FMap.set 0#8 m (v.2 / per * 8 + v.2 % per) (BitVec.ofNat 8 v.1)) [], [], none⟩, els.flatten)

/-- The value v_p of plane bits read from the top (R90): `n` planes stored, `p` read. -/
def psiValue (n p bits : Nat) : Int := (2 * bits + 1 - 2 ^ p : Int) * 2 ^ (n - p)

/-- What a `tsb` puts into its bank (R113, R116, R177). -/
def loadBank (s : State) (e : TileEntry) (c : Nat) (h : BankShape) (t : Bool) (d : Desc) (l0 : Int) : Except EErr (Bank × List Elem) :=
  let C := d.rowLen
  let rows := (upto h.k).map (fun k => (upto h.n).map (fun j => if t then (l0 + (j * C + k : Nat), k) else (l0 + (k * C + j : Nat), j)))
  let psi := decide (h.fmt = fmtPsi)
  match (if psi then blocksCheck d ((columns rows h.n).flatMap blocks32) else .ok ()) with
  | .error x => .error x
  | .ok _ =>
    match readLoad s c e.prv d h.planes rows (fun els =>
        if psi then (columns els h.n).flatMap (fun col => (blocks32 col).zipIdx.map (fun b => (b.1, fun i => 32 * b.2 + i))) else []) with
    | .error x => .error x
    | .ok (els, sc) =>
      let cellOf := fun (x : Elem) =>
        if psi then (match x.pos with
          | .data _ _ => wordOf (psiValue (d.pm1 + 1) h.planes x.bits)
          | _ => 0)
        else BitVec.ofNat 64 (widenBits d.fmt h.fmt x.bits)
      let cells := els.zipIdx.foldl (fun m r => FMap.setRun 0#64 m (r.2 * 128) (r.1.map cellOf)) []
      let per := cdiv h.k 32
      .ok (⟨true, h.fmt, h.planes, h.k, h.n, cells, sc.zipIdx.foldl (fun m v => FMap.set 0#8 m (v.2 % per * 128 + v.2 / per) (BitVec.ofNat 8 v.1)) []⟩, els.flatten)

/-! ### Stores -/

/-- The SX96 lane as binary64 (R99), or as raw bytes (R117). -/
def sxToDouble (q : BitVec 98) (X : Int) (rm : RMode) : Nat :=
  match fld q 96 2 with
  | 0 => (binary64.enc rm false (FVal.ofDy (sextNat (fld q 0 96) 96, X) false)).code
  | 1 => 0x7FF0000000000000
  | 2 => 0xFFF0000000000000
  | _ => binary64.nan

def sxRaw (q : BitVec 98) (X : Int) : Nat := q.toNat + 2 ^ 104 * (X % 2 ^ 24).toNat

/-- What a `tst` writes for element `x` of row `r` (R117). -/
def storeBits (n : Nat) (cfg : BitVec 32) (t : Tile) (fr r x : Nat) : Nat :=
  if n < 8 then t.elem fr (fmtBits (cfgFmt cfg) / 8) r x
  else
    let q := t.lane fr r x
    match acfgMode cfg with
    | 0 => (fCvt binary32 (fmtFloat (acfgOfmt cfg)) (acfgRnd cfg) (acfgSat cfg) false (fld q 0 32)).code
    | 1 => fld q 0 32
    | _ =>
      let X := laneX (t.record fr) r x
      if acfgOfmt cfg = fmtSx then sxRaw q X else sxToDouble q X (acfgRnd cfg)

/-- Plan every row of a `tst` (R114, R175). -/
def storeTile (s : State) (e : TileEntry) (c n : Nat) (cfg : BitVec 32) (d : Desc) (l0 : Int) (t : Tile) : Except EErr (List ElemWrite × Nat) :=
  let rows := loadPositions false d l0 (cfgRows cfg) (tileElems n cfg)
  match collect (fun r : List (Int × Nat) × Nat =>
      match collect (fun q : Int × Nat => s.planWrite c e.prv d q.1 q.2 (storeBits n cfg t s.free r.2 q.2)) r.1 with
      | .ok l => .ok l
      | .error x => .error (rowErr true r.2 x)) rows.zipIdx with
  | .error x => .error x
  | .ok ws => .ok (ws.flatten.flatMap (·.2), (ws.flatten.filter (fun w => decide (w.1 = .oob))).length)

/-! ### A pass (R86, R87, R123) -/

/-- One addition of an exact value into a binary32 lane, nearest even. -/
def addLane (v : Nat) (p : FVal × Bool) : Nat := (binary32.enc .rne false ((binary32.dec v).add .rne p.1).1).code

/-- Element (i, k) of A in a tile whose A rows span G tile rows (R121): tile row and place in it. -/
def aPlace (cfg : BitVec 32) (G i k : Nat) : Nat × Nat :=
  let per := cfgRbytes cfg / (fmtBits (cfgFmt cfg) / 8)
  (i * G + k / per, k % per)

/-- A lane of FP32 mode after the products of a floating pass, in ascending k. -/
def passFloat (b : Bank) (t : Tile) (fr : Nat) (cfg : BitVec 32) (i j v : Nat) : Nat :=
  let fa := fmtFloat (cfgFmt cfg)
  let fb := fmtFloat b.fmt
  (upto b.k).foldl (fun v k =>
    let (r, x) := aPlace cfg 1 i k
    addLane v ((fa.dec (t.elem fr (fmtBits (cfgFmt cfg) / 8) r x)).mul (fb.dec (b.cell (fr + 2 ^ 17) k j).toNat))) v

/-- A lane of INT32 mode. -/
def passInt (b : Bank) (t : Tile) (fr : Nat) (cfg : BitVec 32) (i j v : Nat) : Nat :=
  ((upto b.k).foldl (fun (a : Int) k =>
    let (r, x) := aPlace cfg 1 i k
    a + sextNat (t.elem fr 1 r x) 8 * sextNat (b.cell (fr + 2 ^ 17) k j).toNat 8) (v : Int) % 2 ^ 32).toNat

/-- A lane of FP32 mode after a PSI pass: one exact integer sum per block of 32 values of k, then one addition (R87). -/
def passPsi (b : Bank) (t : Tile) (fr : Nat) (cfg : BitVec 32) (G i j v : Nat) : Nat :=
  (upto (cdiv b.k 32)).foldl (fun v kb =>
    let ks := (upto 32).filterMap (fun m => if 32 * kb + m < b.k then some (32 * kb + m) else none)
    let P := ks.foldl (fun (a : Int) k =>
      let (r, x) := aPlace cfg G i k
      a + sextNat (t.elem fr 1 r x) 8 * (b.cell (fr + 2 ^ 17) k j).toInt) 0
    let (r0, x0) := aPlace cfg G i (32 * kb)
    let ea := t.scaleOf (cfgScl cfg) (fr + 2 ^ 16) r0 (x0 / 32)
    let ew := b.scaleOf (fr + 2 ^ 18) kb j
    addLane v (if ea = 255 ∨ ew = 255 then .nan false else FVal.ofDy (P, (ew : Int) + ea - 254) false, false)) v

/-- Slices of an element (R131): the integer α and its seven digits, highest first. -/
def sliceInt (x : FVal) (scale : Int) : Int :=
  match x with
  | .fin neg m e =>
    let (n, _) := roundAt .rne neg m (e + 53 - scale) false 0
    if neg then -(n : Int) else n
  | _ => 0

def digitsGo : Nat → Int → List Int → List Int
  | 0, _, acc => acc
  | n + 1, a, acc =>
    let d := (a + 128) % 256 - 128
    digitsGo n ((a - d) / 256) (d :: acc)

def digits7 (a : Int) : List Int := digitsGo 7 a []

/-- What one product adds to a lane (R132): its special state, and the retained slice pairs in units of 2^X. -/
def slicePairs (S : Nat) (a b : Int) : Int :=
  let da := digits7 a
  let db := digits7 b
  sumInt ((upto S).flatMap (fun s => (upto (S - s)).map (fun t => da.getD s 0 * db.getD t 0 * 256 ^ (6 - s - t))))

/-- Special states combine (R132): NaN stays, both infinities give NaN. -/
def joinState (a b : Nat) : Nat := if a = 0 then b else if b = 0 then a else if a = b then a else 3

/-- The special state of a product (R132), and whether an operand lies outside its scale window (R131). -/
def sliceState (x y : FVal) (r c : Int) : Nat × Bool :=
  let outX := match x.expo with
    | some e => decide (e > r)
    | none => false
  let outY := match y.expo with
    | some e => decide (e > c)
    | none => false
  if outX || outY then (3, true)
  else if x.isNan || y.isNan then (3, false)
  else if x.isInf || y.isInf then ((if x.isZero || y.isZero then 3 else if x.sign = y.sign then 1 else 2), false)
  else (0, false)

/-- An SX96 lane after a pass, and whether SXOVF is set (R98, R131, R132). -/
def passSlice (b : Bank) (t : Tile) (fr : Nat) (m : FMap Byte) (S i j : Nat) (q : BitVec 98) : BitVec 98 × Bool :=
  let r := rowScale m i
  let c := colScale m j
  let terms := (upto b.k).map (fun k =>
    (binary64.dec (t.elem fr 8 i k), binary64.dec (b.cell (fr + 2 ^ 17) k j).toNat))
  let sts := terms.map (fun p => sliceState p.1 p.2 r c)
  let st := sts.foldl (fun a p => joinState a p.1) (fld q 96 2)
  let ovf := sts.any (·.2)
  if st ≠ 0 then (BitVec.ofNat 98 (fld q 0 96 + 2 ^ 96 * st), ovf)
  else
    let Q := sextNat (fld q 0 96) 96 + sumInt (terms.map (fun p => slicePairs S (sliceInt p.1 r) (sliceInt p.2 c)))
    if Q < -(2 ^ 95) ∨ 2 ^ 95 ≤ Q then (BitVec.ofNat 98 (fld q 0 96 + 2 ^ 96 * 3), true)
    else (BitVec.ofNat 98 (Q % 2 ^ 96).toNat, ovf)

/-- The accumulator after a pass (R121, R123), and SXOVF. -/
def passTile (b : Bank) (t acc : Tile) (fr : Nat) (cfg acfg : BitVec 32) (z : Bool) (S : Nat) : Tile × Bool :=
  let G := match arrayMode b.fmt b.planes (cfgFmt cfg) with
    | some (_, g) => g
    | none => 1
  let M := cfgRows cfg / G
  let m := acc.record fr
  let start := fun (i j : Nat) => if z then 0#98 else acc.lane (fr + 2 ^ 19) i j
  let res := (upto M).flatMap (fun i => (upto b.n).map (fun j =>
    let q := start i j
    let v : BitVec 98 × Bool :=
      if acfgMode acfg = 2 then passSlice b t fr m S i j q
      else if acfgMode acfg = 1 then (BitVec.ofNat 98 (passInt b t fr cfg i j (fld q 0 32)), false)
      else if b.fmt = fmtPsi then (BitVec.ofNat 98 (passPsi b t fr cfg G i j (fld q 0 32)), false)
      else (BitVec.ofNat 98 (passFloat b t fr cfg i j (fld q 0 32)), false)
    (i * 128 + j, v)))
  (⟨true, [], [], res.foldl (fun mm e => FMap.set 0#98 mm e.1 e.2.1) [], acc.scale⟩, res.any (·.2.2))

/-- The bank a `tshift` fills (R127). Fill rows beyond the tile's ROWS hold no stated value: they read free (log 30). -/
def shiftBank (a : Bank) (t : Tile) (cfg : BitVec 32) (n : Nat) (zf : Bool) (fr : Nat) : Bank :=
  let per := fillRowsPer a.fmt
  let eb := fmtBits a.fmt / 8
  let perRow := a.n / per
  let fillCell := fun (i j : Nat) =>
    if zf then 0#64
    else
      let row := i * per + (if perRow = 0 then 0 else j / perRow)
      if row < cfgRows cfg then BitVec.ofNat 64 (t.elem fr eb row (if perRow = 0 then j else j % perRow)) else Config.freeWord (fr + 2 ^ 20 + i * 128 + j)
  let cells := (upto a.k).foldl (fun m k => FMap.setRun 0#64 m (k * 128) ((upto a.n).map (fun j =>
    if k < a.k - n then a.cell (fr + 2 ^ 17) (k + n) j else fillCell (k - (a.k - n)) j))) []
  { a with hold := true, cells := cells, scl := [] }

/-! ### The tile queue (R108-R111, R114, R119) -/

/-- Number that names the storage of an instruction's first tile in a parity fault (R230). -/
def storageEtval (o : TileOp) : Word := BitVec.ofNat 64 (0xE8000000000 + o.names.headD 0)

/-- The scale record that a `tzero` reads (R119): its pieces. A translation failure is a tile row fault with ROW = 0, after
R119, where R59 lists the read under 0x06 (log 116). -/
def zeroRecord (s : State) (c : Nat) (e : TileEntry) (va : Word) : Except EErr (List (Nat × Nat)) :=
  match (s.xlatRun c e.prv .rd va 384).1 with
  | .error x => .error (rowErr false 0 x)
  | .ok ps =>
    match s.poisonedPieces ps with
    | some a => .error (.parity a)
    | none => .ok ps

/-- What an entry's rows say before any data moves: the error that ends it, or the pages it touched (R110, R114). -/
def tileCheck (s : State) (c : Nat) (e : TileEntry) : Except EErr (List Word) :=
  let k := s.core c
  match e.op with
  | .load n col cfg d l0 => (loadTile s e c n col cfg d l0 (k.tile n)).map (fun r => dataAddrs d r.2)
  | .store n cfg d l0 => (storeTile s e c n cfg d l0 (k.tile n)).map (fun _ => [])
  | .bank _ _ h t d l0 => (loadBank s e c h t d l0).map (fun r => dataAddrs d r.2)
  | .zero _ _ (some va) => (zeroRecord s c e va).map (fun _ => [va])
  | _ => .ok []

/-- End entry `i` of the tile queue with a phase of its ticket. -/
def endTile (s : State) (c i : Nat) (e : TileEntry) (p : EngPhase) : State :=
  let s := s.setCore c { s.core c with tileQ := (s.core c).tileQ.eraseIdx i }
  s.setThread e.g ((s.thread e.g).setEng e.tk isTileWaiting .tile p)

/-- What a queued tile instruction does to the issue view (R102). `begun` passes have already switched the bank. -/
def Core.viewOf (k : Core) (e : TileEntry) : Core :=
  match e.op with
  | .load n _ _ _ _ => setEmptyView k n false
  | .store _ _ _ _ => k
  | .bank b _ sh _ _ _ => { setEmptyView k (12 + b) false with vBanks := FMap.set BankShape.none k.vBanks b sh }
  | .shift src _ _ _ _ sh =>
    { setEmptyView k (12 + (1 - src)) false with vBanks := FMap.set BankShape.none k.vBanks (1 - src) sh }
  | .mma _ acc _ flip _ _ _ _ _ => { setEmptyView k (8 + acc) false with vAct := if flip && !e.begun then !k.vAct else k.vAct }
  | .zero n _ sc =>
    let k := setEmptyView k n false
    if sc.isSome then { k with vScaled := k.vScaled ||| BitVec.ofNat 4 (2 ^ (n - 8)) } else k
  | .rel m => { k with vEmpty := k.vEmpty ||| m, vScaled := k.vScaled &&& ~~~(BitVec.ofNat 4 (m.toNat / 256)) }
  | .wait => k

/-- The issue view from what the tiles and banks hold and what is still queued (R102). An instruction that failed leaves it
so (log 30). -/
def Core.syncView (k : Core) : Core :=
  let held := fun n => if n < 12 then (k.tile n).hold else (k.bank (n - 12)).hold
  let base := { k with
    vEmpty := BitVec.ofNat 14 (maskOf (fun n => !held n) 14), vAct := k.act
    vScaled := BitVec.ofNat 4 (maskOf (fun i => (k.tile (8 + i)).scale.isSome) 4)
    vBanks := [0, 1].foldl (fun m b => if (k.bank b).hold then FMap.set BankShape.none m b (k.bank b).shape else m) [] }
  k.tileQ.foldl Core.viewOf base

/-- End entry `i` with an error: nothing has moved, and the issue view follows what its storage still holds. -/
def failTile (s : State) (c i : Nat) (e : TileEntry) (x : EErr) : State :=
  let s := endTile s c i e (match x with
    | .xlat va => .failed 0x0B va
    | x => eerrPhase x false)
  (s.setCore c (s.core c).syncView).recordEErr x

/-- A pass. -/
def TileOp.isPass (o : TileOp) : Bool :=
  match o with
  | .mma _ _ _ _ _ _ _ _ _ => true
  | _ => false

/-- The bank a pass reads. -/
def TileOp.passBank (o : TileOp) : Option Nat :=
  match o with
  | .mma _ _ b _ _ _ _ _ _ => some b
  | _ => none

/-- The bank a `tsb` or `tshift` fills. -/
def TileOp.fills (o : TileOp) : Option Nat :=
  match o with
  | .bank b _ _ _ _ _ => some b
  | .shift src _ _ _ _ _ => some (1 - src)
  | _ => none

def TileOp.isMove (o : TileOp) : Bool :=
  match o with
  | .load _ _ _ _ _ => true
  | .store _ _ _ _ => true
  | _ => false

/-- Whether an instruction may begin behind those ahead of it, all of which have begun (R108, R111, R125): a fill of the
shadow bank beside passes, the latest of which reads the other bank; a second pass behind one; a load or store, whose rows
are translated while the one instruction ahead moves data. -/
def mayBegin (ahead : List TileEntry) (o : TileOp) : Bool :=
  ahead.isEmpty || (ahead.all (·.begun) && (match o.fills with
    | some b => ahead.all (fun a => a.op.isPass) && decide ((ahead.getLast?.bind (fun a => a.op.passBank)) ≠ some b)
    | none => decide (ahead.length = 1) && (o.isMove || (o.isPass && ahead.all (fun a => a.op.isPass)))))

/-- The next instruction of a tile queue to begin, with its place. -/
def Core.nextTile (k : Core) : Option (Nat × TileEntry) :=
  match k.tileQ.findIdx? (fun e => !e.begun) with
  | none => none
  | some i =>
    match k.tileQ[i]? with
    | some e => if mayBegin (k.tileQ.take i) e.op then some (i, e) else none
    | none => none

/-- Put an entry back at its place. -/
def Core.setEntry (k : Core) (i : Nat) (e : TileEntry) : Core := { k with tileQ := k.tileQ.set i e }

/-- Begin the next entry (R108, R114, R125): its rows are translated and checked; a failed row ends it with nothing
moved. A pass with F = 1 makes its bank active, whatever comes of it (R102); a redirected load is counted. An entry that
meets a half link that is not UP waits (R297). -/
def doTileExecute (s : State) (c : Nat) (par : Parity) : State :=
  let k := s.core c
  match k.nextTile with
  | none => s
  | some (i, e) =>
    if k.suspended then s
    else
      let s := if par = .replayed then s.countReplay c else s
      let flipped := fun (k : Core) => match e.op with
        | .mma _ _ _ flip _ _ _ _ _ => if flip then { k with act := !k.act } else k
        | _ => k
      if Parity.isLost par then
        (let s := endTile (s.setCore c (flipped (s.core c))) c i e (.failed 0x10 (storageEtval e.op))
         (s.setCore c (s.core c).syncView).recordFault (unitId 0 c) 0x01)
      else
        match tileCheck s c e with
        | .error (.link _) => s
        | .error x => failTile s c i e x
        | .ok vas =>
          let s := match e.op with
            | .load _ _ _ _ _ => s.touch c e.prv .rd vas
            | .bank _ _ _ _ _ _ => s.touch c e.prv .rd vas
            | _ => s
          let k := flipped ((s.core c).setEntry i { e with begun := true, seen := s.mem })
          s.setCore c (match e.op with
            | .bank _ red _ _ _ _ => if red then { k with redir := satAdd k.redir 1 } else k
            | _ => k)

/-- Whether the begun entry at place `i` may complete (R108, R109, R126): the first, or a fill beside passes none of which
reads its bank. -/
def mayEnd (q : List TileEntry) (i : Nat) : Bool :=
  match q[i]? with
  | none => false
  | some e => e.begun && (decide (i = 0) || (match e.op.fills with
    | some b => (q.take i).all (fun a => decide (a.op.passBank ≠ some b))
    | none => false))

/-- The entry that completes, with the free values drawn to choose it: where two may, which is first is timing, a free
choice (log 121). -/
def endingTile (s : State) (q : List TileEntry) : Option (Nat × Nat) :=
  match (upto q.length).filter (mayEnd q) with
  | [] => none
  | [i] => some (i, 0)
  | l => some (l.getD ((Config.freeWord s.free).toNat % l.length) 0, 1)

/-- Scale bytes that nothing states: free values (log 116). -/
def freeScales (fr : Nat) : FMap Byte := FMap.setRun 0#8 [] 0 ((upto 1024).map (fun i => BitVec.ofNat 8 (Config.freeWord (fr + 2 ^ 20 + i)).toNat))

/-- What a completing entry leaves, or the error that ends it with nothing moved (R109, R110): the tile unit reads memory as
it found it when it began, or as another agent has written it since (R198). -/
def tileResult (s : State) (c : Nat) (e : TileEntry) : Except EErr State :=
  let k := s.core c
  let m := s.mixed e.seen
  let s0 := { s with free := s.free + s.mixedFree e.seen }
  let fr := s.free
  let s1 := { s with free := s.free + 2 ^ 21 }
  match e.op with
  | .load n col cfg d l0 =>
    (loadTile m e c n col cfg d l0 (k.tile n)).map (fun r => s0.setCore c ((k.setTile n r.1).countOob false (oobCount r.2)))
  | .store n cfg d l0 =>
    (storeTile s e c n cfg d l0 (k.tile n)).map (fun r =>
      let s := ((if (k.tile n).stated (decide (n ≥ 8) && decide (acfgMode cfg = 2)) then s else s1).doWrites c d r.1).clearCovered d r.1
      s.setCore c ((s.core c).countOob true r.2))
  | .bank b _ h t d l0 =>
    (loadBank m e c h t d l0).map (fun r => s0.setCore c ((k.setBank b r.1).countOob false (oobCount r.2)))
  | .shift src n fill zf cfg sh =>
    .ok (s1.setCore c (k.setBank (1 - src) (shiftBank (k.bankShown src sh) (k.tile fill) cfg n zf fr)))
  | .mma t a b _ z S cfg acfg sh =>
    let (acc, ovf) := passTile (k.bankShown b sh) (k.tile t) (k.tile (8 + a)) fr cfg acfg z S
    let whole := (k.bankShown b sh).hold && (k.tile t).hold && (z || (k.tile (8 + a)).hold) && (decide (acfgMode acfg ≠ 2) || (k.tile (8 + a)).scale.isSome)
    .ok ((if whole then s else s1).setCore c { k.setTile (8 + a) acc with sxovf := k.sxovf || ovf })
  | .zero n cfg none =>
    if decide (n < 8) && cfgScl cfg then .ok (s1.setCore c (k.setTile n ⟨true, [], freeScales fr, [], none⟩))
    else .ok (s.setCore c (k.setTile n ⟨true, [], [], [], none⟩))
  | .zero n _ (some v) =>
    (zeroRecord m c e v).map (fun ps =>
      let s := (s0.touch c e.prv .rd [v]).cachedPieces c ps
      s.setCore c ((s.core c).setTile n ⟨true, [], [], [], some (FMap.setRun 0#8 [] 0 (m.readPieces ps))⟩))
  | .rel m =>
    .ok (s.setCore c ((upto 14).foldl (fun (k : Core) n =>
      if m.getLsbD n then (if n < 12 then k.setTile n Tile.empty else k.setBank (n - 12) Bank.empty) else k) k))
  | .wait => .ok s

/-- A begun entry completes (R109, R110): its result becomes visible and its ticket ends. -/
def doTileComplete (s : State) (c : Nat) : State :=
  let k := s.core c
  match endingTile s k.tileQ with
  | none => s
  | some (i, n) =>
    match k.tileQ[i]? with
    | none => s
    | some e =>
      if k.suspended then s
      else
        let s := { s with free := s.free + n }
        match tileResult s c e with
        | .error (.link _) => s
        | .error x => failTile s c i e x
        | .ok s => endTile s c i e (.done [])

/-- What the tile queue of a core waits for at the half link, with the entry and its place (R218, R297): of the entry that
would begin, else of the one that would complete. -/
def tileWait (s : State) (c : Nat) : Option (Nat × TileEntry × Nat) :=
  let k := s.core c
  let begins := match k.nextTile with
    | some (i, e) => (match tileCheck s c e with
      | .error x => x.waits.map (fun pa => (i, e, pa))
      | .ok _ => none)
    | none => none
  begins.orElse (fun _ =>
    firstSome (fun e : TileEntry × Nat => if e.1.begun then (match tileResult s c e.1 with
      | .error x => x.waits.map (fun pa => (e.2, e.1, pa))
      | .ok _ => none) else none) k.tileQ.zipIdx)

/-- What an instruction stopped in execution takes back (R111): the count of a redirected load, the switch of a pass. -/
def Core.takeBack (k : Core) (e : TileEntry) : Core :=
  if e.begun then
    match e.op with
    | .bank _ true _ _ _ _ => { k with redir := if k.redir = 0 then 0 else k.redir - 1 }
    | .mma _ _ _ true _ _ _ _ _ => { k with act := !k.act }
    | _ => k
  else k

/-- A suspension stops the instructions in execution; they restart from their beginning (R111). -/
def Core.unbegin (k : Core) : Core :=
  { k.tileQ.foldl Core.takeBack k with tileQ := k.tileQ.map (fun e => { e with begun := false, seen := [] }) }

end Sys2Proof.Machine
end

