-- ==== Sys2Proof/Machine/ChainOps.lean ====
section
/-! DEFINITION. The flow chain: `vchain` and `vflow` at issue (R150-R153), the descriptor and its validation (R154,
R155, R161), the stages (R156-R158), conversion to PSI (R91), the summaries (R159), and the chain queue. -/

namespace Sys2Proof.Machine

/-! ### Layouts (R154) -/

def hdrRowlen (h : Word) : Nat := fld h 32 13
def hdrIfmt (h : Word) : Nat := fld h 28 4
def hdrAfmt (h : Word) : Nat := fld h 24 4
def hdrWf64 (h : Word) : Bool := bitAt h 20
def hdrRnd0 (h : Word) : Nat := fld h 16 3
def hdrNst (h : Word) : Nat := fld h 0 3

def Stage.type (g : Stage) : Nat := fld g.sctl 60 4
def Stage.rnd (g : Stage) : RMode := (RMode.ofBits (fld g.sctl 57 3)).getD .rne
def Stage.sat (g : Stage) : Bool := bitAt g.sctl 56
def Stage.mode (g : Stage) : Nat := fld g.sctl 52 4
def Stage.ofmt (g : Stage) : Nat := fld g.sctl 48 4

def stScale : Nat := 1
def stBias : Nat := 2
def stAct : Nat := 3
def stDeriv : Nat := 4
def stRenorm : Nat := 5
def stSum : Nat := 6
def stPack : Nat := 7
def stLayout : Nat := 8

/-- Whether a stage reads the auxiliary stream: DERIV and the backward RENORM modes (R156, R158). -/
def Stage.readsAux (g : Stage) : Bool := decide (g.type = stDeriv) || (decide (g.type = stRenorm) && decide (4 ≤ g.mode))

/-- Whether a stage names a function table (R157). -/
def Stage.hasTable (g : Stage) : Bool := decide (g.type = stAct) || decide (g.type = stDeriv)

/-- The working format. -/
def wfFmt (wf64 : Bool) : FFmt := if wf64 then binary64 else binary32
def wfBytes (wf64 : Bool) : Nat := if wf64 then 8 else 4

/-- Bytes of a function table (R157). -/
def tableBytes : Nat := 4128

/-- CR_ETVAL of a chain configuration fault (R161). -/
def chainEtval (slot stage reason : Nat) : Word := wordFields [(reason, 0), (stage, 8), (slot, 16)]

/-! ### Issue (R151, R152) -/

/-- Put an entry into the core's chain queue (R150). -/
def queueChain (x : Ctx) (op : ChainOp) (dst : List Nat) : Res :=
  let c := coreOf x.g
  let k := x.s.core c
  .ok (x.s.setCore c { k with chainQ := k.chainQ ++ [⟨x.g, x.f.tk, x.th.estat.prv, op, false, []⟩] })
    (x.th.addOp x.f.tk ⟨.chain .waiting, x.th.pc, dst⟩) .seq

/-- `vchain` (R151). -/
def vchainBody : Body := fun x =>
  match x.checkTicketed [(x.f.rs1, [.ptr])] [] with
  | some c => .trap c
  | none => queueChain x (.chain (x.f.x24 % 4) (x.th.reg x.f.rs1).val) []

/-- Summary registers a mask names. -/
def smCodes (m : Nat) : List Nat := ((upto 4).filter (fun i => m / 2 ^ i % 2 = 1)).map codeSm

/-! ### Validation (R155, R157, R161) -/

/-- A function table's finite values and form (R157): none where it is good. -/
def tableBad (l : List Byte) : Bool :=
  let v32 := fun (o : Nat) => binary32.dec (bytesAt l o 4)
  let nonFinite := fun (o : Nat) => (v32 o).isNan || (v32 o).isInf
  let W := sextNat (bytesAt l 4 1) 8
  let lo := (v32 0).dy
  nonFinite 0 || nonFinite 8 || nonFinite 12 || nonFinite 16 || nonFinite 20
    || (upto 256).any (fun i => nonFinite (32 + 16 * i) || nonFinite (36 + 16 * i) || nonFinite (40 + 16 * i))
    || decide (W < -30) || decide (30 < W)
    || (decide (lo.2 < W) && decide (lo.1 % 2 ^ (W - lo.2).toNat ≠ 0))

/-- Zero bytes of a table's layout (R157). -/
def tableReserved (l : List Byte) : Bool :=
  decide (bytesAt l 5 3 ≠ 0) || decide (bytesAt l 24 8 ≠ 0) || (upto 256).any (fun i => decide (bytesAt l (44 + 16 * i) 4 ≠ 0))

/-- Reserved fields and values of a stage record (R154-R156). -/
def stageReserved (g : Stage) (wf64 : Bool) : Bool :=
  decide (fld g.sctl 0 48 ≠ 0) || decide (g.type = 0 ∨ g.type > 8) || decide (fld g.sctl 57 3 > 4)
  || (if g.type = stScale ∨ g.type = stBias then decide (g.mode > 2)
      else if g.type = stRenorm then decide (g.mode > 6)
      else if g.type = stPack then
        !(decide (1 ≤ g.ofmt ∧ g.ofmt ≤ 6) || (decide (g.ofmt = 7) && wf64) || decide (g.ofmt = 8 ∨ g.ofmt = 9))
          || decide (g.mode > (if g.ofmt = 8 then 7 else 0))
      else decide (g.mode ≠ 0))

/-- Order and count of stages (R155). -/
def stageOrderBad (l : List Stage) : Option Nat :=
  let n := l.length
  let idx := l.zipIdx
  let over1 := fun (p : Stage → Bool) (m : Nat) => ((idx.filter (fun e => p e.1)).drop m).head?.map (·.2)
  let layoutLate := (idx.find? (fun e => decide (e.1.type = stLayout) && decide (e.2 + 1 ≠ n))).map (·.2)
  let packLate := (idx.find? (fun e => decide (e.1.type = stPack) && !(decide (e.2 + 1 = n)
    || (decide (e.2 + 2 = n) && ((l[n - 1]?).map (fun g => decide (g.type = stLayout))).getD false)))).map (·.2)
  [layoutLate, packLate, over1 (fun g => decide (g.type = stLayout)) 1, over1 (fun g => decide (g.type = stPack)) 1,
    over1 (fun g => decide (g.type = stSum)) 1, over1 (fun g => decide (g.type = stRenorm)) 1, over1 Stage.hasTable 2,
    over1 Stage.readsAux 1].foldl (fun a b => a.orElse (fun _ => b)) none

/-- Validate a chain descriptor and copy it with its tables: the slot, or the stage and reason of the fault (R155,
R161). Checks run by reason, header before stages (log 31). -/
def validateChain (s : State) (c : Nat) (addr : Word) : Except (Nat × Nat) ChainSlot :=
  let a := addr.toNat
  if a % 256 ≠ 0 ∨ !s.inOwnPress c a 256 then .error (0xFF, 1)
  else
    let h := s.readWord a
    let recs := (upto 6).map (fun i =>
      let b := a + 32 + 32 * i
      (⟨s.readWord b, s.readWord (b + 8), s.readWord (b + 16), s.readWord (b + 24)⟩ : Stage))
    let nst := hdrNst h
    let wf64 := hdrWf64 h
    let stages := recs.take nst
    let zeroRec := (⟨0, 0, 0, 0⟩ : Stage)
    let hdrBad := decide (fld h 45 19 ≠ 0 ∨ fld h 22 2 ≠ 0 ∨ fld h 21 1 ≠ 0 ∨ fld h 19 1 ≠ 0 ∨ fld h 3 13 ≠ 0 ∨ hdrRnd0 h > 4)
      || !([4, 5, 6, 7, 9].contains (hdrIfmt h)) || !([0, 4, 5, 6].contains (hdrAfmt h))
      || decide (hdrRowlen h < 1 ∨ 4096 < hdrRowlen h) || (decide (hdrIfmt h = 7) && !wf64)
      || decide (s.readNat (a + 8) 24 ≠ 0) || decide (s.readNat (a + 224) 32 ≠ 0)
    let idx := stages.zipIdx
    let first := fun (p : Stage → Bool) => (idx.find? (fun e => p e.1)).map (·.2)
    let press := fun (v : Word) (n al : Nat) => decide (v.toNat % al = 0) && s.inOwnPress c v.toNat n
    if hdrBad then .error (0xFF, 2)
    else if nst < 1 ∨ 6 < nst then .error (0xFF, 3)
    else match (recs.zipIdx.drop nst).find? (fun e => decide (e.1 ≠ zeroRec)) with
    | some e => .error (e.2, 3)
    | none =>
    match first (fun g => stageReserved g wf64) with
    | some i => .error (i, 2)
    | none =>
    match stageOrderBad stages with
    | some i => .error (i, 4)
    | none =>
    if (hdrAfmt h ≠ 0) ≠ (stages.any Stage.readsAux = true) then .error (0xFF, 2)
    else
    match first (fun g => wf64 && (g.hasTable || decide (g.type = stRenorm))) with
    | some i => .error (i, 5)
    | none =>
    match first (fun g => g.hasTable && !press g.p0 tableBytes 32) with
    | some i => .error (i, 1)
    | none =>
    match first (fun g => g.hasTable && tableReserved (s.readBytes g.p0.toNat tableBytes)) with
    | some i => .error (i, 2)
    | none =>
    match first (fun g => g.hasTable && tableBad (s.readBytes g.p0.toNat tableBytes)) with
    | some i => .error (i, 6)
    | none =>
    match first (fun g => (decide (g.type = stScale ∨ g.type = stBias) && decide (g.mode ≠ 0)
        && !press g.p0 (if g.mode = 1 then hdrRowlen h * wfBytes wf64 else 8) 8)
      || (decide (g.type = stRenorm) && decide (g.mode = 3) && !press g.p1 8 8)) with
    | some i => .error (i, 7)
    | none =>
    match first (fun g => decide (g.type = stPack) && decide (g.ofmt = fmtPsi)
        && (!((stages.getLast?.map (fun g => decide (g.type = stLayout))).getD false) || decide (hdrRowlen h % 32 ≠ 0))) with
    | some i => .error (i, 8)
    | none =>
      .ok ⟨true, h, stages, idx.filterMap (fun e => if e.1.hasTable then some (e.2, s.readBytes e.1.p0.toNat tableBytes) else none)⟩

/-! ### Function tables (R157) -/

/-- A dyadic number times a power of two. -/
def dyScale (x : Int × Int) (k : Int) : Int × Int := (x.1, x.2 + k)
def dyNeg (x : Int × Int) : Int × Int := (-x.1, x.2)

/-- Floor of a dyadic number. -/
def dyFloor (x : Int × Int) : Int := if 0 ≤ x.2 then x.1 * 2 ^ x.2.toNat else x.1 / 2 ^ (-x.2).toNat

/-- Evaluate a table at a binary32 value; the last fused operation rounds by `rm` (R157). -/
def evalTable (l : List Byte) (rm : RMode) (x : Nat) : Nat :=
  let c := fun (o : Nat) => bytesAt l o 4
  let v := binary32.dec x
  let W := sextNat (bytesAt l 4 1) 8
  let lo := (binary32.dec (c 0)).dy
  let hi := dyAdd lo (256, W)
  if v.isNan then binary32.nan
  else if (v.isInf && v.sign) || (!v.isInf && dyLt v.dy lo) then (fFma binary32 .rne false false (c 8) x (c 12)).code
  else if v.isInf || !dyLt v.dy hi then (fFma binary32 .rne false false (c 16) x (c 20)).code
  else
    let u := dyScale (dyAdd v.dy (dyNeg lo)) (-W)
    let i := dyFloor u
    let o := 32 + 16 * i.toNat
    let t := (binary32.enc .rne false (FVal.ofDy (dyAdd u (-i, 0)) false)).code
    let p := (fFma binary32 .rne false false t (c (o + 8)) (c (o + 4))).code
    (fFma binary32 rm false false t p (c o)).code

/-! ### RENORM (R158) -/

def b32 (f : FRes) : Nat := f.code
def add32 (a b : Nat) : Nat := b32 (fAdd binary32 .rne false a b)
def sub32 (a b : Nat) : Nat := b32 (fSub binary32 .rne false a b)
def mul32 (rm : RMode) (a b : Nat) : Nat := b32 (fMul binary32 rm false a b)
def div32 (rm : RMode) (a b : Nat) : Nat := b32 (fDiv binary32 rm false a b)

/-- Exact sum of binary32 values, rounded once, nearest even. -/
def sum32 (l : List Nat) : Nat := (binary32.enc .rne false (FVal.sum .rne (l.map binary32.dec)).1).code

/-- Correctly rounded reciprocal square root, nearest even. -/
def rsqrt32 (x : Nat) : Nat :=
  match binary32.dec x with
  | .nan _ => binary32.nan
  | .inf neg => if neg then binary32.nan else 0
  | .fin neg m e =>
    if m = 0 then binary32.sgn neg + binary32.infCode
    else if neg then binary32.nan
    else
      let m' := if e % 2 = 0 then m else 2 * m
      let e' := if e % 2 = 0 then e else e - 1
      let q := isqrt (2 ^ 160 / m')
      (roundMag binary32 .rne false false q (-80 - e' / 2) (decide (q * q * m' ≠ 2 ^ 160))).code

/-- Fraction bits of the fixed-point numbers in which e^x is enclosed. -/
def expBits : Nat := 320

/-- e^y for a small fixed-point y: the series up to its n-th term. -/
def expSeries (y : Int) : Nat → Int → Int
  | 0, acc => acc
  | n + 1, acc => expSeries y n (2 ^ expBits + y * acc / (2 ^ expBits * (n + 1 : Nat)))

def squares (n : Nat) (r : Int) : Int := (upto n).foldl (fun r _ => r * r / 2 ^ expBits) r

/-- e^x in fixed point for a dyadic x: the series at x / 256, squared eight times. -/
def expFixed (x : Int × Int) : Int :=
  let k := x.2 + (expBits : Int) - 8
  squares 8 (expSeries (if 0 ≤ k then x.1 * 2 ^ k.toNat else x.1 / 2 ^ (-k).toNat) 80 (2 ^ expBits))

/-- The greatest binary32 value not above e^x, as a code: 0 below the least subnormal. -/
def expFloor (x : Int × Int) : Nat :=
  if dyLt x (-104, 0) then 0 else (binary32.enc .rtz false (FVal.ofDy (expFixed x, -(expBits : Int)) false)).code

/-- The device's exponential (R158): its error below 1 ulp leaves the two values around e^x, and which of them is left to
the implementation (log 11); a NaN gives the canonical NaN (R80). -/
def exp32 (x : Nat) : Nat :=
  match binary32.dec x with
  | .nan _ => binary32.nan
  | .inf neg => if neg then 0 else binary32.infCode
  | v => if v.isZero then 0x3F800000 else if dyLt (89, 0) v.dy then binary32.infCode
    else expFloor v.dy + b2n (Config.renormExpUp (BitVec.ofNat 32 x))

def max32 (l : List Nat) : Nat := l.foldl (fun a x => (fMinMax binary32 false true a x).code) binary32.nan

/-- The row length as binary32, exact. -/
def len32 (n : Nat) : Nat := (binary32.enc .rne false (FVal.ofDy (n, 0) false)).code

/-- One row of RENORM: the outputs, and the m and l that SMAXP records; both are NaN for a row that holds a NaN (log 123). -/
def renormRow (mode : Nat) (rm : RMode) (eps : Nat) (xs gs : List Nat) : List Nat × Nat × Nat :=
  let n := len32 xs.length
  let nanRow := xs.any (fun x => (binary32.dec x).isNan)
    || (decide (mode = 2 ∨ mode = 3 ∨ mode = 6) && xs.all (fun x => x == 0xFF800000))
  let mu := div32 .rne (sum32 xs) n
  let ds := xs.map (fun x => sub32 x mu)
  let sq := fun (l : List Nat) => sum32 (l.map (fun x => mul32 .rne x x))
  let rLn := rsqrt32 (add32 (div32 .rne (sq ds) n) eps)
  let rRms := rsqrt32 (add32 (div32 .rne (sq xs) n) eps)
  let m := max32 xs
  let es := xs.map (fun x => exp32 (sub32 x m))
  let l := sum32 es
  let dot := fun (ys : List Nat) => sum32 ((gs.zip ys).map (fun p => mul32 .rne p.1 p.2))
  let out :=
    match mode with
    | 0 => ds.map (fun d => mul32 rm d rLn)
    | 1 => xs.map (fun x => mul32 rm x rRms)
    | 2 => es.map (fun e => div32 rm e l)
    | 3 => es
    | 4 =>
      let xh := ds.map (fun d => mul32 .rne d rLn)
      let p := div32 .rne (sum32 gs) n
      let q := div32 .rne (dot xh) n
      (gs.zip xh).map (fun e => mul32 rm rLn (sub32 (sub32 e.1 p) (mul32 .rne e.2 q)))
    | 5 =>
      let xh := xs.map (fun x => mul32 .rne x rRms)
      let q := div32 .rne (dot xh) n
      (gs.zip xh).map (fun e => mul32 rm rRms (sub32 e.1 (mul32 .rne e.2 q)))
    | _ =>
      let ys := es.map (fun e => div32 .rne e l)
      let q := dot ys
      (gs.zip ys).map (fun e => mul32 rm e.2 (sub32 e.1 q))
  if nanRow then (xs.map (fun _ => binary32.nan), if xs.any (fun x => (binary32.dec x).isNan) then binary32.nan else m, binary32.nan)
  else (out, m, l)

/-! ### PACK to PSI (R91) -/

/-- Whether a dyadic number is at most an integer. -/
def dyLe (x : Int × Int) (n : Int) : Bool := !dyLt (n, 0) x

/-- The odd integer R91 takes for a value scaled by 2^(127 - E), clamped. -/
def psiRound (n : Nat) (y : Int × Int) : Int :=
  let f := dyFloor y
  let exact := !dyLt (f, 0) y
  let v := if exact && decide (f % 2 = 0) then (if f > 0 then f + 1 else if f < 0 then f - 1 else 1) else f / 2 * 2 + 1
  max (-(2 ^ n - 1)) (min (2 ^ n - 1) v)

/-- A block of 32 values as PSIn: the plane digits u of each, and the scale (R91). -/
def psiBlock (n : Nat) (vs : List FVal) : List Nat × Nat :=
  if vs.any (fun v => v.isNan || v.isInf) then (vs.map (fun _ => 2 ^ n - 1), 0xFF)
  else
    let mags := vs.map (fun v => v.abs.dy)
    let m := mags.foldl (fun a b => if dyLt a b then b else a) (0, 0)
    let E : Nat := if m.1 = 0 then 0
      else ((upto 255).find? (fun (E : Nat) => dyLe (dyScale m (127 - (E : Int))) (2 ^ n - 1))).getD 0xFE
    (vs.map (fun v => ((psiRound n (dyScale v.dy (127 - (E : Int))) + 2 ^ n - 1) / 2).toNat), E)

/-! ### Running a chain (R152, R153, R156, R159) -/

/-- What a SUM stage has seen. -/
structure Sums where
  vals : List FVal
  over' : Nat
deriving DecidableEq, Repr

/-- A row on its way: its values, its codes once PACK has run (with PSI scales), what SUM saw, what SMAXP records. -/
structure RowRun where
  vals : List Nat
  fmt : Nat
  planes : Nat
  scales : List Nat
  sums : Sums
  notes : List (Nat × Nat × Nat)
deriving DecidableEq, Repr

/-- A parameter of SCALE or BIAS for element `x` of row `r` (R156). -/
def stageParam (s : State) (g : Stage) (wf64 : Bool) (r x : Nat) : Nat :=
  let n := wfBytes wf64
  match g.mode with
  | 0 => g.p0.toNat % 2 ^ (8 * n)
  | 1 => s.readNat (g.p0.toNat + n * x) n
  | _ => s.readNat (g.p0.toNat + n * r) n

/-- One stage over one row. -/
def runStage (s : State) (slot : ChainSlot) (wf64 : Bool) (r : Nat) (aux : List Nat) (w : RowRun) (e : Stage × Nat) : RowRun :=
  let g := e.1
  let f := wfFmt wf64
  let tbl := ((slot.tables.find? (fun t => decide (t.1 = e.2))).map (·.2)).getD []
  if g.type = stScale then
    { w with vals := w.vals.zipIdx.map (fun v => (fMul f g.rnd false v.1 (stageParam s g wf64 r v.2)).code) }
  else if g.type = stBias then
    { w with vals := w.vals.zipIdx.map (fun v => (fAdd f g.rnd false v.1 (stageParam s g wf64 r v.2)).code) }
  else if g.type = stAct then { w with vals := w.vals.map (evalTable tbl g.rnd) }
  else if g.type = stDeriv then
    { w with vals := (w.vals.zip aux).map (fun v => (fMul f g.rnd false v.1 (evalTable tbl .rne v.2)).code) }
  else if g.type = stRenorm then
    let (out, m, l) := renormRow g.mode g.rnd (fld g.p0 0 32) w.vals aux
    { w with vals := out, notes := if g.mode = 3 then w.notes ++ [(g.p1.toNat + 8 * r, m, l)] else w.notes }
  else if g.type = stSum then
    let T := f.dec (g.p0.toNat % 2 ^ f.width)
    let vs := w.vals.map f.dec
    { w with sums := ⟨vs, (vs.filter (fun v => !v.isNan && !T.isNan && T.lt v.abs)).length⟩ }
  else if g.type = stPack then
    if g.ofmt = fmtPsi then
      let bs := (blocks32 (w.vals.map f.dec)).map (psiBlock (g.mode + 1))
      { w with vals := bs.flatMap (·.1), fmt := fmtPsi, planes := g.mode + 1, scales := bs.map (·.2) }
    else if g.ofmt = 1 ∨ g.ofmt = 9 then
      let n := fmtBits g.ofmt
      { w with vals := w.vals.map (fun v => ((fToInt f g.rnd n v).1 % 2 ^ n).toNat), fmt := g.ofmt }
    else { w with vals := w.vals.map (fun v => (fCvt f (fmtFloat g.ofmt) g.rnd g.sat false v).code), fmt := g.ofmt }
  else w

/-- An input or auxiliary element in the working format (R154). -/
def toWorking (ifmt rnd0 : Nat) (wf64 : Bool) (v : Nat) : Nat :=
  if ifmt = 9 then (intToF (wfFmt wf64) ((RMode.ofBits rnd0).getD .rne) (sextNat v 32)).code
  else (fCvt (fmtFloat ifmt) (wfFmt wf64) .rne false false v).code

/-- Elements of a row that lies contiguous in the press. -/
def pressRow (s : State) (fmt base r n : Nat) : List Nat :=
  let b := fmtBits fmt / 8
  (upto n).map (fun x => s.readNat (base + (r * n + x) * b) b)

/-- Every row of a `vflow` through the stages. -/
def chainRows (s : State) (slot : ChainSlot) (src : Nat) (aux : Option Nat) (rows : Nat) : List RowRun :=
  let h := slot.hdr
  let n := hdrRowlen h
  let wf64 := hdrWf64 h
  (upto rows).map (fun r =>
    let xs := (pressRow s (hdrIfmt h) src r n).map (toWorking (hdrIfmt h) (hdrRnd0 h) wf64)
    let gs := match aux with
      | some a => if hdrAfmt h = 0 then [] else (pressRow s (hdrAfmt h) a r n).map (toWorking (hdrAfmt h) 0 wf64)
      | none => []
    slot.stages.zipIdx.foldl (runStage s slot wf64 r gs) ⟨xs, if wf64 then 7 else 6, 0, [], ⟨[], 0⟩, []⟩)

/-- The output format of a slot's chain, and its planes (R156). -/
def chainOut (slot : ChainSlot) : Nat × Nat :=
  match slot.stages.find? (fun g => decide (g.type = stPack)) with
  | some g => (g.ofmt, g.mode + 1)
  | none => (if hdrWf64 slot.hdr then 7 else 6, 1)

def hasLayout (slot : ChainSlot) : Bool := slot.stages.any (fun g => decide (g.type = stLayout))
def hasSum (slot : ChainSlot) : Bool := slot.stages.any (fun g => decide (g.type = stSum))

/-- What a LAYOUT descriptor breaks of its chain's output (R175, R183, R185, R187): format, block or PSI alignment, planes. -/
def layoutFault (slot : ChainSlot) (d : Desc) : Option Nat :=
  if d.fmt ≠ (chainOut slot).1 then some 10
  else if psiWriteBad d || (decide (d.bdim ≠ 0) && blockFieldsBad d 1 (min 32 (min (hdrRowlen slot.hdr) d.rowLen))) then some 11
  else if d.fmt = fmtPsi ∧ d.pm1 + 1 ≠ (chainOut slot).2 then some 12
  else none

/-- A `vchain` into a slot. -/
def ChainOp.fills (o : ChainOp) (n : Nat) : Bool :=
  match o with
  | .chain m _ => decide (m = n)
  | .flow _ _ _ _ _ _ _ _ => false

/-- What a `vflow` into a descriptor meets at issue (R187): its slot's chain is known there, unless a `vchain` into the slot
is still queued or the slot is empty; then it is judged when the `vflow` runs (log 124). -/
def flowIssueFault (k : Core) (n : Nat) (d : Desc) : Option Nat :=
  let slot := FMap.get ChainSlot.empty k.slots n
  if slot.valid && hasLayout slot && !k.chainQ.any (fun e => e.op.fills n) then layoutFault slot d else none

/-- `vflow` (R152, R161, R167, R173, R175, R187). -/
def vflowBody : Body := fun x =>
  let t := x.th
  let f := x.f
  let smask := f.x24 / 2 ^ 16 % 16
  let acc := decide (f.x24 / 2 ^ 20 % 2 = 1)
  let dst := t.reg f.rs2
  let srcs := [(f.rs1, [Tag.ptr]), (f.rs2, [.desc, .ptr])] ++ (if f.rs3 = 0 then [] else [(f.rs3, [.ptr])])
    ++ (if acc then (smCodes smask).map (fun c => (c, [Tag.smry])) else [])
  match x.checkTicketed srcs (smCodes smask) with
  | some c => .trap c
  | none =>
    let go := fun (d : Option Desc) =>
      queueChain x (.flow (f.x24 % 4) (t.reg f.rs1).val dst d (if f.rs3 = 0 then none else some (t.reg f.rs3).val)
        (f.x24 / 16 % 2 ^ 12 + 1) (BitVec.ofNat 4 smask) acc) (smCodes smask)
    if dst.tag = .desc then
      (match x.s.handleDesc (coreOf x.g) t.estat.prv dst.val with
        | none => .trap (cDesc 8 15)
        | some d =>
          if d.ro then .trap (cDesc 9 15)
          else match flowIssueFault (x.s.core (coreOf x.g)) (f.x24 % 4) d with
            | some r => .trap (cDesc r 15)
            | none => go (some d))
    else go none

/-- Bytes of a padded output row. -/
def outRowBytes (slot : ChainSlot) : Nat := cdiv (hdrRowlen slot.hdr * fmtBits (chainOut slot).1) 64 * 8

/-- Two ranges overlap. -/
def rangesMeet (a n b m : Nat) : Bool := decide (a < b + m) && decide (b < a + n)

/-- Everything a `vflow` writes: press bytes or element writes with their scales, the notes of SMAXP, the OOB count. -/
structure FlowPlan where
  press : List (Nat × List Byte)
  elems : List ElemWrite
  scales : List ElemWrite
  desc : Option Desc
  oob : Nat
  rows : List RowRun
deriving DecidableEq, Repr

/-- The LAYOUT writes of a row (R156, R175, R183, R185). -/
def layoutRow (s : State) (c : Nat) (prv : BitVec 2) (d : Desc) (w : RowRun) (r : Nat) : Except EErr (List ElemWrite × List ElemWrite × Nat) :=
  let ps := (upto w.vals.length).map (fun x => ((r * d.rowLen + x : Nat), x))
  let pos := ps.map (fun p => ((p.1 : Int), p.2))
  match (if d.bdim ≠ 0 then firstSome (blockFault d) (blocks32 pos) else none) with
  | some L => .error (descDetail 11 L)
  | none =>
    match collect (fun p : (Nat × Nat) × Nat => s.planWrite c prv d (p.1.1 : Int) p.1.2 p.2) (ps.zip w.vals) with
    | .error e => .error e
    | .ok ws =>
      match (if w.fmt = fmtPsi then
          collect (fun b : List (Pos × List ElemWrite) × Nat =>
            match firstSome (fun e : Pos × List ElemWrite => match e.1 with
                | .data _ is => some is
                | _ => none) b.1 with
            | none => .ok []
            | some is =>
              match s.peek c prv .wr (d.scaleAddr is) with
              | .error x => .error x
              | .ok a => .ok [⟨a, 1, w.scales.getD b.2 0, none⟩]) (blocks32 ws).zipIdx
        else .ok []) with
      | .error e => .error e
      | .ok sc => .ok (ws.flatMap (·.2), sc.flatten, (ws.filter (fun e => decide (e.1 = .oob))).length)

/-- Bytes of a flow's source rows (R152). -/
def flowInBytes (s : State) (c n rows : Nat) : Nat :=
  let slot := FMap.get ChainSlot.empty (s.core c).slots n
  rows * hdrRowlen slot.hdr * (fmtBits (hdrIfmt slot.hdr) / 8)

/-- The checks of a `vflow` and everything it will write (R153, R161): a fault ends it with nothing written. It reads its
rows from `m`, after every check. -/
def flowPlan (s m : State) (c : Nat) (e : ChainEntry) (n : Nat) (src : Word) (dst : TReg) (d : Option Desc) (aux : Option Word)
    (rows : Nat) (smask : BitVec 4) : Except EErr FlowPlan :=
  let slot := FMap.get ChainSlot.empty (s.core c).slots n
  let err := fun (r : Nat) => (Except.error (.code 0x0E (chainEtval n 0xFF r)) : Except EErr FlowPlan)
  if !slot.valid then err 9
  else
    let len := hdrRowlen slot.hdr
    let inB := flowInBytes s c n rows
    let auxB := rows * len * (fmtBits (hdrAfmt slot.hdr) / 8)
    let needAux := slot.stages.any Stage.readsAux
    let outB := rows * outRowBytes slot
    let lay := hasLayout slot
    let badPress := fun (a : Word) (b : Nat) => decide (a.toNat % 8 ≠ 0) || !s.inOwnPress c a.toNat b
    let auxA := if needAux then aux else none
    let params := slot.stages.zipIdx.find? (fun g =>
      (decide (g.1.type = stScale ∨ g.1.type = stBias) && decide (g.1.mode = 2) && !s.inOwnPress c g.1.p0.toNat (rows * wfBytes (hdrWf64 slot.hdr)))
      || (decide (g.1.type = stRenorm) && decide (g.1.mode = 3) && !s.inOwnPress c g.1.p1.toNat (8 * rows)))
    if lay ≠ decide (dst.tag = .desc) then err 13
    else if (needAux && aux.isNone) || (decide (smask ≠ 0) && !hasSum slot) then err 12
    else if badPress src inB || (match auxA with
        | some a => badPress a auxB
        | none => false) || (!lay && badPress dst.val outB) then err 10
    else match params with
    | some g => .error (.code 0x0E (chainEtval n g.2 7))
    | none =>
        let read := fun (p : FlowPlan) =>
          if s.poisoned src.toNat inB then .error (.parity (s.badWord .ok src.toNat inB)) else Except.ok p
        let meets := fun (a b : Nat) => rangesMeet a b src.toNat inB || (match auxA with
          | some q => rangesMeet a b q.toNat auxB
          | none => false)
        let runs := chainRows m slot src.toNat (auxA.map (·.toNat)) rows
        match d with
        | none =>
          if meets dst.val.toNat outB then err 11
          else read ⟨runs.zipIdx.map (fun w => (dst.val.toNat + w.2 * outRowBytes slot, packBits (fmtBits w.1.fmt) 64 w.1.vals)), [], [], none, 0, runs⟩
        | some d =>
          match layoutFault slot d with
          | some r => .error (.code 0x0C (descEtval r 15 0))
          | none =>
            match collect (fun w : RowRun × Nat => layoutRow s c e.prv d w.1 w.2) runs.zipIdx with
            | .error x => .error x
            | .ok ls =>
              let ws := ls.flatMap (·.1)
              let sc := ls.flatMap (·.2.1)
              if (ws ++ sc).any (fun w => meets w.pa w.bytes) then err 11
              else read ⟨[], ws, sc, some d, (ls.map (·.2.2)).foldl (· + ·) 0, runs⟩

/-- The four summaries of the values a SUM stage saw (R159). -/
def summaries (wf64 : Bool) (rows : List RowRun) : List Nat :=
  let _ := wf64
  let vs := rows.flatMap (·.sums.vals)
  let good := vs.filter (fun v => !v.isNan)
  let d := fun (v : FVal) => (binary64.enc .rne false v).code
  [(good.map (fun v => d v.abs)).foldl max 0, (vs.filter FVal.isNan).length, d (FVal.sum .rne good).1,
    (rows.map (·.sums.over')).foldl (· + ·) 0]

/-- A summary combined with the one held (R159). -/
def combineSm (i old new : Nat) : Nat :=
  if i = 0 then (fMinMax binary64 false true old new).code
  else if i = 2 then (fAdd binary64 .rne false old new).code
  else (old + new) % 2 ^ 64

/-- Perform a plan. -/
def State.doFlow (s : State) (c : Nat) (p : FlowPlan) : State :=
  let s := p.press.foldl (fun s w => s.writeBytes c w.1 w.2) s
  let s := match p.desc with
    | some d => ((s.doWrites c d p.elems).doWrites c { d with colr := 0 } p.scales).clearCovered d p.elems
    | none => s
  (p.rows.flatMap (·.notes)).foldl (fun s n => (s.writeNat c n.1 4 n.2.1).writeNat c (n.1 + 4) 4 n.2.2) s

/-- End entry `i` of the chain queue with a phase of its ticket. -/
def endChain (s : State) (c i : Nat) (e : ChainEntry) (p : EngPhase) : State :=
  let s := s.setCore c { s.core c with chainQ := (s.core c).chainQ.eraseIdx i }
  s.setThread e.g ((s.thread e.g).setEng e.tk isChainWaiting .chain p)

/-- Whether an entry may begin behind those ahead of it, all of which have begun (R150): a `vflow` once no `vchain` into its
slot is ahead, a `vchain` beside `vflow`s of other slots. -/
def chainMayBegin (ahead : List ChainEntry) (o : ChainOp) : Bool :=
  ahead.all (·.begun) && (match o with
    | .flow n _ _ _ _ _ _ _ => ahead.all (fun a => !a.op.fills n)
    | .chain n _ => ahead.all (fun a => match a.op with
      | .flow m _ _ _ _ _ _ _ => decide (m ≠ n)
      | .chain _ _ => false))

/-- The next entry of a chain queue to begin, with its place. -/
def Core.nextChain (k : Core) : Option (Nat × ChainEntry) :=
  match k.chainQ.findIdx? (fun e => !e.begun) with
  | none => none
  | some i =>
    match k.chainQ[i]? with
    | some e => if chainMayBegin (k.chainQ.take i) e.op then some (i, e) else none
    | none => none

/-- The plan of a `vflow` entry, reading its rows from `m`; a `vchain` plans nothing. -/
def planOf (s m : State) (c : Nat) (e : ChainEntry) : Except EErr (Option FlowPlan) :=
  match e.op with
  | .chain _ _ => .ok none
  | .flow n src dst d aux rows sm _ => (flowPlan s m c e n src dst d aux rows sm).map some

/-- The bytes whose check a chain entry begins with: its descriptor, or its input rows. -/
def chainItem (s : State) (c : Nat) (e : ChainEntry) : Nat × Nat :=
  match e.op with
  | .chain _ a => (a.toNat, 256)
  | .flow n src _ _ _ rows _ _ => (src.toNat, flowInBytes s c n rows)

/-- Begin the next entry of the chain queue (R150, R153): a `vflow` makes its checks. One that meets a half link that is not
UP waits (R297). -/
def doChainExecute (s : State) (c : Nat) (par : Parity) : State :=
  let k := s.core c
  match k.nextChain with
  | none => s
  | some (i, e) =>
    if k.suspended then s
    else
      let s := if par = .replayed then s.countReplay c else s
      let item := chainItem s c e
      if Parity.isLost par then
        (endChain s c i e (.failed 0x10 (BitVec.ofNat 64 (Parity.failing par item.1 item.2)))).recordFault (unitId 0 c) 0x01
      else
        match planOf s s c e with
        | .error (.link _) => s
        | .error x => (endChain s c i e (eerrPhase x true)).recordEErr x
        | .ok _ => s.setCore c { s.core c with chainQ := (s.core c).chainQ.set i { e with begun := true, seen := s.mem } }

def ChainOp.isChain (o : ChainOp) : Bool :=
  match o with
  | .chain _ _ => true
  | .flow _ _ _ _ _ _ _ _ => false

/-- The oldest begun `vchain` completes (R151): the slot is valid, or empty with a deferred fault. -/
def doVchainComplete (s : State) (c : Nat) : State :=
  let k := s.core c
  match k.chainQ.findIdx? (fun e => e.begun && e.op.isChain) with
  | none => s
  | some i =>
    match k.chainQ[i]? with
    | some e =>
      (match e.op with
        | .chain n a =>
          if k.suspended then s
          else
            match validateChain s c a with
            | .ok slot => endChain (s.setCore c { k with slots := FMap.set ChainSlot.empty k.slots n slot }) c i e (.done [])
            | .error (st, r) =>
              endChain (s.setCore c { k with slots := FMap.set ChainSlot.empty k.slots n ChainSlot.empty }) c i e
                (.failed 0x0E (chainEtval n st r))
        | .flow _ _ _ _ _ _ _ _ => s)
    | none => s

/-- The oldest begun `vflow` completes (R152, R153, R159): the rows are written, the summaries named in SMASK are given. A word
that another agent wrote while it ran reads old or new. -/
def doVflowComplete (s : State) (c : Nat) : State :=
  let k := s.core c
  match k.chainQ.findIdx? (fun e => e.begun && !e.op.isChain) with
  | none => s
  | some i =>
    match k.chainQ[i]? with
    | some e =>
      (match e.op with
        | .flow n src dst d aux rows sm acc =>
          if k.suspended then s
          else
            match flowPlan s (s.mixed e.seen) c e n src dst d aux rows sm with
            | .error (.link _) => s
            | .error x => (endChain s c i e (eerrPhase x true)).recordEErr x
            | .ok p =>
              let s := { s with free := s.free + s.mixedFree e.seen }
              let slot := FMap.get ChainSlot.empty k.slots n
              let t := s.thread e.g
              let news := summaries (hdrWf64 slot.hdr) p.rows
              let vals := ((upto 4).filter (fun i => sm.getLsbD i)).map (fun i =>
                let v := news.getD i 0
                (⟨.smry, BitVec.ofNat 64 (if acc then combineSm i (t.reg (codeSm i)).val.toNat v else v)⟩ : TReg))
              let s := s.doFlow c p
              endChain (s.setCore c ((s.core c).countOob true p.oob)) c i e (.done vals)
        | .chain _ _ => s)
    | none => s

/-- What the chain queue of a core waits for at the half link, with the entry and its place (R218, R297). -/
def chainWait (s : State) (c : Nat) : Option (Nat × ChainEntry × Nat) :=
  let k := s.core c
  let wait := fun (i : Nat) (e : ChainEntry) => match planOf s s c e with
    | .error x => x.waits.map (fun pa => (i, e, pa))
    | .ok _ => none
  (k.nextChain.bind (fun x => wait x.1 x.2)).orElse (fun _ => firstSome (fun e : ChainEntry × Nat => if e.1.begun then wait e.2 e.1 else none) k.chainQ.zipIdx)

/-- A suspension restarts the entries of the chain queue in execution (R153). -/
def Core.unbeginChain (k : Core) : Core := { k with chainQ := k.chainQ.map (fun e => { e with begun := false, seen := [] }) }

end Sys2Proof.Machine
end

