-- ==== Sys2Proof/Machine/Collective.lean ====
section
/-! DEFINITION. The collective engines: commands and their records (R239-R242), epochs (R243-R246), buckets and the
vintage sum (R247-R255), shards (R194-R196, R256-R260), and point-to-point transfers (R261). -/

namespace Sys2Proof.Machine

/-! ### Status codes (R241) -/

def stDone : Nat := 1
def stSent : Nat := 2
def stBad : Nat := 3
def stLate : Nat := 4
def stFailed : Nat := 5
def stEpoch : Nat := 6
def stRole : Nat := 7
def stConfig : Nat := 8
def stNoShard : Nat := 9
def stTrunc : Nat := 10

/-! ### Parts of the state -/

def State.engine (s : State) (h : Nat) : Engine := (s.half h).eng
def State.setEngine (s : State) (h : Nat) (e : Engine) : State := s.setHalf h { s.half h with eng := e }

/-- The group record that a binding holds, as half `h` has it; a stopped binding's records are invalid (R352). -/
def State.group (s : State) (h b gid : Nat) : Option Group :=
  match FMap.get none (s.engine h).groups gid with
  | some g => if g.binding = b ∧ !(s.binding b).stop then some g else none
  | none => none

/-- Half `h` writes a group record, of which both halves' engines hold a copy (R237, R289). -/
def State.setGroup (s : State) (h gid : Nat) (g : Group) : State :=
  s.ctrl h (fun x => { x with eng := { x.eng with groups := FMap.set none x.eng.groups gid (some g) } })

def Group.me (g : Group) : Member := g.members.getD g.self ⟨0, 0, 0⟩

/-- ROLE of a contributor and an observer (R237). -/
def Member.contributes (m : Member) : Bool := decide (m.role = 1)
def Member.observes (m : Member) : Bool := decide (m.role = 2)

/-- Contributions to each sum over all members. -/
def Group.total (g : Group) : Nat := (g.members.map (·.ccnt)).foldl (· + ·) 0

/-- An entry of a binding's active bank, in half `h`'s copy (R277, R278). -/
def State.partner (s : State) (h b n : Nat) : Partner :=
  let p := FMap.get Partner.invalid (if (s.binding b).ptAct then (s.half h).partners1 else (s.half h).partners0) n
  if p.bind = b ∧ !(s.binding b).stop then p else Partner.invalid

/-- The partner number under which a binding names a remote device and binding. -/
def State.partnerNo (s : State) (h b : Nat) (dev : BitVec 20) (bind : Nat) : Option Nat :=
  ((if (s.binding b).ptAct then (s.half h).partners1 else (s.half h).partners0).find? (fun e =>
    e.2.valid && decide (e.2.bind = b) && decide (e.2.ddev = dev) && decide (e.2.dbind = bind) && !(s.binding b).stop)).map (·.1)

/-- The member that a remote device and binding is. -/
def State.memberOf (s : State) (h b : Nat) (g : Group) (dev : BitVec 20) (bind : Nat) : Option Nat :=
  (upto g.members.length).find? (fun m => decide (m ≠ g.self) &&
    (let p := s.partner h b (g.members.getD m ⟨0, 0, 0⟩).partner
     p.valid && decide (p.ddev = dev) && decide (p.dbind = bind)))

/-- Hand a message to the fabric, for a member of a group. -/
def State.sendMember (s : State) (h b : Nat) (g : Group) (m : Nat) (t : PType) (rw2 : Word) (xtag : Nat) (body : Payload) : State :=
  s.setEngine h { s.engine h with
    outbox := (s.engine h).outbox ++ [⟨b, (g.members.getD m ⟨0, 0, 0⟩).partner, t, rw2, BitVec.ofNat 16 xtag, body⟩] }

/-! ### Records (R241) -/

def CollCmd.field (c : CollCmd) (off n : Nat) : Nat := bytesAt c.record off n
def CollCmd.gid (c : CollCmd) : Nat := c.field 0 8 % 2 ^ 12
def CollCmd.irq (c : CollCmd) : Bool := decide (c.field 0 8 / 2 ^ 12 % 2 = 1)
def CollCmd.attempt (c : CollCmd) : Nat := c.field 0 8 / 2 ^ 32 % 256
def CollCmd.step (c : CollCmd) : Nat := c.field 16 8
def CollCmd.core (c : CollCmd) : Nat := coreOf c.g

/-- The virtual address of a record's word as the engine reads and writes it. -/
def wordAt (n : Nat) : Word := BitVec.ofNat 64 n

/-- `cbkt`, `pgather`, `csend` and `crecv` at issue (R240): the record is copied, and the command waits for a slot. -/
def collBody (op : CollOp) : Body := fun x =>
  let c := coreOf x.g
  let t := x.th
  let va := (t.reg x.f.rs1).val
  match firstCond [x.checkTicketed [(x.f.rs1, [.ptr])] [],
      condIf (!x.s.inOwnPress c (va.toNat / 64 * 64) 64) (cPrivAddr va), condIf (decide (va.toNat % 64 ≠ 0)) (cMisaligned va)] with
  | some cd => .trap cd
  | none =>
    let k := x.s.core c
    let cmd : CollCmd := ⟨op, x.g, x.f.tk, k.binding.getD 0, va, t.estat.prv, x.s.readBytes va.toNat 64⟩
    .ok (x.s.setCore c { k with collQ := k.collQ ++ [cmd] }) (t.addOp x.f.tk ⟨.coll .waiting, t.pc, []⟩) .seq

/-! ### The end of a command (R242, R263) -/

/-- Count a command that ended LATE, or a bucket that ended BAD (R263). -/
def State.countEnd (s : State) (h b status : Nat) : State :=
  let e := s.engine h
  if status = stLate then s.setEngine h { e with late := FMap.set 0 e.late b (satAdd (FMap.get 0#16 e.late b) 1) } else s

def State.countDrop (s : State) (h b : Nat) : State :=
  let e := s.engine h
  s.setEngine h { e with drop := FMap.set 0 e.drop b (satAdd (FMap.get 0#32 e.drop b) 1) }

/-- Write CSTAT, end the ticket's operation, and raise CIRQ where the record asks (R241, R242, R263). -/
def State.endColl (s : State) (h : Nat) (c : CollCmd) (status count : Nat) : State :=
  let s := s.writeNat 512 (c.recAt.toNat + 8) 8 (status + count * 2 ^ 24)
  let t := (s.thread c.g).setEng c.tk isCollWaiting .coll (.done [])
  (s.setThread c.g { t with cirq := t.cirq || c.irq }).countEnd h c.b status

/-- A failed translation or unrecoverable parity ends the ticket with a deferred fault; CSTAT is not written (R242). -/
def State.failColl (s : State) (c : CollCmd) (e : EErr) (write : Bool) : State :=
  (s.setThread c.g ((s.thread c.g).setEng c.tk isCollWaiting .coll (eerrPhase e write))).recordEErr e

/-- Read a run of bytes that a record names. -/
def State.collRead (s : State) (c : CollCmd) (va : Word) (n : Nat) : Except EErr (List Byte) × State :=
  match s.xlatRun c.core c.prv .rd va n with
  | (.error e, s') => (.error e, s')
  | (.ok ps, s') =>
    match s'.poisonedPieces ps with
    | some a => (.error (.parity a), s')
    | none => (.ok (s'.readPieces ps), s')

/-- Write a run of bytes that a record names; nothing is written where a page fails. -/
def State.collWrite (s : State) (c : CollCmd) (va : Word) (l : List Byte) : Except EErr Unit × State :=
  match s.xlatRun c.core c.prv .wr va l.length with
  | (.error e, s') => (.error e, s')
  | (.ok ps, s') => (.ok (), s'.writePieces 512 ps l)

/-- Where what an engine tried waits for the half link (R297). -/
def heldAt {α : Type} (r : Except EErr α) : Option Nat :=
  match r with
  | .error e => e.waits
  | .ok _ => none

/-- A command that both halves' engines take part in waits while the half link is not UP (R243, R297): its binding has
cores in both halves. -/
def State.cutOff (s : State) (b : Nat) : Bool :=
  decide (s.half0.link ≠ .up) && (s.coresOf b).any (fun c => decide (halfOfCore c = 0)) && (s.coresOf b).any (fun c => decide (halfOfCore c = 1))

/-! ### Buckets: the record (R247) -/

structure BucketReq where
  src : Word
  cstride : Nat
  dst : Word
  elems : Nat
  bseq : Nat
  rop : Nat
  all : Bool
  rnd : Nat
  dfmt : Nat
  sfmt : Nat
  splitAt : Word
  reserved : Nat
deriving DecidableEq, Repr

def bucketReq (g : Group) (c : CollCmd) : BucketReq :=
  let fl := c.field 52 4
  { src := wordAt (c.field 24 8), cstride := c.field 32 8, dst := wordAt (c.field 40 8)
    elems := if c.field 48 4 = 0 then g.bktdef * 262144 else c.field 48 4
    bseq := fl / 2 ^ 16, rop := fl / 2 ^ 12 % 4, all := decide (fl / 2 ^ 11 % 2 = 1), rnd := fl / 2 ^ 8 % 8
    dfmt := fl / 16 % 16, sfmt := fl % 16, splitAt := wordAt (c.field 56 8), reserved := fl / 2 ^ 14 % 4 }

/-- Fields in range (R247), and one format for a maximum or minimum (R253). -/
def BucketReq.ok (r : BucketReq) : Bool :=
  decide (1 ≤ r.elems ∧ r.elems ≤ 16777216 ∧ r.reserved = 0 ∧ r.rop ≠ 3 ∧ r.rnd ≤ 4 ∧ 4 ≤ r.dfmt ∧ r.dfmt ≤ 7 ∧ 2 ≤ r.sfmt ∧ r.sfmt ≤ 7)
    && (r.rop == 0 || r.dfmt == r.sfmt)

def BucketReq.nblk (r : BucketReq) : Nat := cdiv r.elems 64

/-- Element range of member k: the split's, or the whole bucket at a contributor with ALL (R247, R248). -/
def ownRange (g : Group) (r : BucketReq) (split : List Nat) (k : Nat) : Nat × Nat :=
  if r.all then (if (g.members.getD k ⟨0, 0, 0⟩).contributes then (0, r.elems) else (0, 0))
  else ((split.take k).foldl (· + ·) 0, split.getD k 0)

/-- The blocks that an element range touches (R250). -/
def blocksOf (rg : Nat × Nat) : List Nat :=
  if rg.2 = 0 then [] else (upto ((rg.1 + rg.2 - 1) / 64 + 1 - rg.1 / 64)).map (· + rg.1 / 64)

/-- CRC-32C of a split (R249). -/
def splitCrc (split : List Nat) : BitVec 32 := crc32c ((split.map (leBytes 4)).flatten)

def BucketReq.cfg (r : BucketReq) (split : List Nat) : BucketCfg := ⟨r.elems, r.rop, splitCrc split, if r.rop = 0 then 0 else r.sfmt⟩

/-! ### Finding buckets -/

def Bucket.key (k : Bucket) (gid step attempt bseq : Nat) : Bool :=
  decide (k.gid = gid ∧ k.step = step ∧ k.attempt = attempt ∧ k.bseq = bseq)

/-- Where a bucket is: the half and its place. -/
def State.findBucket (s : State) (gid step attempt bseq : Nat) : Option (Nat × Nat) :=
  match (s.engine 0).buckets.findIdx? (fun k => k.key gid step attempt bseq) with
  | some i => some (0, i)
  | none => ((s.engine 1).buckets.findIdx? (fun k => k.key gid step attempt bseq)).map (fun i => (1, i))

def Bucket.placeholder (gid step attempt bseq : Nat) : Bucket :=
  ⟨none, gid, step, attempt, bseq, .queued, [], [], [], [], [], [], []⟩

def State.setBucket (s : State) (h i : Nat) (k : Bucket) : State :=
  s.setEngine h { s.engine h with buckets := (s.engine h).buckets.set i k }

/-- A bucket that has ended at this member (R244). -/
def State.endedStatus (s : State) (gid step attempt bseq : Nat) : Option Nat :=
  (((s.engine 0).ended ++ (s.engine 1).ended).find? (fun e =>
    decide (e.gid = gid ∧ e.step = step ∧ e.attempt = attempt ∧ e.bseq = bseq))).map (·.status)

/-! ### CLOSE (R245) -/

def CloseRec.key (k : CloseRec) (gid step attempt : Nat) : Bool :=
  decide (k.gid = gid ∧ k.step = step ∧ k.attempt = attempt)

def CloseRec.nbkt (k : CloseRec) : Nat := (k.cmd.map (fun c => c.field 24 4)).getD 0

/-- Members that issue CLOSE: the contributors by role (R239, R245). -/
def closers (g : Group) : List Nat := (upto g.members.length).filter (fun m => (g.members.getD m ⟨0, 0, 0⟩).contributes)

def CloseRec.hear (k : CloseRec) (x : CloseSaid) : CloseRec :=
  { k with said := k.said.filter (fun y => decide (y.member ≠ x.member)) ++ [x] }

/-- Whether a bucket of the attempt is still in flight at this member: one it issued, or, where it contributes nothing
and issues only the buckets it owns elements of, one that the others' records reached. -/
def State.bucketsOpen (s : State) (g : Group) (k : CloseRec) : Bool :=
  ((s.engine 0).buckets ++ (s.engine 1).buckets).any (fun b =>
    (b.cmd.isSome || decide (g.me.ccnt = 0)) && decide (b.gid = k.gid ∧ b.step = k.step ∧ b.attempt = k.attempt))

/-- Every bucket of the attempt that ended at this member ended DONE or SENT, none ended before it was queued, and a
member that contributes to every bucket has ended each of the NBKT (R245). -/
def State.bucketsGood (s : State) (g : Group) (k : CloseRec) : Bool :=
  let mine := ((s.engine 0).ended ++ (s.engine 1).ended).filter (fun e => decide (e.gid = k.gid ∧ e.step = k.step ∧ e.attempt = k.attempt))
  mine.all (fun e => decide (e.status = stDone ∨ e.status = stSent))
    && !((s.engine 0).spoiled ++ (s.engine 1).spoiled).contains (k.gid, k.step, k.attempt)
    && (decide (g.me.ccnt = 0) || (upto k.nbkt).all (fun i => mine.any (fun e => decide (e.bseq = i))))

/-- CLOSE of a step, of any attempt, has ended DONE in a group (R245, R349). -/
def State.closedStep (s : State) (gid step : Nat) : Bool :=
  s.half0.eng.closed.contains (gid, step) || s.half1.eng.closed.contains (gid, step)

/-- A group is a binding's cellar group (R345). -/
def State.cellarGid (s : State) (b gid : Nat) : Bool := decide (((s.binding b).cfg.map (·.gid)) = some gid)

def reached (o : Option Nat) (step : Nat) : Bool := (o.map (fun n => decide (step ≤ n))).getD false

/-- The gates of R350 at this member: a CLOSE after a snapshot step that has closed waits for its capture, and the CLOSE of
the next snapshot step for its drain, whether or not that snapshot has begun. -/
def State.closeGated (s : State) (b gid step : Nat) : Bool :=
  let x := s.binding b
  match x.cfg with
  | none => false
  | some cfg =>
    let last := (step - 1) / cfg.k * cfg.k
    decide (cfg.gid = gid) && decide (0 < step)
      && ((s.closedStep gid last && !reached x.captured last)
        || (decide (step % cfg.k = 0) && decide (cfg.k ≤ step) && s.closedStep gid (step - cfg.k) && !reached x.drainedTo (step - cfg.k)))

/-- Observers of a group. -/
def observers (g : Group) : List Nat := (upto g.members.length).filter (fun m => (g.members.getD m ⟨0, 0, 0⟩).observes)

/-- Tell every other closer what this member's CLOSE says, and in a cellar group every observer (R350; log 127). -/
def State.tellClose (s : State) (h b : Nat) (g : Group) (k : CloseRec) (good : Bool) : State :=
  (((closers g).filter (· ≠ g.self)) ++ (if s.cellarGid b k.gid then observers g else [])).foldl (fun s m =>
    s.sendMember h b g m .verdict (wordAt k.step) 0 (.verdict k.gid k.attempt (.close k.nbkt good g.self))) s

/-- A CLOSE ends: the epoch is over, and DONE closes the step (R245). -/
def State.finishClose (s : State) (h : Nat) (c : CollCmd) (g : Group) (k : CloseRec) (done : Bool) : State :=
  let e := s.engine h
  let s := s.setEngine h { e with closes := e.closes.filter (fun x => !x.key k.gid k.step k.attempt),
                                  closed := if done then (k.gid, k.step) :: e.closed else e.closed }
  let s := if g.epoch = some (k.step, k.attempt) then s.setGroup h k.gid { g with opened := false } else s
  s.endColl h c (if done then stDone else stFailed) 0

/-- Replace a CLOSE record. -/
def State.putClose (s : State) (h : Nat) (k : CloseRec) : State :=
  s.setEngine h { s.engine h with closes := (s.engine h).closes.map (fun x => if x.key k.gid k.step k.attempt then k else x) }

/-- Every closer has said how its CLOSE stands. -/
def CloseRec.complete (k : CloseRec) (g : Group) : Bool := (closers g).all (fun m => k.said.any (fun x => decide (x.member = m)))

/-- A CLOSE that an observer of a cellar group hears of (R349, R350; log 127): it answers every closer once none of its
own gates holds, and knows from what all of them said whether the step closed. -/
def State.watchClose (s : State) (h : Nat) (g : Group) (k : CloseRec) : State :=
  let k' := { k with sent := true }
  let s := if k.sent || s.closeGated g.binding k.gid k.step then s
    else ((closers g).foldl (fun s m =>
      s.sendMember h g.binding g m .verdict (wordAt k.step) 0 (.verdict k.gid k.attempt (.ready g.self))) s).putClose h k'
  if (k.sent || !s.closeGated g.binding k.gid k.step) && k.complete g then
    let e := s.engine h
    let n := (k.said.map (·.nbkt)).headD 0
    s.setEngine h { e with closes := e.closes.filter (fun x => !x.key k.gid k.step k.attempt),
                           closed := if k.said.all (fun x => x.good && decide (x.nbkt = n)) then (k.gid, k.step) :: e.closed else e.closed }
  else s

/-- One CLOSE in flight: tell the others once every bucket has ended here and no gate holds it, and end once every member
has said and every observer of a cellar group is ready (R245, R350). -/
def State.settleClose (s : State) (h : Nat) (k : CloseRec) : State :=
  match k.cmd with
  | none =>
    (match FMap.get none (s.engine h).groups k.gid with
      | some g => if g.me.observes && !(s.binding g.binding).stop then s.watchClose h g k else s
      | none => s)
  | some c =>
    match s.group h c.b k.gid with
    | none => s
    | some g =>
      let ready := !k.sent && !s.bucketsOpen g k && !s.closeGated c.b k.gid k.step && !s.cutOff c.b
      let good := s.bucketsGood g k
      let k' := if ready then { k with sent := true }.hear ⟨g.self, k.nbkt, good⟩ else k
      let s := if ready then s.tellClose h c.b g k good else s
      if k'.complete g && (!s.cellarGid c.b k.gid || (observers g).all k'.ready.contains) && !s.cutOff c.b then
        s.finishClose h c g k' (k'.said.all (fun x => x.good && decide (x.nbkt = k.nbkt)))
      else s.putClose h k'

/-- Settle every CLOSE of both engines. -/
def State.settleCloses (s : State) : State :=
  [0, 1].foldl (fun s h => (s.engine h).closes.foldl (fun s k => s.settleClose h k) s) s

/-! ### The end of a bucket -/

/-- Take a bucket out, remember how it ended, and settle the CLOSE that waits for it. -/
def State.dropBucket (s : State) (h i : Nat) (k : Bucket) (status : Nat) : State :=
  let e := s.engine h
  s.setEngine h { e with buckets := e.buckets.eraseIdx i, ended := ⟨k.gid, k.step, k.attempt, k.bseq, status⟩ :: e.ended }

def State.endBucket (s : State) (h i : Nat) (k : Bucket) (status count : Nat) : State :=
  let s := s.dropBucket h i k status
  let s := match k.cmd with
    | some c =>
      let s := s.endColl h c status count
      if status = stBad then
        s.setEngine h { s.engine h with bad := FMap.set 0 (s.engine h).bad c.b (satAdd (FMap.get 0#16 (s.engine h).bad c.b) 1) }
      else s
    | none => s
  s.settleCloses

/-- A bucket whose translation or reading failed at this member. -/
def State.failBucket (s : State) (h i : Nat) (k : Bucket) (c : CollCmd) (e : EErr) (write : Bool) : State :=
  ((s.dropBucket h i k 0).failColl c e write).settleCloses

/-! ### Values of a bucket (R93, R94, R253) -/

/-- The elements of one contribution, padded with zeros to whole blocks (R250). -/
def codesOf (fmt : Nat) (l : List Byte) : List Nat :=
  let eb := fmtBits fmt / 8
  (upto (l.length / eb)).map (fun i => bytesAt l (i * eb) eb)

/-- Element `i` of block `b` of one contribution; zero beyond E. -/
def elemAt (codes : List Nat) (b i : Nat) : Nat := codes.getD (64 * b + i) 0

/-- Block exponent of one contribution (R93). -/
def blockExp (fmt : Nat) (codes : List Nat) (b : Nat) : BitVec 16 :=
  (upto 64).foldl (fun m i =>
    match ((fmtFloat fmt).dec (elemAt codes b i)).expo with
    | some e => if m.toInt < e then BitVec.ofInt 16 e else m
    | none => m) 0x8000#16

def maxExp (a b : BitVec 16) : BitVec 16 := if a.toInt < b.toInt then b else a

/-- Convert one element under the agreed exponent (R94): I, and whether it sets NANF. -/
def toLane (v : FVal) (E : BitVec 16) : Int × Bool :=
  if v.isNan || v.isInf then (0, true)
  else if E = 0x8000 then (0, false)
  else ((FVal.toInt .rne (FVal.ofDy (v.dy.1, v.dy.2 + (41 - E.toInt)) false)).1, false)

/-- The lanes this member sends for a block: its contributions summed with their residues (R94-R96, R252). -/
def blockLanes (fmt : Nat) (contribs : List (List Nat)) (E : BitVec 16) (b : Nat) : VxBlock :=
  let conv := contribs.map (fun codes => (upto 64).map (fun i => toLane ((fmtFloat fmt).dec (elemAt codes b i)) E))
  { lanes := (upto 64).map (fun i => wordOf (sumInt (conv.map (fun l => (l.getD i (0, false)).1)))),
    res := (upto 64).map (fun i => BitVec.ofNat 7 ((conv.map (fun l => ((l.getD i (0, false)).1 % 127).toNat)).foldl resAdd 0)),
    nanf := conv.any (fun l => l.any (·.2)), exp := E }

/-- The lanes of a maximum or minimum: the extreme of this member's contributions, with no residue (R253). -/
def blockExtreme (fmt : Nat) (isMax : Bool) (contribs : List (List Nat)) (b : Nat) : VxBlock :=
  ⟨(upto 64).map (fun i => BitVec.ofNat 64 (contribs.foldl (fun m codes => (fMinMax (fmtFloat fmt) false isMax m (elemAt codes b i)).code)
      (fmtFloat fmt).nan)), [], false, expNoSum⟩

/-- Add a block of lanes to what an owner holds (R95, R96); blocks without residues are kept side by side. A residue of
0b111_1111 stays so, as vadd leaves it (R148): DESIGN CHOICE, R96 says only how residues add (log 125). -/
def SumBlock.add (x : SumBlock) (v : VxBlock) (ncon : Nat) : SumBlock :=
  if v.res.isEmpty then { x with lanes := x.lanes ++ v.lanes, ncon := x.ncon + ncon }
  else if x.lanes.isEmpty then ⟨v.lanes, v.res, x.nanf || v.nanf, x.ncon + ncon⟩
  else ⟨(x.lanes.zip v.lanes).map (fun e => e.1 + e.2),
        (x.res.zip v.res).map (fun e => BitVec.ofNat 7 (resAdd e.1.toNat e.2.toNat)), x.nanf || v.nanf, x.ncon + ncon⟩

def SumBlock.empty : SumBlock := ⟨[], [], false, 0⟩

def Bucket.sum (k : Bucket) (b : Nat) : SumBlock := FMap.get SumBlock.empty k.sums b
def Bucket.addLanes (k : Bucket) (b : Nat) (v : VxBlock) (ncon : Nat) : Bucket :=
  { k with sums := FMap.set SumBlock.empty k.sums b ((k.sum b).add v ncon) }
def Bucket.expOf (k : Bucket) (b : Nat) : BitVec 16 × Nat := FMap.get (0x8000#16, 0) k.expIn b
def Bucket.addExp (k : Bucket) (b : Nat) (e : BitVec 16) (ncon : Nat) : Bucket :=
  { k with expIn := FMap.set (0x8000#16, 0) k.expIn b (maxExp (k.expOf b).1 e, (k.expOf b).2 + ncon) }
def Bucket.agreedAt (k : Bucket) (b : Nat) : Option (BitVec 16) := FMap.get none k.agreed b
def Bucket.setAgreed (k : Bucket) (b : Nat) (e : BitVec 16) : Bucket := { k with agreed := FMap.set none k.agreed b (some e) }

/-- A lane passes its check (R96). -/
def laneGood (x : SumBlock) (i : Nat) : Bool :=
  let r := (x.res.getD i 0).toNat
  decide (r ≠ 127) && decide ((x.lanes.getD i 0).toInt % 127 = (r : Int))

/-- A reduced lane as an element (R97). -/
def fromLane (fmt : Nat) (rm : RMode) (x : SumBlock) (E : BitVec 16) (i : Nat) : Nat :=
  let f := fmtFloat fmt
  if x.nanf then f.nan
  else
    let S := (x.lanes.getD i 0).toInt
    if S = 0 ∨ E = 0x8000 then 0 else (f.enc rm false (FVal.ofDy (S, E.toInt - 41) false)).code

/-- The extreme over what every member sent for one element (R253). -/
def extremeOf (fmt : Nat) (isMax : Bool) (x : SumBlock) (i : Nat) : Nat :=
  (upto (x.lanes.length / 64)).foldl (fun m j => (fMinMax (fmtFloat fmt) false isMax m (x.lanes.getD (64 * j + i) 0).toNat).code) (fmtFloat fmt).nan

/-! ### Running a bucket (R251, R252) -/

/-- Contiguous runs of at most 7 blocks: what one packet carries (R271). -/
def runs7 : List Nat → List (List Nat)
  | [] => []
  | b :: t =>
    match runs7 t with
    | (c :: r) :: rs => if c = b + 1 ∧ r.length < 6 then (b :: c :: r) :: rs else [b] :: (c :: r) :: rs
    | rs => [b] :: rs

/-- A bucket with what it needs to run: its place, command, group, request. -/
structure Run where
  h : Nat
  i : Nat
  k : Bucket
  c : CollCmd
  g : Group
  r : BucketReq
deriving DecidableEq, Repr

def Run.own (x : Run) : Nat × Nat := ownRange x.g x.r x.k.split x.g.self
def Run.ownBlocks (x : Run) : List Nat := blocksOf x.own

/-- The owners other than this member that a member sends to, each with its blocks. -/
def Run.owners (x : Run) : List (Nat × List Nat) :=
  ((upto x.g.members.length).filter (· ≠ x.g.self)).filterMap (fun m =>
    match blocksOf (ownRange x.g x.r x.k.split m) with
    | [] => none
    | l => some (m, l))

def Run.sub (x : Run) (blk n ncon owner : Nat) : SubHdr := ⟨x.k.gid, x.k.attempt, blk, n, ncon, owner⟩

def Run.sendTo (x : Run) (s : State) (m : Nat) (t : PType) (body : Payload) : State :=
  s.sendMember x.h x.c.b x.g m t (wordAt x.k.step) x.k.bseq body

/-- Read every contribution of this member (R247, R251). -/
def Run.contribs (x : Run) (s : State) : Except EErr (List (List Nat)) × State :=
  (upto x.g.me.ccnt).foldl (fun acc j =>
    match acc with
    | (.error e, s) => (.error e, s)
    | (.ok l, s) =>
      match s.collRead x.c (x.r.src + BitVec.ofNat 64 (j * x.r.cstride)) (x.r.elems * (fmtBits x.r.sfmt / 8)) with
      | (.error e, s') => (.error e, s')
      | (.ok b, s') => (.ok (l ++ [codesOf x.r.sfmt b]), s')) (.ok [], s)

/-- Whether this member takes part in the bucket (R248). -/
def Run.takesPart (x : Run) (m : Nat) : Bool :=
  decide ((x.g.members.getD m ⟨0, 0, 0⟩).ccnt ≠ 0) || decide ((ownRange x.g x.r x.k.split m).2 ≠ 0)

/-- The parameters of R249 to every member that may own a part and to which no exponent record of this member carries
them (log 126). -/
def Run.announce (x : Run) (s : State) : State :=
  let y := x.r.cfg x.k.split
  let by' := if x.r.rop = 0 ∧ x.g.me.ccnt ≠ 0 then x.owners.map (·.1) else []
  if x.takesPart x.g.self then
    ((closers x.g).filter (fun m => decide (m ≠ x.g.self) && !by'.contains m)).foldl (fun s m =>
      x.sendTo s m .verdict (.verdict x.k.gid x.k.attempt (.params y.elems y.rop y.crc y.sfmt x.g.self))) s
  else s

/-- An owner has the parameters of every member that takes part: those of a contributor to a vintage sum came with its
exponents (R249). -/
def Run.told (x : Run) : Bool :=
  (upto x.g.members.length).all (fun m => decide (m = x.g.self) || !x.takesPart m || x.k.told.contains m
    || (decide (x.r.rop = 0) && decide ((x.g.members.getD m ⟨0, 0, 0⟩).ccnt ≠ 0)))

/-- Exponent pass of this member (R252): exponents to every owner, its own among them. -/
def Run.exponents (x : Run) (s : State) (contribs : List (List Nat)) : Run × State :=
  let n := x.g.me.ccnt
  let e := fun b => (contribs.map (fun codes => blockExp x.r.sfmt codes b)).foldl maxExp 0x8000#16
  let k := if n = 0 then x.k else x.ownBlocks.foldl (fun k b => k.addExp b (e b) n) x.k
  let s := if n = 0 then s else x.owners.foldl (fun s o => (runs7 o.2).foldl (fun s l =>
      x.sendTo s o.1 .exp (.exps (x.sub (l.headD 0) l.length n o.1) (x.r.cfg x.k.split).crc x.r.elems x.r.rop (l.map e))) s) s
  ({ x with k := { k with phase := .exponent } }, s)

/-- Sum pass of this member (R252, R253): lanes to every owner. -/
def Run.lanes (x : Run) (s : State) (contribs : List (List Nat)) : Run × State :=
  let n := x.g.me.ccnt
  let v := fun b => if x.r.rop = 0 then blockLanes x.r.sfmt contribs ((x.k.agreedAt b).getD 0x8000) b
    else blockExtreme x.r.sfmt (decide (x.r.rop = 1)) contribs b
  let k := if n = 0 then x.k else x.ownBlocks.foldl (fun k b => k.addLanes b (v b) n) x.k
  let s := if n = 0 then s else x.owners.foldl (fun s o => (runs7 o.2).foldl (fun s l =>
      x.sendTo s o.1 .lanes (.lanes (x.sub (l.headD 0) l.length n o.1) (l.map v))) s) s
  ({ x with k := { k with phase := .sum } }, s)

/-- An owner agrees the exponents of its blocks that every member has been heard on, and returns them (R252). -/
def Run.agree (x : Run) (s : State) : Run × State :=
  let fresh := x.ownBlocks.filter (fun b => (x.k.agreedAt b).isNone && decide ((x.k.expOf b).2 = x.g.total))
  let k := fresh.foldl (fun k b => k.setAgreed b (x.k.expOf b).1) x.k
  let tos := (upto x.g.members.length).filter (fun m => decide (m ≠ x.g.self) && decide ((x.g.members.getD m ⟨0, 0, 0⟩).ccnt ≠ 0))
  let s := tos.foldl (fun s m => (runs7 fresh).foldl (fun s l =>
      x.sendTo s m .exp (.exps (x.sub (l.headD 0) l.length 0 x.g.self) (x.r.cfg x.k.split).crc x.r.elems x.r.rop
        (l.map (fun b => (x.k.expOf b).1)))) s) s
  ({ x with k := k }, s)

def Run.put (x : Run) (s : State) : State := s.setBucket x.h x.i x.k

/-- Lanes of this bucket that have not left the engine. -/
def Run.unsent (x : Run) (s : State) : Bool :=
  (s.engine x.h).outbox.any (fun o => decide (o.ptype = .lanes) && decide (o.rw2 = wordAt x.k.step) && decide (o.xtag = BitVec.ofNat 16 x.k.bseq)
    && (match o.body with
      | .lanes sub _ => decide (sub.gid = x.k.gid ∧ sub.attempt = x.k.attempt)
      | _ => false))

/-- CHECK (R251, R252): residues, conversion, and the write of DST. -/
def Run.check (x : Run) (s : State) : State :=
  let rg := x.own
  let idx := (upto rg.2).map (· + rg.1)
  if x.r.rop = 0 && !(idx.all (fun i => laneGood (x.k.sum (i / 64)) (i % 64))) then s.endBucket x.h x.i x.k stBad 0
  else
    let rm := (RMode.ofBits x.r.rnd).getD .rne
    let out := idx.map (fun i =>
      if x.r.rop = 0 then fromLane x.r.dfmt rm (x.k.sum (i / 64)) ((x.k.agreedAt (i / 64)).getD 0x8000) (i % 64)
      else extremeOf x.r.dfmt (decide (x.r.rop = 1)) (x.k.sum (i / 64)) (i % 64))
    let count := if x.r.rop = 0 then (x.ownBlocks.filter (fun b => (x.k.sum b).nanf)).length else 0
    match s.collWrite x.c x.r.dst ((out.map (leBytes (fmtBits x.r.dfmt / 8))).flatten) with
    | (.error e, s') => if e.waits.isSome then s' else s'.failBucket x.h x.i x.k x.c e true
    | (.ok _, s') => s'.endBucket x.h x.i x.k stDone count

/-- The last stage: an owner with every contribution checks; a member that owns nothing ends SENT. -/
def Run.settle (x : Run) (s : State) : State :=
  let s := x.put s
  if x.k.phase ≠ .sum then s
  else if x.ownBlocks.isEmpty then (if x.unsent s then s else s.endBucket x.h x.i x.k stSent 0)
  else if x.told && x.ownBlocks.all (fun b => decide ((x.k.sum b).ncon = x.g.total)) then x.check s
  else s

/-- Move a bucket as far as what has arrived lets it: agree, sum, check (R251, R252). -/
def Run.progress (x : Run) (s : State) : State :=
  let (x, s) := if x.r.rop = 0 then x.agree s else (x, s)
  if x.k.phase = .exponent ∧ (x.g.me.ccnt = 0 ∨ (upto x.r.nblk).all (fun b => (x.k.agreedAt b).isSome)) then
    match x.contribs s with
    | (.error e, s') => if e.waits.isSome then x.put s' else s'.failBucket x.h x.i x.k x.c e false
    | (.ok l, s') =>
      let (x, s) := x.lanes s' l
      x.settle s
  else x.settle s

/-- The run of bucket `i` of half `h`, where this member has issued it. -/
def State.liveRun (s : State) (h i : Nat) : Option Run :=
  match (s.engine h).buckets[i]? with
  | some k =>
    (match k.cmd with
      | some c => (s.group h c.b k.gid).map (fun g => ⟨h, i, k, c, g, bucketReq g c⟩)
      | none => none)
  | none => none

/-- Move a bucket on, unless it is still queued. -/
def State.moveBucket (s : State) (h i : Nat) : State :=
  match s.liveRun h i with
  | some x => if x.k.phase = .queued then s else x.progress s
  | none => s

/-! ### Starting commands (R239, R243-R245) -/

/-- Pairs compare on STEP first (R243). -/
def pairLt (a b : Nat × Nat) : Bool := decide (a.1 < b.1) || (decide (a.1 = b.1) && decide (a.2 < b.2))

/-- The pair of a command is the member's open epoch (R244). -/
def Group.isOpen (g : Group) (step attempt : Nat) : Bool := g.opened && decide (g.epoch = some (step, attempt))

/-- End every bucket of a group that belongs to another pair (R243). -/
def State.endFormer (s : State) (gid step attempt : Nat) : State :=
  [0, 1].foldl (fun s h => (s.engine h).buckets.foldl (fun s k =>
    if k.gid = gid ∧ ¬(k.step = step ∧ k.attempt = attempt) then
      (match (s.engine h).buckets.findIdx? (fun y => y.key k.gid k.step k.attempt k.bseq) with
        | some i => s.endBucket h i k stEpoch 0
        | none => s)
    else s) s) s

def CollCmd.shard (c : CollCmd) : Nat := c.field 24 4

/-- End the PUBLISH commands whose wait an OPEN of a later step cuts short (R257): their own step has not closed. -/
def State.endPublishes (s : State) (b gid step : Nat) : State :=
  [0, 1].foldl (fun s h => (s.engine h).publishes.foldl (fun s c =>
    if c.b = b ∧ c.gid = gid ∧ c.step < step ∧ s.closedStep gid c.step = false then
      (s.setEngine h { s.engine h with publishes := (s.engine h).publishes.erase c }).endColl h c stEpoch 0
    else s) s) s

/-- OPEN (R243). -/
def startOpen (s : State) (h : Nat) (c : CollCmd) (g : Group) : State :=
  if g.me.observes then s.endColl h c stRole 0
  else if (match g.epoch with
      | some p => !pairLt p (c.step, c.attempt)
      | none => false) then s.endColl h c stEpoch 0
  else
    let s := s.endFormer c.gid c.step c.attempt
    let s := s.setGroup h c.gid { g with epoch := some (c.step, c.attempt), opened := true }
    (s.endPublishes c.b c.gid c.step).endColl h c stDone 0

/-- The split of a bucket as its record names it (R247). -/
def State.readSplit (s : State) (c : CollCmd) (g : Group) : Except EErr (List Byte) × State :=
  if (bucketReq g c).all then (.ok [], s) else s.collRead c (bucketReq g c).splitAt (4 * g.members.length)

/-- A bucket of an attempt ended before it was queued: CLOSE of that attempt ends FAILED (R245). -/
def State.spoil (s : State) (h : Nat) (c : CollCmd) : State :=
  s.setEngine h { s.engine h with spoiled := (c.gid, c.step, c.attempt) :: (s.engine h).spoiled }

/-- BUCKET up to QUEUED (R244, R247-R249, R251). -/
def startBucket (s : State) (h : Nat) (c : CollCmd) (g : Group) : State :=
  let r := bucketReq g c
  if g.me.observes then s.endColl h c stRole 0
  else if !g.isOpen c.step c.attempt then (s.spoil h c).endColl h c stEpoch 0
  else if !r.ok then (s.spoil h c).endColl h c stConfig 0
  else
    let n := g.members.length
    match s.readSplit c g with
    | (.error e, s') => (s'.spoil h c).failColl c e false
    | (.ok bytes, s') =>
      let split := if r.all then [] else (upto n).map (fun m => bytesAt bytes (4 * m) 4)
      if !r.all && (decide (split.foldl (· + ·) 0 ≠ r.elems)
          || (upto n).any (fun m => (g.members.getD m ⟨0, 0, 0⟩).observes && decide (split.getD m 0 ≠ 0))) then (s'.spoil h c).endColl h c stConfig 0
      else
        match s'.endedStatus c.gid c.step c.attempt r.bseq with
        | some st => s'.endColl h c st 0
        | none =>
          let old := match s'.findBucket c.gid c.step c.attempt r.bseq with
            | some (h', i) => ((s'.engine h').buckets.getD i (Bucket.placeholder c.gid c.step c.attempt r.bseq),
                s'.setEngine h' { s'.engine h' with buckets := (s'.engine h').buckets.eraseIdx i })
            | none => (Bucket.placeholder c.gid c.step c.attempt r.bseq, s')
          old.2.setEngine h { old.2.engine h with buckets := (old.2.engine h).buckets ++ [{ old.1 with cmd := some c, split := split }] }

/-- CLOSE (R244, R245). -/
def startClose (s : State) (h : Nat) (c : CollCmd) (g : Group) : State :=
  if g.me.observes then s.endColl h c stRole 0
  else if !g.isOpen c.step c.attempt then s.endColl h c stEpoch 0
  else
    let e := s.engine h
    let heard := ((s.engine 0).closes ++ (s.engine 1).closes).find? (fun k => k.key c.gid c.step c.attempt)
    let k : CloseRec := ⟨some c, c.gid, c.step, c.attempt, false, (heard.map (·.said)).getD [], (heard.map (·.ready)).getD []⟩
    let s := s.setEngine (1 - h) { s.engine (1 - h) with closes := (s.engine (1 - h)).closes.filter (fun x => !x.key c.gid c.step c.attempt) }
    (s.setEngine h { e with closes := e.closes.filter (fun x => !x.key c.gid c.step c.attempt) ++ [k] }).settleCloses

/-! ### Shards (R194-R196, R256-R260) -/

/-- PFLAGS of a PUBLISH record. -/
def publishFlags (c : CollCmd) : Nat × Nat := (c.field 28 4 % 16, c.field 28 4 / 16 % 8 + 1)

/-- The published copy of a shard, in either engine. -/
def State.publishedOf (s : State) (b gid shard : Nat) : Option Published :=
  ((s.engine 0).published ++ (s.engine 1).published).find? (fun p => decide (p.b = b ∧ p.gid = gid ∧ p.shard = shard))

/-- A PUBLISH record in range (R256). -/
def publishOk (g : Group) (c : CollCmd) : Bool :=
  let (fmt, planes) := publishFlags c
  let elems := (g.parts.getD c.shard ⟨0, 0⟩).elems
  decide (c.shard < g.parts.length) && (fmt == 1 || fmt == 2 || fmt == 3 || fmt == 8)
    && decide (c.field 28 4 / 128 = 0) && (fmt == 8 || planes == 1) && decide (c.field 56 8 = 0)
    && (fmt != 8 || decide (c.field 40 8 % 64 = 0 ∧ cdiv (cdiv elems 8) 64 * 64 ≤ c.field 40 8))

/-- PUBLISH up to its wait (R239, R257). -/
def startPublish (s : State) (h : Nat) (c : CollCmd) (g : Group) : State :=
  if !publishOk g c then s.endColl h c stConfig 0
  else if (g.parts.getD c.shard ⟨0, 0⟩).owner ≠ g.self then s.endColl h c stRole 0
  else if (match s.publishedOf c.b c.gid c.shard with
      | some p => decide (c.step ≤ p.step)
      | none => false) || (!s.closedStep c.gid c.step && (match g.epoch with
      | some p => decide (c.step < p.1)
      | none => false)) then s.endColl h c stEpoch 0
  else s.setEngine h { s.engine h with publishes := (s.engine h).publishes ++ [c] }

/-- The pieces of a narrow copy in digest order (R257), the top `p` planes of a PSI copy: addresses and lengths. -/
def copyPieces (x : Published) (elems p : Nat) : List (Word × Nat) :=
  let data := if x.nfmt = 8 then (upto p).map (fun i => (x.addr + BitVec.ofNat 64 (i * x.pstride), cdiv elems 8)) else [(x.addr, elems)]
  data ++ (if x.nfmt = 8 ∨ x.nfmt = 1 then [(x.saddr, cdiv elems 32)] else [])

/-- Read the pieces of a copy with the owner's translation. -/
def State.readCopy (s : State) (x : Published) (l : List (Word × Nat)) : Except EErr (List Byte) :=
  let c : CollCmd := ⟨.publish, x.core * 16, 0, x.b, 0, x.prv, []⟩
  match collect (fun q : Word × Nat => (s.collRead c q.1 q.2).1) l with
  | .ok bs => .ok bs.flatten
  | .error e => .error e

/-- The stamp of R195. -/
def stampOf (step : Nat) (digest : BitVec 32) (shard : Nat) : List Byte := leBytes 8 step ++ leBytes 4 digest.toNat ++ leBytes 4 shard

/-- A PUBLISH proceeds once CLOSE of its step has ended DONE (R257): digest, stamp, and DONE. A serve is one step of
this model, so none is under way. -/
def doPublishProceed (s : State) (h n : Nat) : State :=
  match (s.engine h).publishes[n]? with
  | none => s
  | some c =>
    if !s.closedStep c.gid c.step then s
    else
      let s0 := s
      let s := s.setEngine h { s.engine h with publishes := (s.engine h).publishes.eraseIdx n }
      match s.group h c.b c.gid with
      | none => s.endColl h c stConfig 0
      | some g =>
        if (match s.publishedOf c.b c.gid c.shard with
            | some p => decide (c.step ≤ p.step)
            | none => false) then s.endColl h c stEpoch 0
        else
          let (fmt, planes) := publishFlags c
          let elems := (g.parts.getD c.shard ⟨0, 0⟩).elems
          let p : Published := ⟨c.b, c.gid, c.shard, c.step, 0, wordAt (c.field 32 8), c.field 40 8, wordAt (c.field 48 8), fmt, planes, c.core, c.prv⟩
          match s.readCopy p (copyPieces p elems planes) with
          | .error e => if e.waits.isSome then s0 else s.failColl c e false
          | .ok bytes =>
            let keep := fun (x : Published) => !decide (x.b = c.b ∧ x.gid = c.gid ∧ x.shard = c.shard)
            let s := [0, 1].foldl (fun s h => s.setEngine h { s.engine h with published := (s.engine h).published.filter keep }) s
            (s.setEngine h { s.engine h with published := (s.engine h).published ++ [{ p with digest := crc32c bytes }] }).endColl h c stDone 0

/-- The fields of a `pgather` record (R258). -/
def CollCmd.afmt (c : CollCmd) : Nat := c.field 28 4 % 16
def CollCmd.gplanes (c : CollCmd) : Nat := c.field 28 4 / 16 % 8 + 1
def CollCmd.expects (c : CollCmd) : Bool := decide (c.field 28 4 / 256 % 2 = 1)
def CollCmd.verify (c : CollCmd) : Bool := decide (c.field 28 4 / 512 % 2 = 1)
def CollCmd.dst (c : CollCmd) : Nat := c.field 32 8
def CollCmd.std (c : CollCmd) : Nat := c.field 40 8

/-- Whether a copy's format may arrive as AFMT (R194). -/
def arrivalOk (nfmt afmt : Nat) : Bool :=
  match nfmt with
  | 1 => afmt == 1
  | 8 => afmt == 8
  | n => afmt == n || afmt == 4 || afmt == 5 || afmt == 6

/-- Bytes of each plane section at arrival (R258). -/
def sectionBytes (elems : Nat) : Nat := cdiv (cdiv elems 8) 64 * 64

/-- Bytes that a shard takes at DST (R258). -/
def arrivalBytes (nfmt afmt p elems : Nat) : Nat :=
  match nfmt with
  | 1 => elems + cdiv elems 32
  | 8 => p * sectionBytes elems + cdiv elems 32
  | _ => elems * (fmtBits afmt / 8)

/-- Bytes that the owner sends. -/
def streamBytes (nfmt p elems : Nat) : Nat :=
  match nfmt with
  | 1 => elems + cdiv elems 32
  | 8 => p * cdiv elems 8 + cdiv elems 32
  | _ => elems

/-- Where the bytes of a stream lie at DST: offset and bytes (R194, R258). -/
def arrivalPieces (nfmt afmt p elems : Nat) (l : List Byte) : List (Nat × List Byte) :=
  match nfmt with
  | 1 => [(0, l)]
  | 8 => (upto p).map (fun i => (i * sectionBytes elems, (l.drop (i * cdiv elems 8)).take (cdiv elems 8)))
      ++ [(p * sectionBytes elems, l.drop (p * cdiv elems 8))]
  | n => [(0, ((l.map (fun b => leBytes (fmtBits afmt / 8) (widenBits n afmt b.toNat))).flatten))]

/-- Command numbers of an engine: half of what XTAG can name (R271; log 128). -/
def idSpan : Nat := 32768

/-- The engine half of a command number. -/
def idHalf (id : Nat) : Nat := id / idSpan

/-- Whether a post or a gather holds a command number. -/
def Engine.usesId (e : Engine) (id : Nat) : Bool := e.posts.any (fun p => p.id == id) || e.gathers.any (fun g => g.id == id)

/-- The first number from `i` on, in a circle, that no command holds. -/
def Engine.searchId (e : Engine) (h i : Nat) : Nat → Option Nat
  | 0 => none
  | n + 1 => if e.usesId (h * idSpan + i % idSpan) then e.searchId h (i + 1) n else some (h * idSpan + i % idSpan)

/-- A command number that no post or gather of the engine uses, the next one after the last that was given (R271). -/
def State.freeId (s : State) (h : Nat) : Option Nat := (s.engine h).searchId h (s.engine h).nextId idSpan

/-- The search for the next number begins after this one. -/
def Engine.giveId (e : Engine) (id : Nat) : Engine := { e with nextId := id % idSpan + 1 }

/-- A `pgather` leaves the engine with its number. -/
def State.dropGather (s : State) (h id : Nat) : State :=
  s.setEngine h { s.engine h with gathers := (s.engine h).gathers.filter (fun y => y.id != id) }
def State.putGather (s : State) (h : Nat) (x : Gather) : State :=
  s.setEngine h { s.engine h with gathers := (s.engine h).gathers.map (fun y => if y.id = x.id then x else y) }

/-- The answer to a `pgather` has arrived whole. -/
def Gather.whole (x : Gather) : Bool := x.stamp.isSome && decide (x.len ≤ x.got.length)

/-- A `pgather` ends before its answer has arrived whole: it keeps its number until then (R260). -/
def State.endGather (s : State) (h : Nat) (x : Gather) : State :=
  if x.whole then s.dropGather h x.id else s.putGather h { x with live := false }

/-- The shard's bytes and stamp are written, and the `pgather` is DONE (R258, R260). -/
def State.finishGather (s : State) (h : Nat) (x : Gather) (elems : Nat) : State :=
  let c := x.cmd
  let s := s.dropGather h x.id
  let s := (arrivalPieces x.nfmt c.afmt c.gplanes elems x.got).foldl (fun s q => s.writeBytes 512 (c.dst + q.1) q.2) s
  (s.writeBytes 512 c.std (x.stamp.getD [])).endColl h c stDone 0

/-- The stamp of a shard arrives (R194, R196, R258): CONFIG, the stale shard fault, or the bytes may follow. -/
def State.gatherStamp (s : State) (h : Nat) (x : Gather) (stamp : List Byte) (nfmt planes len elems : Nat) : State :=
  let c := x.cmd
  let x := { x with stamp := some stamp, nfmt := nfmt, planes := planes, len := len }
  if !x.live then s.endGather h x
  else if !arrivalOk nfmt c.afmt || (nfmt == 8 && decide (planes < c.gplanes)) || decide (len ≠ streamBytes nfmt c.gplanes elems)
      || decide (bytesAt stamp 12 4 ≠ x.shard) || !s.inOwnPress c.core c.dst (arrivalBytes nfmt c.afmt c.gplanes elems) then
    (s.endGather h x).endColl h c stConfig 0
  else if c.expects && stamp != (c.record.drop 48).take 16 then
    (s.endGather h x).failColl c (.code 0x11 (wordFields [(bytesAt stamp 12 4, 0), (bytesAt stamp 8 4, 32)])) false
  else
    let s := s.putGather h x
    if x.whole then s.finishGather h x elems else s

/-- Bytes of a shard arrive, at the offset that follows what has arrived since the stamp; nothing is written before the
stamp has been compared (R196). -/
def State.gatherBytes (s : State) (h : Nat) (x : Gather) (off : Nat) (l : List Byte) (elems : Nat) : State :=
  if x.stamp.isNone ∨ off ≠ x.got.length then s
  else
    let x := { x with got := x.got ++ l }
    if !x.whole then s.putGather h x
    else if x.live then s.finishGather h x elems else s.dropGather h x.id

/-- What an owner sends for a `pgather` (R259): the stamp with format and planes, and the stream; with VERIFY the digest
is computed from the bytes now read. -/
def State.serve (s : State) (x : Published) (elems p : Nat) (verify : Bool) : Except EErr (List Byte × List Byte) :=
  match s.readCopy x (copyPieces x elems (min p x.planes)),
        (if verify then s.readCopy x (copyPieces x elems x.planes) else .ok []) with
  | .ok l, .ok all => .ok (stampOf x.step (if verify then crc32c all else x.digest) x.shard, l)
  | .error e, _ => .error e
  | _, .error e => .error e

/-- `pgather` (R258): the record's checks, then the owner's engine is asked, which may be this one. -/
def startGather (s : State) (h : Nat) (c : CollCmd) (g : Group) : State :=
  let id := (s.freeId h).getD 0
  let elems := (g.parts.getD c.shard ⟨0, 0⟩).elems
  let owner := (g.parts.getD c.shard ⟨0, 0⟩).owner
  if !decide (c.shard < g.parts.length ∧ c.dst % 64 = 0 ∧ c.std % 16 = 0) || decide (c.field 28 4 / 1024 ≠ 0)
      || decide (c.field 28 4 / 128 % 2 ≠ 0) || !s.inOwnPress c.core c.std 16 || !s.inOwnPress c.core c.dst 0 then s.endColl h c stConfig 0
  else
    let x : Gather := ⟨c, id, true, c.gid, c.shard, none, 0, 0, 0, []⟩
    if owner = g.self then
      match s.publishedOf c.b c.gid c.shard with
      | none => s.endColl h c stNoShard 0
      | some p =>
        (match s.serve p elems c.gplanes c.verify with
          | .error e => s.failColl c e false
          | .ok (stamp, l) =>
            (s.setEngine h { s.engine h with gathers := (s.engine h).gathers ++ [{ x with got := l }] }).gatherStamp
              h { x with got := l } stamp p.nfmt p.planes l.length elems)
    else
      let s := s.setEngine h { (s.engine h).giveId id with gathers := (s.engine h).gathers ++ [x] }
      s.sendMember h c.b g owner .greq (wordAt c.shard) x.id (.greq (.gather c.gid c.shard c.gplanes c.verify x.id))

/-- Bytes in pieces of at most 4,096 with their offsets (R271). -/
def chunks4k (l : List Byte) : List (Nat × List Byte) := (upto (cdiv l.length 4096)).map (fun i => (4096 * i, (l.drop (4096 * i)).take 4096))

/-- Send to the partner that a request came from. -/
def State.reply (s : State) (h b n : Nat) (t : PType) (rw2 : Word) (xtag : Nat) (body : Payload) : State :=
  s.setEngine h { s.engine h with outbox := (s.engine h).outbox ++ [⟨b, n, t, rw2, BitVec.ofNat 16 xtag, body⟩] }

/-- An owner serves a request (R258-R260). A copy that lies across a half link that is not UP is not served (log 129). -/
def State.serveRemote (s : State) (h b n gid shard p : Nat) (verify : Bool) (cmd : Nat) : State :=
  match s.group h b gid with
  | none => s
  | some g =>
    if (g.parts.getD shard ⟨0, 0⟩).owner ≠ g.self ∨ g.parts.length ≤ shard then s.reply h b n .greq (wordAt shard) cmd (.greq (.noShard cmd))
    else
      match s.publishedOf b gid shard with
      | none => s.reply h b n .greq (wordAt shard) cmd (.greq (.noShard cmd))
      | some x =>
        match s.serve x (g.parts.getD shard ⟨0, 0⟩).elems p verify with
        | .error e => if e.waits.isSome then s else s.recordEErr e
        | .ok (stamp, l) =>
          let s := s.reply h b n .data (wordAt stampOffset) cmd (.stamp stamp x.nfmt x.planes l.length)
          (chunks4k l).foldl (fun s q => s.reply h b n .data (wordAt q.1) cmd (.bytes q.2)) s

/-! ### Point-to-point (R261) -/

def CollCmd.peer (c : CollCmd) : Nat := c.field 24 4
def CollCmd.tag (c : CollCmd) : Nat := c.field 28 4
def CollCmd.buf (c : CollCmd) : Word := wordAt (c.field 32 8)
def CollCmd.nbytes (c : CollCmd) : Nat := c.field 40 8

def State.dropPost (s : State) (h id : Nat) : State :=
  s.setEngine h { s.engine h with posts := (s.engine h).posts.filter (fun p => p.id != id) }
def State.putPost (s : State) (h : Nat) (p : Post) : State :=
  s.setEngine h { s.engine h with posts := (s.engine h).posts.map (fun q => if q.id = p.id then p else q) }

/-- The sender's side of a completed match. -/
def State.sendMoved (s : State) (id : Nat) (trunc : Bool) : State :=
  let h := idHalf id
  match (s.engine h).posts.find? (fun p => p.id == id && decide (p.cmd.op = .send)) with
  | some p => (s.dropPost h id).endColl h p.cmd (if trunc then stTrunc else stDone) 0
  | none => s

/-- The receiver has every byte of a match: it writes them, and both ends complete. -/
def State.finishRecv (s : State) (p : Post) (g : Group) : State :=
  let h := idHalf p.id
  let n := min p.bytes p.peerBytes
  let trunc := decide (p.bytes < p.peerBytes)
  match s.collWrite p.cmd p.buf (p.got.take n) with
  | (.error e, s') => if e.waits.isSome then s else (s'.dropPost h p.id).failColl p.cmd e true
  | (.ok _, s') =>
    let s := (s'.dropPost h p.id).endColl h p.cmd (if trunc then stTrunc else stDone) n
    let other := p.matched.getD 0
    if p.peer = g.self then s.sendMoved other trunc
    else s.sendMember h p.cmd.b g p.peer .greq 0 other (.greq (.moved other n trunc))

/-- A sender's announcement and bytes reach a receive. -/
def State.recvMatched (s : State) (id sender bytes : Nat) : State :=
  let h := idHalf id
  match (s.engine h).posts.find? (fun p => p.id == id && decide (p.cmd.op = .recv)) with
  | some p => s.putPost h { p with matched := some sender, peerBytes := bytes }
  | none => s

/-- Bytes of a match arrive at the offset that follows what has arrived. -/
def State.recvBytes (s : State) (id off : Nat) (l : List Byte) : State :=
  let h := idHalf id
  match (s.engine h).posts.find? (fun p => p.id == id && decide (p.cmd.op = .recv) && p.matched.isSome && decide (off = p.got.length)) with
  | some p =>
    let p := { p with got := p.got ++ l }
    (match s.group h p.cmd.b p.gid with
      | some g => if min p.bytes p.peerBytes ≤ p.got.length then (s.putPost h p).finishRecv p g else s.putPost h p
      | none => s)
  | none => s

/-- A send and an announced receive match: the bytes move (R261). -/
def State.moveBytes (s : State) (h : Nat) (p : Post) (a : Announced) (g : Group) : State :=
  let n := min p.bytes a.bytes
  match s.collRead p.cmd p.buf n with
  | (.error e, s') => if e.waits.isSome then s else (s'.dropPost h p.id).failColl p.cmd e false
  | (.ok l, s') =>
    let s := { s' with recvs := s'.recvs.erase a }
    let s := s.putPost h { p with matched := some a.cmd }
    if a.member = g.self then (s.recvMatched a.cmd p.id p.bytes).recvBytes a.cmd 0 l
    else
      let s := s.sendMember h p.cmd.b g a.member .greq 0 a.cmd (.greq (.send p.gid g.self p.tag p.bytes p.id))
      (chunks4k l).foldl (fun s q => s.sendMember h p.cmd.b g a.member .data (wordAt q.1) a.cmd (.bytes q.2)) s

/-- Posts in posting order. -/
def insertPost (p : Post) : List Post → List Post
  | [] => [p]
  | q :: l => if p.order < q.order then p :: q :: l else q :: insertPost p l

/-- Match every send post that has an announced receive, in posting order over both engines (R261). -/
def State.matchPosts (s : State) : State :=
  (((s.engine 0).posts ++ (s.engine 1).posts).foldl (fun l p => insertPost p l) []).foldl (fun s p0 =>
    let h := idHalf p0.id
    match (s.engine h).posts.find? (fun q => q.id == p0.id) with
    | some p =>
      if p.cmd.op = .send ∧ p.matched.isNone then
        (match s.group h p.cmd.b p.gid, s.recvs.find? (fun a => decide (a.b = p.cmd.b ∧ a.gid = p.gid ∧ a.member = p.peer ∧ a.tag = p.tag)) with
          | some g, some a => s.moveBytes h p a g
          | _, _ => s)
      else s
    | none => s) s

/-- `csend` and `crecv` are posted (R261). -/
def startPost (s : State) (h : Nat) (c : CollCmd) (g : Group) : State :=
  if !decide (c.peer < g.members.length ∧ c.tag < 2 ^ 16 ∧ 1 ≤ c.nbytes ∧ c.nbytes ≤ 2 ^ 32) then s.endColl h c stConfig 0
  else
    let id := (s.freeId h).getD 0
    let p : Post := ⟨c, id, s.posted, c.gid, c.peer, c.tag, c.buf, c.nbytes, none, 0, []⟩
    let s := { s.setEngine h { (s.engine h).giveId id with posts := (s.engine h).posts ++ [p] } with posted := s.posted + 1 }
    if c.op = .send then s.matchPosts
    else if c.peer = g.self then State.matchPosts { s with recvs := s.recvs ++ [(⟨c.b, c.gid, g.self, c.tag, c.nbytes, id⟩ : Announced)] }
    else s.sendMember h c.b g c.peer .greq 0 id (.greq (.recv c.gid g.self c.tag c.nbytes id))

/-! ### Slots (R242, R251) -/

/-- Commands of an engine that hold a slot. -/
def Engine.inFlight (e : Engine) : Nat :=
  (e.buckets.filter (fun k => k.cmd.isSome)).length + (e.closes.filter (fun k => k.cmd.isSome)).length + e.publishes.length
    + e.posts.length + (e.gathers.filter (·.live)).length

def Engine.unmatched (e : Engine) : Nat := (e.posts.filter (fun p => p.matched.isNone)).length

/-- A command starts in its engine. -/
def startColl (s : State) (h : Nat) (c : CollCmd) : State :=
  match s.group h c.b c.gid with
  | none => s.endColl h c stConfig 0
  | some g =>
    match c.op with
    | .openE => startOpen s h c g
    | .bucket => startBucket s h c g
    | .close => startClose s h c g
    | .publish => startPublish s h c g
    | .gather => startGather s h c g
    | .send => startPost s h c g
    | .recv => startPost s h c g

/-- Where the start of a command waits for the half link (R297): the split of a bucket, or the own copy of a shard. -/
def State.startWaits (s : State) (h : Nat) (c : CollCmd) : Option Nat :=
  match s.group h c.b c.gid with
  | none => none
  | some g =>
    match c.op with
    | .bucket => if g.isOpen c.step c.attempt && !g.me.observes && (bucketReq g c).ok then heldAt (s.readSplit c g).1 else none
    | .gather =>
      let part := g.parts.getD c.shard ⟨0, 0⟩
      (match (if part.owner = g.self then s.publishedOf c.b c.gid c.shard else none) with
        | some p => heldAt (s.serve p part.elems c.gplanes c.verify)
        | none => none)
    | _ => none

/-- Whether the head of a collective queue may start (R242, R261): a free command slot and number, room for a post, and
for an OPEN both halves' engines (R243). -/
def State.mayStart (s : State) (h : Nat) (c : CollCmd) : Bool :=
  decide ((s.engine h).inFlight < 4096) && (!(decide (c.op = .send) || decide (c.op = .recv)) || decide ((s.engine h).unmatched < 4096))
    && (s.freeId h).isSome && !(decide (c.op = .openE) && s.cutOff c.b) && (s.startWaits h c).isNone

/-- The head of a core's collective queue takes a free slot and starts (R242, R261). -/
def doCollDequeue (s : State) (c : Nat) : State :=
  let k := s.core c
  let h := halfOfCore c
  match k.collQ with
  | [] => s
  | cmd :: rest => if s.mayStart h cmd then startColl (s.setCore c { k with collQ := rest }) h cmd else s

/-- Another member's parameters differ from this owner's (R249, R253). -/
def Run.mismatch (x : Run) : Bool :=
  !x.ownBlocks.isEmpty && x.k.cfgs.any (fun y => decide (y ≠ x.r.cfg x.k.split))

/-- A queued bucket becomes active (R251): fewer than 16 of its group are active in the engine. An active bucket that
waited for the half link goes on. -/
def doBucketDequeue (s : State) (h n : Nat) : State :=
  match s.liveRun h n with
  | none => s
  | some x =>
    if x.k.phase ≠ .queued then s.moveBucket h n
    else if 16 ≤ ((s.engine h).buckets.filter (fun k => k.cmd.isSome && decide (k.gid = x.k.gid) && decide (k.phase ≠ .queued))).length then s
    else if x.mismatch then s.endBucket h n x.k stConfig 0
    else
      match x.contribs s with
      | (.error e, s') => if e.waits.isSome then s else s'.failBucket h n x.k x.c e false
      | (.ok l, s') =>
        let s' := x.announce s'
        if x.r.rop = 0 then
          let (x, s) := x.exponents s' l
          x.progress s
        else
          let (x, s) := x.lanes s' l
          x.settle s

/-! ### What other members send (R244, R249, R252) -/

/-- R244 for a record: the pair is the open epoch and the bucket has not ended here. -/
def State.recordLive (s : State) (g : Group) (gid step attempt bseq : Nat) : Bool :=
  g.isOpen step attempt && (s.endedStatus gid step attempt bseq).isNone

/-- The bucket that a record belongs to, made where this member has not issued it yet. -/
def State.bucketFor (s : State) (h gid step attempt bseq : Nat) : Nat × Nat × Bucket × State :=
  match s.findBucket gid step attempt bseq with
  | some (h', i) => (h', i, (s.engine h').buckets.getD i (Bucket.placeholder gid step attempt bseq), s)
  | none =>
    let k := Bucket.placeholder gid step attempt bseq
    (h, (s.engine h).buckets.length, k, s.setEngine h { s.engine h with buckets := (s.engine h).buckets ++ [k] })

def addHeard (l : List Nat) (m : Option Nat) : List Nat :=
  match m with
  | some m => if l.contains m then l else l ++ [m]
  | none => l

/-- An exponent record at an owner (R249, R252). -/
def State.onExp (s : State) (h b : Nat) (g : Group) (sender : Option Nat) (sub : SubHdr) (step bseq : Nat) (cfg : BucketCfg) (l : List (BitVec 16)) : State :=
  if !s.recordLive g sub.gid step sub.attempt bseq then s.countDrop h b
  else
    let (h', i, k, s) := s.bucketFor h sub.gid step sub.attempt bseq
    let k := l.zipIdx.foldl (fun k e => k.addExp (sub.blk + e.2) e.1 sub.ncon) { k with heard := addHeard k.heard sender, cfgs := k.cfgs ++ [cfg] }
    let s := s.setBucket h' i k
    match s.liveRun h' i with
    | some x => if x.mismatch then s.endBucket h' i x.k stConfig 0 else s.moveBucket h' i
    | none => s

/-- Parameters of a member outside an exponent record (R249; log 126). -/
def State.onParams (s : State) (h b : Nat) (g : Group) (gid step attempt bseq : Nat) (cfg : BucketCfg) (member : Nat) : State :=
  if !s.recordLive g gid step attempt bseq then s.countDrop h b
  else
    let (h', i, k, s) := s.bucketFor h gid step attempt bseq
    let s := s.setBucket h' i { k with cfgs := k.cfgs ++ [cfg], told := addHeard k.told (some member) }
    match s.liveRun h' i with
    | some x => if x.mismatch then s.endBucket h' i x.k stConfig 0 else s.moveBucket h' i
    | none => s

/-- Agreed exponents at a member (R251, R252). -/
def State.onAgreed (s : State) (h b : Nat) (g : Group) (sub : SubHdr) (step bseq : Nat) (l : List (BitVec 16)) : State :=
  if !s.recordLive g sub.gid step sub.attempt bseq then s.countDrop h b
  else
    match s.findBucket sub.gid step sub.attempt bseq with
    | none => s.countDrop h b
    | some (h', i) =>
      let k := (s.engine h').buckets.getD i (Bucket.placeholder sub.gid step sub.attempt bseq)
      (s.setBucket h' i (l.zipIdx.foldl (fun k e => k.setAgreed (sub.blk + e.2) e.1) k)).moveBucket h' i

/-- Lanes at an owner (R252). -/
def State.onLanes (s : State) (h b : Nat) (g : Group) (sender : Option Nat) (sub : SubHdr) (step bseq : Nat) (l : List VxBlock) : State :=
  if !s.recordLive g sub.gid step sub.attempt bseq then s.countDrop h b
  else
    let (h', i, k, s) := s.bucketFor h sub.gid step sub.attempt bseq
    let k := l.zipIdx.foldl (fun k e => k.addLanes (sub.blk + e.2) e.1 sub.ncon) { k with heard := addHeard k.heard sender }
    (s.setBucket h' i k).moveBucket h' i

/-- A bucket's outcome at an owner (R255). -/
def State.onBucketVerdict (s : State) (h b : Nat) (g : Group) (gid step attempt bseq status : Nat) : State :=
  if !s.recordLive g gid step attempt bseq then s.countDrop h b
  else
    match s.findBucket gid step attempt bseq with
    | some (h', i) => s.endBucket h' i ((s.engine h').buckets.getD i (Bucket.placeholder gid step attempt bseq)) status 0
    | none => s.setEngine h { s.engine h with ended := ⟨gid, step, attempt, bseq, status⟩ :: (s.engine h).ended }

/-- What another member says of a CLOSE reaches its record, which is made where this member has none yet. -/
def State.hearClose (s : State) (h gid step attempt : Nat) (f : CloseRec → CloseRec) : State :=
  let known := ((s.engine 0).closes ++ (s.engine 1).closes).any (fun k => k.key gid step attempt)
  let s := if known then s else s.setEngine h { s.engine h with closes := (s.engine h).closes ++ [⟨none, gid, step, attempt, false, [], []⟩] }
  ([0, 1].foldl (fun s h => s.setEngine h { s.engine h with
    closes := (s.engine h).closes.map (fun k => if k.key gid step attempt then f k else k) }) s).settleCloses

/-- Another member's CLOSE (R245). An observer has no open epoch; it hears of the closes of its cellar group (R350). -/
def State.onClose (s : State) (h b : Nat) (g : Group) (gid step attempt : Nat) (x : CloseSaid) : State :=
  if g.me.observes then
    (s.setEngine h { s.engine h with closes := (s.engine h).closes.filter (fun k => !(k.cmd.isNone && decide (k.gid = gid) && pairLt (k.step, k.attempt) (step, attempt))) }).hearClose
      h gid step attempt (·.hear x)
  else if !g.isOpen step attempt then s.countDrop h b
  else s.hearClose h gid step attempt (·.hear x)

/-- An observer's gates hold this CLOSE no longer (R350). -/
def State.onReady (s : State) (h b : Nat) (g : Group) (gid step attempt member : Nat) : State :=
  if !g.isOpen step attempt then s.countDrop h b
  else s.hearClose h gid step attempt (fun k => { k with ready := addHeard k.ready (some member) })

/-- Requests between engines (R258-R261); `n` is the partner number of the sender. -/
def State.onGreq (s : State) (h b n xtag : Nat) (q : GReq) : State :=
  match q with
  | .gather gid shard planes verify cmd => s.serveRemote h b n gid shard planes verify cmd
  | .noShard cmd =>
    (match (s.engine (idHalf cmd)).gathers.find? (fun x => x.id == cmd && decide (x.cmd.b = b)) with
      | some x =>
        let s := s.dropGather (idHalf cmd) cmd
        if x.live then s.endColl (idHalf cmd) x.cmd stNoShard 0 else s
      | none => s)
  | .recv gid member tag bytes cmd => State.matchPosts { s with recvs := s.recvs ++ [(⟨b, gid, member, tag, bytes, cmd⟩ : Announced)] }
  | .send _ _ _ bytes cmd => s.recvMatched xtag cmd bytes
  | .withdraw gid member cmd =>
    let s := { s with recvs := s.recvs.filter (fun a => !decide (a.b = b ∧ a.gid = gid ∧ a.member = member ∧ a.cmd = cmd)) }
    [0, 1].foldl (fun s h => s.setEngine h { s.engine h with
      posts := (s.engine h).posts.map (fun p => if p.cmd.op = .send ∧ p.cmd.b = b ∧ p.gid = gid ∧ p.peer = member ∧ p.matched = some cmd
        then { p with matched := none } else p) }) s
  | .moved cmd _ trunc => s.sendMoved cmd trunc

/-- DATA for a gather or a receive of binding `b` (R258, R261), `off` the offset it carries (R271). -/
def State.onData (s : State) (b off xtag : Nat) (body : Payload) : State :=
  let h := idHalf xtag
  match (s.engine h).gathers.find? (fun x => x.id == xtag && decide (x.cmd.b = b)) with
  | some x =>
    (match s.group h x.cmd.b x.gid with
      | some g =>
        let elems := (g.parts.getD x.shard ⟨0, 0⟩).elems
        (match body with
          | .stamp l nfmt planes len => s.gatherStamp h x l nfmt planes len elems
          | .bytes l => s.gatherBytes h x off l elems
          | _ => s)
      | none => s)
  | none =>
    match body with
    | .bytes l => s.recvBytes xtag off l
    | _ => s

/-! ### Windows (R245, R255, R260, R261) -/

/-- The LATE verdict to every member that contributes (R255): records that a switch combined keep the first sender's name
only (R284), so the owner cannot tell which of them have (log 130). -/
def State.sendLate (s : State) (h b : Nat) (g : Group) (k : Bucket) : State :=
  ((upto g.members.length).filter (fun m => decide (m ≠ g.self) && decide ((g.members.getD m ⟨0, 0, 0⟩).ccnt ≠ 0))).foldl (fun s m =>
    s.sendMember h b g m .verdict (wordAt k.step) k.bseq (.verdict k.gid k.attempt (.bucket stLate))) s

/-- WINDOW expires on a bucket (R255): at an owner whose check is not complete, and at a contributor whose agreed exponents
have not all arrived. A bucket that only records have reached ends at its owner too. -/
def doBucketWindow (s : State) (h n : Nat) : State :=
  match (s.engine h).buckets[n]? with
  | none => s
  | some k =>
    match s.liveRun h n with
    | some x =>
      if !x.ownBlocks.isEmpty && (decide (x.k.phase ≠ .queued) || !x.k.heard.isEmpty) then
        (s.sendLate h x.c.b x.g k).endBucket h n k stLate 0
      else if x.g.me.ccnt ≠ 0 ∧ x.r.rop = 0 ∧ !((upto x.r.nblk).all (fun b => (k.agreedAt b).isSome)) then s.endBucket h n k stLate 0
      else s
    | none =>
      match (s.engine h).groups.find? (fun e => decide (e.1 = k.gid)) with
      | some (_, some g) => (s.sendLate h g.binding g k).endBucket h n k stLate 0
      | _ => s

/-- A CLOSE still open when WINDOW expires completes FAILED, and the others are told (R245). -/
def doCloseWindow (s : State) (h n : Nat) : State :=
  match (s.engine h).closes[n]? with
  | none => s
  | some k =>
    match k.cmd with
    | none => s
    | some c =>
      match s.group h c.b k.gid with
      | none => s
      | some g => (s.tellClose h c.b g k false).finishClose h c g k false

/-- A post that is unmatched when WINDOW expires ends LATE (R261); an announced receive is withdrawn. -/
def doPostWindow (s : State) (h n : Nat) : State :=
  match (s.engine h).posts[n]? with
  | none => s
  | some p =>
    if p.matched.isSome then s
    else
    let s := (s.dropPost h p.id).endColl h p.cmd stLate 0
    match s.group h p.cmd.b p.gid with
    | none => s
    | some g =>
      if p.cmd.op = .send then s
      else if p.peer = g.self then { s with recvs := s.recvs.filter (fun a => a.cmd != p.id) }
      else s.sendMember h p.cmd.b g p.peer .greq 0 p.id (.greq (.withdraw p.gid g.self p.id))

/-- A `pgather` whose owner has not answered within WINDOW ends LATE (R260). -/
def doGatherWindow (s : State) (h n : Nat) : State :=
  match (s.engine h).gathers[n]? with
  | none => s
  | some x => if x.live then (s.endGather h x).endColl h x.cmd stLate 0 else s

/-! ### The half link (R297) -/

/-- What waited for the half link is tried again: buckets, receives that have every byte, and matches (R297). -/
def State.resumeEngines (s : State) : State :=
  let s := [0, 1].foldl (fun s h => (upto (s.engine h).buckets.length).reverse.foldl (fun s i => s.moveBucket h i) s) s
  let s := ((s.engine 0).posts ++ (s.engine 1).posts).foldl (fun s p =>
    match s.group (idHalf p.id) p.cmd.b p.gid with
    | some g => if p.cmd.op = .recv ∧ p.matched.isSome ∧ min p.bytes p.peerBytes ≤ p.got.length then s.finishRecv p g else s
    | none => s) s
  s.matchPosts.settleCloses

/-- Where a bucket's next access waits for the half link: a read of its contributions, or the write of its result. -/
def Run.waits (x : Run) (s : State) : Option Nat :=
  match x.k.phase with
  | .sum => heldAt (s.xlatRun x.c.core x.c.prv .wr x.r.dst (x.own.2 * (fmtBits x.r.dfmt / 8))).1
  | _ => heldAt (x.contribs s).1

/-- A collective command of ticket `tk` of thread `g` has waited 1 ms on a link that is not UP (R297): it ends with cause
0x10 and the physical address. -/
def collTimeout (s : State) (g tk : Nat) : Option State :=
  let mine := fun (c : CollCmd) => decide (c.g = g ∧ c.tk = tk)
  let c0 := coreOf g
  let h := halfOfCore c0
  let e := s.engine h
  match (match (s.core c0).collQ with
      | c :: rest => if mine c then (s.startWaits h c).map (fun a => (s.setCore c0 { s.core c0 with collQ := rest }).failColl c (.link a) false) else none
      | [] => none) with
  | some r => some r
  | none =>
    match firstSome (fun i => match s.liveRun h i with
        | some x => if mine x.c then (x.waits s).map (fun a => s.failBucket h i x.k x.c (.link a) false) else none
        | none => none) (upto e.buckets.length) with
    | some r => some r
    | none =>
      firstSome (fun p => if mine p.cmd then
          (if p.cmd.op = .recv then heldAt (s.xlatRun p.cmd.core p.cmd.prv .wr p.buf (min p.bytes p.peerBytes)).1
            else heldAt (s.xlatRun p.cmd.core p.cmd.prv .rd p.buf p.bytes).1).map (fun a => (s.dropPost h p.id).failColl p.cmd (.link a) false)
        else none) e.posts

/-! ### A binding's collectives end (R331, R333, R352) -/

/-- Drop every collective of a binding without a completion. -/
def State.dropColls (s : State) (b : Nat) : State :=
  let mine := fun (c : CollCmd) => decide (c.b = b)
  let s := { s.mapCores (fun _ k => { k with collQ := k.collQ.filter (fun c => !mine c) }) with recvs := s.recvs.filter (fun a => a.b != b) }
  [0, 1].foldl (fun s h =>
    let e := s.engine h
    let gids := (e.groups.filter (fun x => (x.2.map (·.binding)) == some b)).map (·.1)
    s.setEngine h { e with
      buckets := e.buckets.filter (fun k => !gids.contains k.gid), closes := e.closes.filter (fun k => !gids.contains k.gid)
      publishes := e.publishes.filter (fun c => !mine c), posts := e.posts.filter (fun p => !mine p.cmd)
      gathers := e.gathers.map (fun x => if mine x.cmd then { x with live := false } else x), outbox := e.outbox.filter (fun o => o.b != b) }) s

end Sys2Proof.Machine
end

