-- ==== Sys2Proof/Machine/Pairs.lean ====
section
/-! DEFINITION. The short operations of paired words (R33, R34, R51), the registers each names, and issuing an
instruction row's word, long or paired. -/

namespace Sys2Proof.Machine

/-- The operation of a slot; a short operation behaves as its long namesake (R51). -/
def fopOf (o : Op) : FBody :=
  match o with
  | .nop => nopF
  | .li => liF
  | .mov => movF
  | .mul => mulF .mul
  | .mulh => mulF .mulh
  | .fadd => fpF .fadd
  | .fsub => fpF .fsub
  | .fmul => fpF .fmul
  | .ffma => fpF .ffma
  | .fmin => fpF .fmin
  | .fmax => fpF .fmax
  | .cmp => cmpF
  | .fcmp => fcmpF
  | .pand => predF .pand
  | .por => predF .por
  | .pnot => predF .pnot
  | .vmov => vmovF
  | .vadd => vaddF
  | .vsub => vsubF
  | .vmul => vmulF
  | .vfma => vfmaF
  | .vmulw => vmulwF
  | .vdotw => vdotwF
  | o => aluF o

/-- The vector short operations. -/
def isVecShort (o : Op) : Bool :=
  o == .vmov || o == .vadd || o == .vsub || o == .vmul || o == .vfma || o == .vmulw || o == .vdotw

/-- The registers a slot names, a vector operand with its whole group (R34). -/
def pairRegs (f : Fields) (t : Thread) : SlotRegs :=
  if isVecShort f.op then vecRegs f t.vgrp
  else match f.op with
    | .nop => ⟨[], []⟩
    | .li => ⟨[f.rd], []⟩
    | .mov => ⟨[f.rd], [src1CodeOf f]⟩
    | .pnot => ⟨[f.rd], [f.rs1]⟩
    | .ffma => ⟨[f.rd], [f.rs1, f.rs2, f.rs3]⟩
    | _ => ⟨[f.rd], [src1CodeOf f, f.rs2]⟩

/-- Issue a row's word: refused where the word belongs to another row; no effect while the thread may not issue it. -/
def issueRow (o : Op) (body : Body) (g : Nat) (w : Word) (s : State) : Out :=
  if opOf w = o then
    .next (if s.mayIssue g w then
        (if isPair w then issuePair s g w fopOf pairRegs else issueLong s g w body false) else s)
  else .refused .malformed

end Sys2Proof.Machine
end

