-- ==== Sys2Proof/Machine/Control.lean ====
section
/-! DEFINITION. Branches and calls (R35, R45, R46), the system class (R39, R43, R48, R49, R52, R57, R75, R76), and how
a thread ends (R21). -/

namespace Sys2Proof.Machine

/-! ### Branches -/

/-- Target of an offset branch: off47 in words from the branch's own address (R32; log 27). -/
def branchTarget (x : Ctx) : Word := x.th.pc + x.f.off * 8

/-- A branch target that is no word address (R35). -/
def targetCheck (v : Word) : Option Cond := condIf (decide (v.toNat % 8 ≠ 0)) (cMisaligned v)

/-- `lnk` := the branch + 16, tagged RET, at distance 1 (R36, R46). -/
def writeLnk (x : Ctx) : Thread := x.th.queueFixed [(codeLnk, ⟨.ret, x.th.pc + 16⟩, 0, 1)]

def bBody : Body := fun x => .ok x.s x.th (.branch (branchTarget x) true)

/-- `bt` branches on a PRED of value 1, `bf` on one of value 0 (R45). -/
def condBranchBody (want : Bool) : Body := fun x =>
  match x.th.checkRegs [(x.f.rs1, [.pred])] [] with
  | some c => .trap c
  | none => .ok x.s x.th (.branch (branchTarget x) (decide ((x.th.reg x.f.rs1).val = if want then 1 else 0)))

def callBody : Body := fun x =>
  match x.th.checkRegs [] [codeLnk] with
  | some c => .trap c
  | none => .ok x.s (writeLnk x) (.branch (branchTarget x) true)

/-- Targets of `jr` and `callr` (R28). -/
def targetAccept : Accept := [.ptr, .ret]

def callrBody : Body := fun x =>
  let v := (x.th.reg x.f.rs1).val
  match minCond (x.th.checkRegs [(x.f.rs1, targetAccept)] [codeLnk]) (targetCheck v) with
  | some c => .trap c
  | none => .ok x.s (writeLnk x) (.branch v true)

def jrBody : Body := fun x =>
  let v := (x.th.reg x.f.rs1).val
  match minCond (x.th.checkRegs [(x.f.rs1, targetAccept)] []) (targetCheck v) with
  | some c => .trap c
  | none => .ok x.s x.th (.branch v true)

/-- `ret`: a `lnk` that is not RET is a return integrity fault and no other (R27, R75). -/
def retBody : Body := fun x =>
  let l := x.th.lnk
  match x.th.checkReady [codeLnk] none false with
  | some c => .trap c
  | none =>
    if l.tag ≠ .ret then .trap (cReturn (8 + 256 * tagCode l.tag))
    else match targetCheck l.val with
      | some c => .trap c
      | none => .ok x.s x.th (.branch l.val true)

/-! ### Tickets -/

/-- `await` (R39, R40). -/
def awaitBody : Body := fun x =>
  let m := x.f.x24 % 2 ^ 16
  let named := ticketsNamed m
  match x.th.checkNamed [] named with
  | some c => .trap c
  | none => .ok x.s x.th (if named.any (fun i => (x.th.ticket i).busy) then .park (BitVec.ofNat 16 m) else .seq)

/-- `tkpoll` (R39, R40). -/
def tkpollBody : Body := fun x =>
  let named := ticketsNamed (x.f.x24 % 2 ^ 16)
  match x.th.checkNamed [x.f.rd] named with
  | some c => .trap c
  | none =>
    let v := maskOf (fun i => named.contains i && !(x.th.ticket i).busy) 16
    .ok x.s (x.th.queueFixed [(x.f.rd, ⟨.int, BitVec.ofNat 64 v⟩, 0, 1)]) .seq

/-! ### Repeat prefixes (R48) -/

/-- Start a repetition of `n` iterations, or skip W. -/
def startRepeat (x : Ctx) (isRepi : Bool) (n : Nat) : Res :=
  let t := { x.th with loopcnt := if n = 0 then 0 else x.th.loopcnt }
  if n = 0 then .ok x.s t (.jump (t.pc + 16))
  else .ok x.s { t with rep := some ⟨t.pc, x.w, isRepi, n, true, t.rptResume, none⟩ } (.jump (t.pc + 8))

/-- `rep` (R48); inside a mode-change shadow it is illegal (R78). -/
def repBody : Body := fun x =>
  if x.th.shadow.isSome then .trap (cIllegal x.w)
  else startRepeat x false (if x.th.rptResume then x.th.loopcnt.toNat else if x.f.x24 = 0 then 64 else x.f.x24)

/-- `repi` (R48): on a resume the register is not read. -/
def repiBody : Body := fun x =>
  if x.th.shadow.isSome then .trap (cIllegal x.w)
  else if x.th.rptResume then startRepeat x true x.th.loopcnt.toNat
  else
    match x.th.checkRegs [(x.f.rs1, [.int])] [] with
    | some c => .trap c
    | none =>
      let n := (x.th.reg x.f.rs1).val.toNat
      if n ≥ 2 ^ 32 then .trap (cIllegal x.w) else startRepeat x true n

/-! ### Mode and registers -/

/-- What a write of CR_MODE does (R43): illegal in a shadow (R78) or with a reserved RM. -/
def modeRes (x : Ctx) (mask : Nat) : Res :=
  if x.th.shadow.isSome then .trap (cIllegal x.w)
  else
    match x.th.checkRegs [(x.f.rs1, [.int])] [] with
    | some c => .trap c
    | none =>
      let m := modeUnder x.th.mode mask (x.th.reg x.f.rs1).val.toNat
      if (RMode.ofBits (fld m 0 3)).isNone then .trap (cIllegal x.w) else .ok x.s (x.th.startShadow m) .seq

def msetBody : Body := fun x => modeRes x (x.f.x24 % 256)

/-- Level check of a register access (R49, R57). -/
def csrLevelCheck (x : Ctx) : Option Cond :=
  match csrInfo x.s.build (x.f.x24 % 2 ^ 16) with
  | none => some (cIllegal x.w)
  | some (lvl, _) => condIf (decide (x.th.estat.prv.toNat < lvl)) (cPrivReg (x.f.x24 % 2 ^ 16))

/-- `csrr` (R49): the value with the tag INT at distance 1; RC fields clear. -/
def csrrBody : Body := fun x =>
  let n := x.f.x24 % 2 ^ 16
  match minCond (csrLevelCheck x) (x.th.checkRegs [] [x.f.rd]) with
  | some c => .trap c
  | none =>
    let (v, s) := csrRead (x.s.setThread x.g x.th) (x.s.csrOf x.g) n
    .ok s ((s.thread x.g).queueFixed [(x.f.rd, ⟨.int, v⟩, 0, 1)]) .seq

/-- `csrw` (R49): CR_MODE as `mset`, TL_CFG as `tcfg` (R43, R103). -/
def csrwBody : Body := fun x =>
  let n := x.f.x24 % 2 ^ 16
  let src := x.th.reg x.f.rs1
  match csrLevelCheck x with
  | some c => .trap c
  | none =>
    if n = 0x0010 then modeRes x 0
    else
      match x.th.checkRegs [(x.f.rs1, if n = 0x0020 then [.int, .ptr, .ret] else [.int])] [] with
      | some c => .trap c
      | none =>
        if 0x1000 ≤ n ∧ n ≤ 0x100B then
          (match tcfgDo (x.s.core (coreOf x.g)) (n - 0x1000) src.val with
            | .error c => .trap c
            | .ok k => .ok (x.s.setCore (coreOf x.g) k) x.th .seq)
        else
          let s := csrWrite (x.s.setThread x.g x.th) (x.s.csrOf x.g) n src.tag src.val x.th.estat.prv.toNat
          .ok s (s.thread x.g) .seq

/-- `ifence` discards the fetch buffer (R52). -/
def ifenceBody : Body := fun x => .ok x.s { x.th with fetch := none } .seq

/-! ### Calls to a higher level, and returns -/

/-- `ecall` (R57): 0x12 from U, 0x13 from S or M. -/
def ecallBody : Body := fun x => .trap (cCall (if x.th.estat.prv = 0 then 0x12 else 0x13) 0)

/-- `brk` (R57, R59). -/
def brkBody : Body := fun x => .trap (cCall 0x14 (BitVec.ofNat 64 x.f.x24))

/-- The checks of `eret` that fail (R75). -/
def eretChecks (t : Thread) : Nat :=
  b2n (decide (t.estat.sprv = 2) || decide (t.estat.prv.toNat < t.estat.sprv.toNat))
    + 2 * b2n (!(t.epc.tag == .ptr || t.epc.tag == .ret)) + 4 * b2n (!t.estat.svi)

/-- A saved mode as CR_MODE takes it: the reserved bits [4:3] read 0 (R5, R43). -/
def modeOf (m : BitVec 8) : BitVec 8 := m &&& 0xE7#8

/-- The return of R76, in order; `eret` clears LNTA (R72). The fetch buffer is discarded: what was fetched under the
handler's level is fetched again under the level returned to (R55; log 112). -/
def eretThread (t : Thread) : Thread :=
  let t := match t.shadow with
    | some sh => { t with mode := sh.new, shadow := none }
    | none => t
  let e := t.estat
  let ends := e.msh && decide (e.shcnt = 0)
  { t with
    fetch := none
    mode := if ends then modeOf e.pmode else if e.msh then modeOf e.omode else t.mode
    shadow := if e.msh && decide (e.shcnt ≠ 0) then some ⟨modeOf e.omode, modeOf e.pmode, e.shcnt.toNat, true⟩ else none
    estat := { e with prv := e.sprv, exl := false, lnta := false, eds := false, rpt := false, msh := e.msh && !ends } }

/-- `eret` (R75, R76). -/
def eretBody : Body := fun x =>
  if x.th.estat.prv = 0 then .trap (cPrivReg 0)
  else if eretChecks x.th ≠ 0 then .trap (cReturn (eretChecks x.th))
  else .ok x.s (eretThread x.th) (.resume x.th.epc.val x.th.estat.rpt)

/-- Retire all 64 slots of a thread: the generation of each advances (R166). -/
def Core.retireThread (k : Core) (tid : Nat) : Core :=
  (upto 64).foldl (fun k i =>
    k.setDesc (tid * 64 + i) ⟨none, (k.desc (tid * 64 + i)).gen + 1⟩) k

/-- `tend` (R21, R166): the thread issues no more and goes to IDLE once its tickets have ended. -/
def tendBody : Body := fun x =>
  let c := coreOf x.g
  .ok (x.s.setCore c ((x.s.core c).retireThread (tidOf x.g))) { x.th with ending := true } .seq

/-- A thread that has issued `tend` goes to IDLE once no ticket is in flight (R21). -/
def doTendComplete (s : State) (g : Nat) : State :=
  let t := s.thread g
  if t.ending && (upto 16).all (fun i => !(t.ticket i).busy) then s.setThread g { t.commitAll with ending := false, run := .idle } else s

end Sys2Proof.Machine
end

