-- ==== Sys2Proof/Machine/Traps.lean ====
section
/-! DEFINITION. Taking a trap and taking an interrupt, as ONE operation each: the paths of R67, the stack switch of R68,
the steps of R69, nesting (R70), the lantern (R71, R72), and interrupts (R73, R74). The return stands in
Machine/Control.lean. -/

namespace Sys2Proof.Machine

/-- Route level of a cause (R57, R59, R73): M for 0x0F, 0x10, 0x13, 0x24 and 0x25, else S. -/
def routeOf (cause : Nat) : Nat :=
  if cause = 0x0F ∨ cause = 0x10 ∨ cause = 0x13 ∨ cause = 0x24 ∨ cause = 0x25 then 3 else 1

/-- A register-targeting operation of a thread is in flight (R41). -/
def Thread.regTickets (t : Thread) : Bool :=
  (upto 16).any (fun i => (t.ticket i).ops.any (fun o => o.dst.any (· ≠ 0)))

/-- A step of the entry that failed (R71): CAUSE, STAGE, and the address; `link` where it waits for the half link, and fails
with cause 0x10 once it has waited 1 ms (R297). -/
structure EntryFail where
  cause : Nat
  stage : Nat
  addr : Word
  link : Bool
deriving DecidableEq, Repr

/-- Where an entry goes: the level, the handler, and the new `s30` where the stack is switched. -/
structure EntryPlan where
  level : Nat
  handler : Word
  stack : Option Word
deriving DecidableEq, Repr

/-- A press word tagged PTR (R64). -/
def State.ptrWord (s : State) (a : Nat) : Option Word := if s.tagAt a = 2 then some (s.readWord a) else none

/-- BASE of CR_TVBASE where it lies in the core's own press (R64). -/
def State.tableBase (s : State) (c : Nat) : Option Nat :=
  let v := (s.core c).tvbase
  let a := fld v 10 38 * 1024
  match physKind s a with
  | .press c' _ => if bitAt v 0 && decide (c' = c) && s.pressHeld (s.bindingOf c) a then some a else none
  | _ => none

/-- The press word, of the handler word at `ha` and the stack slot at `sa` that the address path reads, in which the
check found an unrecoverable error: the words of the handler come first (R69 step 5, R71, R230). -/
def entryParity (s : State) (ha sa : Nat) (fromU : Bool) (par : Parity) : Option Nat :=
  match par with
  | .lost k =>
    let j := k % (if fromU then 4 else 2)
    some (if j < 2 then ha + 4 * j else sa + 4 * (j - 2))
  | _ => if s.poisoned ha 8 then some ha else if fromU && s.poisoned sa 8 then some sa else none

/-- The address path of R67, where it is used: the table is enabled and valid, the handler word holds PTR, and from U
the stack slot holds PTR. CR_ETVAL of a misaligned handler is the handler address itself (log 114). -/
def addressPath (s : State) (g cause : Nat) (fromU : Bool) (par : Parity) : Option (Except EntryFail EntryPlan) :=
  match s.tableBase (coreOf g) with
  | none => none
  | some base =>
    let ha := base + 8 * cause
    let sa := base + 512 + 8 * tidOf g
    match entryParity s ha sa fromU par with
    | some a => some (.error ⟨0x10, 1, BitVec.ofNat 64 a, false⟩)
    | none =>
      match s.ptrWord ha, (if fromU then (s.ptrWord sa).map some else some none) with
      | some h, some slot =>
        if h.toNat % 8 ≠ 0 then some (.error ⟨0x05, 1, h, false⟩)
        else some (.ok ⟨1, h, slot.map (· - 16)⟩)
      | _, _ => none

/-- Read the tagged pair of a table entry at M (R65, R71): the value, where its tag is PTR. -/
def readHandler (s : State) (c a : Nat) (par : Parity) : Except EntryFail Word :=
  let at' := BitVec.ofNat 64 a
  if !(s.isHbm a || isPress a && decide (physKind s a ≠ .none)) then .error ⟨0x06, 2, at', false⟩
  else if s.linkWait c a then .error ⟨0x10, 2, at', true⟩
  else if Parity.isLost (s.settlePar par [(a, 32)]) || s.poisoned a 32 then .error ⟨0x10, 2, BitVec.ofNat 64 (s.badWord par a 32), false⟩
  else if s.readNat (a + 8) 8 ≠ 2 then .error ⟨0x02, 2, at', false⟩
  else .ok (s.readWord a)

/-- The descriptor path (R65, R67, R71): entry, checks, level and stack. An entry that fails several checks reports the
first of tag, CTRL and STKSH, PRV, alignment; PRV = 0b10 counts as reserved CTRL bits (log 115). -/
def descriptorPath (s : State) (g cause L : Nat) (par : Parity) : Except EntryFail EntryPlan :=
  let a := (s.core (coreOf g)).mtvdesc.toNat * 2 ^ 11 + 32 * cause
  match readHandler s (coreOf g) a par with
  | .error e => .error e
  | .ok h =>
    let ctrl := s.readWord (a + 24)
    let prv := fld ctrl 0 2
    let sh := fld ctrl 8 8
    if ctrl ≠ wordFields [(prv, 0), (fld ctrl 2 1, 2), (sh, 8)] ∨ sh < 8 ∨ 20 < sh ∨ prv = 2 then .error ⟨0x02, 2, BitVec.ofNat 64 a, false⟩
    else if prv < L then .error ⟨0x04, 2, BitVec.ofNat 64 a, false⟩
    else if h.toNat % 8 ≠ 0 then .error ⟨0x05, 2, h, false⟩
    else .ok ⟨prv, h, if bitAt ctrl 2 then some (s.readWord (a + 16) - BitVec.ofNat 64 (tidOf g * 2 ^ sh + 16)) else none⟩

/-- Where a pair or press word pushed at an address lands (R68): at M physical, at S translated. -/
def pushTarget (s : State) (g level : Nat) (va : Word) : Except EErr Nat × State :=
  s.engineXlat (coreOf g) (BitVec.ofNat 2 level) .wr va

/-- Push `s30` as `stt` would write it (R68, R30). -/
def pushS30 (s : State) (c a : Nat) (v : TReg) : State :=
  if isPress a then (s.writeNat c a 8 v.val.toNat).setTags a 8 (BitVec.ofNat 4 (tagCode v.tag))
  else s.writeNat c a 16 (v.val.toNat + 2 ^ 64 * tagCode v.tag)

/-- Step 6 (R68, R71): the stack switch, or the failure that stopped it. -/
def switchStack (s : State) (g : Nat) (p : EntryPlan) : Except EntryFail State :=
  match p.stack with
  | none => .ok s
  | some sp =>
    if sp.toNat % 16 ≠ 0 then .error ⟨0x05, 3, sp, false⟩
    else
      match pushTarget s g p.level sp with
      | (.error (.link a), _) => .error ⟨0x10, 3, BitVec.ofNat 64 a, true⟩
      | (.error (.parity a), _) => .error ⟨0x10, 3, BitVec.ofNat 64 a, false⟩
      | (.error _, _) => .error ⟨0x07, 3, sp, false⟩
      | (.ok a, s') =>
        let t := s'.thread g
        .ok ((pushS30 s' (coreOf g) a (t.reg 30)).setThread g (t.setReg 30 ⟨.ptr, sp⟩))

/-- What step 7 writes to CR_ESTAT (R63, R69, R70, R78). -/
def entryEstat (t : Thread) (r : Trap) (level : Nat) (nested lantern : Bool) : EStat :=
  let e := t.estat
  { e with
    pmode := (t.shadow.map (·.new)).getD e.pmode
    omode := (t.shadow.map (·.old)).getD e.omode
    shcnt := (t.shadow.map (fun sh => BitVec.ofNat 2 sh.left)).getD e.shcnt
    msh := t.shadow.isSome, rpt := r.rpt, eds := r.eds, slotb := r.slotb, nst := nested, svi := !nested
    lnta := lantern || e.lnta, exl := true, sprv := e.prv, prv := BitVec.ofNat 2 level }

/-- Steps 7 and 8 (R69): the trap registers, the mode the handler reads (R78), and the program counter. -/
def Thread.enter (t : Thread) (r : Trap) (level : Nat) (nested : Bool) (ec : ECause) (etval : Word) (pc : Word) : Thread :=
  { t with
    epc := ⟨.ptr, maskBits r.epc 3 47⟩, ecause := ec, etval := etval, estat := entryEstat t r level nested ec.lnt
    mode := (t.shadow.map (·.new)).getD t.mode, shadow := none, trap := none, pc := pc, fetch := none }

/-- A fault that the trap machinery cannot deliver stops the thread (R72): IDLE, tickets abandoned, a core fault and a
beacon. -/
def stopThread (s : State) (g : Nat) : State :=
  let t := s.thread g
  ((s.noteStop g).setThread g { t with run := .idle, trap := none, tickets := [], shadow := none, stopped := true }).recordFault
    (unitId 0 (coreOf g)) 0x01

/-- The lantern entry (R66, R68, R71, R72); none while it waits for the half link and has not waited 1 ms (`late`, R297). -/
def lanternEntry (s : State) (g : Nat) (r : Trap) (nested : Bool) (f : EntryFail) (par : Parity) (late : Bool) : Option State :=
  let t := s.thread g
  let k := s.core (coreOf g)
  if f.link && !late then none
  else if t.estat.lnta then some (stopThread s g)
  else
    match readHandler s (coreOf g) (k.mtvdesc.toNat * 2 ^ 11) (if f.cause = 0x10 then .ok else par) with
    | .error e => if e.link && !late then none else some (stopThread s g)
    | .ok h =>
      let sp := BitVec.ofNat 64 (k.lanternSp.toNat * 16) - BitVec.ofNat 64 (tidOf g * 4096 + 16)
      if h.toNat % 8 ≠ 0 then some (stopThread s g)
      else
        match switchStack s g ⟨3, h, some sp⟩ with
        | .error e => if e.link && !late then none else some (stopThread s g)
        | .ok s' =>
          some <| s'.setThread g ((s'.thread g).enter r 3 nested
            ⟨BitVec.ofNat 2 f.stage, BitVec.ofNat 6 r.cause, true, false, BitVec.ofNat 6 f.cause⟩ f.addr h)

/-- A fault found by parity in the entry's reads is a fault of the unit that holds the word, one found by the wait for the
half link a fault of that link (R230, R297). -/
def recordEntryParity (s : State) (f : EntryFail) : State :=
  if f.cause = 0x10 then
    s.recordFault (if f.link then unitId 3 0 else if s.poisoned f.addr.toNat 4 then unitOfPa s f.addr.toNat else lostUnit s f.addr.toNat) 0x01
  else s

/-- A nested trap (R70): synchronous, EXL = 1, and not the return integrity fault of an `eret`. -/
def isNested (t : Thread) (r : Trap) : Bool := r.sync && t.estat.exl && !r.byEret

/-- The level a trap is taken at (R56, R70). -/
def trapLevel (t : Thread) (r : Trap) : Nat := if isNested t r then 3 else max (routeOf r.cause) t.estat.prv.toNat

/-- Steps 4 to 8 of trap entry (R67-R72) for the trap a thread has recognised; `par` is what the check of the table read
found, `late` that the entry has waited 1 ms for the half link (R297). Nothing while a register-targeting ticket is in flight (R41, R69 step 3). -/
def enterTrap (s : State) (g : Nat) (par : Parity) (late : Bool) : State :=
  let t := s.thread g
  match t.trap with
  | none => s
  | some r =>
    if t.regTickets || (s.core (coreOf g)).suspended then s
    else
      let nested := isNested t r
      let L := trapLevel t r
      let ec : ECause := ⟨0, 0, false, r.deferred, BitVec.ofNat 6 r.cause⟩
      let plan := match (if L = 1 then addressPath s g r.cause (decide (t.estat.prv = 0)) par else none) with
        | some p => p
        | none => descriptorPath s g r.cause L par
      match plan with
      | .error f => (lanternEntry (recordEntryParity s f) g r nested f par late).getD s
      | .ok p =>
        match switchStack s g p with
        | .error f => (lanternEntry (recordEntryParity s f) g r nested f par late).getD s
        | .ok s' => s'.setThread g ((s'.thread g).enter r p.level nested ec r.etval p.handler)

/-- Take the pending interrupt of a thread: the trap is recognised before its next word (R69, R74). -/
def takeInterrupt (s : State) (g : Nat) : State :=
  let t := s.thread g
  match interruptOf s g with
  | some i =>
    if atInterruptPoint t && !(s.core (coreOf g)).suspended then
      s.setThread g (t.raise ⟨0, 0x20 + i, 0, none⟩ false false false)
    else s
  | none => s

end Sys2Proof.Machine
end

