-- ==== Sys2Proof/Machine/Repeat.lean ====
section
/-! DEFINITION. What each operation does once its word may issue, in one table, and an iteration of a repetition (R48),
which runs any word. -/

namespace Sys2Proof.Machine

/-- The body of each operation, whichever row issues it. -/
def bodyOf (o : Op) : Body :=
  match o with
  | .nop => fixedBody nopF
  | .li => fixedBody liF
  | .add => fixedBody (aluF .add)
  | .sub => fixedBody (aluF .sub)
  | .andI => fixedBody (aluF .andI)
  | .orI => fixedBody (aluF .orI)
  | .xorI => fixedBody (aluF .xorI)
  | .shl => fixedBody (aluF .shl)
  | .shr => fixedBody (aluF .shr)
  | .sra => fixedBody (aluF .sra)
  | .minI => fixedBody (aluF .minI)
  | .maxI => fixedBody (aluF .maxI)
  | .sel => fixedBody selF
  | .mov => fixedBody movF
  | .tagof => fixedBody tagofF
  | .mul => fixedBody (mulF .mul)
  | .mulh => fixedBody (mulF .mulh)
  | .mulhu => fixedBody (mulF .mulhu)
  | .div => divBody .div
  | .divu => divBody .divu
  | .rem => divBody .rem
  | .remu => divBody .remu
  | .fadd => fixedBody (fpF .fadd)
  | .fsub => fixedBody (fpF .fsub)
  | .fmul => fixedBody (fpF .fmul)
  | .ffma => fixedBody (fpF .ffma)
  | .fmin => fixedBody (fpF .fmin)
  | .fmax => fixedBody (fpF .fmax)
  | .fdiv => fdivBody
  | .fsqrt => fsqrtBody
  | .cmp => fixedBody cmpF
  | .fcmp => fixedBody fcmpF
  | .pand => fixedBody (predF .pand)
  | .por => fixedBody (predF .por)
  | .pnot => fixedBody (predF .pnot)
  | .mkptr => fixedBody (retagF .int .ptr)
  | .ptrint => fixedBody (retagF .ptr .int)
  | .fbits => fixedBody (retagF .fp64 .int)
  | .bitsf => fixedBody (retagF .int .fp64)
  | .itof => fixedBody itofF
  | .ftoi => fixedBody ftoiF
  | .smv => fixedBody smvF
  | .b => bBody
  | .bt => condBranchBody true
  | .bf => condBranchBody false
  | .call => callBody
  | .callr => callrBody
  | .jr => jrBody
  | .ret => retBody
  | .ld => loadBody .int
  | .ldf => loadBody .fp64
  | .ldp => loadBody .ptr
  | .ldt => ldtBody
  | .st => stBody
  | .stt => sttBody
  | .amo => amoBody
  | .mbar => mbarBody
  | .tcfg => tcfgBody
  | .tld => tldBody false
  | .tldc => tldBody true
  | .tst => tstBody
  | .tsb => tsbBody
  | .tshift => tshiftBody
  | .tmma => tmmaBody
  | .tzero => tzeroBody
  | .trel => trelBody
  | .twait => twaitBody
  | .vld => vecMemBody true
  | .vst => vecMemBody false
  | .vmov => fixedBody vmovF
  | .vbcast => fixedBody vbcastF
  | .vadd => fixedBody vaddF
  | .vsub => fixedBody vsubF
  | .vmul => fixedBody vmulF
  | .vfma => fixedBody vfmaF
  | .vmulw => fixedBody vmulwF
  | .vdotw => fixedBody vdotwF
  | .vcvt => fixedBody vcvtF
  | .vred => fixedBody vredF
  | .vchain => vchainBody
  | .vflow => vflowBody
  | .tdesc => tdescBody
  | .dinfo => dinfoBody
  | .dinfoRetire => dinfoRetireBody
  | .dgth => gatherBody true
  | .dsct => gatherBody false
  | .pgather => collBody .gather
  | .cbktOpen => collBody .openE
  | .cbktBucket => collBody .bucket
  | .cbktClose => collBody .close
  | .cbktPublish => collBody .publish
  | .csend => collBody .send
  | .crecv => collBody .recv
  | .await => awaitBody
  | .tkpoll => tkpollBody
  | .rep => repBody
  | .repi => repiBody
  | .mset => msetBody
  | .csrr => csrrBody
  | .csrw => csrwBody
  | .ifence => ifenceBody
  | .ecall => ecallBody
  | .brk => brkBody
  | .eret => eretBody
  | .tend => tendBody

/-- Words that a prefix may not repeat (R48). -/
def repForbidden (o : Op) : Bool :=
  branchOp o || o == .rep || o == .repi || o == .await || o == .mset || o == .csrw || o == .ecall || o == .brk || o == .eret
    || o == .tend

/-- Operations that name a ticket (R37). -/
def ticketedOps : List Op :=
  [.div, .divu, .rem, .remu, .fdiv, .fsqrt, .ld, .ldf, .ldp, .ldt, .st, .stt, .amo, .tld, .tldc, .tst, .tsb, .tshift, .tmma,
   .tzero, .trel, .twait, .vld, .vst, .vchain, .vflow, .dgth, .dsct, .pgather, .cbktOpen, .cbktBucket, .cbktClose,
   .cbktPublish, .csend, .crecv]

/-- The fields of a word's operation, of slot A in a paired word. -/
def wordFieldsOf (w : Word) : Fields := if isPair w then slotA w else longFields w

/-- The repetition as its next iteration finds it: W has been checked, and W's ticket is known (R48). -/
def RepState.begin (r : RepState) (w : Word) : RepState :=
  { r with fresh := false, tk := if !isPair w && ticketedOps.contains (opOf w) then some (wordFieldsOf w).tk else none }

/-- After an iteration (R48): one slot has passed; the last one ends the repetition at the word after W. -/
def Thread.iterated (t : Thread) (r : RepState) : Thread :=
  if r.left ≤ 1 then { t with rep := none, loopcnt := 0, pc := r.addr + 16, slot := t.slot + 1 }
  else { t with rep := some { r with joins := true, left := r.left - 1 }, slot := t.slot + 1 }

/-- A repeated word may run: as R22, in a repetition; `repi` takes interrupts between iterations first (R48, R74). -/
def State.mayRepeat (s : State) (g : Nat) (w : Word) : Bool :=
  let t := s.thread g
  threadPresent s.build g && decide (t.run = .run) && t.trap.isNone && !t.ending && !(s.core (coreOf g)).suspended
    && !s.interrupted g && decide (t.word? = some w)

/-- The thread as an iteration begins it: due results committed, CR_LOOPCNT the iterations left (R36, R48). -/
def Thread.iterate (t : Thread) (r : RepState) : Thread :=
  { t.commitDue with rep := some r, loopcnt := BitVec.ofNat 32 r.left }

/-- One iteration of the repetition a thread runs (R48). -/
def doRepeat (s : State) (g : Nat) (w : Word) : State :=
  let t := s.thread g
  match t.rep with
  | none => s
  | some r =>
    if !s.mayRepeat g w then s
    else if r.fresh && !isPair w && repForbidden (opOf w) then s.setThread g (t.raise (cIllegal r.word) false true false)
    else
      let r := r.begin w
      let x : Ctx := ⟨s, g, t.iterate r, wordFieldsOf w, w, r.joins⟩
      match (if isPair w then pairRes x fopOf pairRegs else longRes x (bodyOf (opOf w))) with
      | .trap c slotb => s.setThread g (x.th.raise c slotb true false)
      | .ok s' th _ => if s.hasRoom s' (coreOf g) then s'.setThread g (th.iterated r) else s.passOver (coreOf g)

end Sys2Proof.Machine
end

