-- ==== Sys2Proof/Machine/BranchRows.lean ====
section
/-! DEFINITION. The rows of branches, calls and returns: each issues the word its command carries (R22, R34, R50), with its operation's body. -/

namespace Sys2Proof.Machine

/-- Unconditional branch with one delay slot. R45. -/
def execB (g : Nat) (w : Word) (s : State) : Out := issueRow .b (bodyOf .b) g w s

/-- Branches when the PRED holds 1. R45. -/
def execBt (g : Nat) (w : Word) (s : State) : Out := issueRow .bt (bodyOf .bt) g w s

/-- Branches when the PRED holds 0. R45. -/
def execBf (g : Nat) (w : Word) (s : State) : Out := issueRow .bf (bodyOf .bf) g w s

/-- Branches and writes lnk with the return address tagged RET. R46. -/
def execCall (g : Nat) (w : Word) (s : State) : Out := issueRow .call (bodyOf .call) g w s

/-- Register-indirect call that writes lnk with RET. R46. -/
def execCallr (g : Nat) (w : Word) (s : State) : Out := issueRow .callr (bodyOf .callr) g w s

/-- Jumps to a register holding PTR or RET. R46. -/
def execJr (g : Nat) (w : Word) (s : State) : Out := issueRow .jr (bodyOf .jr) g w s

/-- Transfers to lnk, or raises a return integrity fault at M if lnk does not hold RET. R75. -/
def execRet (g : Nat) (w : Word) (s : State) : Out := issueRow .ret (bodyOf .ret) g w s

end Sys2Proof.Machine
end

