-- ==== Sys2Proof/Machine/SystemRows.lean ====
section
/-! DEFINITION. The rows of the system instructions: each issues the word its command carries (R22, R34, R50), with its operation's body. -/

namespace Sys2Proof.Machine

/-- Parks the thread until the named tickets complete, or reports a deferred fault. R39. -/
def execAwait (g : Nat) (w : Word) (s : State) : Out := issueRow .await (bodyOf .await) g w s

/-- Returns which of the named tickets are not in flight. R39. -/
def execTkpoll (g : Nat) (w : Word) (s : State) : Out := issueRow .tkpoll (bodyOf .tkpoll) g w s

/-- Repeats the next word a fixed count without interrupts. R48. -/
def execRep (g : Nat) (w : Word) (s : State) : Out := issueRow .rep (bodyOf .rep) g w s

/-- Repeats the next word a count held in a register, taking interrupts between iterations. R48. -/
def execRepi (g : Nat) (w : Word) (s : State) : Out := issueRow .repi (bodyOf .repi) g w s

/-- Writes masked CR_MODE fields, effective from the third following word. R43. -/
def execMset (g : Nat) (w : Word) (s : State) : Out := issueRow .mset (bodyOf .mset) g w s

/-- Reads a control and status register with privilege checks. R49. -/
def execCsrr (g : Nat) (w : Word) (s : State) : Out := issueRow .csrr (bodyOf .csrr) g w s

/-- Writes a control and status register with privilege checks. R49. -/
def execCsrw (g : Nat) (w : Word) (s : State) : Out := issueRow .csrw (bodyOf .csrw) g w s

/-- Discards the thread's fetch buffer. R52. -/
def execIfence (g : Nat) (w : Word) (s : State) : Out := issueRow .ifence (bodyOf .ifence) g w s

/-- Raises cause 0x12 or 0x13 by level. R57. -/
def execEcall (g : Nat) (w : Word) (s : State) : Out := issueRow .ecall (bodyOf .ecall) g w s

/-- Raises a breakpoint. R59. -/
def execBrk (g : Nat) (w : Word) (s : State) : Out := issueRow .brk (bodyOf .brk) g w s

/-- Checks saved state and returns from a trap, or raises a return integrity fault. R76. -/
def execEret (g : Nat) (w : Word) (s : State) : Out := issueRow .eret (bodyOf .eret) g w s

/-- Ends the kernel and retires the thread's descriptor slots. R21. -/
def execTend (g : Nat) (w : Word) (s : State) : Out := issueRow .tend (bodyOf .tend) g w s

end Sys2Proof.Machine
end

