-- ==== Sys2Proof/Machine/ThreadEvents.lean ====
section
/-! DEFINITION. The events of a thread: results that commit, repeated words, fetches, the end of tickets, traps and
interrupts, and the timer. -/

namespace Sys2Proof.Machine

/-- The AON counters of both powered halves run on by `n` (R299, R307; log 2). -/
def State.tick (s : State) (n : Nat) : State :=
  let go := fun (h : Half) => if h.stage = .off then h else { h with time := h.time + BitVec.ofNat 64 n }
  { s with half0 := go s.half0, half1 := go s.half1 }

/-- An event of half `h`; there is no half but 0 and 1 (R2). -/
def onHalf (h : Nat) (s r : State) : State := if h < 2 then r else s

/-- PW_TIME reaches the compare value of a thread whose compare is armed and not yet true (R307). -/
def doTimerCompare (s : State) (g : Nat) : State :=
  let t := s.thread g
  let now := (s.half (halfOfCore (coreOf g))).time.toNat % 2 ^ 63
  if t.tcmpEn && decide (now < t.tcmp.toNat) && decide ((s.half (halfOfCore (coreOf g))).stage ≠ .off) then s.tick (t.tcmp.toNat - now) else s

/-- A replayed parity error of the table read is counted, and the trap is entered (R69, R229). -/
def doTrapEntry (s : State) (g : Nat) (par : Parity) : State :=
  enterTrap (if par = .replayed then s.countReplay (coreOf g) else s) g par false

/-- A fixed-distance result commits at the start of slot k + n and clears PEND. R36. -/
def execFixedResultCommit (g : Nat) (s : State) : Out := .next (s.setThread g (s.thread g).commitDue)

/-- One iteration of a repeated word executes in its own slot. R48. -/
def execRepeatIteration (g : Nat) (w : Word) (s : State) : Out := .next (doRepeat s g w)

/-- A fetched instruction block arrives and makes the thread's next word available. R23. -/
def execFetchReturn (g : Nat) (par : Parity) (s : State) : Out := .next (doFetchReturn s g par)

/-- A ticketed operation completes, writes its destination and frees its ticket. R37. -/
def execTicketComplete (g tk : Nat) (s : State) : Out := .next (doTicketComplete s g tk)

/-- A ticketed operation ends with a deferred fault and sets its FAULT bit. R40. -/
def execTicketFault (g tk : Nat) (s : State) : Out := .next (doTicketFault s g tk)

/-- The thread goes to IDLE once all its tickets have completed after tend. R21. -/
def execTendComplete (g : Nat) (s : State) : Out := .next (doTendComplete s g)

/-- After register tickets settle, the core reads the handler, pushes s30 and enters the handler. R69. -/
def execTrapEntry (g : Nat) (par : Parity) (s : State) : Out := .next (doTrapEntry s g par)

/-- A pending enabled interrupt is taken before a thread's next issue. R74. -/
def execInterruptTaken (g : Nat) (s : State) : Out := .next (takeInterrupt s g)

/-- PW_TIME reaches PW_TCMP.CMP with EN = 1 and makes interrupt 0x20 pending. R307. -/
def execTimerCompare (g : Nat) (s : State) : Out := .next (doTimerCompare s g)

end Sys2Proof.Machine
end

