-- ==== Sys2Proof/Machine/CoreEvents.lean ====
section
/-! DEFINITION. The events of a core's queues and of its memory accesses. -/

namespace Sys2Proof.Machine

/-- The entry of thread `g`'s trap has waited 1 ms for the half link (R297; log 119): it is still recognised where the entry
would only wait on. -/
def trapTimeout (s : State) (g : Nat) : Option State :=
  if ((enterTrap s g .ok false).thread g).trap.isSome then some (enterTrap s g .ok true) else none

/-- An entry of an engine queue of thread `g` has waited 1 ms for the half link (R297): it ends with the link's error. -/
def engineTimeout (s : State) (g tk : Nat) : Option State :=
  let c := coreOf g
  firstSome id [
    (tileWait s c).bind (fun w => if w.2.1.g = g ∧ w.2.1.tk = tk then some (failTile s c w.1 w.2.1 (.link w.2.2)) else none),
    (chainWait s c).bind (fun w => if w.2.1.g = g ∧ w.2.1.tk = tk then
      some ((endChain s c w.1 w.2.1 (eerrPhase (.link w.2.2) true)).recordEErr (.link w.2.2)) else none),
    (s.core c).descQ.head?.bind (fun e => if e.g = g ∧ e.tk = tk then
      (descWait s c e).map (fun a =>
        ((s.setCore c { s.core c with descQ := (s.core c).descQ.tail }).setThread g
          ((s.thread g).setEng tk isDescWaiting .desc (eerrPhase (.link a) true))).recordEErr (.link a)) else none)]

/-- An access across the halves has waited 1 ms on a link that is not UP (R297): of the ticket's accesses the one that waits,
then its engine work, then the thread's fetch and its trap entry. -/
def doCrossHalfTimeout (s : State) (g tk : Nat) : State :=
  (firstSome id [accTimeout s g tk, engineTimeout s g tk, collTimeout s g tk, fetchTimeout s g, trapTimeout s g]).getD s

/-- A vector operation starts on the datapath once earlier operations have left it. R140. -/
def execVectorOpStart (c : Nat) (s : State) : Out := .next (startVec s c)

/-- A tile instruction reaches the head of the tile queue and begins execution. R108. -/
def execTileQueueExecute (c : Nat) (par : Parity) (s : State) : Out := .next (doTileExecute s c par)

/-- A tile instruction commits its result and ends its ticket. R109. -/
def execTileInstructionComplete (c : Nat) (s : State) : Out := .next (doTileComplete s c)

/-- A chain queue entry begins once its ordering conditions hold. R150. -/
def execChainQueueExecute (c : Nat) (par : Parity) (s : State) : Out := .next (doChainExecute s c par)

/-- The chain slot becomes valid, or the entry ends with a chain configuration fault. R151. -/
def execVchainComplete (c : Nat) (s : State) : Out := .next (doVchainComplete s c)

/-- Output writes are accepted, summaries are written and the ticket ends. R152. -/
def execVflowComplete (c : Nat) (s : State) : Out := .next (doVflowComplete s c)

/-- A gather or scatter reaches the head of the descriptor queue and starts. R180. -/
def execDescriptorQueueExecute (c : Nat) (par : Parity) (s : State) : Out := .next (doDescExecute s c par)

/-- A translation table read returns, and the walk continues, fills the cache or faults. R212. -/
def execTranslationWalkRead (g tk : Nat) (par : Parity) (s : State) : Out := .next (doWalkRead s g tk par)

/-- An access is performed at its point of coherence after invalidations. R217. -/
def execMemAccessPerformed (g tk : Nat) (par : Parity) (s : State) : Out := .next (doMemAccess s g tk par)

/-- A missed line returns and is allocated in the L1. R215. -/
def execL1LineFill (c line : Nat) (par : Parity) (s : State) : Out := .next (doLineFill s c line par)

/-- A cross-half access waits 1 ms on a DOWN link and ends with cause 0x10. R297. -/
def execCrossHalfAccessTimeout (g tk : Nat) (s : State) : Out := .next (doCrossHalfTimeout s g tk)

/-- A mesh flit arrives, its parity is checked and it is replayed on error. R229. -/
def execMeshFlitReceive (g tk : Nat) (good : Bool) (s : State) : Out := .next (doMeshFlit s g tk good)

end Sys2Proof.Machine
end

