-- ==== Sys2Proof/Machine/RegisterRows.lean ====
section
/-! DEFINITION. Register reads and writes that have an effect of their own. A read answers on the read port; a register
of a unit that this build does not have is no register (R3, R49), and its command changes nothing. -/

namespace Sys2Proof.Machine

/-- A read that exists answers its value and leaves what the read changes. -/
def readAnswer (ok : Bool) (r : Word × State) (s : State) : State := if ok then r.2.answer [r.1] else s

/-- A write that exists takes effect. -/
def writeWhere (ok : Bool) (r s : State) : State := if ok then r else s

/-- The number of a stall counter (R235). -/
def stallIndex (eng cause : Nat) : Nat := 16 * eng + cause

/-- Writing CR_EPC keeps ADDR bits and the source's tag. R60. -/
def execCrEpcWrite (g : Nat) (tag : Tag) (v : Word) (s : State) : Out := .next (writeWhere (threadPresent s.build g) (writeEpc s g tag v) s)

/-- Writing CR_ESTAT at S leaves NST, SVI and IMASK[13:12] unchanged. R63. -/
def execCrEstatWrite (g : Nat) (v : Word) (s : State) : Out := .next (writeWhere (threadPresent s.build g) (writeEstat s g v (s.thread g).estat.prv.toNat) s)

/-- W1C write clears floating-point exception flags. R44. -/
def execCrFflagsWrite (g : Nat) (v : Word) (s : State) : Out := .next (writeWhere (threadPresent s.build g) (writeFflags s g v) s)

/-- Reading TL_STAT returns and clears REDIR. R126. -/
def execTlStatRead (c : Nat) (s : State) : Out := .next (readAnswer (corePresent s.build c) (readTlStat s c) s)

/-- W1C write clears SXOVF. R126. -/
def execTlStatWrite (c : Nat) (v : Word) (s : State) : Out := .next (writeWhere (corePresent s.build c) (writeTlStat s c v) s)

/-- Reading VC_STAT returns and clears HOLD. R149. -/
def execVcStatRead (c : Nat) (s : State) : Out := .next (readAnswer (corePresent s.build c) (readVcStat s c) s)

/-- Reading returns and clears the out-of-bounds counters. R189. -/
def execDsOobcntRead (c : Nat) (s : State) : Out := .next (readAnswer (corePresent s.build c) (readOob s c) s)

/-- Reading a stall counter returns and clears it. R235. -/
def execMcStallRead (c eng cause : Nat) (s : State) : Out := .next (readAnswer (corePresent s.build c && decide (eng < 7) && decide (cause ≤ 8)) (readStall s c (stallIndex eng cause)) s)

/-- Writing CLR clears every stall counter of the core. R235. -/
def execMcStallctlClr (c : Nat) (v : Word) (s : State) : Out := .next (writeWhere (corePresent s.build c) (writeStallctl s c v) s)

/-- Reading returns and clears REPLAY. R235. -/
def execMcParcntRead (c : Nat) (s : State) : Out := .next (readAnswer (corePresent s.build c) (readParcnt s c) s)

/-- Reading returns and clears CE and UE. R236. -/
def execHbStatRead (n : Nat) (s : State) : Out := .next (readAnswer (stackPresent s.build n) (readHbStat s n) s)

/-- W1C of CIRQ clears the pending collective interrupt. R263. -/
def execCeBucketWrite (g : Nat) (v : Word) (s : State) : Out := .next (writeWhere (threadPresent s.build g) (writeCeBucket s g v) s)

/-- Reading returns and clears BAD, LATE and DROP. R263. -/
def execCeStatRead (b h : Nat) (s : State) : Out := .next (readAnswer (decide (b < 64) && decide (h < 2)) (readCeStat s b h) s)

/-- Reading returns and clears the drop counters. R287. -/
def execSkRxerrRead (b h : Nat) (s : State) : Out := .next (readAnswer (decide (b < 64) && decide (h < 2)) (readRxerr s b h) s)

/-- Reading returns and clears ABS and OVF. R287. -/
def execSkBcnRead (h : Nat) (s : State) : Out := .next (readAnswer (decide (h < 2)) (readBcn s h) s)

/-- Reading returns and clears the link error counters. R287. -/
def execSkLinkerrRead (p : Nat) (s : State) : Out := .next (readAnswer (decide (p < 24)) (readLinkerr s p) s)

/-- W1C of half-link event bits, clearing interrupt 0x24 when none remain. R307. -/
def execHlEventWrite (h : Nat) (v : Word) (s : State) : Out := .next (writeWhere (decide (h < 2)) (writeHlEvent s h v) s)

/-- W1C of power event bits, clearing interrupt 0x25 when none remain. R307. -/
def execPwEventWrite (h : Nat) (v : Word) (s : State) : Out := .next (writeWhere (decide (h < 2)) (writePwEvent s h v) s)

/-- Arming or changing the timer compare, clearing interrupt 0x20 when false. R307. -/
def execPwTcmpWrite (g : Nat) (v : Word) (s : State) : Out := .next (writeWhere (threadPresent s.build g) (writeTcmp s g v) s)

/-- Reading returns and clears COUNT, ending interrupt 0x21. R341. -/
def execKwDbstatRead (c : Nat) (s : State) : Out := .next (readAnswer (corePresent s.build c) (readDbstat s c) s)

end Sys2Proof.Machine
end

