-- ==== Sys2Proof/Machine/CollEvents.lean ====
section
/-! DEFINITION. The events of the collective engine that are not packets: slots, buckets, windows and publication. -/

namespace Sys2Proof.Machine

/-- A waiting collective command takes a free engine slot and starts. R242. -/
def execCollectiveSlotDequeue (c : Nat) (s : State) : Out := .next (doCollDequeue s c)

/-- A QUEUED bucket enters EXPONENT when a slot and group room are free. R251. -/
def execBucketDequeue (h n : Nat) (s : State) : Out := .next (onHalf h s (doBucketDequeue s h n))

/-- WINDOW expires on a bucket, which ends LATE and the verdict is sent. R255. -/
def execBucketWindowExpiry (h n : Nat) (s : State) : Out := .next (onHalf h s (doBucketWindow s h n))

/-- A CLOSE still open when WINDOW expires completes FAILED. R245. -/
def execCloseWindowExpiry (h n : Nat) (s : State) : Out := .next (onHalf h s (doCloseWindow s h n))

/-- An unmatched send or receive ends LATE when WINDOW expires. R261. -/
def execPostWindowExpiry (h n : Nat) (s : State) : Out := .next (onHalf h s (doPostWindow s h n))

/-- A pgather whose owner is unreachable within WINDOW ends LATE. R260. -/
def execGatherWindowExpiry (h n : Nat) (s : State) : Out := .next (onHalf h s (doGatherWindow s h n))

/-- After CLOSE DONE, PUBLISH digests the copy, sets the stamp and waits for old serves. R257. -/
def execPublishProceed (h n : Nat) (s : State) : Out := .next (onHalf h s (doPublishProceed s h n))

end Sys2Proof.Machine
end

