-- ==== Sys2Proof/Machine/Recovery.lean ====
section
/-! DEFINITION. Stopping and scrubbing: threads halted (R72, R331, R352), queued work dropped (R110), the scrub of a
resource (R333), which bindings a fault stops (R344), rollback (R352), and snapshots (R345-R350, R353, R354). -/

namespace Sys2Proof.Machine

/-! ### Halting -/

/-- A halted thread (R72): IDLE, its tickets abandoned. -/
def Thread.halt (t : Thread) : Thread :=
  { t with run := .idle, trap := none, tickets := [], shadow := none, ending := false, delay := none, rep := none,
           fixed := [], stopped := true }

/-- Drop the queued and uncommitted work of the threads that `p` names (R110, R331, R352); an instruction in execution
commits nothing, and takes back what its beginning changed. -/
def Core.dropWork (k : Core) (p : Nat → Bool) : Core :=
  let k := k.tileQ.foldl (fun k e => if p e.g then k.takeBack e else k) k
  let k := { k with tileQ := k.tileQ.filter (fun e => !p e.g), chainQ := k.chainQ.filter (fun e => !p e.g),
                    descQ := k.descQ.filter (fun e => !p e.g), collQ := k.collQ.filter (fun e => !p e.g) }
  k.syncView

/-- Halt the threads that `p` names and drop their work. -/
def State.haltThreads (s : State) (p : Nat → Bool) : State :=
  (s.mapThreads (fun g t => if p g then t.halt else t)).mapCores (fun _ k => k.dropWork p)

/-- Whether a thread lies on a core of a binding. -/
def State.onBinding (s : State) (b : Nat) (g : Nat) : Bool := decide (s.bindingOf (coreOf g) = some b)

/-- Halt every thread of a binding, and end its collectives without a completion (R352 step 1). -/
def State.haltBinding (s : State) (b : Nat) : State := (s.haltThreads (s.onBinding b)).dropColls b

/-! ### Scrubbing (R333) -/

/-- A scrubbed core: tiles, banks, chain slots and queues empty, the descriptor table reset past every handle it gave
(R167), translations and L1 gone, counters cleared. The binding's and the keeper's registers stay. -/
def Core.scrub (k : Core) : Core :=
  { Core.reset with
    binding := k.binding, press := k.press, phys := k.phys, tcfg := k.tcfg, freeze := k.freeze, tvbase := k.tvbase, mtvdesc := k.mtvdesc
    lanternSp := k.lanternSp
    descs := k.descs.foldl (fun m e =>
      FMap.set DescSlot.reset m e.1 (if e.2.live.isSome then ⟨none, e.2.gen + 1⟩ else e.2)) [] }

/-- Scrub a core with its press (R333). -/
def State.scrubCore (s : State) (c : Nat) : State :=
  let s := s.setCore c (s.core c).scrub
  let s := { s with threads := FMap.clear s.threads (c * 16) (c * 16 + 16) }
  s.scrubRange (pressAddr c 0) 0x200000

/-- Scrub a granule; no L1 keeps a line of it (R333). -/
def State.scrubGranule (s : State) (g : Nat) : State :=
  let lo := g * 2 ^ 30
  (s.scrubRange lo (2 ^ 30)).mapCores (fun _ k => { k with l1 := k.l1.filter (fun l => decide (l * 128 < lo) || decide (lo + 2 ^ 30 ≤ l * 128)) })

/-- The half whose engine speaks for a binding in rollback notices, CELLAR packets and acknowledgements: that of its first
core, half 0 with no core. DESIGN CHOICE: R12 does not say which half's engine does for a binding with cores in both (log
133). -/
def State.homeOf (s : State) (b : Nat) : Nat := halfOfCore ((s.coresOf b).headD 0)

/-- The half that speaks for a binding, with its copies of the tables (R277, R289). -/
def State.home (s : State) (b : Nat) : Half := s.half (s.homeOf b)

/-- VALID := 0 in both banks, on both halves, of the entries in ranges of partner numbers (R333). -/
def State.clearPartners (s : State) (h : Nat) (l : List (Nat × Nat)) : State :=
  s.ctrl h (fun x => l.foldl (fun x r => { x with partners0 := FMap.clear x.partners0 r.1 (r.1 + r.2)
                                                  partners1 := FMap.clear x.partners1 r.1 (r.1 + r.2) }) x)

/-- Groups that a binding has in an engine. -/
def Engine.gidsOf (e : Engine) (b : Nat) : List Nat := (e.groups.filter (fun x => (x.2.map (·.binding)) == some b)).map (·.1)

/-- What an engine knows of the epochs of groups goes, but for CLOSEs that ended DONE at or below step `upTo` (R333, R354). -/
def Engine.forget (e : Engine) (gids : List Nat) (upTo : Option Nat) : Engine :=
  { e with
    buckets := e.buckets.filter (fun k => !gids.contains k.gid), ended := e.ended.filter (fun k => !gids.contains k.gid)
    spoiled := e.spoiled.filter (fun k => !gids.contains k.1), closes := e.closes.filter (fun k => !gids.contains k.gid)
    closed := e.closed.filter (fun k => !gids.contains k.1 || reached upTo k.2) }

/-- The group records of a binding, in both halves' engines, are cleared, with what the engines know of those groups and of
its published copies (R333). -/
def State.clearGroups (s : State) (h b : Nat) : State :=
  s.ctrl h (fun x => { x with eng := { x.eng.forget (x.eng.gidsOf b) none with
    groups := x.eng.groups.filter (fun e => (e.2.map (·.binding)) != some b)
    published := x.eng.published.filter (fun p => decide (p.b ≠ b)) } })

/-- Scrub every core and granule of a binding (R354 step 1), but for the granules it has granted: they hold its clients'
snapshots (R346; log 34). -/
def State.scrubBinding (s : State) (b : Nat) : State :=
  ((s.granulesOf b).filter (fun g => (FMap.get none s.granted g).isNone)).foldl State.scrubGranule
    ((s.coresOf b).foldl State.scrubCore s)

/-! ### Which bindings a fault stops (R344) -/

def State.liveBindings (s : State) : List Nat := (s.bindings.map (·.1)).filter (fun b => (s.binding b).live)

/-- Whether a binding holds a core or granule that `pc` or `pg` names. -/
def State.holdsAny (s : State) (b : Nat) (pc pg : Nat → Bool) : Bool :=
  (s.coresOf b).any pc || (s.granulesOf b).any pg

/-- Whether an entry's routes use a port as their first hop. -/
def Partner.firstHop (p : Partner) (port : Nat) : Bool := p.valid && p.paths.any (fun l => l.head? == some port)

/-- Whether a binding has a partner entry with this first hop, in either bank. -/
def State.routesVia (s : State) (b port : Nat) : Bool :=
  (s.half0.partners0 ++ s.half0.partners1 ++ s.half1.partners0 ++ s.half1.partners1).any
    (fun e => decide (e.2.bind = b) && e.2.firstHop port)

/-- Die of a granule. -/
def dieOfGranule (g : Nat) : Nat := dieOfStack (stackOfGranule g)

/-- Whether a half has a keeper beside keeper `k`: the standby, or the active one that stays when the other fails (R330, R344). -/
def Half.otherKeeper (x : Half) (k : Nat) : Bool :=
  let o := if k = 0 then x.keeper1 else x.keeper0
  o == .standby || o == .active

/-- The bindings that a permanent fault of a unit stops (R344). -/
def State.stoppedBy (s : State) (u : BitVec 16) : List Nat :=
  let i := unitIdx u
  let h := unitHalf u
  let inHalf := fun b => s.holdsAny b (fun c => decide (halfOfCore c = h)) (fun g => decide (halfOfStack (stackOfGranule g) = h))
  s.liveBindings.filter (fun b =>
    match unitClass u with
    | 0 => (s.coresOf b).contains i
    | 1 => (s.granulesOf b).any (fun g => decide (stackOfGranule g = i))
    | 2 => s.routesVia b i
    | 3 => s.holdsAny b (fun c => decide (halfOfCore c = 0)) (fun g => decide (halfOfStack (stackOfGranule g) = 0))
        && s.holdsAny b (fun c => decide (halfOfCore c = 1)) (fun g => decide (halfOfStack (stackOfGranule g) = 1))
    | 4 => inHalf b && !(s.half h).otherKeeper (i % 2)
    | 5 => inHalf b
    | 6 => s.holdsAny b (fun c => decide (dieOfCore c = i)) (fun g => decide (dieOfGranule g = i))
    | 8 => inHalf b
    | _ => false)

/-! ### Rollback (R352) -/

/-- The group record that a binding's cellar group names, whether or not the binding is stopped. -/
def State.cellarGroup (s : State) (b : Nat) : Option (Nat × Group) :=
  match (s.binding b).cfg with
  | none => none
  | some cfg =>
    match FMap.get none (s.home b).eng.groups cfg.gid with
    | some g => if g.binding = b then some (cfg.gid, g) else none
    | none => none

/-- A rollback notice to every other member of the cellar group (R352 step 4). -/
def State.notifyRollback (s : State) (b : Nat) : State :=
  match s.cellarGroup b with
  | none => s
  | some (gid, g) =>
    ((upto g.members.length).filter (· ≠ g.self)).foldl (fun s m =>
      s.sendMember (s.homeOf b) b g m .verdict 0 0 (.verdict gid 0 (.rollback g.self))) s

/-- A slot whose drain is abandoned becomes empty (R352 step 3). -/
def Binding.abandon (x : Binding) : Binding :=
  let clear := fun (q : Option SnapSlot) => if (q.map (·.state)) = some 1 then none else q
  { x with snap := none, slot0 := clear x.slot0, slot1 := clear x.slot1 }

/-- Steps 1 to 3 of R352, and the notice of step 4. A stopped binding is not stopped again, but a restore of it ends
(R356). -/
def State.stopBinding (s : State) (b : Nat) : State :=
  let x := s.binding b
  if x.stop then
    (if x.phase = .restore then s.setBinding b { x with phase := .stopped, agreed := none } else s)
  else
    let s := s.haltBinding b
    let s := s.setBinding b { (s.binding b).abandon with stop := true, phase := .stopped }
    s.notifyRollback b

/-- The granules that binding `gb` of this device has granted to a client device and binding, in number order. -/
def State.grantedTo (s : State) (gb : Nat) (dev : BitVec 20) (b : Nat) : List Nat :=
  let n := ((s.home gb).partners0.find? (fun e => e.2.valid && decide (e.2.bind = gb ∧ e.2.ddev = dev ∧ e.2.dbind = b))).map (·.1)
  (upto 768).filter (fun g => decide ((FMap.get none s.granted g).isSome) && (n.map (fun n => (FMap.get [] (s.binding gb).grants n).contains g)).getD false)

/-- The granules of the reserve that a granting device and binding keep for a client; those of another device are free
(R346; log 33). -/
def State.reserveOf (s : State) (r : RestoreFrom) : List Nat :=
  if r.gdev = s.devid then s.grantedTo r.gbind r.cdev r.cbind else Config.peerReserve r.gdev.toNat r.gbind r.cdev.toNat r.cbind

/-- The reserve that a binding's cellar configuration would name with partner `n` (R345). -/
def State.reserveAt (s : State) (b n : Nat) : Option RestoreFrom :=
  let p := FMap.get Partner.invalid (s.home b).partners0 n
  if p.valid then some ⟨p.ddev, p.dbind, s.devid, b⟩ else none

/-- The reserve of a binding's own snapshots. -/
def State.ownReserve (s : State) (b : Nat) : Option RestoreFrom := (s.binding b).cfg.bind (fun c => s.reserveAt b c.partner)

/-- The snapshots that a fault of a stack loses at a reserve on this device (R356). -/
def State.loseReserves (s : State) (u : BitVec 16) : State :=
  if unitClass u ≠ 1 then s
  else s.mapBindings (fun b x =>
    if (s.ownReserve b).any (fun r => decide (r.gdev = s.devid) && (s.reserveOf r).any (fun g => decide (stackOfGranule g = unitIdx u))) then
      { x with slot0 := none, slot1 := none, lvalid := false, lost := x.lost || x.lvalid }
    else x)

/-- A permanent fault of a unit stops the bindings of R344, whose repair then runs, and each stops the members of its
cellar group (R352, R359; log 35). -/
def doBindingStop (s : State) (u : BitVec 16) : State :=
  if unitPresent s.build u then
    ((s.stoppedBy u).foldl (fun s b =>
      let s := s.stopBinding b
      s.setBinding b { s.binding b with phase := .repair, byReset := false, stranded := false }) s).loseReserves u
  else s

/-! ### Snapshots (R345-R350) -/

/-- Whether PAR admits a step (R345). -/
def parAdmits (par step : Nat) : Bool := decide (par = 0) || (decide (par = 1) && decide (step % 2 = 0)) || (decide (par = 2) && decide (step % 2 = 1))

/-- The leaves of a binding's translation tables, as a walk of the root finds them (R212, R213). -/
def State.tableLeaves (s : State) : Nat → Nat → Nat → List Leaf
  | 0, tb, va => (upto 512).filterMap (fun i => match walkEntry (s.readWord (tb + 8 * i)) 0 (va + i * 2 ^ 12) with
    | .leaf l => some l
    | _ => none)
  | n + 1, tb, va => (upto 512).flatMap (fun i => match walkEntry (s.readWord (tb + 8 * i)) (n + 1) (va + i * 2 ^ (12 + 9 * (n + 1))) with
    | .leaf l => [l]
    | .table t => s.tableLeaves n t (va + i * 2 ^ (12 + 9 * (n + 1)))
    | .bad => [])

/-- A partner entry as R277 lays it out. -/
def Partner.image (p : Partner) : List Byte :=
  let path := fun (l : List Nat) => fieldWord ((l.length, 40, 4) :: l.zipIdx.map (fun e => (e.1, 35 - 5 * e.2, 5)))
  leBytes 8 (fieldWord [(boolNat p.valid, 63, 1), (p.bind, 57, 6), (p.dbind, 51, 6), (p.ddev.toNat, 31, 20), (p.np1, 29, 2),
    (boolNat p.adpt, 28, 1), (p.pdep, 24, 4)])
    ++ leBytes 24 (fieldWord (p.paths.zipIdx.map (fun e => (path e.1, 44 * e.2, 44))))

/-- A group record as R237 lays it out. -/
def Group.image (gid : Nat) (g : Group) : List Byte :=
  leBytes 8 (fieldWord [(g.window, 48, 16), (g.bktdef, 40, 8), (g.hdepth, 36, 4), (g.members.length, 12, 18), (gid, 0, 12)])
    ++ leBytes 8 (fieldWord [(g.parts.length, 32, 17), (g.self, 0, 18)])
    ++ g.members.flatMap (fun m => leBytes 8 (fieldWord [(m.ccnt, 20, 8), (m.role, 18, 2), (m.partner, 0, 17)]))
    ++ g.parts.flatMap (fun x => leBytes 8 (fieldWord [(x.elems, 32, 32), (x.owner, 0, 18)]))

/-- A stamp (R195) with its published copy's location. -/
def Published.image (p : Published) : List Byte :=
  stampOf p.step p.digest p.shard ++ leBytes 8 p.addr.toNat ++ leBytes 8 p.pstride ++ leBytes 8 p.saddr.toNat
    ++ leBytes 8 (fieldWord [(p.gid, 16, 12), (p.planes, 8, 8), (p.nfmt, 0, 8)])

/-- The bytes of a binding record: ACT, partner entries by number with both banks, groups, table pages, stamps. R347 names
this content and not its layout (log 46). -/
def State.recordImage (s : State) (b : Nat) (d : SnapSlot) : List Byte :=
  leBytes 8 (boolNat d.ptAct) ++ d.partners.flatMap (fun e => leBytes 8 e.1 ++ e.2.1.image ++ e.2.2.image)
    ++ d.groups.flatMap (fun e => e.2.image e.1) ++ s.readBytes (s.binding b).ttRoot (4096 * (s.binding b).ttUsed)
    ++ d.stamps.flatMap Published.image

/-- The binding record (R347): both banks of its partner entries with ACT, its groups, its translation tables, its
stamps. -/
def State.bindingRecord (s : State) (b step : Nat) : SnapSlot :=
  let x := s.binding b
  let h := s.home b
  let d : SnapSlot :=
    { state := 1, step := step, data := [], image := []
      partners := ((h.partners0.filter (fun e => decide (e.2.bind = b))).map (fun e => (e.1, e.2, FMap.get Partner.invalid h.partners1 e.1)))
      ptAct := x.ptAct
      groups := h.eng.groups.filterMap (fun e => e.2.bind (fun g => if g.binding = b then some (e.1, g) else none))
      maps := if x.ttEn then s.tableLeaves 3 x.ttRoot 0 else []
      stamps := (s.half0.eng.published ++ s.half1.eng.published).filter (fun p => decide (p.b = b)) }
  { d with image := s.recordImage b d }

/-- A snapshot begins (R349): the binding is idle in the cellar, the step's CLOSE has ended DONE, K divides it, and no snapshot
of it or of a later step has been captured. -/
def doSnapshotStart (s : State) (b : Nat) (step : Word) : State :=
  let x := s.binding b
  match x.cfg with
  | none => s
  | some cfg =>
    if x.live && !x.stop && decide (x.phase = .idle) && s.closedStep cfg.gid step.toNat && decide (step.toNat % cfg.k = 0)
        && !reached x.captured step.toNat then
      s.setBinding b { x with phase := .capture, snap := some (s.bindingRecord b step.toNat) }
    else s

/-- Where a captured virtual range lies; nothing where a page of it is not mapped. -/
def State.captureRegion (s : State) (b : Nat) (r : Region) : List Byte :=
  match (s.coresOf b).head? with
  | none => []
  | some c =>
    match s.xlatRun c 1 .rd r.va r.len with
    | (.ok ps, _) => s.readPieces ps
    | (.error _, _) => []

/-- The slot that a drain fills: the one that does not hold the latest complete snapshot (R347). -/
def Binding.drainSlot (x : Binding) : Bool := if x.lvalid then !x.slotSel else false

def Binding.setSlot (x : Binding) (k : Bool) (q : Option SnapSlot) : Binding :=
  if k then { x with slot1 := q } else { x with slot0 := q }

/-- Bytes of a slot's header (R347). -/
def slotHeader : Nat := 4096

/-- SHDR0 (R347). -/
def shdr0 (state b : Nat) (dev : BitVec 20) : Nat := fieldWord [(state, 62, 2), (b, 56, 6), (dev.toNat, 36, 20)]

/-- CRC-32C of each 64 KiB of a slot's data, as many as the header has room for (R347; log 46). -/
def slotCrcs (l : List Byte) : List (BitVec 32) :=
  (upto (min 1008 (cdiv l.length 65536))).map (fun i => crc32c ((l.drop (65536 * i)).take 65536))

/-- What stands behind the header of a slot: the region data in list order, then the binding record (R347). -/
def SnapSlot.bytes (d : SnapSlot) : List Byte := (d.data.map (·.2)).flatten ++ d.image

/-- The header of a slot (R347). -/
def SnapSlot.header (d : SnapSlot) (b : Nat) (dev : BitVec 20) : List Byte :=
  let l := leBytes 8 (shdr0 d.state b dev) ++ leBytes 8 d.step ++ leBytes 8 d.bytes.length ++ List.replicate 40 0#8
    ++ (slotCrcs d.bytes).flatMap (fun c => leBytes 4 c.toNat)
  l ++ List.replicate (slotHeader - l.length) 0#8

/-- Where byte `o` of a slot lies in a reserve's granules: the two slots halve them (R347; log 33). -/
def slotAddr (gs : List Nat) (k : Bool) (o : Nat) : Nat :=
  let at' := (if k then gs.length * 2 ^ 29 else 0) + o
  gs.getD (at' / 2 ^ 30) 0 * 2 ^ 30 + at' % 2 ^ 30

/-- CELLAR packets of a snapshot (R271, R349 step 3): bytes from `lo` of a slot on, 4,096 at most in each, to the reserve. The
snapshot number is the low half of the step (log 33). -/
def State.sendCellar (s : State) (b partner step : Nat) (k : Bool) (lo : Nat) (l : List Byte) : State :=
  let h := s.homeOf b
  let gs := ((s.reserveAt b partner).map s.reserveOf).getD []
  s.setEngine h { s.engine h with
    outbox := (s.engine h).outbox ++ (chunks4k l).map (fun c =>
      ⟨b, partner, .cellar, wordAt (slotAddr gs k (lo + c.1) % 2 ^ 44), BitVec.ofNat 16 step, .bytes c.2⟩) }

/-- Capture ends (R349, R350): the regions that PAR admits stand in the staging granules, the drain begins, and a CLOSE
that waited for the capture may end. -/
def doCaptureComplete (s : State) (b : Nat) : State :=
  let x := s.binding b
  match x.cfg, x.snap with
  | some cfg, some sn =>
    if x.phase = .capture then
      let data := (cfg.regions.filter (fun r => parAdmits r.par sn.step)).map (fun r => (r.va, s.captureRegion b r))
      let bytes := (data.map (·.2)).flatten
      let s := s.writeBytes 512 (cfg.stageFirst * 2 ^ 30) bytes
      let sn := { sn with data := data }
      let k := x.drainSlot
      let s := s.setBinding b ({ x with phase := .drain, snap := some sn, captured := some sn.step }.setSlot k (some sn))
      ((s.sendCellar b cfg.partner sn.step k 0 (sn.header b s.devid)).sendCellar b cfg.partner sn.step k slotHeader sn.bytes).settleCloses
    else s
  | _, _ => s

/-- Every CELLAR packet of a binding has been acknowledged (R348). -/
def State.drained (s : State) (b : Nat) : Bool :=
  !(s.half0.eng.outbox ++ s.half1.eng.outbox).any (fun o => decide (o.b = b) && o.ptype == .cellar)
    && !s.flows.any (fun f => decide (f.key.local' = b) && f.key.cls == .cellar && !f.unacked.isEmpty)

/-- The drain ends (R348): STATE is written complete once every byte is at the reserve; LSTEP names the snapshot. -/
def doDrainComplete (s : State) (b : Nat) : State :=
  let x := s.binding b
  match x.cfg, x.snap with
  | some cfg, some sn =>
    if x.phase = .drain && s.drained b then
      let k := x.drainSlot
      let x := x.setSlot k (some { sn with state := 2 })
      let s := s.setBinding b { x with
        phase := .idle, snap := none, lstep := BitVec.ofNat 40 sn.step, slotSel := k, lvalid := true, drainedTo := some sn.step }
      (s.sendCellar b cfg.partner sn.step k 0 (leBytes 8 (shdr0 2 b s.devid))).settleCloses
    else s
  | _, _ => s

/-- Bytes of a slot as a reserve on this device holds them. -/
def State.slotBytes (s : State) (gs : List Nat) (k : Bool) (o n : Nat) : List Byte :=
  (upto n).map (fun i => (s.readBytes (slotAddr gs k (o + i)) 1).getD 0 0#8)

/-- Whether a slot of a reserve passes the check of its CRCs (R348): against the reserve's bytes where it is on this device,
free where it is not (log 33). -/
def State.slotGood (s : State) (r : RestoreFrom) (k : Bool) (d : SnapSlot) : Bool :=
  if r.gdev = s.devid then
    let at' := s.slotBytes (s.reserveOf r) k
    let crcs := slotCrcs (at' slotHeader d.bytes.length)
    decide (at' 0 24 = (d.header r.cbind r.cdev).take 24 ∧ at' 64 (4 * crcs.length) = crcs.flatMap (fun c => leBytes 4 c.toNat))
  else Config.peerSlotGood r.gdev.toNat r.gbind r.cdev.toNat r.cbind d.step

/-- The region data of a slot: what the reserve holds, where it is on this device. -/
def State.slotData (s : State) (r : RestoreFrom) (k : Bool) (d : SnapSlot) : List (Word × List Byte) :=
  if r.gdev = s.devid then
    (d.data.foldl (fun a e => (a.1 ++ [(e.1, s.slotBytes (s.reserveOf r) k (slotHeader + a.2) e.2.length)], a.2 + e.2.length)) ([], 0)).1
  else d.data

/-- The complete slot that holds a step and passes its check, with its number; step 0 means the latest (R348, R358). -/
def State.slotOf (s : State) (r : RestoreFrom) (x : Binding) (step : Nat) : Option (Bool × SnapSlot) :=
  let ok := fun (k : Bool) => ((if k then x.slot1 else x.slot0).filter (fun d =>
    decide (d.state = 2) && (decide (step = 0) || decide (d.step = step)) && s.slotGood r k d)).map (fun d => (k, d))
  (ok x.slotSel).orElse (fun _ => ok (!x.slotSel))

/-- s* is the smallest LSTEP (R353); with AUTO the restore begins at once. A binding whose repair found no spare waits for
`RESTORE` (R358). -/
def doLstepAgreement (s : State) (b : Nat) (others : List Nat) : State :=
  let x := s.binding b
  if x.stop ∧ x.lvalid ∧ x.phase = .stopped ∧ !x.stranded then
    let m := others.foldl min x.lstep.toNat
    let auto := (x.cfg.map (·.auto)).getD false
    let s := s.setBinding b { x with agreed := some m, phase := if auto then .restore else x.phase, keepnet := if auto then false else x.keepnet }
    if auto then s.scrubBinding b else s
  else s

/-- Write a binding record back (R354 step 2): both banks, the active bank, groups, stamps. What came after the snapshot goes
first (R328). -/
def State.restoreRecord (s : State) (b : Nat) (d : SnapSlot) : State :=
  let h := s.homeOf b
  let put := fun (x : Half) => { x with
    partners0 := d.partners.foldl (fun m e => FMap.set Partner.invalid m e.1 e.2.1) x.partners0
    partners1 := d.partners.foldl (fun m e => FMap.set Partner.invalid m e.1 e.2.2) x.partners1
    eng := { x.eng with groups := d.groups.foldl (fun m e => FMap.set none m e.1 (some e.2)) x.eng.groups } }
  let s := ((s.clearPartners h (s.binding b).ranges).clearGroups h b).ctrl h put
  let s := s.setBinding b { s.binding b with ptAct := d.ptAct }
  s.setEngine h { s.engine h with published := (s.engine h).published ++ d.stamps }

/-- Step 3 of R354: every group of the binding has the open epoch (s*, 0xFF), so that a later step may open; what the engines
know of later epochs goes. -/
def State.restoreEpochs (s : State) (b step : Nat) : State :=
  s.ctrl (s.homeOf b) (fun h => { h with eng := { h.eng.forget (h.eng.gidsOf b) (some step) with
    groups := h.eng.groups.map (fun e => (e.1, e.2.map (fun g => if g.binding = b then { g with epoch := some (step, 0xFF), opened := false } else g))) } })

end Sys2Proof.Machine
end

