-- ==== Sys2Proof/Machine/Tables.lean ====
section
/-! DEFINITION. A binding's translation tables as the keeper writes them (R212, R213, R336): the table area, map records,
and the removal of what maps a granule that leaves. Which pages of the area the keeper uses is the model's choice: they
follow one another from the area's start, the root first (log 36). -/

namespace Sys2Proof.Machine

/-- The granule whose top 64 MiB is a binding's table area: its lowest-numbered one that it has not granted (R213). -/
def State.tableGranule (s : State) (b : Nat) : Option Nat :=
  ((s.granulesOf b).filter (fun g => (FMap.get none s.granted g).isNone)).head?

def areaOf (g : Nat) : Nat := g * 2 ^ 30 + (2 ^ 30 - 2 ^ 26)
/-- Pages of a table area. -/
def areaPages : Nat := 16384

/-- The level of a leaf's page size (R212). -/
def levelOfSize (size : Nat) : Nat := if size = 2 ^ 30 then 2 else if size = 2 ^ 21 then 1 else 0

/-- A leaf entry (R212). -/
def leafEntry (l : Leaf) : Word := wordFields [(1, 63), (1, 62), (l.pa / 4096 % 2 ^ 32, 12), (l.perm.toNat, 2)]
/-- A table entry (R212). -/
def tableEntry (a : Nat) : Word := wordFields [(1, 63), (a / 4096 % 2 ^ 32, 12)]

def State.putEntry (s : State) (a : Nat) (e : Word) : State := s.writeNat 512 a 8 e.toNat

/-- Write an entry of level `tgt` for `va`, taking new tables from the area as needed; none where the area is full or a
larger page lies in the way. -/
def State.mapAt (s : State) (b va tgt : Nat) (e : Word) : Nat → Nat → Option State
  | 0, tb => some (s.putEntry (entryAddr tb 0 va) e)
  | lv + 1, tb =>
    let a := entryAddr tb (lv + 1) va
    if lv + 1 = tgt then some (s.putEntry a e)
    else match walkEntry (s.readWord a) (lv + 1) va with
      | .table t => s.mapAt b va tgt e lv t
      | .leaf _ => none
      | .bad =>
        let x := s.binding b
        let t := x.ttRoot + 4096 * x.ttUsed
        if x.ttUsed ≥ areaPages then none
        else (((s.scrubRange t 4096).setBinding b { x with ttUsed := x.ttUsed + 1 }).putEntry a (tableEntry t)).mapAt b va tgt e lv t

/-- Map one page. -/
def State.mapLeaf (s : State) (b : Nat) (l : Leaf) : Option State :=
  s.mapAt b l.va (levelOfSize l.size) (leafEntry l) 3 (s.binding b).ttRoot

/-- Unmap one page. -/
def State.unmapLeaf (s : State) (b : Nat) (l : Leaf) : State :=
  (s.mapAt b l.va (levelOfSize l.size) 0 3 (s.binding b).ttRoot).getD s

/-- The pages that a binding maps. -/
def State.leavesOf (s : State) (b : Nat) : List Leaf :=
  if (s.binding b).ttEn then s.tableLeaves 3 (s.binding b).ttRoot 0 else []

/-- Leaves go from the translation caches of the binding's cores (R213, R336). -/
def State.flushLeaves (s : State) (b : Nat) (p : Leaf → Bool) : State :=
  s.mapCores (fun _ k => if k.binding = some b then { k with tcache := k.tcache.filter (fun l => !p l) } else k)

/-- Whether a binding may map bytes of HBM: they lie in a granule that it holds and has not granted, outside its table area
(R213, R346). -/
def State.mayMap (s : State) (b pa size : Nat) : Bool :=
  decide (s.granOwner (pa / 2 ^ 30) = some b) && (FMap.get none s.granted (pa / 2 ^ 30)).isNone
    && !((s.tableGranule b).map areaOf).any (fun a => decide (a < pa + size) && decide (pa < a + 2 ^ 26))

/-- An access that is being translated, or was translated to an address that `hit` names. -/
def Access.stale (a : Access) (hit : Nat → Bool) : Bool :=
  match a.phase with
  | .walk _ _ => true
  | .ready pa => hit pa
  | _ => false

/-- Accesses below M of a binding's threads that are on the way are translated anew where the tables no longer give what they
found (R213). -/
def State.retranslate (s : State) (b : Nat) (hit : Nat → Bool) : State :=
  s.mapThreads (fun g t =>
    if s.bindingOf (coreOf g) = some b then
      { t with tickets := t.tickets.map (fun e => (e.1, { e.2 with ops := e.2.ops.map (fun o => match o.kind with
        | .acc a => if decide (a.prv ≠ 3) && a.stale hit then { o with kind := .acc { a with phase := s.beginAccess g a.op a.va a.prv } } else o
        | _ => o) })) }
    else t)

/-- Tables written anew in the binding's present table area, mapping what of `l` the binding may map; no tables without a
granule (R213). -/
def State.buildTables (s : State) (b : Nat) (l : List Leaf) : State :=
  match s.tableGranule b with
  | none => s.setBinding b { s.binding b with ttEn := false, ttRoot := 0, ttUsed := 0 }
  | some g =>
    let s := (s.scrubRange (areaOf g) 4096).setBinding b { s.binding b with ttEn := true, ttRoot := areaOf g, ttUsed := 1 }
    ((l.filter (fun x => s.mayMap b x.pa x.size)).foldl (fun s x => (s.mapLeaf b x).getD s) s).retranslate b (fun _ => false)

/-- Whether a leaf's page lies in a granule. -/
def Leaf.inGranule (l : Leaf) (g : Nat) : Bool := decide (l.pa / 2 ^ 30 = g)

/-- Granules leave a binding's translation (R213): every leaf that maps a page in them goes, from the tables, from the caches
and from the accesses on the way. -/
def State.unmapGranules (s : State) (b : Nat) (gs : List Nat) : State :=
  let hit := fun (l : Leaf) => gs.any l.inGranule
  ((((s.leavesOf b).filter hit).foldl (fun s l => s.unmapLeaf b l) s).flushLeaves b hit).retranslate b (fun pa => gs.contains (pa / 2 ^ 30))

/-- After a change of the granules a binding holds, its table area lies in the lowest-numbered one (R213). -/
def State.settleTables (s : State) (b : Nat) (leaves : List Leaf) : State :=
  if (s.binding b).ttEn ∧ (s.tableGranule b).map areaOf = some (s.binding b).ttRoot then s
  else s.buildTables b leaves

/-! ### `MAP` (R336) -/

/-- A map record. -/
structure MapRec where
  va : Nat
  pa : Nat
  size : Nat
  perm : BitVec 4
  on : Bool
deriving DecidableEq, Repr

def sizeOfCode (n : Nat) : Nat := if n = 0 then 2 ^ 12 else if n = 1 then 2 ^ 21 else 2 ^ 30

/-- Records of BUF. -/
def mapRecs (l : List Byte) (n : Nat) : List MapRec :=
  (upto n).map (fun i =>
    let w := BitVec.ofNat 64 (bytesAt l (16 * i + 8) 8)
    ⟨bytesAt l (16 * i) 8, fld w 12 32 * 4096, sizeOfCode (fld w 10 2), BitVec.ofNat 4 (fld w 2 4), bitAt w 0⟩)

/-- Whether a record keeps the zero fields and ranges of R336: the byte offset of a field that does not, in its record. -/
def mapRecBad (l : List Byte) (i : Nat) : Option Nat :=
  let va := bytesAt l (16 * i) 8
  let w := BitVec.ofNat 64 (bytesAt l (16 * i + 8) 8)
  let size := sizeOfCode (fld w 10 2)
  if va % size ≠ 0 ∨ va ≥ 2 ^ 48 ∨ (va < 0x0E0040000000 ∧ 0x0E0000000000 < va + size) then some 0
  else if fld w 44 20 ≠ 0 ∨ fld w 10 2 = 3 ∨ fld w 6 4 ≠ 0 ∨ bitAt w 1 ∨ fld w 12 32 * 4096 % size ≠ 0 then some 8
  else none

def Leaf.meets (l : Leaf) (va size : Nat) : Bool := decide (l.va < va + size) && decide (va < l.va + l.size)

/-- One record against the pages mapped so far: the pages after it, or the refusal (R336). -/
def State.mapStep (s : State) (b : Nat) (leaves : List Leaf) (r : MapRec) : Option (List Leaf) :=
  if leaves.any (fun l => l.meets r.va r.size && decide (l.size ≠ r.size)) then none
  else if r.on then
    (if s.mayMap b r.pa r.size then
      some (⟨r.va, r.size, r.pa, r.perm⟩ :: leaves.filter (fun l => decide (l.va ≠ r.va)))
    else none)
  else if leaves.any (fun l => decide (l.va = r.va)) then some (leaves.filter (fun l => decide (l.va ≠ r.va)))
  else none

/-- Every record in order (R336). -/
def State.mapPlan (s : State) (b : Nat) (rs : List MapRec) : Option (List Leaf) :=
  rs.foldl (fun a r => a.bind (fun l => s.mapStep b l r)) (some (s.leavesOf b))

/-- Write the records; none where the table area cannot hold the tables needed. -/
def State.mapApply (s : State) (b : Nat) (rs : List MapRec) : Option State :=
  (rs.foldl (fun a r => a.bind (fun (s : State) =>
    if r.on then s.mapLeaf b ⟨r.va, r.size, r.pa, r.perm⟩ else some (s.unmapLeaf b ⟨r.va, r.size, r.pa, 0⟩))) (some s)).map
    (fun s => s.flushLeaves b (fun l => rs.any (fun r => l.meets r.va r.size)))

end Sys2Proof.Machine
end

