-- ==== Sys2Proof/Machine/Fabric.lean ====
section
/-! DEFINITION. The Skeur fabric: ports and flits (R265-R270), flows (R272), acceptance (R273), discovery (R274-R276), path
choice (R281), forwarding and combining (R282-R284), and what each kind of packet does where it arrives. -/

namespace Sys2Proof.Machine

/-! ### Ports -/

/-- The half of a port; 24 and 25 name the loopback of half 0 and 1 (R277: an own-device path with RLEN = 0). -/
def portHalf (p : Nat) : Nat := if p < 24 then p / 12 else p - 24

/-- A port that exchanges flits (R268, R275, R276). -/
def Port.trained (p : Port) : Bool :=
  p.state == .up || p.state == .linkOnly || p.state == .miswired || p.state == .mismatch || p.state == .drained

/-- AON cycles in a second (R299). -/
def aonSecond : Nat := 25000000

/-- One more event in a list of times, of which those of the last second stay. -/
def within1s (l : List Nat) (now : Nat) : List Nat := l.filter (fun t => decide (now < t + aonSecond)) ++ [now]

/-- The key of a port fault (R285): the lower DEVID of the two ends and that end's port. -/
def State.portKey (s : State) (p : Nat) (fclass : Nat) : BeaconKey :=
  let x := s.port p
  if x.ndev.toNat < s.devid.toNat then ⟨x.ndev, unitId 2 x.nport.toNat, x.lepoch, BitVec.ofNat 8 fclass, 0⟩
  else ⟨s.devid, unitId 2 p, x.lepoch, BitVec.ofNat 8 fclass, 0⟩

/-- A lane is marked failed (R270): the port carries no traffic, and both ends' key goes out in a beacon. -/
def State.failLane (s : State) (p lane : Nat) : State :=
  let x := s.port p
  let h := portHalf p
  let s := s.setPort p { x with state := .failed, retraining := false, tries := 0, lfail := satAdd x.lfail 1,
                                lmask := x.lmask &&& ~~~(BitVec.ofNat 5 (2 ^ lane)) }
  let s := s.setHalf h ((s.half h).addFault ⟨unitId 2 p, x.lepoch, none, some lane⟩)
  s.originate h (s.portKey p 2)

/-- A packet dropped for its ECRC, or under R273, at half `h` (R287). -/
def State.countEcrc (s : State) (b h : Nat) : State :=
  let x := s.binding b
  s.setBinding b { x with ecrc := FMap.set 0 x.ecrc h (satAdd (FMap.get 0#32 x.ecrc h) 1) }
def State.countUnauth (s : State) (b h : Nat) : State :=
  let x := s.binding b
  s.setBinding b { x with unauth := FMap.set 0 x.unauth h (satAdd (FMap.get 0#32 x.unauth h) 1) }

/-- Flits that an ACK frees: everything up to the flit with that SEQ (R266, R268). -/
def freeAcked (l : List Flit) (ack : BitVec 12) : List Flit :=
  match l.findIdx? (fun f => f.seq = ack) with
  | some i => l.drop (i + 1)
  | none => l

/-- What the control word of a good flit does to the sender (R266, R268): frees flits, returns credits, and asks for a
replay of every flit from ACK + 1; a flit whose eighth replay has failed makes the port retrain. -/
def Port.control (x : Port) (f : Flit) : Port :=
  let buf := freeAcked x.replayBuf f.ack
  let x := { x with replayBuf := buf, tries := if buf.length < x.replayBuf.length then 0 else x.tries
                    credits := FMap.set 0 x.credits f.cvc.toNat (x.credit f.cvc.toNat + f.cret.toNat) }
  if f.nak && !buf.isEmpty then
    (if x.tries ≥ 8 then { x with tries := 0, retraining := true }
     else { x with replay := satAdd x.replay 1, tries := x.tries + 1, wire := x.wire ++ buf })
  else x

/-- A flit is discarded and answered with NAK at once, in a flit of its own (R268). -/
def Port.sendNak (x : Port) : Port := { x with nakDue := true, awaiting := true }.sendFlit []

/-- The packets that the content of a good flit completes (R266). -/
def Port.arrive (x : Port) (f : Flit) : List Packet × List Byte :=
  takePackets ((x.rxBytes.length + f.content.length) / 8 + 1) (x.rxBytes ++ f.content)

/-- A flit arrives (R268). A bad one is discarded and answered with NAK, and its replay counts against its lane, 16 within a
second failing it (R270); while the replay is on its way, flits other than the one asked for are what followed it (log 132).
LINK packets alone pass a port that is not UP, and a reserved TYPE is dropped and counted (R271, R273, R274). What is due
back, credits or an acknowledgement, leaves with the next traffic, or with an empty flit if there is none. -/
def doFabricFlit (s : State) (p : Nat) (f : Flit) : State :=
  let x := s.port p
  let now := (s.half (portHalf p)).time.toNat
  if decide (p ≥ 24) || !x.trained || x.retraining then s
  else if !f.crcOk then
    if x.awaiting && f.seq != x.rxSeq then s
    else
      let times := within1s (FMap.get [] x.laneErr f.lane) now
      let s := s.setPort p { x with laneErr := FMap.set [] x.laneErr f.lane times }.sendNak
      if times.length ≥ 16 then s.failLane p f.lane else s
  else if f.seq ≠ x.rxSeq then (if x.awaiting then s else s.setPort p x.sendNak)
  else
    let (l, rest) := x.arrive f
    let mine := l.filter (fun (k : Packet) => x.state == .up || x.state == .drained || k.ptype == PType.link)
    let y : Port := ({ x with rxSeq := x.rxSeq + 1, awaiting := false, rxBytes := rest, rxQ := x.rxQ ++ mine.filter (fun (k : Packet) => k.ptype != PType.reserved) }.control f).pump
    let y := if !y.retraining && y.txSeq == x.txSeq && (!l.isEmpty || (upto 4).any (fun v => decide (y.owes v ≠ 0))) then y.sendFlit [] else y
    (mine.filter (fun (k : Packet) => k.ptype == PType.reserved && decide (k.hops.length ≤ k.hidx))).foldl (fun s k => s.countUnauth k.dbind (portHalf p)) (s.setPort p y)

/-- A retrain ends, whichever end began it (R268, R270): what was not acknowledged is sent again and traffic resumes with a
new link epoch, or a lane failed training. -/
def doRetrainComplete (s : State) (p : Nat) (bad : Option Nat) : State :=
  let x := s.port p
  if p ≥ 24 ∨ x.trained = false then s
  else match bad with
    | some l => s.failLane p l
    | none => s.setPort p { x with retraining := false, awaiting := false, tries := 0, wire := x.wire ++ x.replayBuf
                                   lepoch := x.lepoch + 1, retrain := satAdd x.retrain 1 }.pump

/-- The next active lane in rotation (R269). -/
def Port.rotateLane (x : Port) : Option Nat := ((upto 5).map (fun i => (x.nextLane + i) % 5)).find? (fun l => x.lmask.getLsbD l)

/-- A LINK packet (R271). -/
def linkPacket (s : State) (body : Payload) : Packet :=
  Packet.sealed
  { ddev := 0xF_FFFF, sdev := s.devid, dbind := 0, sbind := 0, ptype := .link, hidx := 0, path := 0, cong := false, hops := [],
    rw2 := 0, psn := 0, xtag := 0, ecrc := 0, body := body }

/-- The role of lane `l` moves to the spare, and lane `l` is recalibrated as the spare from its initial settings (R269,
R304). -/
def Port.moveRole (x : Port) (l : Nat) : Port :=
  { x with
    lmask := (x.lmask &&& ~~~(BitVec.ofNat 5 (2 ^ l))) ||| BitVec.ofNat 5 (2 ^ x.spare.toNat)
    spare := BitVec.ofNat 3 l, nextLane := (l + 1) % 5, taps := FMap.set 0 x.taps l 0 }

/-- The rotation of a second (R269): a LINK packet names the lane and the flit from which its role moves, the one after the
packet. A failed rotation raises the link epoch (R275). How it went is what a test of the port reports (R338). Ports 24 and 25
stand for the half link's lanes at each half (log 139). -/
def doRotation (s : State) (p : Nat) (good : Bool) : State :=
  let x := { s.port p with tested := some good }
  if p = 24 ∨ p = 25 then s.setPort p x
  else if decide (p ≥ 24) || !x.trained || x.retraining || decide (x.spare.toNat > 4) then s
  else if !good then s.setPort p { x with lepoch := x.lepoch + 1 }
  else match x.rotateLane with
    | none => s
    | some l => (s.setPort p (x.moveRole l)).output p (linkPacket s (.rotate l (x.txSeq + 1)))

/-- A tap moves by one step (R304); at the end of its range it stays, and the lane is counted. Ports 24 and 25 stand for
the half link's lanes at each half. -/
def doEqualiser (s : State) (p lane : Nat) (up : Bool) : State :=
  let x := s.port p
  let v : Int := FMap.get 0 x.taps lane
  let v' : Int := if up then v + 1 else v - 1
  if p ≥ 26 ∨ (p < 24 ∧ 5 ≤ lane) then s
  else if v'.natAbs ≤ Config.tapMax then s.setPort p { x with taps := FMap.set 0 x.taps lane v' }
  else if Config.tapCounter = 0 then s.setPort p { x with replay := satAdd x.replay 1 }
  else if Config.tapCounter = 1 then s.setPort p { x with lfail := satAdd x.lfail 1 }
  else s.setPort p { x with retrain := satAdd x.retrain 1 }

/-- Output of a port stalled for 50 ms (R282): discarded, DRAINED, a beacon. -/
def doOutputStall (s : State) (p : Nat) : State :=
  let x := s.port p
  if x.outQ.isEmpty ∨ p ≥ 24 then s
  else
    let s := s.setPort p { x with outQ := [], state := if x.trained then .drained else x.state, resume := if x.state = .drained then x.resume else x.state }
    s.originate (portHalf p) (s.portKey p 4)

/-- DRAINED ends after 1 ms (R282): the port is again what it was. -/
def doDrainedEnd (s : State) (p : Nat) : State :=
  let x := s.port p
  if x.state = .drained then s.setPort p { x with state := x.resume }.pump else s

/-- Content queued on each virtual channel of a port (R281). -/
def Port.queued (x : Port) (vc : Nat) : Nat := cdiv (((x.outQ.filter (fun k => packetVc k = vc)).map packetContent).foldl (· + ·) 0) 64

/-- The samples of R281 and R305, for every port of a half. -/
def doDepthSample (s : State) (h : Nat) : State :=
  if h ≥ 2 then s
  else (upto 12).foldl (fun s i =>
    let p := 12 * h + i
    let x := s.port p
    s.setPort p { x with samples := (upto 4).foldl (fun m vc => FMap.set 0 m vc (x.queued vc)) [] }) s

/-! ### Flows (R272) -/

def Flow.fresh (k : FlowKey) : Flow := ⟨k, 0, [], 0, [], 0, 0, false, [], 0⟩

def State.flow (s : State) (k : FlowKey) : Flow := (s.flows.find? (fun f => f.key = k)).getD (Flow.fresh k)
def State.setFlow (s : State) (f : Flow) : State :=
  { s with flows := if s.flows.any (fun g => g.key = f.key) then s.flows.map (fun g => if g.key = f.key then f else g) else s.flows ++ [f] }

/-- The TYPE class of a packet; none for a packet outside every flow. -/
def flowClass (t : PType) : Option FlowClass :=
  match t with
  | .data => some .dataGreq
  | .greq => some .dataGreq
  | .verdict => some .verdict
  | .cellar => some .cellar
  | _ => none

def classCode (c : FlowClass) : Nat :=
  match c with
  | .dataGreq => 0
  | .verdict => 1
  | .cellar => 2
def classOfCode (n : Nat) : FlowClass := if n = 0 then .dataGreq else if n = 1 then .verdict else .cellar

/-! ### Injection (R280, R281) -/

/-- A path of an entry is usable when its first hop's port is UP (R281). -/
def State.pathUsable (s : State) (ddev : BitVec 20) (hops : List Nat) : Bool :=
  match hops with
  | [] => decide (ddev = s.devid)
  | p :: _ => decide (p < 24) && decide ((s.port p).state = .up)

/-- A first hop of the other half is reached over the half link (R283): a packet waits while it is not UP (R297). -/
def State.hopHeld (s : State) (h : Nat) (hops : List Nat) : Bool :=
  match hops with
  | [] => false
  | p :: _ => decide (portHalf p ≠ h) && decide ((s.half h).link ≠ .up)

/-- Score of a path (R281): the sampled queue in channel 0, and 1,024 where an ACKF reported CONG within 16 µs. -/
def State.pathScore (s : State) (f : Flow) (now i : Nat) (hops : List Nat) : Nat :=
  let q := match hops with
    | [] => 0
    | p :: _ => FMap.get 0 (s.port p).samples 0
  let at' := FMap.get 0 f.congAt i
  q + (if 0 < at' ∧ now < at' + 400 then 1024 else 0)

/-- The path chosen for a packet (R281). -/
def State.choosePath (s : State) (h : Nat) (x : Partner) (f : Flow) : Option (Nat × List Nat) :=
  let now := (s.half h).time.toNat + 1
  let ok := ((x.paths.take (x.np1 + 1)).zipIdx.filter (fun e => s.pathUsable x.ddev e.1)).map (fun e => (e.2, e.1))
  if x.adpt then
    ok.foldl (fun best e => match best with
      | none => some e
      | some b => if s.pathScore f now e.1 e.2 < s.pathScore f now b.1 b.2 then some e else some b) none
  else ok.head?

/-- Send a packet on its way: out of its first hop with HIDX raised (R283), or back into the own device. -/
def State.launchPacket (s : State) (h : Nat) (k : Packet) : State :=
  match k.hops with
  | [] => s.setPort (24 + h) { s.port (24 + h) with rxQ := (s.port (24 + h)).rxQ ++ [k] }
  | p :: _ => s.output p { k with hidx := 1 }

/-- An entry of the active bank whether or not its binding is stopped: the rollback notice uses it (R352). -/
def State.rawPartner (s : State) (h b n : Nat) : Partner :=
  let p := FMap.get Partner.invalid (if (s.binding b).ptAct then (s.half h).partners1 else (s.half h).partners0) n
  if p.bind = b then p else Partner.invalid

def isNotice : Payload → Bool
  | .verdict _ _ (.rollback _) => true
  | _ => false

def OutMsg.isRollback (m : OutMsg) : Bool := isNotice m.body

/-- The entry of the active bank behind a flow, which a stopped binding has for its rollback notice alone (R272, R352). -/
def State.flowPartner (s : State) (h : Nat) (k : FlowKey) (notice : Bool) : Option Partner :=
  ((if (s.binding k.local').ptAct then (s.half h).partners1 else (s.half h).partners0).find? (fun e =>
    e.2.valid && decide (e.2.bind = k.local') && decide (e.2.ddev = k.dev) && decide (e.2.dbind = k.bind)
      && (notice || !(s.binding k.local').stop))).map (·.2)

def State.msgPartner (s : State) (h : Nat) (m : OutMsg) : Partner := if m.isRollback then s.rawPartner h m.b m.partner else s.partner h m.b m.partner

/-- After lanes have left, a bucket of this engine that only sent them may end (R251). -/
def State.moveAll (s : State) (h : Nat) : State :=
  (upto (s.engine h).buckets.length).reverse.foldl (fun s i => s.moveBucket h i) s

/-- Snapshot and restore bytes yield to exponents and lanes that could go (R349). -/
def State.yields (s : State) (h : Nat) (m : OutMsg) : Bool :=
  m.ptype == .cellar && (s.engine h).outbox.any (fun o => (o.ptype == .lanes || o.ptype == .exp)
    && (let x := s.msgPartner h o; x.valid && (s.choosePath h x (s.flow ⟨o.b, x.ddev, x.dbind, .dataGreq⟩)).any (fun e => !s.hopHeld h e.2)))

/-- A message leaves the engine (R280, R281): nothing while an earlier one of its flow waits, no path is usable, 256
packets of the flow are unacknowledged, or it yields. -/
def doPacketInject (s : State) (h i : Nat) : State :=
  let out := (s.engine h).outbox
  match out[i]? with
  | none => s
  | some m =>
    let x := s.msgPartner h m
    let gone := s.setEngine h { s.engine h with outbox := out.eraseIdx i }
    if !x.valid then gone.moveAll h
    else
      let cls := flowClass m.ptype
      let key : FlowKey := ⟨m.b, x.ddev, x.dbind, cls.getD .dataGreq⟩
      let f := s.flow key
      let earlier := (out.take i).any (fun o => decide (o.b = m.b ∧ o.partner = m.partner) && decide (flowClass o.ptype = cls))
      match s.choosePath h x f with
      | none => s
      | some (p, hops) =>
        let k : Packet := Packet.sealed
          { ddev := x.ddev, sdev := s.devid, dbind := x.dbind, sbind := m.b, ptype := m.ptype, hidx := 0, path := p, cong := false,
            hops := hops, rw2 := m.rw2, psn := if cls.isSome then f.nextPsn else 0, xtag := m.xtag, ecrc := 0, body := m.body }
        if earlier || s.hopHeld h hops || s.yields h m then s
        else if cls.isSome then
          (if f.unacked.length ≥ 256 then s
           else (gone.setFlow { f with nextPsn := f.nextPsn + 1, waits := 0, unacked := f.unacked ++ [(k, 0)] }).launchPacket h k)
        else (gone.launchPacket h k).moveAll h

/-- A drain whose granting partner cannot be reached ends: its slot becomes empty and the snapshot is lost; the next one fills
the slots again, and no CLOSE waits for this drain any more; a slot whose last write, that of STATE, does not arrive is lost
with it (R272, R348, R356; log 134). -/
def State.loseDrain (s : State) (b : Nat) : State :=
  let x := s.binding b
  match x.snap with
  | some sn =>
    if x.phase = .drain then
      let s := s.setBinding b { x.abandon with phase := .idle, lost := true, drainedTo := some sn.step }
      ([0, 1].foldl (fun s h => s.setEngine h { s.engine h with
        outbox := (s.engine h).outbox.filter (fun o => !(decide (o.b = b) && o.ptype == .cellar)) }) s).settleCloses
    else s
  | none =>
    if x.lvalid then
      let other := (if x.slotSel then x.slot0 else x.slot1).filter (fun d => decide (d.state = 2))
      s.setBinding b { x.setSlot x.slotSel none with
        lost := true, lvalid := other.isSome, slotSel := !x.slotSel, lstep := BitVec.ofNat 40 ((other.map (·.step)).getD 0) }
    else s

/-- The command that a packet belonged to ends as its chapter says of an unreachable member or peer (R272): a `pgather`, a send
or a receive LATE (R260, R261), a CLOSE FAILED (R245), a drain as above. -/
def State.peerLost (s : State) (b : Nat) (t : PType) (step xtag : Nat) (body : Payload) : State :=
  let endPost := fun (s : State) (id : Nat) =>
    match (s.engine (idHalf id)).posts.find? (fun p => p.id == id && decide (p.cmd.b = b)) with
    | some p => (s.dropPost (idHalf id) id).endColl (idHalf id) p.cmd stLate 0
    | none => s
  let failClose := fun (s : State) (gid attempt : Nat) =>
    [0, 1].foldl (fun s h => match (s.engine h).closes.find? (fun k => k.key gid step attempt && k.cmd.isSome) with
      | some k => (match k.cmd, k.cmd.bind (fun c => s.group h c.b gid) with
        | some c, some g => (s.tellClose h c.b g k false).finishClose h c g k false
        | _, _ => s)
      | none => s) s
  match body with
  | .greq (.gather _ _ _ _ cmd) =>
    (match (s.engine (idHalf cmd)).gathers.find? (fun x => x.id == cmd && decide (x.cmd.b = b) && x.live) with
      | some x => (s.endGather (idHalf cmd) x).endColl (idHalf cmd) x.cmd stLate 0
      | none => s)
  | .greq (.recv _ _ _ _ cmd) => endPost s cmd
  | .greq (.send _ _ _ _ cmd) => endPost s cmd
  | .bytes _ =>
    if t = .cellar then s.loseDrain b
    else
      (match ((s.engine 0).posts ++ (s.engine 1).posts).find? (fun p => decide (p.cmd.b = b ∧ p.cmd.op = .send ∧ p.matched = some xtag)) with
        | some p => endPost s p.id
        | none => s)
  | .verdict gid attempt (.close _ _ _) => failClose s gid attempt
  | .verdict gid attempt (.ready _) => failClose s gid attempt
  | _ => s

/-- The first message of a flow that waits in an engine: its half and place. -/
def State.waitingMsg (s : State) (k : FlowKey) : Option (Nat × Nat × OutMsg) :=
  firstSome (fun h => firstSome (fun e : OutMsg × Nat =>
    let x := s.msgPartner h e.1
    if e.1.b = k.local' ∧ flowClass e.1.ptype = some k.cls ∧ x.valid ∧ x.ddev = k.dev ∧ x.dbind = k.bind then some (h, e.2, e.1) else none)
    (s.engine h).outbox.zipIdx) [0, 1]

/-- 200 µs in which a flow with no usable path waited (R281): after 3 of them its first message is given up as R272 says. -/
def State.waitedFlow (s : State) (k : FlowKey) : State :=
  let f := s.flow k
  match s.waitingMsg k with
  | none => s
  | some (h, i, m) =>
    if (s.choosePath h (s.msgPartner h m) f).isSome then s
    else if f.waits < 3 then s.setFlow { f with waits := f.waits + 1 }
    else
      let s := (s.setFlow { f with waits := 0 }).setEngine h { s.engine h with outbox := (s.engine h).outbox.eraseIdx i }
      s.peerLost m.b m.ptype m.rw2.toNat m.xtag.toNat m.body

/-- 200 µs without an ACKF (R272): the packet is injected again, with the routes in force; after 3 such sends it is given
up, and its command ends. The PSN that the flow's next packet would take names the message that waits for a path. -/
def doRetransmit (s : State) (k : FlowKey) (psn : Nat) : State :=
  let f := s.flow k
  let h := s.homeOf k.local'
  match f.unacked.find? (fun e => decide (e.1.psn.toNat = psn)) with
  | none => if psn = f.nextPsn.toNat then s.waitedFlow k else s
  | some (q, n) =>
    if n ≥ 3 then
      (s.setFlow { f with unacked := f.unacked.filter (fun e => decide (e.1.psn.toNat ≠ psn)) }).peerLost k.local' q.ptype q.rw2.toNat q.xtag.toNat q.body
    else
      let s := s.setFlow { f with unacked := f.unacked.map (fun e => if e.1.psn.toNat = psn then (e.1, n + 1) else e) }
      match (s.flowPartner h k (isNotice q.body)).bind (fun x => s.choosePath h x f) with
      | none => s
      | some (p, hops) =>
        if s.hopHeld h hops then s
        else s.launchPacket h { q with path := p, hops := hops, hidx := 0, cong := false }.sealed

/-! ### Forwarding (R283, R284) -/

/-- CONG: the output queue is over 75% full (R271). -/
def Port.congested (x : Port) : Bool := decide (4 * (x.outQ.map packetContent).foldl (· + ·) 0 > 3 * Config.outQueueBytes)

/-- A switch's sum of two blocks (R284): residues add modulo 127, which takes 0b111_1111 for 0; an engine keeps that mark
(DESIGN CHOICE; log 125). EXP is the first packet's. -/
def addLanes (a b : VxBlock) : VxBlock :=
  { lanes := (a.lanes.zip b.lanes).map (fun e => e.1 + e.2)
    res := (a.res.zip b.res).map (fun e => BitVec.ofNat 7 ((e.1.toNat + e.2.toNat) % 127)), nanf := a.nanf || b.nanf, exp := a.exp }

def sameBlocks (a b : SubHdr) : Bool :=
  decide (a.gid = b.gid ∧ a.attempt = b.attempt ∧ a.blk = b.blk ∧ a.nblk = b.nblk ∧ a.owner = b.owner)

/-- Two packets of one bucket for one owner as one (R284); lanes without residues are no sums and stay apart. -/
def combinePackets (a b : Packet) : Option Packet :=
  if a.ddev ≠ b.ddev ∨ a.dbind ≠ b.dbind ∨ a.rw2 ≠ b.rw2 ∨ a.xtag ≠ b.xtag ∨ a.hops.drop a.hidx ≠ b.hops.drop b.hidx ∨ a.hops.length ≠ b.hops.length then none
  else match a.body, b.body with
    | .lanes sa la, .lanes sb lb =>
      if sameBlocks sa sb && la.length == lb.length && (la ++ lb).all (fun v => !v.res.isEmpty) then
        some { a with body := .lanes { sa with ncon := sa.ncon + sb.ncon } ((la.zip lb).map (fun e => addLanes e.1 e.2)) }
      else none
    | .exps sa ca ea ra la, .exps sb cb eb rb lb =>
      if sameBlocks sa sb && la.length == lb.length && decide (ca = cb ∧ ea = eb ∧ ra = rb) then
        some { a with body := .exps { sa with ncon := sa.ncon + sb.ncon } ca ea ra ((la.zip lb).map (fun e => maxExp e.1 e.2)) }
      else none
    | _, _ => none

/-- Put a transit packet on an output, combined with one that still waits there where R284 lets it. -/
def State.outputCombining (s : State) (p : Nat) (k : Packet) : State :=
  let x := s.port p
  match firstSome (fun e : Packet × Nat => (combinePackets e.1 k).map (fun c => (c, e.2))) x.outQ.zipIdx with
  | some (c, i) => s.setPort p { x with outQ := x.outQ.set i c }
  | none => s.output p k

/-- The head of a port's queue, if it is for this device (its hops are done) and of this TYPE. -/
def State.arrived (s : State) (p : Nat) (t : PType) : Option Packet :=
  match (s.port p).rxQ with
  | k :: _ => if k.ptype = t ∧ (k.hops.length ≤ k.hidx ∨ t = .beacon ∨ t = .link) then some k else none
  | [] => none

/-- The head of a port's queue is taken; its credits are owed to the other end (R266, R282). -/
def State.popRx (s : State) (p : Nat) : State :=
  let x := s.port p
  match x.rxQ with
  | [] => s
  | k :: l => s.setPort p { x with rxQ := l, owed := FMap.set 0 x.owed (packetVc k) (x.owes (packetVc k) + packetUnits k) }

/-- A transit packet goes out of HOP[HIDX] (R283). -/
def doForward (s : State) (p : Nat) : State :=
  match (s.port p).rxQ with
  | [] => s
  | k :: _ =>
    if k.ptype = .beacon ∨ k.ptype = .link then s
    else match k.hops[k.hidx]? with
      | none => s
      | some q =>
        if q ≥ 24 ∨ (portHalf q ≠ portHalf p ∧ (s.half (portHalf p)).link ≠ .up) then s
        else (s.popRx p).outputCombining q { k with hidx := k.hidx + 1, cong := k.cong || (s.port q).congested }

/-! ### Acceptance (R273) -/

/-- The collective sub-header's GID where a packet has one. -/
def packetGid (k : Packet) : Option Nat :=
  match k.body with
  | .lanes sub _ => some sub.gid
  | .exps sub _ _ _ _ => some sub.gid
  | _ => none

/-- Granules that a sender holds as a grant from a binding (R273, R346). -/
def State.grantOf (s : State) (h b : Nat) (dev : BitVec 20) (bind : Nat) : List Nat :=
  ((s.binding b).grants.filter (fun e =>
    let x := s.rawPartner h b e.1
    x.valid && decide (x.ddev = dev ∧ x.dbind = bind))).flatMap (·.2)

/-- Whether a binding's CLIENT configuration, or its `RESTORE` in progress, names a granting binding (R273). -/
def State.namesGranter (s : State) (h b : Nat) (dev : BitVec 20) (bind : Nat) : Bool :=
  let x := s.binding b
  ((x.cfg.map (fun c => s.rawPartner h b c.partner)).any (fun q => q.valid && decide (q.ddev = dev ∧ q.dbind = bind)))
    || (decide (x.phase = .restore) && x.restFrom.any (fun r => decide (r.gdev = dev ∧ r.gbind = bind)))

/-- The granules that bytes touch. -/
def granulesTouched (a n : Nat) : List Nat := (upto ((a + n - 1) / 2 ^ 30 + 1 - a / 2 ^ 30)).map (· + a / 2 ^ 30)

/-- Whether bytes lie in granules, or press, that a binding holds. -/
def State.ownsBytes (s : State) (b a n : Nat) : Bool :=
  match physKind s a with
  | .hbm _ => (granulesTouched a n).all (fun g => decide (s.granOwner g = some b) && s.isHbm (g * 2 ^ 30))
  | .press _ _ => s.pressHeld (some b) a && s.pressHeld (some b) (a + n - 1)
  | _ => false

/-- DIR and the address of a CELLAR packet (R271). -/
def cellarRestore (k : Packet) : Bool := bitAt k.rw2 63
def cellarAddr (k : Packet) : Nat := fld k.rw2 0 44

/-- R273 for a packet that has arrived at half `h`. -/
def State.accepts (s : State) (h : Nat) (k : Packet) : Bool :=
  match k.ptype with
  | .data => (s.partnerNo h k.dbind k.sdev k.sbind).isSome
  | .greq => (s.partnerNo h k.dbind k.sdev k.sbind).isSome
  | .verdict => (s.partnerNo h k.dbind k.sdev k.sbind).isSome
  | .ackf => (s.partnerNo h k.dbind k.sdev k.sbind).isSome
  | .lanes => (packetGid k).any (fun g => (s.group h k.dbind g).isSome)
  | .exp => (packetGid k).any (fun g => (s.group h k.dbind g).isSome)
  | .cellar =>
    let n := bodyLen k.body
    if cellarRestore k then s.namesGranter h k.dbind k.sdev k.sbind && s.ownsBytes k.dbind (cellarAddr k) n
    else (granulesTouched (cellarAddr k) n).all (s.grantOf h k.dbind k.sdev k.sbind).contains
  | .beacon => true
  | .link => true
  | .reserved => false

/-! ### Delivery -/

/-- A bucket or CLOSE outcome, or a rollback notice, reaches a binding (R245, R255, R352). -/
def State.onVerdict (s : State) (h : Nat) (k : Packet) (gid attempt : Nat) (v : Verdict) : State :=
  match v with
  | .rollback _ => s.stopBinding k.dbind
  | .bucket st =>
    (match s.group h k.dbind gid with
      | some g => s.onBucketVerdict h k.dbind g gid k.rw2.toNat attempt k.xtag.toNat st
      | none => s)
  | .close nbkt good m =>
    (match s.group h k.dbind gid with
      | some g => s.onClose h k.dbind g gid k.rw2.toNat attempt ⟨m, nbkt, good⟩
      | none => s)
  | .params elems rop crc sfmt m =>
    (match s.group h k.dbind gid with
      | some g => s.onParams h k.dbind g gid k.rw2.toNat attempt k.xtag.toNat ⟨elems, rop, crc, sfmt⟩ m
      | none => s)
  | .ready m =>
    (match s.group h k.dbind gid with
      | some g => s.onReady h k.dbind g gid k.rw2.toNat attempt m
      | none => s)

/-- A packet of a flow is handed to its engine (R272). -/
def State.deliver (s : State) (h : Nat) (k : Packet) : State :=
  match k.ptype, k.body with
  | .data, b => s.onData k.dbind k.rw2.toNat k.xtag.toNat b
  | .greq, .greq q =>
    (match s.partnerNo h k.dbind k.sdev k.sbind with
      | some n => s.onGreq h k.dbind n k.xtag.toNat q
      | none => s)
  | .verdict, .verdict gid attempt v => s.onVerdict h k gid attempt v
  | .cellar, .bytes l => s.writeBytes 512 (cellarAddr k) l
  | _, _ => s

/-- Deliver what was held, as far as it is in order now; `n` bounds the run. -/
def State.drainHeld (s : State) (h : Nat) (key : FlowKey) : Nat → State
  | 0 => s
  | n + 1 =>
    let f := s.flow key
    match f.held.find? (fun k => k.psn = f.expPsn) with
    | none => s
    | some k =>
      let s := s.setFlow { f with expPsn := f.expPsn + 1, held := f.held.filter (fun q => q.psn != k.psn) }
      (s.deliver h k).drainHeld h key n

/-- A packet of a flow arrives (R272): in order it is delivered, ahead of order it is held, behind it is a duplicate. -/
def State.flowArrive (s : State) (h : Nat) (cls : FlowClass) (k : Packet) : State :=
  let key : FlowKey := ⟨k.dbind, k.sdev, k.sbind, cls⟩
  let f0 := s.flow key
  let f := { f0 with sinceAck := f0.sinceAck + 1, lastPath := k.path, lastCong := k.cong }
  if k.psn = f.expPsn then
    ((s.setFlow { f with expPsn := f.expPsn + 1 }).deliver h k).drainHeld h key f.held.length
  else if (k.psn - f.expPsn).toNat < 256 ∧ !f.held.any (fun q => q.psn = k.psn) then s.setFlow { f with held := f.held ++ [k] }
  else s.setFlow f

/-- An arrived packet of TYPE `t`: ECRC, then R273, then `go` (R273, R287). -/
def State.receive (s : State) (p : Nat) (t : PType) (pick : State → Nat → Packet → Bool) (go : State → Nat → Packet → State) : State :=
  let h := portHalf p
  match s.arrived p t with
  | none => s
  | some k =>
    if !pick s h k then s
    else
      let s := s.popRx p
      if !k.crcOk then s.countEcrc k.dbind h
      else if !s.accepts h k then s.countUnauth k.dbind h
      else go s h k

def anyPacket : State → Nat → Packet → Bool := fun _ _ _ => true

/-- DATA, GREQ, CELLAR. -/
def doFlowReceive (s : State) (p : Nat) (t : PType) : State :=
  s.receive p t anyPacket (fun s h k => s.flowArrive h ((flowClass t).getD .dataGreq) k)

def isRollback (k : Packet) : Bool := isNotice k.body

/-- VERDICT, a rollback notice apart. -/
def doVerdictReceive (s : State) (p : Nat) : State :=
  s.receive p .verdict (fun _ _ k => !isRollback k) (fun s h k => s.flowArrive h .verdict k)
def doRollbackReceive (s : State) (p : Nat) : State :=
  s.receive p .verdict (fun _ _ k => isRollback k) (fun s h k => s.flowArrive h .verdict k)

/-- The OWNER of an EXP packet is this member: the packet brings exponents; else it brings agreed ones (R251). -/
def toOwner (s : State) (h : Nat) (k : Packet) : Bool :=
  match k.body with
  | .exps sub _ _ _ _ => (s.group h k.dbind sub.gid).all (fun g => decide (sub.owner = g.self))
  | _ => true

def doExpReceive (s : State) (p : Nat) : State :=
  s.receive p .exp toOwner (fun s h k =>
    match k.body with
    | .exps sub crc elems rop l =>
      (match s.group h k.dbind sub.gid with
        | some g => s.onExp h k.dbind g (s.memberOf h k.dbind g k.sdev k.sbind) sub k.rw2.toNat k.xtag.toNat ⟨elems, rop, crc, 0⟩ l
        | none => s)
    | _ => s)

def doAgreedReceive (s : State) (p : Nat) : State :=
  s.receive p .exp (fun s h k => !toOwner s h k) (fun s h k =>
    match k.body with
    | .exps sub _ _ _ l =>
      (match s.group h k.dbind sub.gid with
        | some g => s.onAgreed h k.dbind g sub k.rw2.toNat k.xtag.toNat l
        | none => s)
    | _ => s)

def doLanesReceive (s : State) (p : Nat) : State :=
  s.receive p .lanes anyPacket (fun s h k =>
    match k.body with
    | .lanes sub l =>
      (match s.group h k.dbind sub.gid with
        | some g => s.onLanes h k.dbind g (s.memberOf h k.dbind g k.sdev k.sbind) sub k.rw2.toNat k.xtag.toNat l
        | none => s)
    | _ => s)

/-! ### Acknowledgements (R272) -/

/-- Whether PSN `a` is at or before `b` in a window of 2^15. -/
def psnLe (a b : BitVec 16) : Bool := decide ((b - a).toNat < 2 ^ 15)

/-- An ACKF frees a flow's packets and reports CONG for a path. Bits [4:3] of XTAG name the class (log 38). -/
def doAckfReceive (s : State) (p : Nat) : State :=
  s.receive p .ackf anyPacket (fun s h k =>
    let f := s.flow ⟨k.dbind, k.sdev, k.sbind, classOfCode (fld k.xtag 3 2)⟩
    let f := { f with unacked := f.unacked.filter (fun e => !psnLe e.1.psn (BitVec.ofNat 16 k.rw2.toNat)) }
    s.setFlow (if bitAt k.xtag 2 then { f with congAt := FMap.set 0 f.congAt (fld k.xtag 0 2) ((s.half h).time.toNat + 1) } else f))

/-- The receiver returns an ACKF for what it has received since the last (R272). -/
def doAckfSend (s : State) (key : FlowKey) : State :=
  let f := s.flow key
  let h := s.homeOf key.local'
  if f.sinceAck = 0 then s
  else
    match s.partnerNo h key.local' key.dev key.bind with
    | none => s
    | some n =>
      let x := s.partner h key.local' n
      match s.choosePath h x f with
      | none => s
      | some (p, hops) =>
        if s.hopHeld h hops then s
        else (s.setFlow { f with sinceAck := 0 }).launchPacket h <| Packet.sealed
          { ddev := key.dev, sdev := s.devid, dbind := key.bind, sbind := key.local', ptype := .ackf, hidx := 0, path := p, cong := false,
            hops := hops, rw2 := BitVec.ofNat 64 (f.expPsn - 1).toNat, psn := 0
            xtag := BitVec.ofNat 16 (f.lastPath + 4 * b2n f.lastCong + 8 * classCode key.cls), ecrc := 0, body := .none }

/-! ### Beacons and HELLO -/

/-- A beacon arrives (R286). -/
def doBeaconReceive (s : State) (p : Nat) : State :=
  s.receive p .beacon anyPacket (fun s h k =>
    match k.body with
    | .beacon e _ fc => s.enterBeacon h ⟨BitVec.ofNat 20 (fld k.rw2 44 20), BitVec.ofNat 16 (fld k.rw2 28 16), e, fc, 0⟩ k p
    | _ => s)

/-- 10 ms after its entry a key's event goes to the host, and the entry is freed (R286 step 3, R339). -/
def doBeaconTimeout (s : State) (h i : Nat) : State :=
  let x := s.half h
  match x.keyTable[i]? with
  | none => s
  | some k => (s.setHalf h { x with keyTable := x.keyTable.eraseIdx i }).postEvent ⟨1, k.unit, k.fepoch, k.odev, k.count, [k.fclass.toNat]⟩

/-- A trained port sends a HELLO record (R275). -/
def doHelloSend (s : State) (p : Nat) : State :=
  let x := s.port p
  if decide (p ≥ 24) || !x.trained then s
  else s.output p (linkPacket s (.hello ⟨s.devid, s.devValid, BitVec.ofNat 5 p, BitVec.ofNat 2 s.build.code, 0, x.lepoch, Config.serial⟩))

/-- d of a close port (R276). -/
def closeD (p : Nat) : Option Nat :=
  if 9 ≤ p ∧ p ≤ 11 then some (p - 8) else if 21 ≤ p ∧ p ≤ 23 then some (p - 20) else none

/-- The quad check of R276 against a neighbour: the state the port enters. -/
def quadCheck (s : State) (p : Nat) (x : Hello) : PortState :=
  match closeD p with
  | none => .up
  | some d =>
    if !x.valid then .linkOnly
    else if closeD x.port.toNat ≠ some d ∨ fld x.devid 2 18 ≠ fld s.devid 2 18 ∨ fld x.devid 0 2 ≠ fld s.devid 0 2 ^^^ d then .miswired
    else if x.build.toNat ≠ s.build.code ∨ x.rev ≠ 0 then .mismatch
    else .up

/-- A LINK packet arrives. A HELLO (R275, R276): the neighbour is recorded, and once the device has a DEVID the port's state
follows the check. A lane rotation of the other end (R269): the role moves at this end too. -/
def doHelloReceive (s : State) (p : Nat) : State :=
  s.receive p .link anyPacket (fun s _ k =>
    match k.body with
    | .hello x =>
      let q := s.port p
      let q := { q with ndev := x.devid, nport := x.port, nbuild := x.build, nrev := x.rev, lepoch := x.lepoch }
      let st := if q.state = .drained ∨ q.state = .failed ∨ !s.devValid then q.state else quadCheck s p x
      s.setPort p { q with state := st }.pump
    | .rotate l _ =>
      let q := s.port p
      if q.lmask.getLsbD l && decide (q.spare.toNat ≤ 4) then s.setPort p (q.moveRole l) else s
    | _ => s)

end Sys2Proof.Machine
end

