-- ==== Sys2Proof/Machine/FabricEvents.lean ====
section
/-! DEFINITION. The events of the fabric, of HBM reads and of refresh. -/

namespace Sys2Proof.Machine

/-- A read returns (R231-R233): its severity is counted, an uncorrectable one poisons its line, and a data lane with 16
replayed bursts within a second is marked for repair, a permanent fault of the stack. -/
def doHbmRead (s : State) (n line : Nat) (sev : EccSev) (lane : Option Nat) : State :=
  let h := halfOfStack n
  let x := (s.half h).hbm n
  if !stackPresent s.build n then s
  else
    let hit := match physKind s (line * 128) with
      | .hbm g => decide (stackOfGranule g = n)
      | _ => false
    let x := match sev with
      | .clean => x
      | .corrected => { x with ce := satAdd x.ce 1 }
      | .uncorrectable => { x with ue := satAdd x.ue 1 }
    let s := if decide (sev = .uncorrectable) && hit && !s.poison.contains line then { s with poison := line :: s.poison } else s
    match lane with
    | none => s.setHalf h ((s.half h).setHbm n x)
    | some l =>
      let times := within1s (FMap.get [] x.lanes l) (s.half h).time.toNat
      let x := { x with lanes := FMap.set [] x.lanes l times }
      if decide (times.length ≥ 16) && !x.marked.contains l then
        (s.setHalf h ((s.half h).setHbm n { x with marked := x.marked ++ [l], state := 2 })).recordFaultAt (unitId 1 n) 0x01 (some l)
      else s.setHalf h ((s.half h).setHbm n x)

/-- A bank is refreshed and the sampling points are re-centred (R231, R233). -/
def doRefresh (s : State) (n bank : Nat) : State :=
  let h := halfOfStack n
  let x := (s.half h).hbm n
  if stackPresent s.build n then s.setHalf h ((s.half h).setHbm n { x with bank := bank, recentred := x.recentred + 1 }) else s

/-- A stack read returns with its ECC severity, counting CE or poisoning the line. R232. -/
def execHbmReadReturn (n line : Nat) (sev : EccSev) (lane : Option Nat) (s : State) : Out := .next (doHbmRead s n line sev lane)

/-- A per-bank refresh runs at the temperature rate and re-centres sampling points. R231. -/
def execHbmRefresh (n : Nat) (bank : Nat) (s : State) : Out := .next (doRefresh s n bank)

/-- A flit arrives, is checked by CRC and SEQ, and answers with ACK or NAK and replay. R268. -/
def execFabricFlitReceive (p : Nat) (f : Flit) (s : State) : Out := .next (doFabricFlit s p f)

/-- A port retrain ends, traffic resumes and LEPOCH advances. R268. -/
def execPortRetrainComplete (p : Nat) (bad : Option Nat) (s : State) : Out := .next (doRetrainComplete s p bad)

/-- Once a second a port moves an active lane's role to the spare and recalibrates. R269. -/
def execSpareLaneRotation (p : Nat) (good : Bool) (s : State) : Out := .next (doRotation s p good)

/-- The sending engine chooses a path and injects a packet. R281. -/
def execPacketInject (h i : Nat) (s : State) : Out := .next (onHalf h s (doPacketInject s h i))

/-- A transit packet is forwarded cut-through out of HOP[HIDX]. R283. -/
def execPacketForward (p : Nat) (s : State) : Out := .next (doForward s p)

/-- A DATA packet is checked for acceptance and delivered in PSN order. R273. -/
def execDataReceive (p : Nat) (s : State) : Out := .next (doFlowReceive s p .data)

/-- An exponent record reaches an owner, which agrees block exponents. R252. -/
def execExpReceive (p : Nat) (s : State) : Out := .next (doExpReceive s p)

/-- Agreed exponents reach a member, which starts its sum pass. R251. -/
def execAgreedExponentReceive (p : Nat) (s : State) : Out := .next (doAgreedReceive s p)

/-- VX64 lanes reach an owner and are summed; the last one triggers the residue check. R252. -/
def execLanesReceive (p : Nat) (s : State) : Out := .next (doLanesReceive s p)

/-- A bucket or CLOSE outcome from another member is received. R245. -/
def execVerdictReceive (p : Nat) (s : State) : Out := .next (doVerdictReceive s p)

/-- A gather, PUBLISH or post-matching request reaches the engine and is served in order. R260. -/
def execGreqReceive (p : Nat) (s : State) : Out := .next (doFlowReceive s p .greq)

/-- A snapshot or restore packet is checked against the grant and written. R273. -/
def execCellarReceive (p : Nat) (s : State) : Out := .next (doFlowReceive s p .cellar)

/-- A beacon is absorbed or entered, forwarded and interrupts raised. R286. -/
def execBeaconReceive (p : Nat) (s : State) : Out := .next (doBeaconReceive s p)

/-- 10 ms after entry the key's event is posted to the host and the entry freed. R286. -/
def execBeaconKeyTimeout (h i : Nat) (s : State) : Out := .next (onHalf h s (doBeaconTimeout s h i))

/-- A port sends a HELLO record every 1 ms. R275. -/
def execHelloSend (p : Nat) (s : State) : Out := .next (doHelloSend s p)

/-- A HELLO updates SK_PORT and runs the quad check on close ports. R275. -/
def execHelloReceive (p : Nat) (s : State) : Out := .next (doHelloReceive s p)

/-- An acknowledgement frees a flow's packets and reports congestion for a path. R272. -/
def execAckfReceive (p : Nat) (s : State) : Out := .next (doAckfReceive s p)

/-- The receiver returns ACKF every 16 packets or every 2 µs. R272. -/
def execAckfSend (fl : FlowKey) (s : State) : Out := .next (doAckfSend s fl)

/-- A packet unacknowledged for 200 µs is sent again, failing its command after 3 sends. R272. -/
def execPacketRetransmitTimeout (fl : FlowKey) (psn : Nat) (s : State) : Out := .next (doRetransmit s fl psn)

/-- An output stalled 50 ms is discarded, set DRAINED and a beacon raised. R282. -/
def execPortOutputStallTimeout (p : Nat) (s : State) : Out := .next (doOutputStall s p)

/-- A port leaves DRAINED after 1 ms. R282. -/
def execPortDrainedEnd (p : Nat) (s : State) : Out := .next (doDrainedEnd s p)

/-- Output queue depths are sampled every 64 core cycles for path choice. R305. -/
def execQueueDepthSample (h : Nat) (s : State) : Out := .next (onHalf h s (doDepthSample s h))

/-- A lane's equaliser taps adapt by at most one step per 100 µs. R304. -/
def execEqualiserAdapt (p lane : Nat) (up : Bool) (s : State) : Out := .next (doEqualiser s p lane up)

/-- A cellar group member receives the rollback notice and stops. R352. -/
def execRollbackNoticeReceive (p : Nat) (s : State) : Out := .next (doRollbackReceive s p)

end Sys2Proof.Machine
end

