-- ==== Sys2Proof/Machine/Kuwick.lean ====
section
/-! DEFINITION. The Kuwick rings: register copies (R309-R312), records (R315), validation (R316-R319), journalling and
acceptance (R291, R326), the abort decision (R331), and final records (R327). -/

namespace Sys2Proof.Machine

/-! ### Halves and keepers -/

def Half.keeperUp (x : Half) : Bool := x.keeper0 == .active || x.keeper1 == .active

/-- A half whose Kuwick runs (R364 step 10, R330). -/
def Half.ready (x : Half) : Bool := decide (x.stage = .ready) && !x.inReset && x.keeperUp

def State.primary (s : State) : Option Nat :=
  if s.half1.pstate = .primary then some 1 else if s.half0.pstate = .primary then some 0 else none

/-! ### Ring registers (R309, R311, R312) -/

/-- Functions: the PF, and the VF of binding f − 1 (R308). -/
def funcOk (f : Nat) : Bool := decide (f ≤ 64)

/-- A register write through an endpoint reaches both halves' copies while the link is UP, its own otherwise (R309). -/
def State.ringWrite (s : State) (ep f : Nat) (go : Ring → Ring) : State :=
  let at' := fun (s : State) (h : Nat) => s.setHalf h ((s.half h).setRing f (go ((s.half h).ring f)))
  if s.linkUp then at' (at' s ep) (1 - ep) else at' s ep

/-- Commands of a function that are accepted and have no final record. -/
def State.openCmds (s : State) (f : Nat) : Bool :=
  s.cmds.any (fun c => decide (c.func = f) && c.phase != .journalled && c.phase != .final)

def Ring.enable (r : Ring) (k : RingSel) : Ring :=
  match k with
  | .sq => if r.sqEn then r else { r with sqEn := true, head := 0, tail := 0 }
  | .cq => { r with cqEn := true }
  | .evq => { r with evqEn := true }

/-- Clearing EN waits for the final records (R312). -/
def Ring.disable (r : Ring) (k : RingSel) (wait : Bool) : Ring :=
  match k with
  | .sq => if !r.sqEn then r else if wait then { r with sqClosing := true } else { r with sqEn := false, sqClosing := false }
  | .cq => if !r.cqEn then r else if wait then { r with cqClosing := true } else { r with cqEn := false, cqClosing := false }
  | .evq => if !r.evqEn then r else if wait then { r with evqClosing := true } else { r with evqEn := false, evqClosing := false }

/-- Rings whose closing was waiting take their end. -/
def Ring.settle (r : Ring) : Ring :=
  { r with sqEn := r.sqEn && !r.sqClosing, sqClosing := false, cqEn := r.cqEn && !r.cqClosing, cqClosing := false
           evqEn := r.evqEn && !r.evqClosing, evqClosing := false }

def State.settleRings (s : State) (f : Nat) : State :=
  if s.openCmds f then s
  else s.bothHalves (fun h => h.setRing f (h.ring f).settle)

/-- Setting EN (R312): before Kuwick is ready it has no effect (R365); on the SQ the expected SEQ, HEAD and TAIL are 0, on the
event ring the slots start again (log 137). -/
def doRingEnable (s : State) (ep f : Nat) (r : RingSel) : State :=
  if ep < 2 && funcOk f && (s.half ep).ready && (decide (r ≠ .evq) || decide (f = 0)) then
    let s := if r = .sq ∧ !((s.half ep).ring f).sqEn then { s with cmds := s.cmds.filter (fun c => !(decide (c.func = f) && c.phase == .final)) } else s
    let s := if r = .evq ∧ !((s.half ep).ring f).evqEn then { s with evNext := 0 } else s
    (s.ringWrite ep f (fun x => x.enable r)).flushEvents
  else s

def doRingDisable (s : State) (ep f : Nat) (r : RingSel) : State :=
  if ep < 2 ∧ funcOk f then s.ringWrite ep f (fun x => x.disable r (s.openCmds f)) else s

/-- A doorbell: a write that lowers TAIL is ignored (R311). -/
def doTailWrite (s : State) (ep f : Nat) (v : Word) : State :=
  if ep < 2 ∧ funcOk f then s.ringWrite ep f (fun x => if v.toNat > x.tail then { x with tail := v.toNat } else x) else s

/-- A write of ADDR and EN of a ring base, and of LOGN (R311, R312). -/
def Ring.writeBase (r : Ring) (k : RingSel) (v : Word) : Ring :=
  let a := BitVec.ofNat 52 (v.toNat / 4096)
  match k with
  | .sq => if r.sqEn then r else { r with sqBase := a }
  | .cq => if r.cqEn then r else { r with cqBase := a }
  | .evq => if r.evqEn then r else { r with evqBase := a }

def doBaseWrite (s : State) (ep f : Nat) (k : RingSel) (v : Word) : State :=
  let s := s.ringWrite ep f (fun r => r.writeBase k v)
  if bitAt v 0 then doRingEnable s ep f k else doRingDisable s ep f k

/-- A write to BAR 0 (R311). -/
def doBarWrite (s : State) (ep f off : Nat) (v : Word) : State :=
  if !(decide (ep < 2) && funcOk f) then s
  else match off with
    | 0x08 => doBaseWrite s ep f .sq v
    | 0x10 => doBaseWrite s ep f .cq v
    | 0x18 => if f = 0 then doBaseWrite s ep f .evq v else s
    | 0x20 => s.ringWrite ep f (fun r =>
        if r.sqEn || r.cqEn || r.evqEn then r
        else if 6 ≤ fld v 0 5 ∧ fld v 0 5 ≤ 16 then { r with logn := BitVec.ofNat 5 (fld v 0 5) } else r)
    | 0x28 => doTailWrite s ep f v
    | _ => s

/-- A read of BAR 0 through endpoint `ep` (R4, R311): KW_INFO, the ring bases, KW_RING_CFG, TAIL and HEAD; a read changes
nothing. -/
def State.barRead (s : State) (ep f off : Nat) : Word :=
  let r := (s.half ep).ring f
  let base := fun (a : BitVec 52) (en : Bool) => wordFields [(a.toNat, 12), (b2n en, 0)]
  match off with
  | 0x00 => wordFields [(f, 16), (s.build.code, 4), (ep, 0)]
  | 0x08 => base r.sqBase r.sqEn
  | 0x10 => base r.cqBase r.cqEn
  | 0x18 => if f = 0 then base r.evqBase r.evqEn else 0
  | 0x20 => wordFields [(r.logn.toNat, 0)]
  | 0x28 => BitVec.ofNat 64 r.tail
  | 0x30 => BitVec.ofNat 64 r.head
  | _ => 0

/-- A register write of a control address, or of BAR 0 (R4, R211, R311). -/
def doRegisterWrite (s : State) (t : RegTarget) (v : Word) : State :=
  match t with
  | .bar ep f off => doBarWrite s ep f off v
  | .ctl off =>
    match ctlDecode s off with
    | some (n, at') => csrWrite s at' n .int v 3
    | none => s

/-! ### Commands held -/

def State.cmd (s : State) (f seq : Nat) : Option Cmd := s.cmds.find? (fun c => decide (c.func = f ∧ c.seq = seq))
def State.setCmd (s : State) (c : Cmd) : State := { s with cmds := s.cmds.map (fun d => if d.func = c.func ∧ d.seq = c.seq then c else d) }
def Cmd.arg (c : Cmd) (off n : Nat) : Nat := bytesAt c.entry off n

/-- End a command with a status (R320); its final record follows in order. -/
def State.endCmd (s : State) (c : Cmd) (status : Nat) (unit : BitVec 16) (detail : Nat) (result : List Byte) : State :=
  s.setCmd { c with phase := .ended, status := status, unit := unit, detail := detail, result := result }

def kDone : Nat := 1
def kAborted : Nat := 2
def kAlready : Nat := 3
def kNotFound : Nat := 4
def kDeferred : Nat := 5
def kBusy : Nat := 6
def kFailed : Nat := 7
def kFault : Nat := 8
def kRolled : Nat := 9
def kNores : Nat := 10
def kRefused : Nat := 11

def State.doneCmd (s : State) (c : Cmd) : State := s.endCmd c kDone 0 0 []
def State.refuseCmd (s : State) (c : Cmd) (rule : Nat) : State := s.endCmd c kRefused 0 rule []

/-! ### Records (R315) -/

/-- Post a record at half `h`'s copy of the rings. -/
def State.postRec (s : State) (h f seq : Nat) (kind : RecKind) (status : Nat) (unit : BitVec 16) (detail : Nat) (result : List Byte) (solo : Bool) : State :=
  let r := (s.half h).ring f
  let n := 2 ^ r.logn.toNat
  if r.cqEn then
    { s with cq := s.cq ++ [⟨f, 2 * (seq % n) + b2n (kind == .final), seq, decide ((seq / n + 1) % 2 = 1), solo, kind, status, unit, detail, result⟩] }
  else s

/-- The binding of a function. -/
def funcBinding (f : Nat) : Option Nat := if f = 0 then none else some (f - 1)

/-- A record with DNTF counts on the binding's cores (R313, R341). -/
def State.notify (s : State) (f : Nat) : State :=
  match funcBinding f with
  | none => s
  | some b => s.mapCores (fun _ k => if k.binding = some b then { k with dbstat := satAdd k.dbstat 1 } else k)

/-- The half that posts a command's records: the primary, else the half that accepted it (R292, R310). -/
def State.posterOf (s : State) (c : Cmd) : Nat := s.primary.getD c.half

/-- Post the final record of an ended command (R315, R327), with its interrupts (R313). -/
def State.finalize (s : State) (c : Cmd) : State :=
  let khdr := BitVec.ofNat 64 (c.arg 0 8)
  let s := s.postRec (s.posterOf c) c.func c.seq .final c.status c.unit c.detail c.result false
  let s := if bitAt khdr 54 then { s with msix := s.msix ++ [(c.func, 0)] } else s
  let s := if bitAt khdr 53 then s.notify c.func else s
  (s.setCmd { c with phase := .final }).settleRings c.func

/-- Every accepted command of the function below `seq` has its final record. -/
def State.inOrder (s : State) (f seq : Nat) : Bool :=
  s.cmds.all (fun d => !(decide (d.func = f) && decide (d.seq < seq)) || d.phase == .final)

/-- Whether a function's binding is stopped (R352). -/
def State.funcStopped (s : State) (f : Nat) : Bool := (funcBinding f).any (fun b => (s.binding b).stop)

/-- The final record of a command that has ended, once it is its turn (R327); a stopped binding posts none yet
(R352). -/
def doCommandFinal (s : State) (f seq : Nat) : State :=
  match s.cmd f seq with
  | none => s
  | some c =>
    if c.phase = .ended ∧ s.inOrder f seq ∧ (s.half (s.posterOf c)).ready ∧ !s.funcStopped f then s.finalize c else s

/-! ### Keys and counters (R317, R318) -/

def Half.key (x : Half) (k : Nat) : KeySlot := FMap.get KeySlot.empty x.keys k
def Half.setKey (x : Half) (k : Nat) (v : KeySlot) : Half := { x with keys := FMap.set KeySlot.empty x.keys k v }

/-- ctr_hi rises; the mark is written when it crosses a multiple of 4,096 (R318). -/
def KeySlot.raise (x : KeySlot) (ctr : Nat) : KeySlot :=
  if x.ctrHi < ctr then { x with ctrHi := ctr, mark := if x.ctrHi / 4096 = ctr / 4096 then x.mark else ctr } else x

/-- Both halves' copies while the link is UP, else one half's, and the other's when it returns (R289, R318). -/
def State.keyWrite (s : State) (h k : Nat) (go : KeySlot → KeySlot) : State := s.ctrl h (fun x => x.setKey k (go (x.key k)))

/-- A counter moves in both halves' copies while the link is UP, else in one half's; the copies are joined when it returns (R310). -/
def State.keyCount (s : State) (h k : Nat) (go : KeySlot → KeySlot) : State :=
  let f := fun (x : Half) => x.setKey k (go (x.key k))
  if s.linkUp then s.bothHalves f else s.setHalf h (f (s.half h))

def Cmd.auth (c : Cmd) : Bool := bitAt (BitVec.ofNat 64 (c.arg 0 8)) 55
def Cmd.kslot (c : Cmd) : Nat := fld (BitVec.ofNat 64 (c.arg 0 8)) 49 4

/-- ctr_hi of a half again (R317): the largest CTR of each slot among accepted commands and the unaccepted ones that its
journal still holds. -/
def Half.recount (x : Half) (held : List Cmd) : Half :=
  { x with keys := x.keys.map (fun e => (e.1, { e.2 with
      ctrHi := ((held.filter (fun c => c.auth && decide (c.kslot = e.1) && x.journal.contains c.jseq)).map (fun c => c.arg 16 8)).foldl max e.2.acc })) }

/-! ### Acceptance (R326, R331) -/

/-- Threads of a launch. -/
def State.launchThreads (s : State) (j : Nat) : List Nat := (s.threads.map (·.1)).filter (fun g => (s.thread g).launch == some j)

/-- The outcome of an `ABORT`, decided when it is accepted (R331). -/
def State.decideAbort (s : State) (c : Cmd) : State :=
  match s.cmd c.func (c.arg 40 8) with
  | none => s.setCmd { c with status := kNotFound }
  | some t =>
    if c.seq ≤ t.seq then s.setCmd { c with status := kNotFound }
    else match t.phase with
      | .journalled => s.setCmd { c with status := kNotFound }
      | .accepted => (s.endCmd t kAborted 0 0 []).setCmd { c with status := kAborted }
      | .running =>
        if t.opc = 0x03 then
          ((s.haltThreads (fun g => decide ((s.thread g).launch = some t.jseq))).endCmd t kAborted 0 0 []).setCmd { c with status := kAborted }
        else s.setCmd { c with status := kAlready }
      | _ => s.setCmd { c with status := kAlready }

/-- A command becomes accepted: ACCEPT is posted, the mirror point and the slot's accepted counter move (R291, R317,
R326). -/
def State.acceptCmd (s : State) (h : Nat) (c : Cmd) (solo : Bool) : State :=
  let c := { c with phase := .accepted, solo := solo, half := h }
  let s := (s.setCmd c).postRec h c.func c.seq .accept 0 0 0 [] solo
  let s := if c.auth then s.keyCount h c.kslot (fun k => { k with acc := max k.acc (c.arg 16 8) }) else s
  let s := match funcBinding c.func with
    | some b => if solo then s else s.setBinding b { s.binding b with mirror := some c.seq }
    | none => s
  if c.opc = 0x04 then s.decideAbort c else s

/-- Unaccepted commands leave half `h`'s journal: HEAD of each function goes back to the first of them, so that they are read
again from the ring, and ctr_hi is counted again (R293, R317). -/
def State.rewind (s : State) (h : Nat) (gone : List Cmd) : State :=
  let s := gone.foldl (fun s c => s.setHalf h ((s.half h).setRing c.func
    { (s.half h).ring c.func with head := min ((s.half h).ring c.func).head c.seq })) s
  let keep := fun (l : List Nat) => l.filter (fun j => !gone.any (fun c => c.jseq = j))
  let x := s.half h
  let s := s.setHalf h { x with journal := keep x.journal, journalIn := keep x.journalIn, ackIn := keep x.ackIn }
  if gone.any Cmd.auth then s.setHalf h ((s.half h).recount (s.cmds.filter (fun c => c.phase == .journalled))) else s

/-- A half that leaves its primacy state drops what it journalled and did not accept, its own commands from the device and
those of its peer from its copies alone; while the link is UP the peer drops the half's with it (R293, R317). -/
def State.dropUnaccepted (s : State) (h : Nat) : State :=
  let open' := s.cmds.filter (fun c => c.phase == .journalled)
  let mine := open'.filter (fun c => decide (c.half = h))
  let s : State := { s with cmds := s.cmds.filter (fun (c : Cmd) => !(c.phase == CmdPhase.journalled && decide (c.half = h))) }
  let s := s.rewind h (if s.linkUp then mine else open')
  if s.linkUp then s.rewind (1 - h) mine else s

/-- HEAD of each function at a half that becomes PRIMARY is past every accepted command that its journal holds (R310, R327). -/
def State.passAccepted (s : State) (h : Nat) : State :=
  (s.cmds.filter (fun c => c.phase != .journalled && (s.half h).journal.contains c.jseq)).foldl (fun s c =>
    s.setHalf h ((s.half h).setRing c.func { (s.half h).ring c.func with head := max ((s.half h).ring c.func).head (c.seq + 1) })) s

/-! ### Validation (R313, R316) -/

/-- Where an opcode is allowed: PF, VF, and whether it must be authenticated (R321). -/
def opcRule (opc : Nat) : Option (Bool × Bool × Bool) :=
  match opc with
  | 0x01 => some (true, true, false)
  | 0x02 => some (true, true, false)
  | 0x03 => some (false, true, false)
  | 0x04 => some (true, true, false)
  | 0x05 => some (false, true, false)
  | 0x06 => some (false, true, false)
  | 0x07 => some (false, true, false)
  | 0x08 => some (false, true, false)
  | 0x09 => some (true, false, false)
  | 0x0A => some (true, false, false)
  | 0x0B => some (false, true, false)
  | 0x0C => some (false, true, false)
  | 0x10 => some (true, false, true)
  | 0x11 => some (true, false, true)
  | 0x12 => some (true, false, true)
  | 0x13 => some (true, false, true)
  | 0x14 => some (true, false, true)
  | 0x15 => some (true, false, true)
  | 0x16 => some (true, false, false)
  | 0x17 => some (true, false, false)
  | 0x18 => some (true, false, true)
  | 0x19 => some (true, false, true)
  | _ => none

/-- Argument bytes in use, as ranges of offsets, and whether BUF is (R321). -/
def opcArgs (opc : Nat) (fn : Nat) : List (Nat × Nat) × Bool :=
  match opc with
  | 0x02 => ([(40, 44)], true)
  | 0x03 => ([(40, 68)], true)
  | 0x04 => ([(40, 48)], false)
  | 0x05 => ([(40, 41)], false)
  | 0x07 => ([(40, 48)], true)
  | 0x08 => ([], true)
  | 0x09 => ([(40, 49)], true)
  | 0x0A => ([(40, 49)], false)
  | 0x0B => (match fn with
    | 1 => ([(40, 41), (44, 48)], true)
    | 2 => ([(40, 41), (44, 64)], true)
    | _ => ([(40, 41), (44, 48)], false))
  | 0x0C => ([(40, 44)], true)
  | 0x10 => ([(40, 41)], true)
  | 0x11 => ([(40, 42)], true)
  | 0x12 => ([(40, 41)], false)
  | 0x13 => ([(40, 41)], false)
  | 0x14 => ([(40, 44)], false)
  | 0x15 => ([(40, 42)], true)
  | 0x16 => ([(40, 41)], false)
  | 0x17 => ([(40, 43)], false)
  | 0x18 => ([(40, 42), (44, 49), (52, 57), (64, 72)], false)
  | 0x19 => ([], true)
  | _ => ([], false)

/-- A rejection: status, UNIT and DETAIL (R320). -/
structure Rej where
  status : Nat
  unit : BitVec 16
  detail : Nat
deriving DecidableEq, Repr

def rejInvalid (off : Nat) : Rej := ⟨0x21, 0, off⟩
def rejAbsent (u : BitVec 16) : Rej := ⟨0x24, u, 0⟩

/-- The numbers whose bits a mask sets (R332). -/
def maskBytes (l : List Byte) : List Nat := (l.zipIdx.map (fun e => ((upto 8).filter (fun i => e.1.getLsbD i)).map (fun i => 8 * e.2 + i))).flatten

/-- A resource list (R332). -/
structure ResList where
  cores : List Nat
  press : Nat
  granules : List Nat
  pfirst : Nat
  pcount : Nat
  groups : Nat
deriving DecidableEq, Repr

def resList (l : List Byte) : ResList :=
  { cores := maskBytes (l.take 64), press := bytesAt l 64 4, granules := maskBytes ((l.drop 72).take 96)
    pfirst := bytesAt l 168 4, pcount := bytesAt l 172 4, groups := bytesAt l 176 4 }

/-- The ranges of a resource list. -/
def resOk (l : List Byte) : Bool :=
  let r := resList l
  decide (bytesAt l 68 4 = 0 ∧ bytesAt l 180 12 = 0 ∧ r.press % 65536 = 0 ∧ r.press ≤ 0x200000 ∧ (r.cores = [] → r.press = 0)
    ∧ r.pfirst + r.pcount ≤ 131072 ∧ r.groups ≤ 4096)

/-- A granule that this build has and whose stack is not retired (R206, R371). -/
def State.granuleIn (s : State) (g : Nat) : Bool := granulePresent s.build g && !s.retired.contains (stackOfGranule g)

def State.resAbsent (s : State) (r : ResList) : Option Rej :=
  match r.cores.find? (fun c => !corePresent s.build c || s.gone.contains (unitId 0 c)), r.granules.find? (fun g => !s.granuleIn g) with
  | some c, _ => some (rejAbsent (unitId 0 c))
  | none, some g => some (rejAbsent (unitId 1 (stackOfGranule g)))
  | none, none => none

/-- Whether a partner number is one of a binding's own (R277). -/
def Binding.ownsPartner (x : Binding) (n : Nat) : Bool := x.ranges.any (fun r => decide (r.1 ≤ n ∧ n < r.1 + r.2))

/-- Member and partition entries of a group record in BUF (R237). -/
def grpNmem (l : List Byte) : Nat := bytesAt l 0 8 / 2 ^ 12 % 2 ^ 18
def grpNshard (l : List Byte) : Nat := bytesAt l 8 8 / 2 ^ 32 % 2 ^ 17
def grpGid (l : List Byte) : Nat := bytesAt l 0 8 % 2 ^ 12
def grpSelf (l : List Byte) : Nat := bytesAt l 8 8 % 2 ^ 18
def grpMember (l : List Byte) (i : Nat) : Nat := bytesAt l (16 + 8 * i) 8
def grpPart (l : List Byte) (i : Nat) : Nat := bytesAt l (16 + 8 * grpNmem l + 8 * i) 8

/-- The ranges and resources that an opcode's own rules check at validation (R316, R320). -/
def State.checkArgs (s : State) (f : Nat) (e buf : List Byte) : Option Rej :=
  let a := fun off n => bytesAt e off n
  let blen := a 32 4
  let b := f - 1
  let x := s.binding b
  let inv := fun (bad : Bool) (off : Nat) => if bad then some (rejInvalid off) else none
  let all := fun (l : List (Option Rej)) => firstSome id l
  match a 7 1 with
  | 0x02 => inv (decide (a 40 4 > 5)) 40
  | 0x03 => all [inv (decide (blen ≠ 64)) 32,
      inv (decide (a 56 8 % 16 ≠ 0) || decide (a 56 8 < pressBase) || decide (pressBase + 0x40000000 < a 56 8)) 56,
      inv (decide (a 66 1 > 1)) 66, inv (decide (a 67 1 < 8) || decide (20 < a 67 1)) 67,
      (maskBytes (buf.take 64)).findSome? (fun c => if s.bindingOf c = some b then none else some (rejAbsent (unitId 0 c)))]
  | 0x05 => inv (decide (a 40 1 > 15)) 40
  | 0x07 => all [inv (decide (blen ≠ 32 * a 44 4)) 32,
      inv ((upto (a 44 4)).any (fun i => decide (bytesAt buf (32 * i) 8 % 2 ^ 24 ≠ 0))) 24,
      (upto (a 44 4)).findSome? (fun i => if x.ownsPartner (a 40 4 + i) then none else some (rejAbsent 0))]
  | 0x08 => all [inv (decide (blen < 16) || decide (blen ≠ 16 + 8 * grpNmem buf + 8 * grpNshard buf)) 32,
      (upto (grpNmem buf)).findSome? (fun i =>
        if i = grpSelf buf ∨ x.ownsPartner (grpMember buf i % 2 ^ 17) then none else some (rejAbsent 0))]
  | 0x09 => all [inv (decide (blen ≠ 64)) 32, inv (decide (a 48 1 > 63)) 48,
      (maskBytes (buf.take 64)).findSome? (fun c => if s.bindingOf c = some (a 48 1) then none else some (rejAbsent (unitId 0 c)))]
  | 0x0A => inv (decide (a 48 1 > 63)) 48
  | 0x0B => all [inv (decide (a 40 1 < 1) || decide (3 < a 40 1)) 40,
      (match a 40 1 with
        | 1 => inv (decide (blen ≠ 96)) 32
        | 2 => all [inv (decide (blen % 16 ≠ 0)) 32, inv (decide (a 48 8 = 0)) 48, inv (decide (a 56 2 ≥ 4096)) 56, inv (decide (a 58 1 > 1)) 58,
            inv (decide (a 59 1 > 100)) 59,
            inv ((upto (blen / 16)).any (fun i => decide (bytesAt buf (16 * i) 8 % 64 ≠ 0 ∨ bytesAt buf (16 * i + 8) 6 % 64 ≠ 0
              ∨ 2 < bytesAt buf (16 * i + 14) 1 ∨ bytesAt buf (16 * i + 15) 1 ≠ 0))) 24]
        | _ => none),
      (if x.ownsPartner (a 44 4) then none else some (rejAbsent 0)),
      (if a 40 1 = 1 then ((maskBytes (buf.take 96)).find? (fun g => !s.granuleIn g)).map (fun g => rejAbsent (unitId 1 (stackOfGranule g))) else none)]
  | 0x0C => all [inv (decide (a 40 4 = 0) || decide (65536 < a 40 4)) 40, inv (decide (blen ≠ 16 * a 40 4)) 32,
      inv ((upto (a 40 4)).any (fun i => (mapRecBad buf i).isSome)) 24]
  | 0x10 => all [inv (decide (a 40 1 > 63)) 40, inv (decide (blen ≠ 192)) 32, inv (!resOk buf) 24, s.resAbsent (resList buf)]
  | 0x11 => all [inv (decide (a 40 1 > 63)) 40, inv (decide (a 41 1 > 63)) 41, inv (decide (blen ≠ 192)) 32, inv (!resOk buf) 24, s.resAbsent (resList buf)]
  | 0x12 => inv (decide (a 40 1 > 63)) 40
  | 0x13 => inv (decide (a 40 1 > 1)) 40
  | 0x14 => inv (decide (a 40 4 ≥ 2 ^ 20)) 40
  | 0x15 => all [inv (decide (a 40 1 = 0) || decide (15 < a 40 1)) 40, inv (decide (a 41 1 > 1)) 41, inv (decide (a 41 1 = 1 ∧ blen ≠ 0)) 32]
  | 0x16 => inv (decide (a 40 1 > 7)) 40
  | 0x17 => all [inv (decide (a 42 1 > 1)) 42, (if unitPresent s.build (BitVec.ofNat 16 (a 40 2)) then none else some (rejAbsent (BitVec.ofNat 16 (a 40 2))))]
  | 0x18 => all [inv (decide (a 40 1 > 63)) 40, inv (decide (a 41 1 > 1)) 41, inv (decide (a 44 4 ≥ 2 ^ 20)) 44, inv (decide (a 48 1 > 63)) 48,
      inv (decide (a 52 4 ≥ 2 ^ 20)) 52, inv (decide (a 56 1 > 63)) 56]
  | _ => none

/-- The first byte of ARGS outside the ranges in use that is not zero. -/
def argsZero (e : List Byte) (rs : List (Nat × Nat)) : Option Nat :=
  ((upto 72).map (· + 40)).find? (fun o => !rs.any (fun r => decide (r.1 ≤ o) && decide (o < r.2)) && decide (bytesAt e o 1 ≠ 0))

/-- R316, in order; `buf` is what BUF holds. -/
def State.validate (s : State) (h f : Nat) (e buf : List Byte) : Option Rej :=
  let khdr := BitVec.ofNat 64 (bytesAt e 0 8)
  let opc := bytesAt e 7 1
  let auth := bitAt khdr 55
  let kslot := fld khdr 49 4
  let key := (s.half h).key kslot
  let blen := bytesAt e 32 4
  let (rs, useBuf) := opcArgs opc (bytesAt e 40 1)
  if e.length ≠ 128 ∨ bytesAt e 8 8 ≠ ((s.half h).ring f).head then some ⟨0x20, 0, 0⟩
  else match opcRule opc with
    | none => some (rejInvalid 0)
    | some (pf, vf, need) =>
      if !(if f = 0 then pf else vf && (s.binding (f - 1)).live) then some (rejInvalid 0)
      else if need && !auth then some ⟨0x22, 0, 0⟩
      else if auth && (key.key.isNone || decide (opc = 0x15 ∧ kslot ≠ 0)
          || decide ((hmac256 (key.key.getD []) (e.take 112 ++ buf.take blen)).take 16 ≠ (e.drop 112).take 16)) then some ⟨0x22, 0, 0⟩
      else if auth && decide (bytesAt e 16 8 ≤ key.ctrHi) then some ⟨0x23, 0, 0⟩
      else if fld khdr 0 49 ≠ 0 then some (rejInvalid 0)
      else if !auth && decide (bytesAt e 16 8 ≠ 0) then some (rejInvalid 16)
      else if bytesAt e 24 8 % 64 ≠ 0 ∨ (!useBuf ∧ bytesAt e 24 8 ≠ 0) then some (rejInvalid 24)
      else if blen > 1048576 ∨ (!useBuf ∧ blen ≠ 0) ∨ buf.length < blen ∧ opc ≠ 0x02 then some (rejInvalid 32)
      else if bytesAt e 36 4 ≠ 0 then some (rejInvalid 36)
      else if !auth && decide (bytesAt e 112 16 ≠ 0) then some (rejInvalid 112)
      else match argsZero e rs with
        | some o => some (rejInvalid o)
        | none => s.checkArgs f e (buf.take blen)

/-- HEAD moves past an entry, in both halves' copies while the link is UP. -/
def State.nextEntry (s : State) (h f : Nat) : State := s.ringWrite h f (fun r => { r with head := r.head + 1 })

/-- Journal a validated entry (R291, R316): the other half is sent it while the link is UP; a SOLO primary accepts it at
once. -/
def State.journalCmd (s : State) (h f : Nat) (e buf : List Byte) : State :=
  let c : Cmd :=
    { func := f, seq := bytesAt e 8 8, jseq := s.jnext, opc := bytesAt e 7 1, entry := e, buf := buf.take (bytesAt e 32 4), phase := .journalled
      solo := false, half := h, status := 0, unit := 0, detail := 0, result := [] }
  let s := { s with jnext := s.jnext + 1, cmds := s.cmds ++ [c] }
  let s := s.setHalf h { s.half h with journal := (s.half h).journal ++ [c.jseq] }
  let s := if c.auth then s.keyCount h c.kslot (fun k => k.raise (c.arg 16 8)) else s
  let s := s.nextEntry h f
  if (s.half h).solo then s.acceptCmd h c true
  else if s.linkUp then s.setHalf (1 - h) { s.half (1 - h) with journalIn := (s.half (1 - h)).journalIn ++ [c.jseq] }
  else s

/-- Whether half `h` may read the entry at its HEAD of a function's ring now (R309, R310, R312): none is read while EN of a
ring is being cleared. -/
def State.mayRead (s : State) (h f : Nat) : Bool :=
  let r := (s.half h).ring f
  decide (h < 2) && funcOk f && (s.half h).ready && r.sqEn && !(r.sqClosing || r.cqClosing || r.evqClosing) && decide (r.head < r.tail)

end Sys2Proof.Machine
end

