-- ==== Sys2Proof/Machine/HalfLink.lean ====
section
/-! DEFINITION. The half link (R289, R296), heartbeats and primacy (R290, R293-R295, R369), and the journal's mirror
(R291, R292, R362). -/

namespace Sys2Proof.Machine

/-! ### Events of a half -/

/-- A primacy change is an event of the host too (R339 type 0x03). Its detail is not laid out: the half and what it became,
or the two versions of R369 (log 41). -/
def State.primacyEvent (s : State) (detail : List Nat) : State := s.postEvent ⟨3, 0, 0, 0, 0, detail⟩

/-- The HOLD wire of a half, as the other samples it (R295). -/
def State.setHold (s : State) (h : Nat) (v : Bool) : State :=
  let s := s.setHalf h { s.half h with hold := v }
  s.setHalf (1 - h) { s.half (1 - h) with peerHold := v }

/-- The completions that a half holds need no link once the half posts them itself (R292). -/
def State.takeHeld (s : State) (h : Nat) : State :=
  let s := (s.half h).compHeld.foldl (fun s e =>
    match s.cmd e.1 e.2 with
    | some c => if c.phase = .running then s.setCmd { c with phase := .ended } else s
    | none => s) s
  s.setHalf h { s.half h with compHeld := [] }

/-- A half becomes PRIMARY (R293, R294): its epoch is above its own and its peer's last. -/
def State.becomePrimary (s : State) (h : Nat) : State :=
  let s := (s.takeHeld h).passAccepted h
  let x := s.half h
  let e := if x.epoch.toNat < x.peerEpoch.toNat then x.peerEpoch else x.epoch
  (((s.setHalf h ({ x with pstate := .primary, epoch := e + 1, leftReset := false }.raise evPchg)).setHold h true).primacyEvent [h, 2]).flushEvents

/-- A half becomes FOLLOWER: what it had not accepted is dropped (R293). -/
def State.becomeFollower (s : State) (h : Nat) : State :=
  let s := s.dropUnaccepted h
  (((s.setHalf h ({ s.half h with pstate := .follower, solo := false, leftReset := false }.raise evPchg)).setHold h false).primacyEvent [h, 1])

/-- A half enters SPLIT (R293). -/
def State.becomeSplit (s : State) (h : Nat) : State :=
  let s := s.dropUnaccepted h
  ((s.setHalf h ({ s.half h with pstate := .split, solo := false }.raise (evPchg ||| evSplit))).setHold h false).primacyEvent [h, 0]

/-! ### The link -/

/-- Set LINK at both halves. -/
def State.setLink (s : State) (v : LinkState) : State := s.bothHalves (fun h => { h with link := v })

/-- The link leaves UP (R290, R307): LINKDOWN, and each half forgets its peer's last HSEQ. -/
def State.leaveUp (s : State) (v : LinkState) : State :=
  if s.linkUp then (s.setLink v).bothHalves (fun h => { h.raise evLinkDown with lastHseq := none }) else s.setLink v

/-- A flit arrives (R229, R289): a bad one is replayed, and one that fails three replays makes the link retrain. -/
def doHalfFlit (s : State) (h : Nat) (good : Bool) (c : Option Nat) : State :=
  let x := s.half h
  if h ≥ 2 ∨ !s.linkUp then s
  else if good then s.setHalf h { x with linkTries := 0 }
  else if x.linkTries < 3 then
    let s := s.setHalf h { x with linkTries := x.linkTries + 1 }
    match c with
    | some k => if corePresent s.build k then s.countReplay k else s
    | none => s
  else (s.setHalf h { x with linkTries := 0 }).leaveUp .training

/-- What was in flight when the link went DOWN is lost; completions are held at their half (R289, R292). -/
def Half.loseFlight (x peer : Half) : Half :=
  { x with journalIn := [], ackIn := [], hbIn := [], compIn := [], compHeld := x.compHeld ++ peer.compIn }

/-- A link not UP within 1 ms of a retrain is DOWN (R289). -/
def doLinkDown (s : State) : State :=
  if s.half0.link = .training then
    let s := s.setLink .down
    { s with half0 := s.half0.loseFlight s.half1, half1 := s.half1.loseFlight s.half0 }
  else s

/-- A power-up stage in which a half's link runs (R364 steps 8 to 10). -/
def Half.linkable (x : Half) : Bool := (x.stage == .train || x.stage == .ready) && !x.inReset

/-- Entries that a follower's journal lacks, oldest first: every one above the old mirror point when the link returns (R296),
those without a final record for a half that has left a reset (R362). -/
def State.refill (s : State) (p : Nat) (finals : Bool) : List Nat :=
  (s.cmds.filter (fun c => (finals || c.phase != .final) && (s.half p).journal.contains c.jseq && !(s.half (1 - p)).journal.contains c.jseq)).map (·.jseq)

/-- The primary sends what the follower lacks, and the follower its held completions; the follower takes the primary's
HEAD (R292, R296, R310, R362). -/
def State.resync (s : State) (p : Nat) (finals : Bool) : State :=
  let f := 1 - p
  let todo := s.refill p finals
  let s := s.setHalf f { s.half f with journalIn := (s.half f).journalIn ++ todo.filter (fun j => !(s.half f).journalIn.contains j)
                                       rings := (s.half f).rings.map (fun e => (e.1, { e.2 with head := ((s.half p).ring e.1).head })) }
  let s := s.setHalf p { s.half p with compIn := (s.half p).compIn ++ (s.half f).compHeld }
  s.setHalf f { s.half f with compHeld := [] }

/-- Every slot's ctr_hi becomes the larger of the two copies (R310), its mark written where it crosses a multiple of 4,096
(R318). -/
def State.mergeCounters (s : State) : State :=
  (upto 16).foldl (fun s k =>
    let m := max (s.half0.key k).ctrHi (s.half1.key k).ctrHi
    let a := max (s.half0.key k).acc (s.half1.key k).acc
    s.bothHalves (fun h => h.setKey k { (h.key k).raise m with acc := a })) s

/-- Half `h` takes its peer's copies of the partner table, the group records and EVX_MODE (R289 class CTRL), and the keys that
differ. -/
def State.takeTables (s : State) (h : Nat) : State :=
  let y := s.half (1 - h)
  let s := s.setHalf h { s.half h with partners0 := y.partners0, partners1 := y.partners1, evx := y.evx, eng := { (s.half h).eng with groups := y.eng.groups } }
  (upto 16).foldl (fun s k => if ((s.half h).key k).key = (y.key k).key then s else s.setHalf h ((s.half h).setKey k (y.key k))) s

/-- When the link returns, a half that has left a reset takes its peer's tables, and changes that a keeper could not send while
it was DOWN reach the other half (R289, R296; logs 43 and 136). -/
def State.copyTables (s : State) : State :=
  let from' := if s.half0.leftReset && !s.half1.leftReset then some 1 else if s.half1.leftReset && !s.half0.leftReset then some 0
    else if s.half0.owes && s.half1.owes then some (s.primary.getD 0) else if s.half0.owes then some 0 else if s.half1.owes then some 1 else none
  (match from' with
    | some f => s.takeTables (1 - f)
    | none => s).bothHalves (fun h => { h with owes := false })

/-- The link enters UP (R296, R307): copies, counters, journal and held completions go across, and so do the reads and writes of
collectives that waited for it. -/
def State.enterUp (s : State) : State :=
  let s := s.copyTables
  let s := (s.setLink .up).bothHalves (fun h => { h.raise evLinkUp with linkTries := 0 })
  let s := s.mergeCounters
  (match s.primary with
    | some p => s.resync p (!(s.half (1 - p)).leftReset)
    | none => s).resumeEngines

/-- A retrain ends with the link UP; what was held in the replay buffers goes on (R289). -/
def doLinkRetrained (s : State) : State := if s.half0.link = .training ∧ s.half0.linkable ∧ s.half1.linkable then s.enterUp else s

/-- The link returns to UP (R296). -/
def doLinkUp (s : State) : State := if !s.linkUp && s.half0.linkable && s.half1.linkable then s.enterUp else s

/-- Every stack of a half has left training (R371). -/
def State.hbmTrained (s : State) (h : Nat) : Bool :=
  (upto 8).all (fun i => !stackPresent s.build (8 * h + i) || decide (((s.half h).hbm (8 * h + i)).state ≠ 0))

/-- Half-link training of R371: LINK is TRAINING until it succeeds. -/
def doLinkTraining (s : State) (good : Bool) : State :=
  if s.linkUp || !(s.half0.linkable && s.half1.linkable && s.hbmTrained 0 && s.hbmTrained 1) then s else if good then s.enterUp else s.setLink .training

/-! ### Heartbeats (R290) -/

/-- The highest journal number that half `h` holds contiguously, plus one; 0 for an empty journal. A command whose final record
is posted leaves no gap: R362 does not send it again (R290; log 42). -/
def State.jack (s : State) (h : Nat) : Nat :=
  let l := (s.half h).journal
  let has := fun j => l.contains j || s.cmds.all (fun c => decide (c.jseq ≠ j) || c.phase == .final)
  match l.min?, l.max? with
  | some lo, some hi => (upto (hi + 1 - lo)).foldl (fun n i => if n = lo + i ∧ has n then n + 1 else n) lo
  | _, _ => 0

def State.heartbeat (s : State) (h : Nat) : Heartbeat :=
  let x := s.half h
  { epoch := x.epoch, pstate := x.pstate, solo := x.solo, senior := decide (h = 0), imgv := x.flash.image.version % 2 ^ 32, hseq := x.hseq + 1, jack := s.jack h }

/-- A half whose Kuwick runs sends a heartbeat while the link is UP. -/
def doHeartbeatSend (s : State) (h : Nat) : State :=
  let x := s.half h
  if h < 2 ∧ s.linkUp ∧ x.ready then
    let t := s.setHalf h { x with hseq := x.hseq + 1 }
    t.setHalf (1 - h) { t.half (1 - h) with hbIn := (t.half (1 - h)).hbIn ++ [s.heartbeat h] }
  else s

/-- Comparison at half `h` with its peer's record (R294). A half that has left a reset claims nothing (R362). -/
def State.compare (s : State) (h : Nat) (r : Heartbeat) : State :=
  let x := s.half h
  let peerReset := (s.half (1 - h)).leftReset
  match x.pstate with
  | .follower => s
  | .primary =>
    if r.pstate = .primary ∧ (x.epoch.toNat < r.epoch.toNat ∨ (x.epoch = r.epoch ∧ r.senior)) then s.becomeFollower h else s
  | .split =>
    if r.pstate = .primary then s.becomeFollower h
    else if x.leftReset then (if r.pstate = .split ∧ !peerReset then s.becomeFollower h else s)
    else if r.pstate = .follower ∨ peerReset then s.becomePrimary h
    else if x.epoch.toNat < r.epoch.toNat ∨ (x.epoch = r.epoch ∧ r.senior) then s.becomeFollower h
    else s.becomePrimary h

/-- SOLO clears once the follower's JACK reaches the primary's highest entry (R296). -/
def State.clearSolo (s : State) (h : Nat) (r : Heartbeat) : State :=
  let x := s.half h
  if x.solo && decide (r.pstate = .follower) && (match x.journal.max? with
      | some m => decide (m < r.jack)
      | none => true) then s.setHalf h { x with solo := false }
  else s

/-- Two images that differ (R369): neither half claims, a PRIMARY that is not SOLO becomes SPLIT, and the host hears of
it once. -/
def State.mismatch (s : State) (h : Nat) (first : Bool) (own peer : Nat) : State :=
  let s := if (s.half h).pstate ≠ .split ∧ !(s.half h).solo then s.becomeSplit h else s
  if first then (s.setHalf h ((s.half h).raise evPchg)).primacyEvent [own, peer] else s

/-- A heartbeat arrives (R290, R294, R369). -/
def doHeartbeatReceive (s : State) (h : Nat) (good : Bool) : State :=
  let x := s.half h
  match x.hbIn with
  | [] => s
  | r :: rest =>
    let s := s.setHalf h { x with hbIn := rest }
    if h ≥ 2 ∨ !s.linkUp ∨ !x.ready ∨ !good ∨ (x.lastHseq.getD 0) ≥ r.hseq then s
    else
      let own := x.flash.image.version % 2 ^ 32
      let first := decide (x.peerVersion ≠ some r.imgv)
      let s := s.setHalf h { s.half h with lastHseq := some r.hseq, peerEpoch := r.epoch, peerJack := r.jack, peerVersion := some r.imgv }
      if own ≠ r.imgv then s.mismatch h first own r.imgv
      else
        let s := s.compare h r
        let s := s.clearSolo h r
        match s.primary with
        | some p => s.resync p false
        | none => s

/-- 50 µs after the last valid heartbeat (R293): SPLIT. A SOLO primary has had none since its link went DOWN, until the link has
returned and brought one (R290, R295). -/
def doHeartbeatTimeout (s : State) (h : Nat) : State :=
  let x := s.half h
  if h < 2 ∧ x.pstate ≠ .split ∧ (!x.solo ∨ (s.linkUp ∧ x.lastHseq.isSome)) ∧ x.ready then s.becomeSplit h else s

/-! ### The journal (R291, R292) -/

/-- The follower journals an entry and acknowledges it. -/
def doJournalEntry (s : State) (h : Nat) : State :=
  let x := s.half h
  match x.journalIn with
  | [] => s
  | j :: rest =>
    if h ≥ 2 ∨ !s.linkUp ∨ !x.ready then s
    else
      let s := s.setHalf h { x with journalIn := rest, journal := if x.journal.contains j then x.journal else x.journal ++ [j] }
      s.setHalf (1 - h) { s.half (1 - h) with ackIn := (s.half (1 - h)).ackIn ++ [j] }

/-- The mirror point of a function (R291): the highest SEQ for which every command up to it is held in both journals. A command
whose final record is posted needs no copy any more (R362). -/
def State.mirrorPoint (s : State) (f : Nat) : Option Nat :=
  let held := fun (c : Cmd) => c.phase == .final || (s.half0.journal.contains c.jseq && s.half1.journal.contains c.jseq)
  ((s.cmds.filter (fun c => decide (c.func = f) && s.cmds.all (fun d => decide (d.func ≠ f ∨ c.seq < d.seq) || held d))).map (·.seq)).max?

/-- An acknowledgement reaches the primary: the mirror point moves, and what waits at or below it is accepted in SEQ order (R291). -/
def doJournalAck (s : State) (h : Nat) : State :=
  let x := s.half h
  match x.ackIn with
  | [] => s
  | j :: rest =>
    if h ≥ 2 ∨ !s.linkUp ∨ !x.ready then s
    else
      let s := s.setHalf h { x with ackIn := rest }
      match s.cmds.find? (fun c => decide (c.jseq = j)) with
      | none => s
      | some c =>
        match s.mirrorPoint c.func with
        | none => s
        | some m =>
          let s := (s.cmds.filter (fun d => decide (d.func = c.func ∧ d.seq ≤ m) && d.phase == .journalled)).foldl (fun s d => s.acceptCmd h d false) s
          match funcBinding c.func with
          | some b => s.setBinding b { s.binding b with mirror := some (max m ((s.binding b).mirror.getD 0)) }
          | none => s

/-- A completion of the other half reaches the poster (R292). -/
def doCompletion (s : State) (h : Nat) : State :=
  let x := s.half h
  match x.compIn with
  | [] => s
  | (f, seq) :: rest =>
    if h ≥ 2 ∨ !s.linkUp ∨ !x.ready then s
    else
      let s := s.setHalf h { x with compIn := rest }
      match s.cmd f seq with
      | some c => if c.phase = .running then s.setCmd { c with phase := .ended } else s
      | none => s

/-- A completion produced on half `at'` for its poster: at once on the poster's own half, else by the link, or held
(R292). -/
def State.complete (s : State) (c : Cmd) (at' : Nat) : State :=
  let p := s.posterOf c
  if at' = p then s.setCmd { c with phase := .ended }
  else
    let s := s.setCmd c
    if s.linkUp then s.setHalf p { s.half p with compIn := (s.half p).compIn ++ [(c.func, c.seq)] }
    else s.setHalf at' { s.half at' with compHeld := (s.half at').compHeld ++ [(c.func, c.seq)] }

/-! ### `PRIMACY_SET` (R295, R369) -/

/-- Whether the halves are known to run different images. -/
def State.imagesDiffer (s : State) : Bool :=
  decide (s.half0.flash.image.version % 2 ^ 32 ≠ s.half1.flash.image.version % 2 ^ 32)

/-- The half that a `PRIMACY_SET` does not name gives way (R295). -/
def State.giveWay (s : State) (h : Nat) : State :=
  if (s.half h).pstate = .primary then (if s.linkUp then s.becomeFollower h else s.becomeSplit h) else s.setHold h false

/-- The half it names at AON cycle a (R295): it raises HOLD and samples the peer's. -/
def State.claimHold (s : State) (c : Cmd) (h : Nat) : State :=
  if (s.half h).pstate = .primary then s.doneCmd c
  else
    let s := if s.linkUp then s.giveWay (1 - h) else s
    if (s.half (1 - h)).hold then s.endCmd c kBusy 0 0 [] else (s.setHold h true).setCmd { c with phase := .running }

/-- The half it names at a + 8 (R295): half 1 yields to a HOLD that has risen since. -/
def State.settleHold (s : State) (c : Cmd) (h : Nat) : State :=
  if h = 1 ∧ (s.half 0).hold then (s.setHold h false).endCmd c kBusy 0 0 []
  else
    let s := s.becomePrimary h
    (if s.linkUp then s else s.setHalf h { s.half h with solo := true }).doneCmd c

/-- `PRIMACY_SET` at half `h`, whose journal holds it (R295, R310, R369): a half that it does not name gives way; the named half
samples HOLD twice, `late` being the second time. With the link UP the other half, which holds the same entry, gives way first. -/
def doPrimacySet (s : State) (h seq : Nat) (late : Bool) : State :=
  match s.cmd 0 seq with
  | none => s
  | some c =>
    if c.opc ≠ 0x13 ∨ h ≥ 2 ∨ !(s.half h).ready ∨ !(s.half h).journal.contains c.jseq then s
    else if s.cmds.any (fun d => decide (d.func = 0 ∧ d.seq < seq) && d.phase == .accepted) then s
    else if c.phase = .accepted then
      (if s.linkUp && s.imagesDiffer then s.refuseCmd c 370
       else if h ≠ c.arg 40 1 then s.giveWay h
       else if late then s else s.claimHold c h)
    else if c.phase = .running ∧ late ∧ h = c.arg 40 1 then s.settleHold c h
    else s

/-! ### Reading the rings (R309, R310, R314) -/

/-- A `PRIMACY_SET` that a half reads by itself (R310): the named half accepts it alone, the other gives way and posts nothing. -/
def State.splitPrimacy (s : State) (h : Nat) (e buf : List Byte) : State :=
  let c : Cmd :=
    { func := 0, seq := bytesAt e 8 8, jseq := s.jnext, opc := 0x13, entry := e, buf := buf, phase := .journalled, solo := true, half := h
      status := 0, unit := 0, detail := 0, result := [] }
  let s := s.keyCount h c.kslot (fun k => k.raise (c.arg 16 8))
  let s := s.nextEntry h 0
  let s := { s with jnext := s.jnext + 1 }
  let s := s.setHalf h { s.half h with journal := (s.half h).journal ++ [c.jseq] }
  if bytesAt e 40 1 = h then State.acceptCmd { s with cmds := s.cmds ++ [c] } h c true else s.giveWay h

/-- The keeper reads the next entry (R314, R316). While the link is not UP a half runs a `PRIMACY_SET` by itself, and a SPLIT half
reads nothing else; with two SPLIT halves and the link UP, the named one reads it (R309, R310; log 138). -/
def doSqRead (s : State) (h f : Nat) (e buf : List Byte) : State :=
  let split := decide ((s.half h).pstate = .split)
  let alone := decide (f = 0) && decide (bytesAt e 7 1 = 0x13) && (split || !s.linkUp)
  if !s.mayRead h f || !(decide ((s.half h).pstate = .primary) || (split && alone && (!s.linkUp || decide (bytesAt e 40 1 = h)))) then s
  else match s.validate h f e buf with
    | some r => (s.postRec h f ((s.half h).ring f).head .reject r.status r.unit r.detail [] false).nextEntry h f
    | none => if alone then s.splitPrimacy h e buf else s.journalCmd h f e buf

end Sys2Proof.Machine
end

