-- ==== Sys2Proof/Machine/Power.lean ====
section
/-! DEFINITION. Power and clock loops (R302, R303, R306), resets (R360-R363), power-up and the boot chain (R364-R369),
training (R371), the clip (R372), SMBus (R370, R375) and the TAP (R376). -/

namespace Sys2Proof.Machine

def State.powered (s : State) (h : Nat) : Bool := decide (h < 2) && decide ((s.half h).stage ≠ .off)

/-! ### Loops (R302, R303) -/

def halfOfDie (d : Nat) : Nat := d / 4

/-- Power events (R307). -/
def pwDroop : BitVec 6 := 1
def pwCap : BitVec 6 := 2
def pwTherm : BitVec 6 := 4
def pwTrip : BitVec 6 := 8
def pwInput : BitVec 6 := 16
def pwRail : BitVec 6 := 32

/-- Bits of PW_EVENT of half `h` are set; those that were clear are a power event for the host (R307, R339; log 41). -/
def State.powerEvent (s : State) (h : Nat) (u : BitVec 16) (b : BitVec 6) : State :=
  let x := s.half h
  let new := b &&& ~~~x.pwEvent
  let s := s.setHalf h { x with pwEvent := x.pwEvent ||| b }
  if new = 0 then s else s.postEvent ⟨4, u, 0, 0, 0, [h, new.toNat]⟩

/-- Change a die that this build has, with the power events it raises. -/
def State.onDie (s : State) (d : Nat) (f : Half → Die → Die × BitVec 6) : State :=
  let h := halfOfDie d
  if diePresent s.build d ∧ (s.half h).stage ≠ .off then
    let (x, ev) := f (s.half h) ((s.half h).die d)
    (s.setHalf h ((s.half h).setDie d x)).powerEvent h (unitId 6 d) ev
  else s

/-- The highest 25 MHz step between 0.6 and 1.6 GHz at or below a limit. -/
def freqStep (mhz : Nat) : Nat := max 600 (min 1600 mhz / 25 * 25)

/-- Trips of the last millisecond, 25,000 AON cycles (R307). -/
def recentTrips (l : List Nat) (now : Nat) : List Nat := l.filter (fun t => decide (now < t + 25000))

/-- The VCORE set point: the lowest step of 2.5 mV, from 0.60 to 0.95 V, at which the monitors pass, as whole mV (R302; log 140). -/
def vcoreStep (mv : Nat) : Nat := max 600 (min 950 (cdiv (2 * mv) 5 * 5 / 2))

/-- The frequency and voltage loop, and the 10 µs update of PW_DIESTAT (R302, R307). A tripped die stays at 0.6 GHz
(R303). -/
def doFreqLoop (s : State) (d : Nat) (r : LoopReading) : State :=
  s.onDie d (fun h x =>
    let m := min (min r.voltMHz r.thermMHz) (min r.capMHz r.ceilMHz)
    let on := fun (v : Nat) => decide (v = m) && decide (m < 1600)
    let trips := recentTrips x.trips h.time.toNat
    ({ x with freq := BitVec.ofNat 11 (if x.tripped then 600 else freqStep m)
              lim := BitVec.ofNat 4 (b2n (on r.ceilMHz) + 2 * b2n (on r.voltMHz) + 4 * b2n (on r.capMHz) + 8 * b2n (on r.thermMHz))
              vcore := BitVec.ofNat 10 (vcoreStep r.vcoreMv), temp := BitVec.ofNat 8 (min 255 r.temp)
              trips := trips, droop := BitVec.ofNat 8 (min 255 trips.length) },
     (if on r.thermMHz then pwTherm else 0) ||| (if on r.capMHz then pwCap else 0)))

/-- A droop trip stretches the clock; 64 within a millisecond are an event (R302, R307). -/
def doDroop (s : State) (d : Nat) : State :=
  s.onDie d (fun h x =>
    let trips := recentTrips x.trips h.time.toNat ++ [h.time.toNat]
    ({ x with stretched := true, trips := trips, droop := BitVec.ofNat 8 (min 255 trips.length) }, if trips.length ≥ 64 then pwDroop else 0))

def doDroopEnd (s : State) (d : Nat) : State := s.onDie d (fun _ x => ({ x with stretched := false }, 0))

/-- One step of frequency down (R302). -/
def Die.slower (x : Die) (limit : BitVec 4) : Die := { x with freq := BitVec.ofNat 11 (max 600 (x.freq.toNat - 25)), lim := x.lim ||| limit }

def doThermalLoop (s : State) (d temp : Nat) : State :=
  s.onDie d (fun _ x =>
    let x := { x with temp := BitVec.ofNat 8 (min 255 temp) }
    if temp > 105 then (x.slower 8, pwTherm) else (x, 0))

/-- Watts a half may draw (R302). -/
def Build.capWatts : Build → Nat
  | .t8 => 4300
  | .t4 => 2250
  | .t2 => 1200

def doPowerCap (s : State) (h watts : Nat) : State :=
  if s.powered h ∧ watts > s.build.capWatts then
    (upto s.build.dies).foldl (fun s i => s.onDie (4 * h + i) (fun _ x => (x.slower 4, pwCap))) s
  else s

/-- 115 °C (R303). -/
def doThermalTrip (s : State) (d : Nat) : State :=
  s.onDie d (fun _ x => ({ x with tripped := true, freq := 600, temp := BitVec.ofNat 8 (max 115 x.temp.toNat) }, pwTrip))

/-- THERM_TRIP# of a half is low (R373) while a die of it is held under R303. -/
def Half.thermTrip (x : Half) : Bool := x.dies.any (fun e => e.2.tripped)

/-- 100 ms later (R303): a die still above 105 °C is a permanent fault; one that has cooled runs its loop again. -/
def doTripTimeout (s : State) (d temp : Nat) : State :=
  let h := halfOfDie d
  if diePresent s.build d && decide ((s.half h).stage ≠ .off) && ((s.half h).die d).tripped then
    let s := s.setHalf h ((s.half h).setDie d { (s.half h).die d with temp := BitVec.ofNat 8 (min 255 temp), tripped := decide (temp > 105) })
    if temp > 105 then s.recordFault (unitId 6 d) 0x01 else s
  else s

/-! ### What survives a reset (R360) -/

/-- Spare maps, and the lanes a stack has in use, from non-volatile memory (R236, R357). -/
def Die.afterReset (x : Die) : Die := { Die.reset with l2left := x.l2left, cleft := x.cleft, spares := x.spares }
def Stack.afterReset (x : Stack) : Stack := { Stack.reset with spused := x.spused, spleft := x.spleft }
def Port.afterReset (x : Port) : Port := { Port.reset with dead := x.dead }

/-- A key slot after its half's copy of ctr_hi is lost (R318). -/
def KeySlot.afterReset (x : KeySlot) : KeySlot := { x with ctrHi := x.mark + 4096, acc := x.mark + 4096 }

/-- Every slot, listed or not, at its stored mark + 4,096 (R318). -/
def Half.keysAfterReset (x : Half) : FMap KeySlot := (upto 16).foldl (fun m k => FMap.set KeySlot.empty m k (x.key k).afterReset) []

/-- A half after a reset that does (`aon` false) or does not reach its AON domain (R360). -/
def Half.afterReset (x : Half) (aon : Bool) : Half :=
  { Half.reset with
    time := if aon then x.time else 0, epoch := if aon then x.epoch else 0, pwrEn := x.pwrEn
    keys := x.keysAfterReset, flash := { x.flash with running := none }
    linkSpares := x.linkSpares, dies := x.dies.map (fun e => (e.1, e.2.afterReset)), hbms := x.hbms.map (fun e => (e.1, e.2.afterReset))
    keeper0 := if x.keeper0 = .out then .out else .active
    keeper1 := if x.keeper1 = .out then .out else if x.keeper0 = .out then .active else .standby }

/-- A core after its half's reset: it stays bound (R361). -/
def Core.afterReset (k : Core) : Core :=
  { Core.reset with binding := k.binding, press := k.press, phys := k.phys, descs := k.descs.foldl (fun m e =>
      FMap.set DescSlot.reset m e.1 (if e.2.live.isSome then ⟨none, e.2.gen + 1⟩ else e.2)) [] }

/-- Whether a physical address lies in half `h`. -/
def inHalf (h a : Nat) : Bool :=
  if isPress a then decide ((a - pressBase) / 0x200000 / 256 = h) else decide (a / 2 ^ 30 / 384 = h)

/-- What of device memory a reset of half `h` leaves: nothing of its stacks, windows and L2 slices (log 6). -/
def State.forget (s : State) (h : Nat) : State :=
  { s with mem := s.mem.filter (fun c => !inHalf h c.1), tags := s.tags.filter (fun c => !inHalf h (c.1 * 8))
           poison := s.poison.filter (fun l => !inHalf h (l * 128)), l2 := s.l2.filter (fun e => !inHalf h (e.1 * 128)) }

/-- The stage a half starts again from (R364): step 3, or the wait before it. -/
def Half.restart (x : Half) : Half := { x with stage := if x.pwrEn then .boot else .waitEn, inReset := false, pin := false }

/-- A reset of one half (R360-R362): its bindings stop as by a fault of its dies, its copies of journal and counters are
lost, and so are commands that only its journal held (R329); a completion on its way to it is held where it came from (R292,
R327). -/
def State.resetHalf (s : State) (h : Nat) (stage : Stage') (held : Bool) : State :=
  let stopped := s.liveBindings.filter (fun b =>
    s.holdsAny b (fun c => decide (halfOfCore c = h)) (fun g => decide (halfOfStack (stackOfGranule g) = h)))
  let s := stopped.foldl (fun s b =>
    let byReset := !(s.binding b).stop || (s.binding b).byReset
    let s := s.stopBinding b
    s.setBinding b { s.binding b with byReset := byReset }) s
  let other := s.half (1 - h)
  let was := s.half h
  let s : State := { s with cmds := s.cmds.filter (fun (c : Cmd) => !(decide (c.half = h) && c.phase != CmdPhase.final && !other.journal.contains c.jseq)) }
  let s := (s.leaveUp .down).setHold h false
  let s := s.setHalf h { (s.half h).afterReset true with stage := stage, inReset := held, leftReset := true, peerHold := other.hold }
  let s := s.setHalf (1 - h) ((s.half (1 - h)).loseFlight was)
  let s := s.mapBindings (fun _ x => { x with unauth := FMap.set 0 x.unauth h 0, ecrc := FMap.set 0 x.ecrc h 0 })
  let s := s.mapCores (fun c k => if halfOfCore c = h then k.afterReset else k)
  let s := { s with threads := s.threads.filter (fun e => halfOfCore (coreOf e.1) ≠ h) }
  let s := (upto 12).foldl (fun s i => s.setPort (12 * h + i) (s.port (12 * h + i)).afterReset) s
  (s.setPort (24 + h) (s.port (24 + h)).afterReset).forget h

/-- A reset of the whole module (R360); `aon` says that the AON domain keeps its state. The map of cores to physical cores is kept
(R10, R357). -/
def State.resetModule (s : State) (aon : Bool) (stage : Stage') (held : Bool) : State :=
  { State.reset with
    build := s.build, vin := s.vin, present := s.present, pulses := s.pulses, free := s.free, pending := s.pending, readPort := s.readPort
    retired := s.retired, gone := s.gone, cq := s.cq, events := s.events, msix := s.msix
    cores := s.cores.foldr (fun e m => FMap.set Core.reset m e.1 { Core.reset with phys := e.2.phys }) []
    half0 := { s.half0.afterReset aon with stage := stage, inReset := held, promote := true }
    half1 := { s.half1.afterReset aon with stage := stage, inReset := held, promote := true }
    ports := s.ports.foldr (fun e m => FMap.set Port.reset m e.1 e.2.afterReset) [] }

/-- Both halves start again (R364). -/
def State.restartAll (s : State) : State := s.bothHalves Half.restart

/-- A loss of power (R306, R372): every regulator stops. -/
def State.powerLoss (s : State) : State := s.resetModule false .off false

/-! ### Reset pins (R360) -/

/-- Whether a low pulse of so many µs is taken; the device counts the pulses whose outcome is open (log 16). -/
def State.pulse (s : State) (us : Nat) : Bool × State :=
  if us < 500 then (false, s)
  else if us ≥ 1000 then (true, s)
  else (Config.pulseTaken s.pulses, { s with pulses := s.pulses + 1 })

def doHalfReset (s : State) (h us : Nat) : State :=
  if !s.powered h then s
  else
    let (taken, s) := s.pulse us
    if taken then
      let s := s.resetHalf h .waitEn true
      s.setHalf h { s.half h with pin := true }
    else s

def doModuleReset (s : State) (us : Nat) : State :=
  if !(s.powered 0 || s.powered 1) then s
  else
    let (taken, s) := s.pulse us
    if taken then s.resetModule true .waitEn true else s

def doHalfRelease (s : State) (h : Nat) : State :=
  if h < 2 ∧ (s.half h).pin then s.setHalf h (s.half h).restart else s

/-- The pin rises: both halves start again, a PENDING bank first promoted by the ROM (R366). -/
def doModuleRelease (s : State) : State :=
  if s.half0.inReset && s.half1.inReset && s.half0.promote && s.half1.promote then s.restartAll else s

/-- An SMBus command 0x10 resets at once (R360). -/
def State.resetHalfNow (s : State) (h : Nat) : State :=
  let s := s.resetHalf h .waitEn true
  s.setHalf h (s.half h).restart

/-! ### Keepers (R330, R360) -/

def Half.keeper (x : Half) (k : Nat) : KeeperState := if k = 0 then x.keeper0 else x.keeper1
def Half.setKeeper (x : Half) (k : Nat) (v : KeeperState) : Half := if k = 0 then { x with keeper0 := v } else { x with keeper1 := v }

/-- A watchdog resets a keeper; the standby takes over (R330). -/
def doKeeperReset (s : State) (h k : Nat) : State :=
  if h < 2 ∧ k < 2 ∧ (s.half h).stage = .ready ∧ (s.half h).keeper k ≠ .out then
    let x := s.half h
    let was := x.keeper k
    let x := x.setKeeper k .booting
    s.setHalf h (if was = .active ∧ x.keeper (1 - k) = .standby then x.setKeeper (1 - k) .active else x)
  else s

/-- The ROM's judgement of an image (R366). -/
def imageOk (f : Flash) (im : Image) : Bool :=
  im.sigOk && decide (im.key < 4) && !Config.keyRevoked im.key && decide (f.fuseMin ≤ im.version) && decide (im.size ≤ 64 * 2 ^ 20)

def Flash.bank (f : Flash) (b : Bool) : Image := if b then f.bankB else f.bankA

/-- Whether the ROM finds a bank it may run, ACTIVE's first (R366, R367). -/
def Flash.bootable (f : Flash) : Bool := imageOk f (f.bank f.active) || imageOk f (f.bank (!f.active))

/-- The reset keeper boots again through the boot chain, `good` saying that its hardware did, and returns as standby, or stays out
of service as a permanent fault (R330, R366). -/
def doKeeperReturn (s : State) (h : Nat) (good : Bool) : State :=
  let x := s.half h
  let back := if x.keeper0 = .booting ∧ x.keeper1 = .active then some 0 else if x.keeper1 = .booting ∧ x.keeper0 = .active then some 1 else none
  match back with
  | none => s
  | some k =>
    if h ≥ 2 then s
    else if good && x.flash.bootable then s.setHalf h (x.setKeeper k .standby)
    else (s.setHalf h (x.setKeeper k .out)).recordFault (unitId 4 (2 * h + k)) 0x01

/-- 10 ms without an active keeper reset the half (R330, R360). -/
def doNoKeeper (s : State) (h : Nat) : State :=
  if h < 2 ∧ (s.half h).stage = .ready ∧ !(s.half h).keeperUp then s.resetHalfNow h else s

/-! ### Power-up (R364-R367) -/

def vinOk (mv : Nat) : Bool := decide (40000 ≤ mv) && decide (mv ≤ 60000)

/-- VIN enters its window with the clip mated: a power-up reset, and both AON domains run (R360, R364 steps 1 and 2). -/
def doPowerUp (s : State) (mv : Nat) : State :=
  if vinOk mv && !(s.powered 0) && !(s.powered 1) then
    ({ s with present := true, vin := mv }.resetModule false .waitEn false).restartAll
  else s

/-- VIN near the edge of its window (R306). Both halves see it; the event names no unit. -/
def doVinWarning (s : State) (mv : Nat) : State :=
  if mv < 42000 ∨ 58000 < mv then ({ s with vin := mv }.powerEvent 0 0 pwInput).powerEvent 1 0 pwInput else { s with vin := mv }

def doVinLoss (s : State) (mv : Nat) : State := if vinOk mv then s else { s with vin := mv }.powerLoss

/-- PRSNT_P# breaks (R372). -/
def doClipBreak (s : State) : State := { s with present := false }.powerLoss

def Flash.setBank (f : Flash) (b : Bool) (im : Image) : Flash := if b then { f with bankB := im } else { f with bankA := im }

/-- Promotion of PENDING at power-up and module reset (R366). -/
def Flash.promoted (f : Flash) : Flash :=
  match f.pending with
  | some b => { f with active := b, pending := none }
  | none => f

/-- Steps 5 and 6 of R364 for the cores of a half: the monitor's registers; every thread is IDLE. -/
def State.loadMonitor (s : State) (h : Nat) : State :=
  (upto (64 * s.build.dies)).foldl (fun s i =>
    let c := 256 * h + i
    s.setCore c { s.core c with mtvdesc := Config.mtvdesc c, lanternSp := Config.lanternSp c }) s

/-- The active keeper's ROM boots (R366, R367), and the half goes on to training (R364 steps 4 to 6), or enters
recovery. -/
def doKeeperBoot (s : State) (h k : Nat) : State :=
  let x := s.half h
  if h ≥ 2 ∨ k ≥ 2 ∨ x.stage ≠ .boot ∨ x.inReset ∨ x.keeper k = .out then s
  else
    let f := if x.promote then x.flash.promoted else x.flash
    let x : Half := { (x.setKeeper k .active) with promote := false }
    let x := if x.keeper (1 - k) = .out then x else x.setKeeper (1 - k) .standby
    let run := if imageOk f (f.bank f.active) then some f.active else if imageOk f (f.bank (!f.active)) then some (!f.active) else none
    match run with
    | none => s.setHalf h { x with flash := { f with running := none }, stage := .recovery }
    | some b =>
      let x := { x with flash := { f with running := some b, ran := f.bank b }, stage := .train, pgood := true, monitor := true }
      (s.setHalf h ((upto s.build.dies).foldl (fun x i => x.setDie (4 * h + i) { x.die (4 * h + i) with vcore := 800, freq := 0x4B0 }) x)).loadMonitor h

/-- A stack ends its training (R371): ready, or retired with its granules. -/
def doHbmTraining (s : State) (n : Nat) (good : Bool) : State :=
  let h := halfOfStack n
  let x := (s.half h).hbm n
  if stackPresent s.build n && (s.half h).linkable && decide (x.state = 0) then
    (if good && !s.retired.contains n then s.setHalf h ((s.half h).setHbm n { x with state := 1 })
     else { s.setHalf h ((s.half h).setHbm n { x with state := 3 }) with retired := if s.retired.contains n then s.retired else n :: s.retired })
  else s

/-- Lanes a port may use: those that trained, without one that was replaced for good (R357, R371). -/
def Port.usable (x : Port) (lanes : BitVec 5) : List Nat := (upto 5).filter (fun l => lanes.getLsbD l && !x.dead.contains l)

/-- The credits of a channel as training leaves them: not stated, at least those of one packet (R282; log 32). -/
def portCredits : Nat := Config.vcCredits + 66

/-- A fabric port ends its training (R371, R275): LINK ONLY with the link epoch 1, or DOWN with fewer than 4 lanes. -/
def doPortTraining (s : State) (p : Nat) (lanes : BitVec 5) : State :=
  let x := s.port p
  let l := x.usable lanes
  if decide (p < 24) && (s.half (portHalf p)).linkable && s.hbmTrained (portHalf p) && (x.state == .down || x.state == .training) then
    (if l.length < 4 then s.setPort p { x with state := .down }
     else s.setPort p { x with state := .linkOnly, lmask := BitVec.ofNat 5 (maskOf (fun i => (l.take 4).contains i) 5)
                               spare := BitVec.ofNat 3 (l.getD 4 7), lepoch := 1, nextLane := 0
                               txSeq := 0, rxSeq := 0, replayBuf := [], wire := [], rxBytes := [], awaiting := false, owed := []
                               credits := [(0, portCredits), (1, portCredits), (2, portCredits), (3, portCredits)] })
  else s

/-- A port that failed trains again (R371). -/
def doPortRetry (s : State) (p : Nat) : State :=
  if p < 24 ∧ (s.port p).state = .down ∧ (s.half (portHalf p)).linkable then s.setPort p { s.port p with state := .training } else s

/-- Step 10 of R364. -/
def doKuwickReady (s : State) (h : Nat) : State :=
  if h < 2 ∧ (s.half h).stage = .train ∧ !(s.half h).inReset ∧ s.hbmTrained h then s.setHalf h { s.half h with stage := .ready, pstate := .split } else s

/-- The PCIe link of a half's endpoint (R365, R367). -/
def doEndpointTrained (s : State) (h : Nat) : State :=
  if h < 2 ∧ (s.half h).pgood ∧ (s.half h).stage ≠ .recovery then s.setHalf h { s.half h with epTrained := true } else s

def doEndpointReset (s : State) (h : Nat) : State := if h < 2 then s.setHalf h { s.half h with epTrained := false } else s

/-- PWR_EN goes low: power-down, and the half is held in reset (R364). -/
def doPwrEnLow (s : State) (h : Nat) : State :=
  let x := s.half h
  if h ≥ 2 ∨ !x.pwrEn then s
  else if x.stage = .off ∨ x.stage = .waitEn then s.setHalf h { x with pwrEn := false }
  else
    let s := s.resetHalf h .waitEn false
    s.setHalf h { s.half h with pwrEn := false }

/-- PWR_EN goes high: the half starts from step 3 (R364). -/
def doPwrEnHigh (s : State) (h : Nat) : State :=
  let x := s.half h
  if h ≥ 2 then s
  else s.setHalf h { x with pwrEn := true, stage := if x.stage = .waitEn ∧ !x.inReset ∧ vinOk s.vin then .boot else x.stage }

/-- A rail leaves its window (R306): the die's permanent fault, or for a rail of the whole half that of each of its dies
(log 44). `n` is the die, the stack, or the half. -/
def doRailFault (s : State) (r : Rail) (n : Nat) : State :=
  let die := match r with
    | .vcore => some n
    | .vsram => some n
    | .vhbm => some (dieOfStack n)
    | _ => none
  match die with
  | some d =>
    if diePresent s.build d then
      (s.powerEvent (halfOfDie d) (unitId 6 d) pwRail).recordFault (unitId 6 d) 0x01
    else s
  | none =>
    if n < 2 then
      (upto s.build.dies).foldl (fun s i => s.recordFault (unitId 6 (4 * n + i)) 0x01) (s.powerEvent n 0 pwRail)
    else s

/-! ### SMBus (R367, R370, R375) -/

/-- A half answers SMBus while it has power; in recovery only 0x01, 0x02, 0x11 and 0x20 (R367). -/
def State.smbus (s : State) (h : Nat) (pec : Bool) (always : Bool) : Bool :=
  s.powered h && pec && (always || decide ((s.half h).stage ≠ .recovery))

/-- Telemetry: PW_DIESTAT of the half's dies, VIN in mV, input power in W, HL_STAT. -/
def doTelemetry (s : State) (h : Nat) (pec : Bool) (mv watts : Nat) : State :=
  if s.smbus h pec true then
    s.answer ((upto s.build.dies).map (fun i => dieStat ((s.half h).die (4 * h + i))) ++ [BitVec.ofNat 64 mv, BitVec.ofNat 64 watts, hlStat (s.half h) h])
  else s

/-- A fault record as SMBus gives it: FEPOCH, unit, and a core's physical position plus one, then the position within the unit plus
one; R375 gives no layout (log 141). -/
def FaultRec.words (f : FaultRec) : List Word :=
  [wordFields [(f.fepoch.toNat, 0), (f.unit.toNat, 32), ((f.phys.map (· + 1)).getD 0, 48)], BitVec.ofNat 64 ((f.pos.map (· + 1)).getD 0)]

def doFaultRecords (s : State) (h : Nat) (pec : Bool) : State :=
  if s.smbus h pec true then s.answer ((s.half h).faults.flatMap FaultRec.words) else s

def doSmbusResetHalf (s : State) (h : Nat) (pec : Bool) : State := if s.smbus h pec false then s.resetHalfNow h else s

def doSmbusResetModule (s : State) (pec : Bool) : State :=
  if s.smbus 0 pec false || s.smbus 1 pec false then (s.resetModule true .waitEn true).restartAll else s

/-- Command 0x11: the inactive bank, and ACTIVE (R367). -/
def doRecoveryImage (s : State) (h : Nat) (pec : Bool) (im : Image) : State :=
  let f := (s.half h).flash
  if s.smbus h pec true then s.setHalf h { s.half h with flash := { f.setBank (!f.active) im with active := !f.active } } else s

/-- Bytes as words on the read port. -/
def packWords (l : List Byte) : List Word := (upto (cdiv l.length 8)).map (fun i => BitVec.ofNat 64 (bytesAt l (8 * i) 8))

def doDeviceKey (s : State) (h : Nat) (pec : Bool) : State := if s.smbus h pec true then s.answer (packWords Config.deviceKey) else s

/-- Command 0x21: slot 0 once, in both halves' copies (R318, R370). -/
def doOwnerKey (s : State) (h : Nat) (pec : Bool) (wrapped : List Byte) : State :=
  if s.smbus h pec false ∧ ((s.half h).key 0).key.isNone then
    match Config.ecdhUnwrap wrapped with
    | some k => if k.length = 32 then s.keyWrite h 0 (fun x => { x with key := some k }) else s
    | none => s
  else s

/-! ### TAP (R376) -/

/-- BYPASS 0, IDCODE 1, SAMPLE/PRELOAD 2, EXTEST 3 (log 9). -/
def doTap (s : State) (h ir : Nat) (out : List Word) : State := if h < 2 then (s.setHalf h { s.half h with tapIr := ir }).answer out else s

def idcode : Word := 0x0C31254F

/-- EXTEST is accepted only while HALF_RESET# is low; else it acts as BYPASS. -/
def doExtest (s : State) (h : Nat) : State := if (s.half h).pin then doTap s h 3 [] else doTap s h 0 [0]

/-! ### Function level reset (R363) -/

/-- End one command as the target of an `ABORT` (R331, R363). -/
def State.abortTarget (s : State) (c : Cmd) : State :=
  match c.phase with
  | .accepted => s.endCmd c kAborted 0 0 []
  | .running => (s.haltThreads (fun g => decide ((s.thread g).launch = some c.jseq))).endCmd c kAborted 0 0 []
  | _ => s

/-- Post the finals of a function in SEQ order (R327). -/
def State.finalizeAll (s : State) (f : Nat) : State :=
  (s.cmds.filter (fun c => decide (c.func = f))).foldl (fun s c =>
    match s.cmd f c.seq with
    | some d => if d.phase = .ended then s.finalize d else s
    | none => s) s

/-- FLR of VF `n` (R363): reading stops, accepted commands are aborted and reported, the ring registers reset. -/
def doFlr (s : State) (n : Nat) : State :=
  if n = 0 ∨ !funcOk n then s
  else
    let s : State := { s with cmds := s.cmds.filter (fun (c : Cmd) => !(decide (c.func = n) && c.phase == CmdPhase.journalled)) }
    let s := (s.cmds.filter (fun c => decide (c.func = n))).foldl State.abortTarget s
    let s := s.finalizeAll n
    s.bothHalves (fun h => h.setRing n Ring.reset)

end Sys2Proof.Machine
end

