-- ==== Sys2Proof/Machine/Commands.lean ====
section
/-! DEFINITION. The Kuwick commands (R321): when each starts (R322), and what it does. A command runs as one step and
ends; its final record is a step of its own (COMMAND_FINAL). The time it takes is timing (log 2). -/

namespace Sys2Proof.Machine

/-! ### Starting (R322) -/

def Cmd.isOpen (c : Cmd) : Bool := c.phase == .accepted || c.phase == .running

/-- Bindings that a command must find without earlier commands. -/
def Cmd.names (c : Cmd) : List Nat :=
  match c.opc with
  | 0x06 => [c.func - 1]
  | 0x11 => [c.arg 40 1, c.arg 41 1]
  | 0x12 => [c.arg 40 1]
  | 0x18 => [c.arg 40 1]
  | _ => []

/-- Whether a command is one of a binding: on its VF, or a PF command that makes, moves, frees or restores it. -/
def Cmd.ofBinding (c : Cmd) (b : Nat) : Bool :=
  decide (c.func = b + 1) || (decide (c.func = 0) &&
    (match c.opc with
      | 0x10 => decide (c.arg 40 1 = b)
      | 0x11 => decide (c.arg 40 1 = b) || decide (c.arg 41 1 = b)
      | 0x12 => decide (c.arg 40 1 = b)
      | 0x18 => decide (c.arg 40 1 = b)
      | _ => false))

/-- Threads that a `LAUNCH` names, in number order (R323). -/
def Cmd.launchList (c : Cmd) : List Nat :=
  (maskBytes (c.buf.take 64)).flatMap (fun k => ((upto 16).filter (fun t => (BitVec.ofNat 16 (c.arg 64 2)).getLsbD t)).map (fun t => 16 * k + t))

/-- The `RESTORE`s of a binding that have started and not ended. -/
def State.restoresOf (s : State) (b : Nat) : List Cmd :=
  s.cmds.filter (fun c => decide (c.opc = 0x18 ∧ c.phase = .running ∧ c.arg 40 1 = b))

/-- Whether an accepted command may start (R191, R322, R352): those ahead of it in its sequence have started, a `RACK`
ahead of it has completed, a `RACK`, `REBIND`, `UNBIND` or `RESTORE` finds the bindings it names without earlier commands, and
a `LAUNCH` finds its threads IDLE and earlier `MAP`s completed. A stopped binding's commands wait; a `RESTORE` of a stopped
binding, whose commands end only with it, does not wait for them, but for another `RESTORE` of it whose restore goes on. -/
def State.canStart (s : State) (c : Cmd) : Bool :=
  let ahead := s.cmds.filter (fun d => decide (d.func = c.func) && decide (d.seq < c.seq))
  let free := fun b => !s.cmds.any (fun d => decide (d.jseq < c.jseq) && d.isOpen && d.ofBinding b)
  ahead.all (fun d => d.phase != .journalled && d.phase != .accepted) && !ahead.any (fun d => decide (d.opc = 0x06) && d.isOpen)
    && !s.funcStopped c.func && (s.half (s.posterOf c)).ready
    && c.names.all (fun b => free b || (decide (c.opc = 0x18) && (s.binding b).stop && (decide ((s.binding b).phase ≠ .restore) || (s.restoresOf b).isEmpty)))
    && (decide (c.opc ≠ 0x03) || (!ahead.any (fun d => decide (d.opc = 0x0C) && d.isOpen)
        && c.launchList.all (fun g => decide ((s.thread g).run = .idle) && (s.thread g).trap.isNone)))

/-- The command of a function with this SEQ and opcode, where it may start. -/
def State.toStart (s : State) (f seq opc : Nat) : Option Cmd :=
  (s.cmd f seq).filter (fun c => decide (c.opc = opc) && c.phase == .accepted && s.canStart c)

/-- Run a command that may start. -/
def State.command (s : State) (f seq opc : Nat) (run : Cmd → State) : State :=
  match s.toStart f seq opc with
  | some c => run c
  | none => s

def doNop (s : State) (f seq : Nat) : State := s.command f seq 0x01 s.doneCmd

/-! ### `QUERY` (R321; log 39) -/

/-- The resource list of a binding (R332), with the press of its first core and its first range of partner numbers; further ranges
follow, 8 bytes each (log 39). -/
def State.resBytes (s : State) (b : Nat) : List Byte :=
  let x := s.binding b
  let range := fun (r : Nat × Nat) => leBytes 4 r.1 ++ leBytes 4 r.2
  let bits := fun (l : List Nat) (n : Nat) => leBytes n (l.foldl (fun a i => a + 2 ^ i) 0)
  bits (s.coresOf b) 64 ++ leBytes 4 (((s.coresOf b).head?.map (fun k => (s.core k).press)).getD 0) ++ leBytes 4 0
    ++ bits (s.granulesOf b) 96 ++ range (x.ranges.headD (0, 0)) ++ leBytes 4 x.groups ++ leBytes 12 0 ++ x.ranges.tail.flatMap range

/-- What a `QUERY` returns: item 0 is the build, the revision (A0, R311) and the serial. -/
def State.queryWords (s : State) (c : Cmd) : List Word :=
  match c.arg 40 4 with
  | 0 => [BitVec.ofNat 64 s.build.code, 0, Config.serial]
  | 1 => [hlStat s.half0 0, s.half0.epoch, hlStat s.half1 1, s.half1.epoch]
      ++ (upto 64).map (fun b => match (s.binding b).mirror with
        | some m => BitVec.ofNat 64 m
        | none => BitVec.allOnes 64)
  | 2 => (upto 24).map (fun p => skPort (s.port p))
  | 3 => ((upto 16).filter (stackPresent s.build)).map (fun n => stackStat ((s.half (halfOfStack n)).hbm n))
  | 4 => (upto 16).map (fun k => BitVec.ofNat 64 ((s.half (s.posterOf c)).key k).ctrHi)
  | _ => match funcBinding c.func with
    | some b => packWords (s.resBytes b)
    | none => []

/-- BUF receives the result, as much as it holds. -/
def doQuery (s : State) (f seq : Nat) : State :=
  s.command f seq 0x02 (fun c => (s.answer ((s.queryWords c).take (c.arg 32 4 / 8))).doneCmd c)

/-! ### `LAUNCH` (R323, R324) -/

/-- SPTOP − thread × 2^STKSH, in a core's own press window. -/
def Cmd.stackTop (c : Cmd) (g : Nat) : Word :=
  let sp := c.arg 56 8
  let off := if sp ≤ pressBase then 0 else (sp - pressBase - 1) % 0x200000 + 1
  BitVec.ofNat 64 (pressAddr (coreOf g) off) - BitVec.ofNat 64 (tidOf g * 2 ^ c.arg 67 1)

/-- A thread at dispatch (R26, R323). -/
def Cmd.startThread (c : Cmd) (g rank count : Nat) : Thread :=
  let t := { Thread.reset with
    run := .run, launch := some c.jseq, pc := BitVec.ofNat 64 (c.arg 40 8)
    estat := { EStat.reset with prv := BitVec.ofNat 2 (c.arg 66 1) } }
  ((((t.setReg 1 ⟨.ptr, BitVec.ofNat 64 (c.arg 48 8)⟩).setReg 2 ⟨.int, BitVec.ofNat 64 rank⟩).setReg 3 ⟨.int, BitVec.ofNat 64 count⟩).setReg
    30 ⟨.ptr, c.stackTop g⟩).setReg 31 ⟨.ptr, c.stackTop g⟩

/-- Dispatch one thread: its descriptor slots are retired (R166). -/
def State.dispatch (s : State) (c : Cmd) (g rank count : Nat) : State :=
  (s.setCore (coreOf g) ((s.core (coreOf g)).retireThread (tidOf g))).setThread g (c.startThread g rank count)

/-- RESULT of a launch of which no thread was stopped. -/
def noneStopped : List Byte := leBytes 8 (2 ^ 64 - 1) ++ leBytes 8 0

def State.startLaunch (s : State) (c : Cmd) : State :=
  let l := c.launchList
  if l = [] then s.endCmd c kDone 0 0 noneStopped
  else l.zipIdx.foldl (fun s e => s.dispatch c e.1 e.2 l.length) (s.setCmd { c with phase := .running })

/-- The half that completes a launch: the one its poster is not on, where a launched core lies there (R292). -/
def State.launchHalf (s : State) (c : Cmd) : Nat :=
  let p := s.posterOf c
  if c.launchList.any (fun g => halfOfCore (coreOf g) = 1 - p) then 1 - p else p

/-- A running launch ends once every thread is IDLE (R324); its completion is produced once, though it may be on its way
to the poster (R292). -/
def State.endLaunch (s : State) (c : Cmd) : State :=
  if c.status = 0 && c.launchList.all (fun g => decide ((s.thread g).run = .idle) && (s.thread g).trap.isNone) then
    let c := if c.result = [] then { c with status := kDone, result := noneStopped } else { c with status := kFault }
    s.complete c (s.launchHalf c)
  else s

/-- A `LAUNCH` is dispatched, and when the command is sent again its end is looked for (R323, R324). -/
def doLaunch (s : State) (f seq : Nat) : State :=
  match s.cmd f seq with
  | none => s
  | some c =>
    if c.opc = 0x03 ∧ c.phase = .running ∧ !s.funcStopped f then s.endLaunch c
    else s.command f seq 0x03 s.startLaunch

/-! ### Commands of a binding -/

/-- `ABORT` ends with what was decided when it was accepted (R331). -/
def doAbort (s : State) (f seq : Nat) : State := s.command f seq 0x04 (fun c => s.endCmd c c.status 0 0 [])

def doIrqSet (s : State) (f seq : Nat) : State :=
  s.command f seq 0x05 (fun c =>
    (s.setBinding (f - 1) { s.binding (f - 1) with irqThread := c.arg 40 1 }).doneCmd c)

/-- Whether a binding holds cores in both halves. -/
def State.spans (s : State) (b : Nat) : Bool := [0, 1].all (fun h => (s.coresOf b).any (fun c => decide (halfOfCore c = h)))

/-- `RACK` (R191): the active bank of the binding's entries flips on both halves; for a binding with cores in both it waits for the
half link (log 142). -/
def doRack (s : State) (f seq : Nat) : State :=
  s.command f seq 0x06 (fun c =>
    let x := s.binding (f - 1)
    if s.spans (f - 1) && !s.linkUp then s
    else (s.setBinding (f - 1) { x with ptAct := !x.ptAct, flips := x.flips + 1 }).doneCmd c)

/-! ### `PARTNER_LOAD` (R277-R279) -/

/-- One path of PATHS: RLEN, then its hops. -/
def pathOf (l : List Byte) (p : Nat) : Nat × List Nat :=
  let v := bytesAt l 8 24 / 2 ^ (44 * p) % 2 ^ 44
  (v / 2 ^ 40, (upto (v / 2 ^ 40)).map (fun i => v / 2 ^ (35 - 5 * i) % 32))

/-- An entry of BUF (R277). -/
structure PartRec where
  valid : Bool
  bind : Nat
  dbind : Nat
  ddev : BitVec 20
  np1 : Nat
  adpt : Bool
  pdep : Nat
  paths : List (Nat × List Nat)
deriving DecidableEq, Repr

def partRec (l : List Byte) : PartRec :=
  let w := BitVec.ofNat 64 (bytesAt l 0 8)
  { valid := bitAt w 63, bind := fld w 57 6, dbind := fld w 51 6, ddev := BitVec.ofNat 20 (fld w 31 20), np1 := fld w 29 2
    adpt := bitAt w 28, pdep := fld w 24 4, paths := (upto (fld w 29 2 + 1)).map (pathOf l) }

def partRecs (c : Cmd) : List (Nat × PartRec) :=
  (upto (c.arg 44 4)).map (fun i => (c.arg 40 4 + i, partRec (c.buf.drop (32 * i))))

/-- R279, and the path without a hop of R277. -/
def PartRec.routesOk (r : PartRec) (own : BitVec 20) : Bool :=
  r.paths.all (fun p => decide (p.1 ≤ 8) && p.2.all (· ≤ 23) && (decide (p.1 ≠ 0) || decide (r.ddev = own)))
    && decide (r.pdep = (r.paths.map (·.1)).foldl max 0)

/-- R190: an entry in use keeps its device and binding. An unused entry takes them from the load (log 45). -/
def PartRec.keepsName (r : PartRec) (b : Nat) (old : Partner) : Bool :=
  decide (r.bind = b) && (!old.valid || decide (r.ddev = old.ddev ∧ r.dbind = old.dbind))

/-- The bank that is not active. -/
def Half.shadowBank (h : Half) (act : Bool) : FMap Partner := if act then h.partners0 else h.partners1
def Half.setShadow (h : Half) (act : Bool) (m : FMap Partner) : Half := if act then { h with partners0 := m } else { h with partners1 := m }

/-- Write one entry in a half: routes into the shadow bank, and a first load's names into both banks. -/
def Half.loadPartner (h : Half) (act : Bool) (b n : Nat) (r : PartRec) : Half :=
  let named := fun (p : Partner) => if p.valid then p else { p with valid := r.valid, bind := b, dbind := r.dbind, ddev := r.ddev }
  let h := { h with partners0 := FMap.set Partner.invalid h.partners0 n (named (FMap.get Partner.invalid h.partners0 n))
                    partners1 := FMap.set Partner.invalid h.partners1 n (named (FMap.get Partner.invalid h.partners1 n)) }
  h.setShadow act (FMap.set Partner.invalid (h.shadowBank act) n
    { FMap.get Partner.invalid (h.shadowBank act) n with np1 := r.np1, adpt := r.adpt, pdep := r.pdep, paths := r.paths.map (·.2) })

/-- The deepest path to the other members of a group in a bank, at least 1 (R237). -/
def Group.depth (g : Group) (bank : FMap Partner) : Nat :=
  (((upto g.members.length).filter (· ≠ g.self)).map (fun m =>
    (FMap.get Partner.invalid bank (g.members.getD m ⟨0, 0, 0⟩).partner).pdep)).foldl max 1

/-- HDEPTH again in the groups whose members use loaded entries, from the bank made active next (R279). -/
def Half.redepth (h : Half) (act : Bool) (b : Nat) (loaded : List Nat) : Half :=
  { h with eng := { h.eng with groups := h.eng.groups.map (fun e => (e.1, e.2.map (fun g =>
      if decide (g.binding = b) && ((upto g.members.length).filter (· ≠ g.self)).any (fun m => loaded.contains (g.members.getD m ⟨0, 0, 0⟩).partner) then
        { g with hdepth := g.depth (h.shadowBank act) }
      else g))) } }

def doPartnerLoad (s : State) (f seq : Nat) : State :=
  s.command f seq 0x07 (fun c =>
    let b := f - 1
    let h := s.posterOf c
    let act := (s.binding b).ptAct
    let rs := partRecs c
    if !rs.all (fun e => e.2.routesOk s.devid) then s.refuseCmd c 274
    else if !rs.all (fun e => e.2.keepsName b (FMap.get Partner.invalid (s.half h).partners0 e.1)) then s.refuseCmd c 189
    else (s.ctrl h (fun h => (rs.foldl (fun h e => h.loadPartner act b e.1 e.2) h).redepth act b (rs.map (·.1)))).doneCmd c)

/-! ### `GROUP_SET` (R237, R238) -/

/-- The record in BUF, with the defaults the keeper fills in. -/
def groupRec (b : Nat) (l : List Byte) : Group :=
  let w0 := BitVec.ofNat 64 (bytesAt l 0 8)
  let or0 := fun n d => if n = 0 then d else n
  { binding := b, window := or0 (fld w0 48 16) 0xFA, bktdef := or0 (fld w0 40 8) 0x10, hdepth := 0, self := grpSelf l
    members := (upto (grpNmem l)).map (fun i => ⟨grpMember l i / 2 ^ 20 % 256, grpMember l i / 2 ^ 18 % 4, grpMember l i % 2 ^ 17⟩)
    parts := (upto (grpNshard l)).map (fun i => ⟨grpPart l i / 2 ^ 32, grpPart l i % 2 ^ 18⟩), epoch := none, opened := false }

/-- Fields in range and reserved fields zero (R237, R238). -/
def grpFieldsOk (l : List Byte) (g : Group) : Bool :=
  decide (bytesAt l 0 8 / 2 ^ 30 % 64 = 0) && decide (bytesAt l 8 8 / 2 ^ 49 = 0) && decide (bytesAt l 8 8 / 2 ^ 18 % 2 ^ 14 = 0)
    && decide (4 ≤ g.bktdef) && decide (g.bktdef ≤ 64) && decide (1 ≤ grpNmem l) && decide (grpNmem l ≤ 131072) && decide (grpNshard l ≤ 65536)
    && decide (g.self < grpNmem l)
    && (upto (grpNmem l)).all (fun i => decide (grpMember l i / 2 ^ 28 = 0) && decide (grpMember l i / 2 ^ 17 % 2 = 0))
    && (upto (grpNshard l)).all (fun i => decide (grpPart l i / 2 ^ 18 % 2 ^ 14 = 0))

/-- R238: what a record must keep. -/
def Group.ok (g : Group) : Bool :=
  decide (g.total ≤ 1048576) && g.members.all (fun m => decide (m.role ≠ 3) && (!m.observes || decide (m.ccnt = 0)))
    && g.parts.all (fun p => decide (p.owner < g.members.length) && !(g.members.getD p.owner ⟨0, 0, 0⟩).observes)

/-- Partition entries of every group but one, in half `h`'s copy. -/
def State.partTotal (s : State) (h but : Nat) : Nat :=
  ((s.half h).eng.groups.map (fun e => if e.1 = but then 0 else (e.2.map (·.parts.length)).getD 0)).foldl (· + ·) 0

/-- Group records of a binding, but for one number. -/
def State.groupCount (s : State) (h b but : Nat) : Nat :=
  ((s.half h).eng.groups.filter (fun e => decide (e.1 ≠ but) && decide ((e.2.map (·.binding)) = some b))).length

/-- The epoch of a group that is rewritten stays: it is no field of the record. -/
def Group.keepEpoch (g : Group) (old : Option Group) : Group :=
  match old with
  | some o => if o.binding = g.binding then { g with epoch := o.epoch, opened := o.opened } else g
  | none => g

def doGroupSet (s : State) (f seq : Nat) : State :=
  s.command f seq 0x08 (fun c =>
    let b := f - 1
    let h := s.posterOf c
    let gid := grpGid c.buf
    let g := groupRec b c.buf
    let old := FMap.get none (s.half h).eng.groups gid
    if !(grpFieldsOk c.buf g && g.ok && decide (s.partTotal h gid + g.parts.length ≤ 524288) && old.all (fun o => decide (o.binding = b))) then
      s.refuseCmd c 233
    else if s.groupCount h b gid ≥ (s.binding b).groups then s.endCmd c kNores 0 0 []
    else
      let bank := if (s.binding b).ptAct then (s.half h).partners1 else (s.half h).partners0
      (s.setGroup h gid ({ g with hdepth := g.depth bank }.keepEpoch old)).doneCmd c)

/-! ### `PREEMPT` and `RESUME` (R111, R335) -/

/-- A `tst` or a `vflow` in execution writes through a descriptor whose collision reduction is add (R111, R153). -/
def Core.addingStore (k : Core) : Bool :=
  k.tileQ.any (fun e => e.begun && (match e.op with
    | .store _ _ d _ => decide (d.colr = 1)
    | _ => false))
  || k.chainQ.any (fun e => e.begun && (match e.op with
    | .flow _ _ _ (some d) _ _ _ _ => decide (d.colr = 1)
    | _ => false))

/-- Whether an address lies in HBM that a binding holds and has not granted. -/
def State.ownHbm (s : State) (b a : Nat) : Bool :=
  match physKind s a with
  | .hbm g => decide (s.granOwner g = some b) && (FMap.get none s.granted g).isNone
  | _ => false

/-- Suspension (R111): instructions in execution commit nothing and stay queued. -/
def Core.suspend (k : Core) : Core := { k.unbegin.unbeginChain with suspended := true }

def State.putSaved (s : State) (a : Nat) (v : Option Saved) : State := { s with saved := FMap.set none s.saved a v }

/-- What `PREEMPT` saves of cores that have stopped between words (R335): tiles with banks, chain slots, queues and descriptor table,
and the state of their threads. -/
def State.saveCores (s : State) (b : Nat) (l : List Nat) : Saved :=
  ⟨b, l.map (fun k => (k, s.core k)), (l.flatMap (fun k => (upto 16).map (· + 16 * k))).map (fun g => (g, s.thread g))⟩

/-- A saved core as `RESUME` puts it back: it keeps what it is now bound to; nothing is cached. -/
def Core.putBack (now saved : Core) : Core :=
  { saved with binding := now.binding, press := now.press, phys := now.phys, suspended := false, l1 := [], reqs := [], tcache := [] }

/-- `PREEMPT` (R335); a write that adds runs to its end first (R111). -/
def doPreempt (s : State) (f seq : Nat) : State :=
  s.command f seq 0x09 (fun c =>
    let b := c.arg 48 1
    let l := maskBytes (c.buf.take 64)
    if !s.ownHbm b (c.arg 40 8) then s.refuseCmd c 329
    else if l.any (fun k => (s.core k).addingStore) then s
    else
      let s := l.foldl (fun s k => s.setCore k (s.core k).suspend) s
      (s.putSaved (c.arg 40 8) (some (s.saveCores b l))).doneCmd c)

/-- Continue one saved core: where it still stands as it was stopped, it goes on; where it has been scrubbed since, its state and its
threads' are written back (R335). -/
def State.resumeCore (s : State) (v : Saved) (k : Nat) (saved : Core) : State :=
  if (s.core k).suspended then s.setCore k { s.core k with suspended := false }
  else (v.threads.filter (fun t => decide (coreOf t.1 = k))).foldl (fun s t => s.setThread t.1 t.2) (s.setCore k ((s.core k).putBack saved))

/-- `RESUME` restores the cores that the save area holds, as far as the binding holds them still, and continues; a save area that
holds nothing of the binding refuses it (log 40). -/
def doResume (s : State) (f seq : Nat) : State :=
  s.command f seq 0x0A (fun c =>
    let b := c.arg 48 1
    match FMap.get none s.saved (c.arg 40 8) with
    | some v =>
      if v.b = b then
        (((v.cores.filter (fun e => s.bindingOf e.1 = some b)).foldl (fun s e => s.resumeCore v e.1 e.2) s).putSaved (c.arg 40 8) none).doneCmd c
      else s.refuseCmd c 335
    | none => s.refuseCmd c 335)

/-! ### `CELLAR_CFG` (R345, R346) -/

/-- An eighth of the populated granules. -/
def Build.grantLimit (b : Build) : Nat := 24 * b.dies

def State.grantedCount (s : State) : Nat := s.granted.length

/-- Granules enter (`on`) or leave the grant to partner `n`, with their scrub and the table area that follows (R213,
R346). Tables leave a granted granule before its scrub, and enter a returned one after it. -/
def State.setGrant (s : State) (b n : Nat) (gs : List Nat) (on : Bool) : State :=
  let s := s.unmapGranules b gs
  let leaves := s.leavesOf b
  let s := { s with granted := gs.foldl (fun m g => FMap.set none m g (if on then some n else none)) s.granted }
  let had := FMap.get [] (s.binding b).grants n
  let s := s.setBinding b { s.binding b with grants := FMap.set [] (s.binding b).grants n (if on then had ++ gs else []) }
  if on then gs.foldl State.scrubGranule (s.settleTables b leaves) else (gs.foldl State.scrubGranule s).settleTables b leaves

/-- Snapshots of a client on this device are lost when its reserve is withdrawn. -/
def State.loseClient (s : State) (b n : Nat) : State :=
  let p := FMap.get Partner.invalid (s.home b).partners0 n
  if p.valid ∧ p.bind = b ∧ p.ddev = s.devid then
    let x := s.binding p.dbind
    s.setBinding p.dbind { x with slot0 := none, slot1 := none, lvalid := false, lost := x.lost || x.lvalid }
  else s

/-- GRANT: one eighth of the device at most, and only granules of the binding that it has not granted (R346). -/
def doCellarGrant (s : State) (f seq : Nat) : State :=
  s.command f seq 0x0B (fun c =>
    let b := f - 1
    let n := c.arg 44 4
    let gs := maskBytes (c.buf.take 96)
    if c.arg 40 1 ≠ 1 then s
    else if s.grantedCount + gs.length > s.build.grantLimit ∨ !gs.all (fun g => decide (s.granOwner g = some b) && (FMap.get none s.granted g).isNone) then
      s.refuseCmd c 338
    else (s.setGrant b n gs true).doneCmd c)

def doCellarRevoke (s : State) (f seq : Nat) : State :=
  s.command f seq 0x0B (fun c =>
    let b := f - 1
    let n := c.arg 44 4
    if c.arg 40 1 ≠ 3 then s
    else ((s.setGrant b n (FMap.get [] (s.binding b).grants n) false).loseClient b n).doneCmd c)

/-- Regions of BUF (R345). -/
def regionsOf (l : List Byte) : List Region :=
  (upto (l.length / 16)).map (fun i => ⟨BitVec.ofNat 64 (bytesAt l (16 * i) 8), bytesAt l (16 * i + 8) 6, bytesAt l (16 * i + 14) 1⟩)

/-- The largest snapshot that a region list can produce (R345, R346). -/
def largestSnapshot (l : List Region) : Nat :=
  let sum := fun p => ((l.filter (fun r => decide (r.par = p))).map (·.len)).foldl (· + ·) 0
  sum 0 + max (sum 1) (sum 2)

/-- Bytes of a binding record (R347; log 46). -/
def State.recordBytes (s : State) (b : Nat) : Nat := (s.bindingRecord b 0).image.length

/-- Bytes of the reserve that partner `n` keeps for a client (R346). -/
def State.reserveBytes (s : State) (b n : Nat) : Nat := 2 ^ 30 * (((s.reserveAt b n).map s.reserveOf).getD []).length

/-- The last step of a group whose CLOSE ended DONE: snapshots begin with the steps after it (log 135). -/
def State.lastClosed (s : State) (gid : Nat) : Option Nat :=
  (((s.half0.eng.closed ++ s.half1.eng.closed).filter (fun e => decide (e.1 = gid))).map (·.2)).max?

def doCellarClient (s : State) (f seq : Nat) : State :=
  s.command f seq 0x0B (fun c =>
    let b := f - 1
    let x := s.binding b
    let rs := regionsOf c.buf
    let big := largestSnapshot rs
    let first := c.arg 60 2
    let count := c.arg 62 2
    let cfg : CellarCfg := ⟨c.arg 44 4, c.arg 48 8, c.arg 56 2, decide (c.arg 58 1 = 1), if c.arg 59 1 = 0 then 25 else c.arg 59 1, first, count, rs⟩
    if c.arg 40 1 ≠ 2 then s
    else if s.reserveBytes b (c.arg 44 4) < 2 * (4096 + big + s.recordBytes b) ∨ count * 2 ^ 30 < big
        ∨ !(upto count).all (fun i => decide (s.granOwner (first + i) = some b) && (FMap.get none s.granted (first + i)).isNone) then s.refuseCmd c 338
    else
      let keep := (x.cfg.map (·.partner)) == some cfg.partner
      let x := { x with cfg := some cfg, phase := if x.phase = .none then .idle else x.phase }
      let last := s.lastClosed cfg.gid
      let fresh : Binding :=
        { x with slot0 := none, slot1 := none, lvalid := false, slotSel := false, lstep := 0, captured := last, drainedTo := last }
      let x := if keep then x else fresh
      (s.setBinding b x).doneCmd c)

/-! ### `MAP` (R336) -/

def doMap (s : State) (f seq : Nat) : State :=
  s.command f seq 0x0C (fun c =>
    let b := f - 1
    let rs := mapRecs c.buf (c.arg 40 4)
    match s.mapPlan b rs with
    | none => s.refuseCmd c 377
    | some _ => match s.mapApply b rs with
      | none => s.endCmd c kNores 0 0 []
      | some s => s.doneCmd c)

/-! ### `BIND`, `REBIND`, `UNBIND` (R332, R333) -/

def spansMeet (a n b m : Nat) : Bool := decide (n ≠ 0) && decide (m ≠ 0) && decide (a < b + m) && decide (b < a + n)

/-- Groups that the bindings hold. -/
def State.groupSum (s : State) : Nat := (s.liveBindings.map (fun b => (s.binding b).groups)).foldl (· + ·) 0

/-- Whether a resource list names only what nothing holds. -/
def State.unbound (s : State) (r : ResList) : Bool :=
  r.cores.all (fun k => (s.bindingOf k).isNone) && r.granules.all (fun g => (s.granOwner g).isNone)
    && !s.liveBindings.any (fun b => (s.binding b).ranges.any (fun q => spansMeet r.pfirst r.pcount q.1 q.2)) && decide (s.groupSum + r.groups ≤ 4096)

/-- Cores go to a binding with so many bytes of press each, or to none, scrubbed (R332, R333). -/
def State.giveCores (s : State) (l : List Nat) (b : Option Nat) (press : Nat) : State :=
  l.foldl (fun s k => let s := s.scrubCore k; s.setCore k { s.core k with binding := b, press := press }) s

/-- Granules go to a binding, or to none, scrubbed; no grant stays on them (R333). -/
def State.giveGranules (s : State) (l : List Nat) (b : Option Nat) : State :=
  let s := l.foldl State.scrubGranule s
  { s with owner := l.foldl (fun m g => FMap.set none m g b) s.owner, granted := l.foldl (fun m g => FMap.set none m g none) s.granted }

/-- Partner numbers `a` to `a + n - 1` leave a binding's ranges (R332). -/
def rangesLess (l : List (Nat × Nat)) (a n : Nat) : List (Nat × Nat) :=
  if n = 0 then l
  else l.flatMap (fun r =>
    let e := r.1 + r.2
    let hi := max r.1 (a + n)
    [(r.1, min e a - r.1), (hi, e - hi)].filter (fun q => decide (q.2 ≠ 0)))

/-- Partner numbers `a` to `a + n - 1` join a binding's ranges, which stay in number order. -/
def rangesMore (l : List (Nat × Nat)) (a n : Nat) : List (Nat × Nat) :=
  if n = 0 then l else l.filter (fun r => decide (r.1 < a)) ++ (a, n) :: l.filter (fun r => decide (a ≤ r.1))

def doBind (s : State) (f seq : Nat) : State :=
  s.command f seq 0x10 (fun c =>
    let h := s.posterOf c
    let b := c.arg 40 1
    let r := resList c.buf
    if (s.binding b).live then s.refuseCmd c 332
    else if !s.unbound r then s.endCmd c kNores 0 0 []
    else
      let s := s.setBinding b { Binding.empty with live := true, ranges := rangesMore [] r.pfirst r.pcount, groups := r.groups }
      let s := (s.giveCores r.cores (some b) r.press).giveGranules r.granules (some b)
      (((s.clearPartners h [(r.pfirst, r.pcount)]).clearGroups h b).buildTables b []).doneCmd c)

/-- Resources of the source alone, and no group record without room (R332; log 47). -/
def State.movable (s : State) (h src : Nat) (r : ResList) : Bool :=
  r.cores.all (fun k => s.bindingOf k = some src) && r.granules.all (fun g => s.granOwner g = some src)
    && (upto r.pcount).all (fun i => (s.binding src).ownsPartner (r.pfirst + i))
    && decide (s.groupCount h src 4096 + r.groups ≤ (s.binding src).groups)

/-- Granted granules that leave their binding leave its grants, and the snapshots in them are lost to their clients (R346, R356). -/
def State.ungrant (s : State) (b : Nat) (gs : List Nat) : State :=
  let hit := fun (l : List Nat) => l.any gs.contains
  let s := ((s.binding b).grants.filter (fun e => hit e.2)).foldl (fun s e => s.loseClient b e.1) s
  s.setBinding b { s.binding b with grants := (s.binding b).grants.foldl (fun m e => FMap.set [] m e.1 (e.2.filter (fun g => !gs.contains g))) [] }

def State.moveResources (s : State) (h src dst : Nat) (r : ResList) : State :=
  let s := s.ungrant src r.granules
  let s := s.setBinding src { s.binding src with
    live := true, ranges := rangesLess (s.binding src).ranges r.pfirst r.pcount, groups := (s.binding src).groups - r.groups }
  let s := s.setBinding dst { s.binding dst with
    live := true, ranges := rangesMore (s.binding dst).ranges r.pfirst r.pcount, groups := (s.binding dst).groups + r.groups }
  let s := s.unmapGranules src r.granules
  let left := s.leavesOf src
  let mine := s.leavesOf dst
  let s := { s with owner := r.granules.foldl (fun m g => FMap.set none m g none) s.owner }
  let s := s.settleTables src left
  let s := (s.giveCores r.cores (some dst) r.press).giveGranules r.granules (some dst)
  (s.clearPartners h [(r.pfirst, r.pcount)]).settleTables dst mine

/-- `REBIND` (R332): the listed resources move; a side that does not exist is made. -/
def doRebind (s : State) (f seq : Nat) : State :=
  s.command f seq 0x11 (fun c =>
    let h := s.posterOf c
    let r := resList c.buf
    if s.movable h (c.arg 40 1) r then (s.moveResources h (c.arg 40 1) (c.arg 41 1) r).doneCmd c else s.endCmd c kNores 0 0 [])

def doUnbind (s : State) (f seq : Nat) : State :=
  s.command f seq 0x12 (fun c =>
    let b := c.arg 40 1
    let x := s.binding b
    if !x.live then s.refuseCmd c 332
    else
      let s := (x.grants.map (·.1)).foldl (fun s n => s.loseClient b n) s
      let h := s.posterOf c
      let s := (s.haltBinding b).giveCores (s.coresOf b) none 0
      let s := s.giveGranules (s.granulesOf b) none
      let s := (s.clearPartners h x.ranges).clearGroups h b
      let s : State := { s with saved := s.saved.filter (fun (e : Nat × Option Saved) => (e.2.map Saved.b) != some b) }
      (s.setBinding b Binding.empty).doneCmd c)

/-! ### Commands of the device -/

/-- `FABRIC_ID_SET` (R274). -/
def doFabricIdSet (s : State) (f seq : Nat) : State :=
  s.command f seq 0x14 (fun c =>
    if s.liveBindings.any (fun b => !(s.binding b).ranges.isEmpty) then s.refuseCmd c 269
    else State.doneCmd { s with devid := BitVec.ofNat 20 (c.arg 40 4), devValid := true } c)

/-- `KEY_SET` (R319): a slot takes the key in BUF, and its counter starts at 0. -/
def doKeySet (s : State) (f seq : Nat) : State :=
  s.command f seq 0x15 (fun c =>
    let h := s.posterOf c
    if c.arg 41 1 ≠ 0 then s
    else match ((s.half h).key 0).key.bind (fun k => keyUnwrap k c.buf) with
      | some k => if k.length = 32 then (s.keyWrite h (c.arg 40 1) (fun _ => ⟨some k, 0, 0, 0⟩)).doneCmd c else s.refuseCmd c 319
      | none => s.refuseCmd c 319)

def doKeyClear (s : State) (f seq : Nat) : State :=
  s.command f seq 0x15 (fun c =>
    if c.arg 41 1 ≠ 1 then s
    else (s.keyWrite (s.posterOf c) (c.arg 40 1) (fun k => { k with key := none })).doneCmd c)

/-- `EVENT_CFG` (R301). -/
def doEventCfg (s : State) (f seq : Nat) : State :=
  s.command f seq 0x16 (fun c => (s.ctrl (s.posterOf c) (fun h => { h with evx := BitVec.ofNat 3 (c.arg 40 1) })).doneCmd c)

/-! ### `SELFTEST` (R337, R338) -/

/-- Whether something bound lies in a unit. -/
def State.unitBound (s : State) (u : BitVec 16) : Bool :=
  let i := unitIdx u
  let pc := fun p => s.cores.any (fun e => e.2.binding.isSome && p e.1)
  let pg := fun p => s.owner.any (fun e => (s.granOwner e.1).isSome && p (stackOfGranule e.1))
  match unitClass u with
  | 0 => (s.bindingOf i).isSome
  | 1 => pg (fun n => decide (n = i))
  | 2 => false
  | 3 => false
  | 6 => pc (fun c => decide (dieOfCore c = i)) || pg (fun n => decide (dieOfStack n = i))
  | _ => pc (fun c => decide (halfOfCore c = unitHalf u)) || pg (fun n => decide (halfOfStack n = unitHalf u))

/-- Whether a spare of the unit's class is left on its die or stack (R18). -/
def State.spareLeft (s : State) (u : BitVec 16) : Bool :=
  let i := unitIdx u
  match unitClass u with
  | 0 => decide (((s.half (i / 256)).die (i / 64)).cleft ≠ 0)
  | 1 => decide (((s.half (i / 8)).hbm i).spleft ≠ 0)
  | _ => false

/-- The test of a unit ends: DONE, or FAILED with the failing test in RESULT (R320). -/
def State.testCmd (s : State) (c : Cmd) (r : Option Word) : State :=
  match r with
  | none => s.doneCmd c
  | some w => s.endCmd c kFailed (BitVec.ofNat 16 (c.arg 40 2)) 0 (leBytes 8 w.toNat ++ leBytes 8 0)

/-- The spare that a test with SPARE_OK runs on: the one that the next repair takes, a core's physical position or the number of an
HBM stack's spare lane (R337; log 143). -/
def State.nextSpare (s : State) (u : BitVec 16) : Nat :=
  let i := unitIdx u
  if unitClass u = 0 then ((s.half (i / 256)).die (i / 64)).spares.headD 0 else ((s.half (i / 8)).hbm i).spused.toNat

/-- The test of a spare ends: RESULT holds the failing test, or 0, and the spare (R337; log 143). -/
def State.testSpare (s : State) (c : Cmd) (r : Option Word) : State :=
  let u := BitVec.ofNat 16 (c.arg 40 2)
  let tail := leBytes 8 (s.nextSpare u)
  match r with
  | none => s.endCmd c kDone 0 0 (leBytes 8 0 ++ tail)
  | some w => s.endCmd c kFailed u 0 (leBytes 8 w.toNat ++ tail)

/-- A fabric port, or the half link, reports how its latest rotation went, `r` naming the test that failed (R338). -/
def State.testLink (s : State) (c : Cmd) (r : Option Word) : State :=
  let u := BitVec.ofNat 16 (c.arg 40 2)
  let l := if unitClass u = 2 then [unitIdx u] else [24, 25]
  s.testCmd c (if l.any (fun p => (s.port p).tested == some false) then some (r.getD 0) else none)

/-- DEFERRED: the test runs when the unit is next unbound. -/
def State.deferTest (s : State) (c : Cmd) : State :=
  let u := BitVec.ofNat 16 (c.arg 40 2)
  State.endCmd { s with deferredTests := if s.deferredTests.contains u then s.deferredTests else s.deferredTests ++ [u] } c kDeferred u 0 []

/-- A fabric port or the half link reports its latest rotation at once (R338). -/
def isLinkUnit (u : BitVec 16) : Bool := decide (unitClass u = 2) || decide (unitClass u = 3)

def doSelftest (s : State) (f seq : Nat) (r : Option Word) : State :=
  s.command f seq 0x17 (fun c =>
    let u := BitVec.ofNat 16 (c.arg 40 2)
    if c.arg 42 1 ≠ 0 then s
    else if isLinkUnit u then s.testLink c r
    else if s.unitBound u then s.deferTest c else s.testCmd c r)

def doSelftestSpare (s : State) (f seq : Nat) (r : Option Word) : State :=
  s.command f seq 0x17 (fun c =>
    let u := BitVec.ofNat 16 (c.arg 40 2)
    if c.arg 42 1 ≠ 1 then s
    else if isLinkUnit u then s.testLink c r
    else if s.spareLeft u then s.testSpare c r
    else if s.unitBound u then s.deferTest c else s.testCmd c r)

/-- A deferred test ends once its unit is unbound, and its result arrives as an event (R337, R339; log 41). -/
def doDeferredTest (s : State) (u : BitVec 16) (r : Option Word) : State :=
  if s.deferredTests.contains u && !s.unitBound u then
    State.postEvent { s with deferredTests := s.deferredTests.filter (· ≠ u) } ⟨2, u, 0, 0, 0, match r with
      | none => [kDone]
      | some w => [kFailed, w.toNat]⟩
  else s

/-! ### `FW_UPDATE` (R368) -/

/-- Write the inactive bank and name it in PENDING. -/
def Flash.update (x : Flash) (im : Image) : Flash := { x.setBank (!x.active) im with pending := some (!x.active) }

/-- `FW_UPDATE` (R368) writes both halves' flash; it waits for the half link (R12; log 142). -/
def doFwUpdate (s : State) (f seq : Nat) (im : Image) : State :=
  s.command f seq 0x19 (fun c =>
    if !s.linkUp then s
    else if imageOk s.half0.flash im && imageOk s.half1.flash im then
      (s.bothHalves (fun h => { h with flash := h.flash.update im })).doneCmd c
    else s.refuseCmd c 358)

/-! ### `RESTORE` (R354, R358) -/

/-- The restore of a binding begins: stopped first (R352), then scrubbed (R354 step 1). -/
def State.beginRestore (s : State) (b : Nat) (keepnet : Bool) (src : Option RestoreFrom) (step : Option Nat) : State :=
  let s := if (s.binding b).stop then s else s.stopBinding b
  let x := s.binding b
  (s.setBinding b { x with stop := true, phase := .restore, keepnet := keepnet, restFrom := src, agreed := step, snap := none, byReset := false, stranded := false }).scrubBinding b

def Cmd.restoreFrom (c : Cmd) : RestoreFrom := ⟨BitVec.ofNat 20 (c.arg 44 4), c.arg 48 1, BitVec.ofNat 20 (c.arg 52 4), c.arg 56 1⟩

/-- The restore that a `RESTORE` asks for begins, or begins again after a fault during it (R356, R358). -/
def State.restoreBy (s : State) (c : Cmd) : State :=
  s.beginRestore (c.arg 40 1) (decide (c.arg 41 1 = 1)) (some c.restoreFrom) (some (c.arg 64 8))

def doRestore (s : State) (f seq : Nat) : State :=
  s.command f seq 0x18 (fun c =>
    let b := c.arg 40 1
    if !(s.binding b).live then s.refuseCmd c 358
    else (s.restoreBy c).setCmd { c with phase := .running })

/-- The reserve that a restore reads: the one that `RESTORE` names, else the binding's own. -/
def State.restoreSource (s : State) (b : Nat) : Option RestoreFrom := (s.binding b).restFrom.orElse (fun _ => s.ownReserve b)

/-- The slot that a restore reads, where the client it was taken of is of this device, with its region data. -/
def State.restoreSlot (s : State) (b : Nat) : Option (SnapSlot × List (Word × List Byte)) :=
  (s.restoreSource b).bind (fun r =>
    if r.cdev = s.devid then (s.slotOf r (s.binding r.cbind) ((s.binding b).agreed.getD 0)).map (fun d => (d.2, s.slotData r d.1 d.2)) else none)

/-- Step 2 of R354: tables and regions, and the record unless KEEPNET. -/
def State.writeBack (s : State) (b : Nat) (d : SnapSlot) (data : List (Word × List Byte)) : State :=
  let s := s.buildTables b d.maps
  let s := data.foldl (fun s r =>
    match (s.coresOf b).head? with
    | none => s
    | some k => match s.xlatRun k 1 .wr r.1 r.2.length with
      | (.ok ps, s) => s.writePieces 512 ps r.2
      | (.error _, s) => s) s
  if (s.binding b).keepnet then s else s.restoreRecord b d

/-- Step 4 of R354: ROLLED for every accepted command of the binding without a final record, in SEQ order. -/
def State.rollCmds (s : State) (b : Nat) : State :=
  (s.cmds.filter (fun c => decide (c.func = b + 1) && c.phase != .journalled && c.phase != .final)).foldl (fun s c =>
    s.finalize { c with phase := .ended, status := kRolled, unit := 0, detail := 0, result := [] }) s

/-- The `RESTORE` that is restoring a binding ends. -/
def State.endRestoreCmd (s : State) (b : Nat) : State :=
  (s.restoresOf b).foldl State.doneCmd s

/-- The reserve after a restore to step s*: a slot of a later step is empty, since nothing after s* survives, and LSTEP names what is
left; a later snapshot is due again (R354; log 135). -/
def Binding.rewindSlots (x : Binding) (step : Nat) : Binding :=
  let keep := fun (q : Option SnapSlot) => q.filter (fun d => decide (d.state = 2 ∧ d.step ≤ step))
  let a := keep x.slot0
  let b := keep x.slot1
  let second := decide ((a.map (·.step)).getD 0 < (b.map (·.step)).getD 0) || a.isNone
  let last := if second then b else a
  { x with slot0 := a, slot1 := b, slotSel := second && b.isSome, lvalid := last.isSome, lstep := BitVec.ofNat 40 ((last.map (·.step)).getD 0)
           captured := some step, drainedTo := some step }

/-- Steps 3 and 4 of R354: the groups' epochs, the ROLLED records, and the binding runs again. -/
def State.finishRestore (s : State) (b step : Nat) : State :=
  let s := (s.restoreEpochs b step).rollCmds b
  let x := (s.binding b).rewindSlots step
  (s.setBinding b { x with stop := false, phase := if x.cfg.isSome then .idle else .none, agreed := none, restFrom := none, keepnet := false
                           byReset := false, stranded := false }).endRestoreCmd b

/-- A restore finishes (R354). A reserve of another device's client has come as CELLAR packets; its step, where `RESTORE`
left it at 0, is a free value (log 48). A slot that is empty, or fails its check, restores nothing, and the restore does not
finish. -/
def doRestoreComplete (s : State) (b : Nat) : State :=
  let x := s.binding b
  if !(x.live && decide (x.phase = .restore)) then s
  else match s.restoreSlot b with
    | some d => (s.writeBack b d.1 d.2).finishRestore b d.1.step
    | none =>
      if x.restFrom.any (fun r => decide (r.cdev ≠ s.devid)) then
        (let n := x.agreed.getD 0
         if n ≠ 0 then s.finishRestore b n else (s.draw.2).finishRestore b s.draw.1.toNat)
      else s

/-! ### Repair (R357, R358) -/

/-- Bindings whose repair of a unit is over. -/
def State.repaired (s : State) (u : BitVec 16) : State :=
  (s.stoppedBy u).foldl (fun s b =>
    if (s.binding b).phase = .repair then
      match (s.restoresOf b).getLast? with
      | some c => s.restoreBy c
      | none => s.setBinding b { s.binding b with phase := .stopped }
    else s) s

/-- No spare is left (R358): beacon FCLASS 0x03, event 0x05, and the unit is retired; its bindings stay stopped until a `RESTORE`. -/
def State.exhausted (s : State) (u : BitVec 16) : State :=
  let i := unitIdx u
  let s := if unitClass u = 2 then s.originate (portHalf i) (s.portKey i 3) else s.recordFault u 0x03
  let s := s.postEvent ⟨5, u, s.fepoch u, 0, 0, []⟩
  let s := (s.stoppedBy u).foldl (fun s b =>
    if (s.binding b).stop then s.setBinding b { s.binding b with phase := .stopped, stranded := true } else s) s
  let s := { s with gone := if s.gone.contains u then s.gone else u :: s.gone }
  match unitClass u with
  | 1 =>
    let h := halfOfStack i
    { s.setHalf h ((s.half h).setHbm i { (s.half h).hbm i with state := 3 }) with retired := if s.retired.contains i then s.retired else i :: s.retired }
  | 2 =>
    let x := s.port i
    s.setPort i { x with state := .failed, dead := (upto 5).filter (fun l => x.dead.contains l || (!x.lmask.getLsbD l && decide (l ≠ x.spare.toNat))) }
  | _ => s

/-- A spare core takes a core's number, scrubbed (R10, R357). DESIGN CHOICE: R10 names none of the die's free spares; the one with the
lowest position serves first (log 5). -/
def State.spareCore (s : State) (c : Nat) : State :=
  let h := halfOfCore c
  let d := (s.half h).die (dieOfCore c)
  let s := s.setHalf h ((s.half h).setDie (dieOfCore c) { d with cleft := d.cleft - 1, spares := d.spares.tail })
  (s.setCore c { s.core c with phys := d.spares.headD 0 + 1 }).scrubCore c

/-- A spare HBM lane takes over in the lane's channel, lane / 64 (R231, R233). How many spares each channel has is not stated; SPLEFT
counts the stack's (log 8). -/
def Stack.spareLane (x : Stack) (lane : Nat) : Stack :=
  { x with spused := x.spused + 1, spleft := x.spleft - 1, marked := x.marked.filter (· ≠ lane), lanes := FMap.set [] x.lanes lane [], state := 1 }

/-- The spare lane is permanent in place of a failed lane, and the port returns to UP (R270); a spare that failed itself is lost. -/
def Port.spareLane (x : Port) (lane : Nat) : Port :=
  { x with lmask := if lane = x.spare.toNat then x.lmask else (x.lmask &&& ~~~(BitVec.ofNat 5 (2 ^ lane))) ||| BitVec.ofNat 5 (2 ^ x.spare.toNat)
           spare := 7, dead := lane :: x.dead
           laneErr := FMap.set [] x.laneErr lane [], state := .up, retraining := false }

/-- A repair, or none where no spare is left: what the cellar engine does to the unit (R357). -/
def State.repairUnit (s : State) (u : BitVec 16) (r : RepairKind) : Option State :=
  let i := unitIdx u
  match r with
  | .core =>
    if ((s.half (i / 256)).die (i / 64)).cleft = 0 then none else some (s.spareCore i)
  | .hbmLane lane =>
    let x := (s.half (halfOfStack i)).hbm i
    if x.spleft = 0 then none else some (s.setHalf (halfOfStack i) ((s.half (halfOfStack i)).setHbm i (x.spareLane lane)))
  | .fabricLane lane => if (s.port i).spare.toNat > 4 then none else some (s.setPort i ((s.port i).spareLane lane))
  | .halfLinkLane =>
    if s.half0.linkSpares = 0 ∨ s.half1.linkSpares = 0 then none else some (s.bothHalves (fun h => { h with linkSpares := h.linkSpares - 1 }))
  | .l2Frame =>
    let d := (s.half (i / 4)).die i
    if d.l2left = 0 then none else some (s.setHalf (i / 4) ((s.half (i / 4)).setDie i { d with l2left := d.l2left - 1 }))
  | .nothing => none

/-- The class that a kind of repair is of: keepers, collective and cellar engines and dies have no spare (R357, R358), and neither has
a stack as a whole. -/
def repairFits (r : RepairKind) (u : BitVec 16) : Bool :=
  match r with
  | .core => decide (unitClass u = 0)
  | .hbmLane _ => decide (unitClass u = 1)
  | .fabricLane _ => decide (unitClass u = 2)
  | .halfLinkLane => decide (unitClass u = 3)
  | .l2Frame => decide (unitClass u = 6)
  | .nothing => decide (unitClass u = 1 ∨ 4 ≤ unitClass u)

/-- A repair ends, or finds no spare (R357, R358). The repair of bindings that a reset stopped is empty (R361). -/
def doRepairComplete (s : State) (u : BitVec 16) (r : RepairKind) : State :=
  if !unitPresent s.build u || !repairFits r u || (decide (r = .nothing) && (s.stoppedBy u).any (fun b => (s.binding b).byReset)) then s
  else match s.repairUnit u r with
    | some t => t.repaired u
    | none => s.exhausted u

end Sys2Proof.Machine
end

