-- ==== Sys2Proof/Machine/LinkEvents.lean ====
section
/-! DEFINITION. The events of the half link, of heartbeats and of the journal. -/

namespace Sys2Proof.Machine

/-- A half sends a heartbeat record every 10 µs while the link is UP. R290. -/
def execHeartbeatSend (h : Nat) (s : State) : Out := .next (onHalf h s (doHeartbeatSend s h))

/-- A valid heartbeat runs the primacy comparison and the image version check. R294. -/
def execHeartbeatReceive (h : Nat) (good : Bool) (s : State) : Out := .next (onHalf h s (doHeartbeatReceive s h good))

/-- 50 µs without a valid heartbeat puts the half in SPLIT. R293. -/
def execHeartbeatTimeout (h : Nat) (s : State) : Out := .next (onHalf h s (doHeartbeatTimeout s h))

/-- A half-link flit arrives, is parity-checked and replayed on error. R289. -/
def execHalfLinkFlitReceive (h : Nat) (good : Bool) (c : Option Nat) (s : State) : Out := .next (onHalf h s (doHalfFlit s h good c))

/-- A half-link retrain ends and held flits are sent again. R289. -/
def execHalfLinkRetrainComplete (s : State) : Out := .next (doLinkRetrained s)

/-- A link not UP within 1 ms of a retrain becomes DOWN. R289. -/
def execHalfLinkDownTimeout (s : State) : Out := .next (doLinkDown s)

/-- The link enters UP; SOLO journal entries and held completions are resent. R296. -/
def execHalfLinkUp (s : State) : Out := .next (doLinkUp s)

/-- Half-link training ends, or is retried every 1 s. R371. -/
def execHalfLinkTrainingComplete (good : Bool) (s : State) : Out := .next (doLinkTraining s good)

/-- The follower journals a JRNL entry and acknowledges its sequence number. R291. -/
def execJournalEntryReceive (h : Nat) (s : State) : Out := .next (onHalf h s (doJournalEntry s h))

/-- An acknowledgement advances the mirror point and ACCEPT is posted. R291. -/
def execJournalAckReceive (h : Nat) (s : State) : Out := .next (onHalf h s (doJournalAck s h))

/-- A completion record from the other half reaches the primary for posting in order. R292. -/
def execCompletionRecordReceive (h : Nat) (s : State) : Out := .next (onHalf h s (doCompletion s h))

end Sys2Proof.Machine
end

