-- ==== Sys2Proof/Machine/PowerEvents.lean ====
section
/-! DEFINITION. The events of power, clocks, resets, start-up, the sideband, SMBus and the TAP. -/

namespace Sys2Proof.Machine

/-- A fabric port finishes training, or stays DOWN. R371. -/
def execPortTrainingComplete (p : Nat) (lanes : BitVec 5) (s : State) : Out := .next (doPortTraining s p lanes)

/-- A port that failed training retries every 1 s. R371. -/
def execPortTrainingRetry (p : Nat) (s : State) : Out := .next (doPortRetry s p)

/-- Every 10 µs a die's frequency and VCORE are re-chosen and PW_DIESTAT updated. R302. -/
def execCoreFrequencyLoop (d : Nat) (r : LoopReading) (s : State) : Out := .next (doFreqLoop s d r)

/-- A droop sensor trip stretches the die clock to half frequency. R302. -/
def execDroopTrip (d : Nat) (s : State) : Out := .next (doDroop s d)

/-- After 64 core cycles the stretched clock returns in one step. R302. -/
def execDroopStretchEnd (d : Nat) (s : State) : Out := .next (doDroopEnd s d)

/-- Every 1 ms frequency is reduced while the junction exceeds 105 °C. R302. -/
def execThermalLoop (d temp : Nat) (s : State) : Out := .next (doThermalLoop s d temp)

/-- Every 100 µs die frequencies are reduced until half power is within the cap. R302. -/
def execPowerCapLoop (h watts : Nat) (s : State) : Out := .next (onHalf h s (doPowerCap s h watts))

/-- A die reaching 115 °C is held at 0.6 GHz and TRIP set. R303. -/
def execThermalTrip (d : Nat) (s : State) : Out := .next (doThermalTrip s d)

/-- A die still above 105 °C after 100 ms is recorded as a permanent fault. R303. -/
def execThermalTripTimeout (d temp : Nat) (s : State) : Out := .next (doTripTimeout s d temp)

/-- VIN below 42 V or above 58 V sets PW_EVENT.INPUT. R306. -/
def execVinWarning (mv : Nat) (s : State) : Out := .next (doVinWarning s mv)

/-- VIN outside 40–60 V for over 100 µs stops regulators and resets as power loss. R306. -/
def execVinLossTimeout (mv : Nat) (s : State) : Out := .next (doVinLoss s mv)

/-- A rail leaves its window, setting RAIL and recording a permanent fault. R306. -/
def execRailFault (r : Rail) (n : Nat) (s : State) : Out := .next (doRailFault s r n)

/-- VIN enters its window and the half powers up in order. R364. -/
def execPowerUp (mv : Nat) (s : State) : Out := .next (doPowerUp s mv)

/-- The boot ROM promotes PENDING, verifies the ACTIVE image and falls back or enters recovery. R366. -/
def execKeeperBoot (h k : Nat) (s : State) : Out := .next (onHalf h s (doKeeperBoot s h k))

/-- A stack finishes training or is retired. R371. -/
def execHbmTrainingComplete (n : Nat) (good : Bool) (s : State) : Out := .next (doHbmTraining s n good)

/-- Kuwick becomes ready with the half SPLIT. R364. -/
def execKuwickReady (h : Nat) (s : State) : Out := .next (onHalf h s (doKuwickReady s h))

/-- The PCIe link trains after PERST# release and PGOOD. R365. -/
def execEndpointLinkTrained (h : Nat) (s : State) : Out := .next (onHalf h s (doEndpointTrained s h))

/-- PWR_EN low reverses power-up step 5 and holds the half in reset. R364. -/
def execPwrEnLow (h : Nat) (s : State) : Out := .next (onHalf h s (doPwrEnLow s h))

/-- PWR_EN high restarts the half from power-up step 3. R364. -/
def execPwrEnHigh (h : Nat) (s : State) : Out := .next (onHalf h s (doPwrEnHigh s h))

/-- PRSNT_P# breaking stops every regulator within 50 µs. R372. -/
def execClipPresenceBreak (s : State) : Out := .next (doClipBreak s)

/-- MODULE_RESET# held low resets both halves except the AON domain. R360. -/
def execModuleReset (us : Nat) (s : State) : Out := .next (doModuleReset s us)

/-- HALF_RESET# held low resets one half and stops its bindings. R360. -/
def execHalfReset (h us : Nat) (s : State) : Out := .next (onHalf h s (doHalfReset s h us))

/-- A keeper's watchdog resets it and the standby takes over. R330. -/
def execKeeperReset (h k : Nat) (s : State) : Out := .next (onHalf h s (doKeeperReset s h k))

/-- A reset keeper returns as standby with its journal copied, or is recorded faulty. R330. -/
def execKeeperStandbyReturn (h : Nat) (good : Bool) (s : State) : Out := .next (onHalf h s (doKeeperReturn s h good))

/-- 10 ms with no active keeper resets the half. R360. -/
def execNoKeeperTimeout (h : Nat) (s : State) : Out := .next (onHalf h s (doNoKeeper s h))

/-- PERST# resets the endpoint's link, configuration space and HOST domain. R360. -/
def execEndpointReset (h : Nat) (s : State) : Out := .next (onHalf h s (doEndpointReset s h))

/-- A VF FLR aborts its pending commands and resets its ring registers. R363. -/
def execFunctionLevelReset (n : Nat) (s : State) : Out := .next (doFlr s n)

/-- HALF_RESET# rising ends the held half reset, and the half's blocks start again through the boot chain and power-up order. R360. -/
def execHalfResetRelease (h : Nat) (s : State) : Out := .next (onHalf h s (doHalfRelease s h))

/-- MODULE_RESET# rising ends the held module reset, and both halves start again, promoting any PENDING image bank. R360. -/
def execModuleResetRelease (s : State) : Out := .next (doModuleRelease s)

/-- SMBus command 0x01 returns die status, VIN, input power and HL_STAT. R375. -/
def execSmbusTelemetry (h : Nat) (pec : Bool) (mv watts : Nat) (s : State) : Out := .next (onHalf h s (doTelemetry s h pec mv watts))

/-- SMBus command 0x02 returns the last 64 fault records. R375. -/
def execSmbusFaultRecords (h : Nat) (pec : Bool) (s : State) : Out := .next (onHalf h s (doFaultRecords s h pec))

/-- SMBus command 0x10 with scope 0x01 resets the half at once. R375. -/
def execSmbusResetHalf (h : Nat) (pec : Bool) (s : State) : Out := .next (onHalf h s (doSmbusResetHalf s h pec))

/-- SMBus command 0x10 with scope 0x02 resets the module at once. R375. -/
def execSmbusResetModule (pec : Bool) (s : State) : Out := .next (doSmbusResetModule s pec)

/-- SMBus command 0x11 writes an image to the inactive bank and names it ACTIVE. R367. -/
def execSmbusRecoveryImageWrite (h : Nat) (pec : Bool) (im : Image) (s : State) : Out := .next (onHalf h s (doRecoveryImage s h pec im))

/-- SMBus command 0x20 returns the device public key and certificate. R370. -/
def execSmbusDeviceKey (h : Nat) (pec : Bool) (s : State) : Out := .next (onHalf h s (doDeviceKey s h pec))

/-- SMBus command 0x21 writes key slot 0 once while it is empty. R370. -/
def execSmbusOwnerKey (h : Nat) (pec : Bool) (wrapped : List Byte) (s : State) : Out := .next (onHalf h s (doOwnerKey s h pec wrapped))

/-- TAP BYPASS instruction. R376. -/
def execJtagBypass (h : Nat) (s : State) : Out := .next (onHalf h s (doTap s h 0 [0]))

/-- TAP IDCODE returns 0x0C31_254F. R376. -/
def execJtagIdcode (h : Nat) (s : State) : Out := .next (onHalf h s (doTap s h 1 [idcode]))

/-- TAP SAMPLE/PRELOAD instruction. R376. -/
def execJtagSamplePreload (h : Nat) (s : State) : Out := .next (onHalf h s (doTap s h 2 []))

/-- TAP EXTEST, acting only while HALF_RESET# is low. R376. -/
def execJtagExtest (h : Nat) (s : State) : Out := .next (onHalf h s (doExtest s h))

end Sys2Proof.Machine
end

