-- ==== Sys2Proof/Machine/CommandRows.lean ====
section
/-! DEFINITION. The rows of the Kuwick interface: rings, entries, commands and final records. -/

namespace Sys2Proof.Machine

/-- A write to a register with no behaviour of its own sets RW fields per access codes. R4. -/
def execRegisterWrite (t : RegTarget) (v : Word) (s : State) : Out := .next (doRegisterWrite s t v)

/-- A doorbell write raises TAIL; a write that lowers TAIL is ignored. R311. -/
def execKwSqTailWrite (ep f : Nat) (v : Word) (s : State) : Out := .next (doTailWrite s ep f v)

/-- Setting EN on a ring resets expected SEQ and HEAD. R312. -/
def execRingEnable (ep f : Nat) (r : RingSel) (s : State) : Out := .next (doRingEnable s ep f r)

/-- Clearing EN takes effect once every accepted command has its final record. R312. -/
def execRingDisable (ep f : Nat) (r : RingSel) (s : State) : Out := .next (doRingDisable s ep f r)

/-- The keeper reads the next ring entry, validates, journals it or posts REJECT. R316. -/
def execSqEntryRead (h f : Nat) (entry buf : List Byte) (s : State) : Out := .next (onHalf h s (doSqRead s h f entry buf))

/-- A command ends and its final record is posted in SEQ order per binding. R327. -/
def execCommandFinal (f seq : Nat) (s : State) : Out := .next (doCommandFinal s f seq)

/-- Kuwick NOP completes after L. R321. -/
def execNopCommand (f seq : Nat) (s : State) : Out := .next (doNop s f seq)

/-- Returns the named item into BUF. R321. -/
def execQuery (f seq : Nat) (s : State) : Out := .next (doQuery s f seq)

/-- Dispatches threads with their launch registers on the masked cores. R323. -/
def execLaunch (f seq : Nat) (s : State) : Out := .next (doLaunch s f seq)

/-- Decides the fate of a target command at acceptance. R331. -/
def execAbort (f seq : Nat) (s : State) : Out := .next (doAbort s f seq)

/-- Sets the binding's interrupt thread on all its cores. R325. -/
def execIrqSet (f seq : Nat) (s : State) : Out := .next (doIrqSet s f seq)

/-- Flips the binding's active partner bank on both halves. R191. -/
def execRack (f seq : Nat) (s : State) : Out := .next (doRack s f seq)

/-- Writes routes of the binding's shadow bank and rewrites HDEPTH. R279. -/
def execPartnerLoad (f seq : Nat) (s : State) : Out := .next (doPartnerLoad s f seq)

/-- Writes a group record in both halves' engines, or rejects it. R238. -/
def execGroupSet (f seq : Nat) (s : State) : Out := .next (doGroupSet s f seq)

/-- Stops named cores of a binding and saves their state. R335. -/
def execPreempt (f seq : Nat) (s : State) : Out := .next (doPreempt s f seq)

/-- Restores saved core state and continues. R335. -/
def execResume (f seq : Nat) (s : State) : Out := .next (doResume s f seq)

/-- CELLAR_CFG GRANT reserves granules for a client and scrubs them. R346. -/
def execCellarGrant (f seq : Nat) (s : State) : Out := .next (doCellarGrant s f seq)

/-- CELLAR_CFG CLIENT configures snapshots into a granting binding. R346. -/
def execCellarClient (f seq : Nat) (s : State) : Out := .next (doCellarClient s f seq)

/-- CELLAR_CFG REVOKE withdraws a grant and scrubs it. R346. -/
def execCellarRevoke (f seq : Nat) (s : State) : Out := .next (doCellarRevoke s f seq)

/-- Writes translation table entries and empties changed cache entries. R336. -/
def execMapC (f seq : Nat) (s : State) : Out := .next (doMap s f seq)

/-- Creates a binding with scrubbed resources. R332. -/
def execBind (f seq : Nat) (s : State) : Out := .next (doBind s f seq)

/-- Moves listed resources between bindings with scrub. R332. -/
def execRebind (f seq : Nat) (s : State) : Out := .next (doRebind s f seq)

/-- Frees all of a binding's resources. R332. -/
def execUnbind (f seq : Nat) (s : State) : Out := .next (doUnbind s f seq)

/-- Claims primacy for the named half by HOLD sampling. R295. -/
def execPrimacySet (h seq : Nat) (late : Bool) (s : State) : Out := .next (onHalf h s (doPrimacySet s h seq late))

/-- Assigns the device identifier. R274. -/
def execFabricIdSet (f seq : Nat) (s : State) : Out := .next (doFabricIdSet s f seq)

/-- Writes a wrapped key into slots 1–15 and zeroes its counter. R319. -/
def execKeySet (f seq : Nat) (s : State) : Out := .next (doKeySet s f seq)

/-- KEY_SET with the clear bit empties a key slot. R319. -/
def execKeyClear (f seq : Nat) (s : State) : Out := .next (doKeyClear s f seq)

/-- Sets EVX_MODE pulse merging per stream class. R301. -/
def execEventCfg (f seq : Nat) (s : State) : Out := .next (doEventCfg s f seq)

/-- Tests an unbound unit, or defers the test of a bound one. R337. -/
def execSelftest (f seq : Nat) (r : Option Word) (s : State) : Out := .next (doSelftest s f seq r)

/-- SELFTEST with SPARE_OK tests an unbound spare of the same class. R337. -/
def execSelftestSpareOk (f seq : Nat) (r : Option Word) (s : State) : Out := .next (doSelftestSpare s f seq r)

/-- Restores a binding from a cellar reserve. R358. -/
def execRestore (f seq : Nat) (s : State) : Out := .next (doRestore s f seq)

/-- Verifies and writes an image to both halves' inactive banks and sets PENDING. R368. -/
def execFwUpdate (f seq : Nat) (im : Image) (s : State) : Out := .next (doFwUpdate s f seq im)

end Sys2Proof.Machine
end

