-- ==== Sys2Proof/Machine/EngineRows.lean ====
section
/-! DEFINITION. The rows of the instructions that pass work to the collective engine: each issues the word its command carries (R22, R34, R50), with its operation's body. -/

namespace Sys2Proof.Machine

/-- Requests a published parameter shard with its stamp. R258. -/
def execPgather (g : Nat) (w : Word) (s : State) : Out := issueRow .pgather (bodyOf .pgather) g w s

/-- Opens the member's epoch (STEP, ATTEMPT) for a group. R243. -/
def execCbktOpen (g : Nat) (w : Word) (s : State) : Out := issueRow .cbktOpen (bodyOf .cbktOpen) g w s

/-- Hands a gradient bucket to the collective engine. R247. -/
def execCbktBucket (g : Nat) (w : Word) (s : State) : Out := issueRow .cbktBucket (bodyOf .cbktBucket) g w s

/-- Issues CLOSE for an attempt with its bucket count. R245. -/
def execCbktClose (g : Nat) (w : Word) (s : State) : Out := issueRow .cbktClose (bodyOf .cbktClose) g w s

/-- Requests publication of a new narrow copy of a shard. R257. -/
def execCbktPublish (g : Nat) (w : Word) (s : State) : Out := issueRow .cbktPublish (bodyOf .cbktPublish) g w s

/-- Posts a point-to-point send. R261. -/
def execCsend (g : Nat) (w : Word) (s : State) : Out := issueRow .csend (bodyOf .csend) g w s

/-- Posts a point-to-point receive. R261. -/
def execCrecv (g : Nat) (w : Word) (s : State) : Out := issueRow .crecv (bodyOf .crecv) g w s

end Sys2Proof.Machine
end

