-- ==== Sys2Proof/Machine/MemoryRows.lean ====
section
/-! DEFINITION. The rows of the scalar memory instructions: each issues the word its command carries (R22, R34, R50), with its operation's body. -/

namespace Sys2Proof.Machine

/-- Ticketed integer load, including M-level access to the control and status range. R222. -/
def execLd (g : Nat) (w : Word) (s : State) : Out := issueRow .ld (bodyOf .ld) g w s

/-- Ticketed 8-byte load tagged FP64. R30. -/
def execLdf (g : Nat) (w : Word) (s : State) : Out := issueRow .ldf (bodyOf .ldf) g w s

/-- Ticketed 8-byte load tagged PTR. R30. -/
def execLdp (g : Nat) (w : Word) (s : State) : Out := issueRow .ldp (bodyOf .ldp) g w s

/-- Ticketed load of a value with its stored tag. R30. -/
def execLdt (g : Nat) (w : Word) (s : State) : Out := issueRow .ldt (bodyOf .ldt) g w s

/-- Ticketed store of a value without its tag. R30. -/
def execSt (g : Nat) (w : Word) (s : State) : Out := issueRow .st (bodyOf .st) g w s

/-- Ticketed store of a value with its tag. R30. -/
def execStt (g : Nat) (w : Word) (s : State) : Out := issueRow .stt (bodyOf .stt) g w s

/-- Ticketed atomic read-modify-write returning the old value. R223. -/
def execAmo (g : Nat) (w : Word) (s : State) : Out := issueRow .amo (bodyOf .amo) g w s

/-- Orders the thread's later memory accesses behind its earlier ones. R225. -/
def execMbar (g : Nat) (w : Word) (s : State) : Out := issueRow .mbar (bodyOf .mbar) g w s

end Sys2Proof.Machine
end

