-- ==== Sys2Proof/Machine/RecoveryRows.lean ====
section
/-! DEFINITION. The rows of snapshots, rollback, repair and restore, and of tests that were deferred. -/

namespace Sys2Proof.Machine

/-- After CLOSE DONE of a step with s mod K = 0, capture of the snapshot begins. R349. -/
def execSnapshotStart (b : Nat) (step : Word) (s : State) : Out := .next (doSnapshotStart s b step)

/-- Capture into staging ends and drain begins. R350. -/
def execCaptureComplete (b : Nat) (s : State) : Out := .next (doCaptureComplete s b)

/-- The drained slot is written complete at the reserve. R348. -/
def execDrainComplete (b : Nat) (s : State) : Out := .next (doDrainComplete s b)

/-- A permanent fault stops the binding and sends a rollback notice. R352. -/
def execBindingStop (u : BitVec 16) (s : State) : Out := .next (doBindingStop s u)

/-- The cellar engine finishes remapping a spare, or reports spares exhausted. R357. -/
def execRepairComplete (u : BitVec 16) (r : RepairKind) (s : State) : Out := .next (doRepairComplete s u r)

/-- Members exchange LSTEP and agree s*, restoring at once when AUTO. R353. -/
def execLstepAgreement (b : Nat) (others : List Nat) (s : State) : Out := .next (doLstepAgreement s b others)

/-- Restore finishes and ROLLED records are posted. R354. -/
def execRestoreComplete (b : Nat) (s : State) : Out := .next (doRestoreComplete s b)

/-- A self-test deferred on a bound unit, once it has run after the unit was unbound, ends and posts its result as an event-ring record. R337. -/
def execDeferredSelftestResult (u : BitVec 16) (r : Option Word) (s : State) : Out := .next (doDeferredTest s u r)

end Sys2Proof.Machine
end

