-- ==== Sys2Proof/Machine/ScalarRows.lean ====
section
/-! DEFINITION. The rows of the scalar instructions: each issues the word its command carries (R22, R34, R50), with its operation's body. -/

namespace Sys2Proof.Machine

/-- Issues a word that does nothing. R50. -/
def execNop (g : Nat) (w : Word) (s : State) : Out := issueRow .nop (bodyOf .nop) g w s

/-- Writes the sign-extended immediate with tag INT. R50. -/
def execLi (g : Nat) (w : Word) (s : State) : Out := issueRow .li (bodyOf .li) g w s

/-- Integer or PTR+INT addition, register or immediate form, wrapping modulo 2^64. R28. -/
def execAdd (g : Nat) (w : Word) (s : State) : Out := issueRow .add (bodyOf .add) g w s

/-- Integer, PTR−INT or PTR−PTR subtraction. R28. -/
def execSub (g : Nat) (w : Word) (s : State) : Out := issueRow .sub (bodyOf .sub) g w s

/-- Bitwise AND of INT, or of PTR with INT. R28. -/
def execAndI (g : Nat) (w : Word) (s : State) : Out := issueRow .andI (bodyOf .andI) g w s

/-- Bitwise OR of INT sources. R28. -/
def execOrI (g : Nat) (w : Word) (s : State) : Out := issueRow .orI (bodyOf .orI) g w s

/-- Bitwise XOR of INT sources. R28. -/
def execXorI (g : Nat) (w : Word) (s : State) : Out := issueRow .xorI (bodyOf .xorI) g w s

/-- Left shift by count bits [5:0]. R28. -/
def execShl (g : Nat) (w : Word) (s : State) : Out := issueRow .shl (bodyOf .shl) g w s

/-- Logical right shift by count bits [5:0]. R28. -/
def execShr (g : Nat) (w : Word) (s : State) : Out := issueRow .shr (bodyOf .shr) g w s

/-- Arithmetic right shift by count bits [5:0]. R28. -/
def execSra (g : Nat) (w : Word) (s : State) : Out := issueRow .sra (bodyOf .sra) g w s

/-- Signed 64-bit minimum. R28. -/
def execMinI (g : Nat) (w : Word) (s : State) : Out := issueRow .minI (bodyOf .minI) g w s

/-- Signed 64-bit maximum. R28. -/
def execMaxI (g : Nat) (w : Word) (s : State) : Out := issueRow .maxI (bodyOf .maxI) g w s

/-- Selects rs2 or rs3 by a PRED and keeps the chosen source's tag. R28. -/
def execSel (g : Nat) (w : Word) (s : State) : Out := issueRow .sel (bodyOf .sel) g w s

/-- Copies a register with its tag, including moves to and from lnk and summary registers. R46. -/
def execMov (g : Nat) (w : Word) (s : State) : Out := issueRow .mov (bodyOf .mov) g w s

/-- Writes the tag of a register as INT. R28. -/
def execTagof (g : Nat) (w : Word) (s : State) : Out := issueRow .tagof (bodyOf .tagof) g w s

/-- Integer multiply, result at distance 2. R36. -/
def execMul (g : Nat) (w : Word) (s : State) : Out := issueRow .mul (bodyOf .mul) g w s

/-- Signed high half of the product. R36. -/
def execMulh (g : Nat) (w : Word) (s : State) : Out := issueRow .mulh (bodyOf .mulh) g w s

/-- Unsigned high half of the product. R36. -/
def execMulhu (g : Nat) (w : Word) (s : State) : Out := issueRow .mulhu (bodyOf .mulhu) g w s

/-- Ticketed signed divide; a zero divisor gives an all-ones quotient. R28. -/
def execDiv (g : Nat) (w : Word) (s : State) : Out := issueRow .div (bodyOf .div) g w s

/-- Ticketed unsigned divide. R28. -/
def execDivu (g : Nat) (w : Word) (s : State) : Out := issueRow .divu (bodyOf .divu) g w s

/-- Ticketed signed remainder. R37. -/
def execRem (g : Nat) (w : Word) (s : State) : Out := issueRow .rem (bodyOf .rem) g w s

/-- Ticketed unsigned remainder. R37. -/
def execRemu (g : Nat) (w : Word) (s : State) : Out := issueRow .remu (bodyOf .remu) g w s

/-- FP64 addition under CR_MODE.RM, setting sticky flags. R28. -/
def execFadd (g : Nat) (w : Word) (s : State) : Out := issueRow .fadd (bodyOf .fadd) g w s

/-- FP64 subtraction. R28. -/
def execFsub (g : Nat) (w : Word) (s : State) : Out := issueRow .fsub (bodyOf .fsub) g w s

/-- FP64 multiplication. R28. -/
def execFmul (g : Nat) (w : Word) (s : State) : Out := issueRow .fmul (bodyOf .fmul) g w s

/-- FP64 fused multiply-add; the short form uses rd as the addend. R33. -/
def execFfma (g : Nat) (w : Word) (s : State) : Out := issueRow .ffma (bodyOf .ffma) g w s

/-- FP64 minimum with NaN and signed-zero rules. R81. -/
def execFmin (g : Nat) (w : Word) (s : State) : Out := issueRow .fmin (bodyOf .fmin) g w s

/-- FP64 maximum with NaN and signed-zero rules. R81. -/
def execFmax (g : Nat) (w : Word) (s : State) : Out := issueRow .fmax (bodyOf .fmax) g w s

/-- Ticketed FP64 division. R37. -/
def execFdiv (g : Nat) (w : Word) (s : State) : Out := issueRow .fdiv (bodyOf .fdiv) g w s

/-- Ticketed FP64 square root. R37. -/
def execFsqrt (g : Nat) (w : Word) (s : State) : Out := issueRow .fsqrt (bodyOf .fsqrt) g w s

/-- Integer, pointer or summary comparison producing PRED. R28. -/
def execCmp (g : Nat) (w : Word) (s : State) : Out := issueRow .cmp (bodyOf .cmp) g w s

/-- FP64 comparison producing PRED; only NV can be set. R28. -/
def execFcmp (g : Nat) (w : Word) (s : State) : Out := issueRow .fcmp (bodyOf .fcmp) g w s

/-- Predicate AND. R28. -/
def execPand (g : Nat) (w : Word) (s : State) : Out := issueRow .pand (bodyOf .pand) g w s

/-- Predicate OR. R28. -/
def execPor (g : Nat) (w : Word) (s : State) : Out := issueRow .por (bodyOf .por) g w s

/-- Predicate NOT. R28. -/
def execPnot (g : Nat) (w : Word) (s : State) : Out := issueRow .pnot (bodyOf .pnot) g w s

/-- Turns an INT into a PTR. R28. -/
def execMkptr (g : Nat) (w : Word) (s : State) : Out := issueRow .mkptr (bodyOf .mkptr) g w s

/-- Turns a PTR into an INT. R28. -/
def execPtrint (g : Nat) (w : Word) (s : State) : Out := issueRow .ptrint (bodyOf .ptrint) g w s

/-- Reinterprets FP64 bits as INT. R28. -/
def execFbits (g : Nat) (w : Word) (s : State) : Out := issueRow .fbits (bodyOf .fbits) g w s

/-- Reinterprets INT bits as FP64. R28. -/
def execBitsf (g : Nat) (w : Word) (s : State) : Out := issueRow .bitsf (bodyOf .bitsf) g w s

/-- Converts a signed integer to FP64 under RM. R28. -/
def execItof (g : Nat) (w : Word) (s : State) : Out := issueRow .itof (bodyOf .itof) g w s

/-- Converts FP64 to a saturated signed integer. R85. -/
def execFtoi (g : Nat) (w : Word) (s : State) : Out := issueRow .ftoi (bodyOf .ftoi) g w s

/-- Copies a summary value as INT or FP64. R160. -/
def execSmv (g : Nat) (w : Word) (s : State) : Out := issueRow .smv (bodyOf .smv) g w s

end Sys2Proof.Machine
end

