-- ==== Sys2Proof/Machine/TensorRows.lean ====
section
/-! DEFINITION. The rows of the descriptor instructions: each issues the word its command carries (R22, R34, R50), with its operation's body. -/

namespace Sys2Proof.Machine

/-- Validates a descriptor record and mints a handle. R172. -/
def execTdesc (g : Nat) (w : Word) (s : State) : Out := issueRow .tdesc (bodyOf .tdesc) g w s

/-- Returns a field of a descriptor. R188. -/
def execDinfo (g : Nat) (w : Word) (s : State) : Out := issueRow .dinfo (bodyOf .dinfo) g w s

/-- dinfo function 0x80 retires the slot and advances its generation. R166. -/
def execDinfoRetire (g : Nat) (w : Word) (s : State) : Out := issueRow .dinfoRetire (bodyOf .dinfoRetire) g w s

/-- Queues a gather through a descriptor into a press buffer. R180. -/
def execDgth (g : Nat) (w : Word) (s : State) : Out := issueRow .dgth (bodyOf .dgth) g w s

/-- Queues a scatter from a press buffer through a descriptor. R180. -/
def execDsct (g : Nat) (w : Word) (s : State) : Out := issueRow .dsct (bodyOf .dsct) g w s

end Sys2Proof.Machine
end

