-- ==== Sys2Proof/Machine/TileRows.lean ====
section
/-! DEFINITION. The rows of the tile instructions: each issues the word its command carries (R22, R34, R50), with its operation's body. -/

namespace Sys2Proof.Machine

/-- Writes a tile configuration, or raises tile busy or tile shape. R106. -/
def execTcfg (g : Nat) (w : Word) (s : State) : Out := issueRow .tcfg (bodyOf .tcfg) g w s

/-- Queues a row-order load of a tile through a descriptor. R113. -/
def execTld (g : Nat) (w : Word) (s : State) : Out := issueRow .tld (bodyOf .tld) g w s

/-- Queues a column-order load of an operand tile. R113. -/
def execTldc (g : Nat) (w : Word) (s : State) : Out := issueRow .tldc (bodyOf .tldc) g w s

/-- Queues a store of a tile, converting accumulator lanes. R117. -/
def execTst (g : Nat) (w : Word) (s : State) : Out := issueRow .tst (bodyOf .tst) g w s

/-- Queues a load of the shadow stationary bank, redirected when it names the active bank. R125. -/
def execTsb (g : Nat) (w : Word) (s : State) : Out := issueRow .tsb (bodyOf .tsb) g w s

/-- Queues a shifted copy of the active bank into the shadow bank. R127. -/
def execTshift (g : Nat) (w : Word) (s : State) : Out := issueRow .tshift (bodyOf .tshift) g w s

/-- Queues one pass of the matrix array into an accumulator. R122. -/
def execTmma (g : Nat) (w : Word) (s : State) : Out := issueRow .tmma (bodyOf .tmma) g w s

/-- Queues the zeroing of a tile, taking a scale record for SX96. R119. -/
def execTzero (g : Nat) (w : Word) (s : State) : Out := issueRow .tzero (bodyOf .tzero) g w s

/-- Queues the release of the tiles and banks named in a mask. R118. -/
def execTrel (g : Nat) (w : Word) (s : State) : Out := issueRow .trel (bodyOf .trel) g w s

/-- Queues a marker that completes after every earlier tile instruction of the core. R120. -/
def execTwait (g : Nat) (w : Word) (s : State) : Out := issueRow .twait (bodyOf .twait) g w s

end Sys2Proof.Machine
end

