-- ==== Sys2Proof/Machine/VectorRows.lean ====
section
/-! DEFINITION. The rows of the vector and chain instructions: each issues the word its command carries (R22, R34, R50), with its operation's body. -/

namespace Sys2Proof.Machine

/-- Ticketed load of a vector group. R143. -/
def execVld (g : Nat) (w : Word) (s : State) : Out := issueRow .vld (bodyOf .vld) g w s

/-- Ticketed store of a vector group. R143. -/
def execVst (g : Nat) (w : Word) (s : State) : Out := issueRow .vst (bodyOf .vst) g w s

/-- Vector copy. R145. -/
def execVmov (g : Nat) (w : Word) (s : State) : Out := issueRow .vmov (bodyOf .vmov) g w s

/-- Broadcasts a scalar to every lane. R145. -/
def execVbcast (g : Nat) (w : Word) (s : State) : Out := issueRow .vbcast (bodyOf .vbcast) g w s

/-- Lane-wise add, minimum, maximum or logic, including VX64 addition. R148. -/
def execVadd (g : Nat) (w : Word) (s : State) : Out := issueRow .vadd (bodyOf .vadd) g w s

/-- Lane-wise subtraction. R145. -/
def execVsub (g : Nat) (w : Word) (s : State) : Out := issueRow .vsub (bodyOf .vsub) g w s

/-- Lane-wise product or its high half. R145. -/
def execVmul (g : Nat) (w : Word) (s : State) : Out := issueRow .vmul (bodyOf .vmul) g w s

/-- Lane-wise fused multiply-add or multiply-subtract. R145. -/
def execVfma (g : Nat) (w : Word) (s : State) : Out := issueRow .vfma (bodyOf .vfma) g w s

/-- Widening lane-wise product. R146. -/
def execVmulw (g : Nat) (w : Word) (s : State) : Out := issueRow .vmulw (bodyOf .vmulw) g w s

/-- Widening dot product added to vd. R146. -/
def execVdotw (g : Nat) (w : Word) (s : State) : Out := issueRow .vdotw (bodyOf .vdotw) g w s

/-- Lane format conversion. R147. -/
def execVcvt (g : Nat) (w : Word) (s : State) : Out := issueRow .vcvt (bodyOf .vcvt) g w s

/-- Reduces a vector to a scalar sum, minimum, maximum or largest magnitude. R145. -/
def execVred (g : Nat) (w : Word) (s : State) : Out := issueRow .vred (bodyOf .vred) g w s

/-- Queues the copy and validation of a chain descriptor into a slot. R151. -/
def execVchain (g : Nat) (w : Word) (s : State) : Out := issueRow .vchain (bodyOf .vchain) g w s

/-- Queues the streaming of press rows through a chain slot. R152. -/
def execVflow (g : Nat) (w : Word) (s : State) : Out := issueRow .vflow (bodyOf .vflow) g w s

end Sys2Proof.Machine
end

