-- ==== Sys2Proof/Machine/Dispatch.lean ====
section
/-! DEFINITION. The meaning of each command: one direct call of its meaning per constructor. -/

namespace Sys2Proof.Machine

def exec (i : Instr) (s : State) : Host.Outcome State Fault Refusal :=
  match i with
  | .nop g w => Sys2Proof.Machine.execNop g w s
  | .li g w => Sys2Proof.Machine.execLi g w s
  | .add g w => Sys2Proof.Machine.execAdd g w s
  | .sub g w => Sys2Proof.Machine.execSub g w s
  | .andI g w => Sys2Proof.Machine.execAndI g w s
  | .orI g w => Sys2Proof.Machine.execOrI g w s
  | .xorI g w => Sys2Proof.Machine.execXorI g w s
  | .shl g w => Sys2Proof.Machine.execShl g w s
  | .shr g w => Sys2Proof.Machine.execShr g w s
  | .sra g w => Sys2Proof.Machine.execSra g w s
  | .minI g w => Sys2Proof.Machine.execMinI g w s
  | .maxI g w => Sys2Proof.Machine.execMaxI g w s
  | .sel g w => Sys2Proof.Machine.execSel g w s
  | .mov g w => Sys2Proof.Machine.execMov g w s
  | .tagof g w => Sys2Proof.Machine.execTagof g w s
  | .mul g w => Sys2Proof.Machine.execMul g w s
  | .mulh g w => Sys2Proof.Machine.execMulh g w s
  | .mulhu g w => Sys2Proof.Machine.execMulhu g w s
  | .div g w => Sys2Proof.Machine.execDiv g w s
  | .divu g w => Sys2Proof.Machine.execDivu g w s
  | .rem g w => Sys2Proof.Machine.execRem g w s
  | .remu g w => Sys2Proof.Machine.execRemu g w s
  | .fadd g w => Sys2Proof.Machine.execFadd g w s
  | .fsub g w => Sys2Proof.Machine.execFsub g w s
  | .fmul g w => Sys2Proof.Machine.execFmul g w s
  | .ffma g w => Sys2Proof.Machine.execFfma g w s
  | .fmin g w => Sys2Proof.Machine.execFmin g w s
  | .fmax g w => Sys2Proof.Machine.execFmax g w s
  | .fdiv g w => Sys2Proof.Machine.execFdiv g w s
  | .fsqrt g w => Sys2Proof.Machine.execFsqrt g w s
  | .cmp g w => Sys2Proof.Machine.execCmp g w s
  | .fcmp g w => Sys2Proof.Machine.execFcmp g w s
  | .pand g w => Sys2Proof.Machine.execPand g w s
  | .por g w => Sys2Proof.Machine.execPor g w s
  | .pnot g w => Sys2Proof.Machine.execPnot g w s
  | .mkptr g w => Sys2Proof.Machine.execMkptr g w s
  | .ptrint g w => Sys2Proof.Machine.execPtrint g w s
  | .fbits g w => Sys2Proof.Machine.execFbits g w s
  | .bitsf g w => Sys2Proof.Machine.execBitsf g w s
  | .itof g w => Sys2Proof.Machine.execItof g w s
  | .ftoi g w => Sys2Proof.Machine.execFtoi g w s
  | .smv g w => Sys2Proof.Machine.execSmv g w s
  | .b g w => Sys2Proof.Machine.execB g w s
  | .bt g w => Sys2Proof.Machine.execBt g w s
  | .bf g w => Sys2Proof.Machine.execBf g w s
  | .call g w => Sys2Proof.Machine.execCall g w s
  | .callr g w => Sys2Proof.Machine.execCallr g w s
  | .jr g w => Sys2Proof.Machine.execJr g w s
  | .ret g w => Sys2Proof.Machine.execRet g w s
  | .ld g w => Sys2Proof.Machine.execLd g w s
  | .ldf g w => Sys2Proof.Machine.execLdf g w s
  | .ldp g w => Sys2Proof.Machine.execLdp g w s
  | .ldt g w => Sys2Proof.Machine.execLdt g w s
  | .st g w => Sys2Proof.Machine.execSt g w s
  | .stt g w => Sys2Proof.Machine.execStt g w s
  | .amo g w => Sys2Proof.Machine.execAmo g w s
  | .mbar g w => Sys2Proof.Machine.execMbar g w s
  | .tcfg g w => Sys2Proof.Machine.execTcfg g w s
  | .tld g w => Sys2Proof.Machine.execTld g w s
  | .tldc g w => Sys2Proof.Machine.execTldc g w s
  | .tst g w => Sys2Proof.Machine.execTst g w s
  | .tsb g w => Sys2Proof.Machine.execTsb g w s
  | .tshift g w => Sys2Proof.Machine.execTshift g w s
  | .tmma g w => Sys2Proof.Machine.execTmma g w s
  | .tzero g w => Sys2Proof.Machine.execTzero g w s
  | .trel g w => Sys2Proof.Machine.execTrel g w s
  | .twait g w => Sys2Proof.Machine.execTwait g w s
  | .vld g w => Sys2Proof.Machine.execVld g w s
  | .vst g w => Sys2Proof.Machine.execVst g w s
  | .vmov g w => Sys2Proof.Machine.execVmov g w s
  | .vbcast g w => Sys2Proof.Machine.execVbcast g w s
  | .vadd g w => Sys2Proof.Machine.execVadd g w s
  | .vsub g w => Sys2Proof.Machine.execVsub g w s
  | .vmul g w => Sys2Proof.Machine.execVmul g w s
  | .vfma g w => Sys2Proof.Machine.execVfma g w s
  | .vmulw g w => Sys2Proof.Machine.execVmulw g w s
  | .vdotw g w => Sys2Proof.Machine.execVdotw g w s
  | .vcvt g w => Sys2Proof.Machine.execVcvt g w s
  | .vred g w => Sys2Proof.Machine.execVred g w s
  | .vchain g w => Sys2Proof.Machine.execVchain g w s
  | .vflow g w => Sys2Proof.Machine.execVflow g w s
  | .tdesc g w => Sys2Proof.Machine.execTdesc g w s
  | .dinfo g w => Sys2Proof.Machine.execDinfo g w s
  | .dinfoRetire g w => Sys2Proof.Machine.execDinfoRetire g w s
  | .dgth g w => Sys2Proof.Machine.execDgth g w s
  | .dsct g w => Sys2Proof.Machine.execDsct g w s
  | .pgather g w => Sys2Proof.Machine.execPgather g w s
  | .cbktOpen g w => Sys2Proof.Machine.execCbktOpen g w s
  | .cbktBucket g w => Sys2Proof.Machine.execCbktBucket g w s
  | .cbktClose g w => Sys2Proof.Machine.execCbktClose g w s
  | .cbktPublish g w => Sys2Proof.Machine.execCbktPublish g w s
  | .csend g w => Sys2Proof.Machine.execCsend g w s
  | .crecv g w => Sys2Proof.Machine.execCrecv g w s
  | .await g w => Sys2Proof.Machine.execAwait g w s
  | .tkpoll g w => Sys2Proof.Machine.execTkpoll g w s
  | .rep g w => Sys2Proof.Machine.execRep g w s
  | .repi g w => Sys2Proof.Machine.execRepi g w s
  | .mset g w => Sys2Proof.Machine.execMset g w s
  | .csrr g w => Sys2Proof.Machine.execCsrr g w s
  | .csrw g w => Sys2Proof.Machine.execCsrw g w s
  | .ifence g w => Sys2Proof.Machine.execIfence g w s
  | .ecall g w => Sys2Proof.Machine.execEcall g w s
  | .brk g w => Sys2Proof.Machine.execBrk g w s
  | .eret g w => Sys2Proof.Machine.execEret g w s
  | .tend g w => Sys2Proof.Machine.execTend g w s
  | .fixedResultCommit g => Sys2Proof.Machine.execFixedResultCommit g s
  | .repeatIteration g w => Sys2Proof.Machine.execRepeatIteration g w s
  | .fetchReturn g par => Sys2Proof.Machine.execFetchReturn g par s
  | .ticketComplete g tk => Sys2Proof.Machine.execTicketComplete g tk s
  | .ticketFault g tk => Sys2Proof.Machine.execTicketFault g tk s
  | .tendComplete g => Sys2Proof.Machine.execTendComplete g s
  | .trapEntry g par => Sys2Proof.Machine.execTrapEntry g par s
  | .interruptTaken g => Sys2Proof.Machine.execInterruptTaken g s
  | .timerCompare g => Sys2Proof.Machine.execTimerCompare g s
  | .vectorOpStart c => Sys2Proof.Machine.execVectorOpStart c s
  | .tileQueueExecute c par => Sys2Proof.Machine.execTileQueueExecute c par s
  | .tileInstructionComplete c => Sys2Proof.Machine.execTileInstructionComplete c s
  | .chainQueueExecute c par => Sys2Proof.Machine.execChainQueueExecute c par s
  | .vchainComplete c => Sys2Proof.Machine.execVchainComplete c s
  | .vflowComplete c => Sys2Proof.Machine.execVflowComplete c s
  | .descriptorQueueExecute c par => Sys2Proof.Machine.execDescriptorQueueExecute c par s
  | .translationWalkRead g tk par => Sys2Proof.Machine.execTranslationWalkRead g tk par s
  | .memAccessPerformed g tk par => Sys2Proof.Machine.execMemAccessPerformed g tk par s
  | .l1LineFill c line par => Sys2Proof.Machine.execL1LineFill c line par s
  | .crossHalfAccessTimeout g tk => Sys2Proof.Machine.execCrossHalfAccessTimeout g tk s
  | .meshFlitReceive g tk good => Sys2Proof.Machine.execMeshFlitReceive g tk good s
  | .hbmReadReturn n line sev lane => Sys2Proof.Machine.execHbmReadReturn n line sev lane s
  | .hbmRefresh n bank => Sys2Proof.Machine.execHbmRefresh n bank s
  | .fabricFlitReceive p f => Sys2Proof.Machine.execFabricFlitReceive p f s
  | .portRetrainComplete p bad => Sys2Proof.Machine.execPortRetrainComplete p bad s
  | .spareLaneRotation p good => Sys2Proof.Machine.execSpareLaneRotation p good s
  | .packetInject h w => Sys2Proof.Machine.execPacketInject h w s
  | .packetForward p => Sys2Proof.Machine.execPacketForward p s
  | .dataReceive p => Sys2Proof.Machine.execDataReceive p s
  | .expReceive p => Sys2Proof.Machine.execExpReceive p s
  | .agreedExponentReceive p => Sys2Proof.Machine.execAgreedExponentReceive p s
  | .lanesReceive p => Sys2Proof.Machine.execLanesReceive p s
  | .verdictReceive p => Sys2Proof.Machine.execVerdictReceive p s
  | .greqReceive p => Sys2Proof.Machine.execGreqReceive p s
  | .cellarReceive p => Sys2Proof.Machine.execCellarReceive p s
  | .beaconReceive p => Sys2Proof.Machine.execBeaconReceive p s
  | .beaconKeyTimeout h n => Sys2Proof.Machine.execBeaconKeyTimeout h n s
  | .helloSend p => Sys2Proof.Machine.execHelloSend p s
  | .helloReceive p => Sys2Proof.Machine.execHelloReceive p s
  | .ackfReceive p => Sys2Proof.Machine.execAckfReceive p s
  | .ackfSend fl => Sys2Proof.Machine.execAckfSend fl s
  | .packetRetransmitTimeout fl psn => Sys2Proof.Machine.execPacketRetransmitTimeout fl psn s
  | .portOutputStallTimeout p => Sys2Proof.Machine.execPortOutputStallTimeout p s
  | .portDrainedEnd p => Sys2Proof.Machine.execPortDrainedEnd p s
  | .queueDepthSample h => Sys2Proof.Machine.execQueueDepthSample h s
  | .equaliserAdapt p lane up => Sys2Proof.Machine.execEqualiserAdapt p lane up s
  | .portTrainingComplete p lanes => Sys2Proof.Machine.execPortTrainingComplete p lanes s
  | .portTrainingRetry p => Sys2Proof.Machine.execPortTrainingRetry p s
  | .heartbeatSend h => Sys2Proof.Machine.execHeartbeatSend h s
  | .heartbeatReceive h good => Sys2Proof.Machine.execHeartbeatReceive h good s
  | .heartbeatTimeout h => Sys2Proof.Machine.execHeartbeatTimeout h s
  | .halfLinkFlitReceive h good c => Sys2Proof.Machine.execHalfLinkFlitReceive h good c s
  | .halfLinkRetrainComplete => Sys2Proof.Machine.execHalfLinkRetrainComplete s
  | .halfLinkDownTimeout => Sys2Proof.Machine.execHalfLinkDownTimeout s
  | .halfLinkUp => Sys2Proof.Machine.execHalfLinkUp s
  | .halfLinkTrainingComplete good => Sys2Proof.Machine.execHalfLinkTrainingComplete good s
  | .journalEntryReceive h => Sys2Proof.Machine.execJournalEntryReceive h s
  | .journalAckReceive h => Sys2Proof.Machine.execJournalAckReceive h s
  | .completionRecordReceive h => Sys2Proof.Machine.execCompletionRecordReceive h s
  | .coreFrequencyLoop d r => Sys2Proof.Machine.execCoreFrequencyLoop d r s
  | .droopTrip d => Sys2Proof.Machine.execDroopTrip d s
  | .droopStretchEnd d => Sys2Proof.Machine.execDroopStretchEnd d s
  | .thermalLoop d temp => Sys2Proof.Machine.execThermalLoop d temp s
  | .powerCapLoop h watts => Sys2Proof.Machine.execPowerCapLoop h watts s
  | .thermalTrip d => Sys2Proof.Machine.execThermalTrip d s
  | .thermalTripTimeout d temp => Sys2Proof.Machine.execThermalTripTimeout d temp s
  | .vinWarning mv => Sys2Proof.Machine.execVinWarning mv s
  | .vinLossTimeout mv => Sys2Proof.Machine.execVinLossTimeout mv s
  | .railFault r n => Sys2Proof.Machine.execRailFault r n s
  | .powerUp mv => Sys2Proof.Machine.execPowerUp mv s
  | .keeperBoot h k => Sys2Proof.Machine.execKeeperBoot h k s
  | .hbmTrainingComplete n good => Sys2Proof.Machine.execHbmTrainingComplete n good s
  | .kuwickReady h => Sys2Proof.Machine.execKuwickReady h s
  | .endpointLinkTrained h => Sys2Proof.Machine.execEndpointLinkTrained h s
  | .pwrEnLow h => Sys2Proof.Machine.execPwrEnLow h s
  | .pwrEnHigh h => Sys2Proof.Machine.execPwrEnHigh h s
  | .clipPresenceBreak => Sys2Proof.Machine.execClipPresenceBreak s
  | .moduleReset us => Sys2Proof.Machine.execModuleReset us s
  | .halfReset h us => Sys2Proof.Machine.execHalfReset h us s
  | .keeperReset h k => Sys2Proof.Machine.execKeeperReset h k s
  | .keeperStandbyReturn h good => Sys2Proof.Machine.execKeeperStandbyReturn h good s
  | .noKeeperTimeout h => Sys2Proof.Machine.execNoKeeperTimeout h s
  | .endpointReset h => Sys2Proof.Machine.execEndpointReset h s
  | .functionLevelReset n => Sys2Proof.Machine.execFunctionLevelReset n s
  | .smbusTelemetry h pec mv watts => Sys2Proof.Machine.execSmbusTelemetry h pec mv watts s
  | .smbusFaultRecords h pec => Sys2Proof.Machine.execSmbusFaultRecords h pec s
  | .smbusResetHalf h pec => Sys2Proof.Machine.execSmbusResetHalf h pec s
  | .smbusResetModule pec => Sys2Proof.Machine.execSmbusResetModule pec s
  | .smbusRecoveryImageWrite h pec im => Sys2Proof.Machine.execSmbusRecoveryImageWrite h pec im s
  | .smbusDeviceKey h pec => Sys2Proof.Machine.execSmbusDeviceKey h pec s
  | .smbusOwnerKey h pec wrapped => Sys2Proof.Machine.execSmbusOwnerKey h pec wrapped s
  | .jtagBypass h => Sys2Proof.Machine.execJtagBypass h s
  | .jtagIdcode h => Sys2Proof.Machine.execJtagIdcode h s
  | .jtagSamplePreload h => Sys2Proof.Machine.execJtagSamplePreload h s
  | .jtagExtest h => Sys2Proof.Machine.execJtagExtest h s
  | .kwSqTailWrite ep f v => Sys2Proof.Machine.execKwSqTailWrite ep f v s
  | .ringEnable ep f r => Sys2Proof.Machine.execRingEnable ep f r s
  | .ringDisable ep f r => Sys2Proof.Machine.execRingDisable ep f r s
  | .sqEntryRead h f entry buf => Sys2Proof.Machine.execSqEntryRead h f entry buf s
  | .commandFinal f seq => Sys2Proof.Machine.execCommandFinal f seq s
  | .nopCommand f seq => Sys2Proof.Machine.execNopCommand f seq s
  | .query f seq => Sys2Proof.Machine.execQuery f seq s
  | .launch f seq => Sys2Proof.Machine.execLaunch f seq s
  | .abort f seq => Sys2Proof.Machine.execAbort f seq s
  | .irqSet f seq => Sys2Proof.Machine.execIrqSet f seq s
  | .rack f seq => Sys2Proof.Machine.execRack f seq s
  | .partnerLoad f seq => Sys2Proof.Machine.execPartnerLoad f seq s
  | .groupSet f seq => Sys2Proof.Machine.execGroupSet f seq s
  | .preempt f seq => Sys2Proof.Machine.execPreempt f seq s
  | .resume f seq => Sys2Proof.Machine.execResume f seq s
  | .cellarGrant f seq => Sys2Proof.Machine.execCellarGrant f seq s
  | .cellarClient f seq => Sys2Proof.Machine.execCellarClient f seq s
  | .cellarRevoke f seq => Sys2Proof.Machine.execCellarRevoke f seq s
  | .mapC f seq => Sys2Proof.Machine.execMapC f seq s
  | .bind f seq => Sys2Proof.Machine.execBind f seq s
  | .rebind f seq => Sys2Proof.Machine.execRebind f seq s
  | .unbind f seq => Sys2Proof.Machine.execUnbind f seq s
  | .primacySet h seq late => Sys2Proof.Machine.execPrimacySet h seq late s
  | .fabricIdSet f seq => Sys2Proof.Machine.execFabricIdSet f seq s
  | .keySet f seq => Sys2Proof.Machine.execKeySet f seq s
  | .keyClear f seq => Sys2Proof.Machine.execKeyClear f seq s
  | .eventCfg f seq => Sys2Proof.Machine.execEventCfg f seq s
  | .selftest f seq r => Sys2Proof.Machine.execSelftest f seq r s
  | .selftestSpareOk f seq r => Sys2Proof.Machine.execSelftestSpareOk f seq r s
  | .restore f seq => Sys2Proof.Machine.execRestore f seq s
  | .fwUpdate f seq im => Sys2Proof.Machine.execFwUpdate f seq im s
  | .registerWrite t v => Sys2Proof.Machine.execRegisterWrite t v s
  | .crEpcWrite g tag v => Sys2Proof.Machine.execCrEpcWrite g tag v s
  | .crEstatWrite g v => Sys2Proof.Machine.execCrEstatWrite g v s
  | .crFflagsWrite g v => Sys2Proof.Machine.execCrFflagsWrite g v s
  | .tlStatRead c => Sys2Proof.Machine.execTlStatRead c s
  | .tlStatWrite c v => Sys2Proof.Machine.execTlStatWrite c v s
  | .vcStatRead c => Sys2Proof.Machine.execVcStatRead c s
  | .dsOobcntRead c => Sys2Proof.Machine.execDsOobcntRead c s
  | .mcStallRead c eng cause => Sys2Proof.Machine.execMcStallRead c eng cause s
  | .mcStallctlClr c v => Sys2Proof.Machine.execMcStallctlClr c v s
  | .mcParcntRead c => Sys2Proof.Machine.execMcParcntRead c s
  | .hbStatRead n => Sys2Proof.Machine.execHbStatRead n s
  | .ceBucketWrite g v => Sys2Proof.Machine.execCeBucketWrite g v s
  | .ceStatRead b h => Sys2Proof.Machine.execCeStatRead b h s
  | .skRxerrRead b h => Sys2Proof.Machine.execSkRxerrRead b h s
  | .skBcnRead h => Sys2Proof.Machine.execSkBcnRead h s
  | .skLinkerrRead p => Sys2Proof.Machine.execSkLinkerrRead p s
  | .hlEventWrite h v => Sys2Proof.Machine.execHlEventWrite h v s
  | .pwEventWrite h v => Sys2Proof.Machine.execPwEventWrite h v s
  | .pwTcmpWrite g v => Sys2Proof.Machine.execPwTcmpWrite g v s
  | .kwDbstatRead c => Sys2Proof.Machine.execKwDbstatRead c s
  | .collectiveSlotDequeue c => Sys2Proof.Machine.execCollectiveSlotDequeue c s
  | .bucketDequeue h n => Sys2Proof.Machine.execBucketDequeue h n s
  | .bucketWindowExpiry h n => Sys2Proof.Machine.execBucketWindowExpiry h n s
  | .closeWindowExpiry h n => Sys2Proof.Machine.execCloseWindowExpiry h n s
  | .postWindowExpiry h n => Sys2Proof.Machine.execPostWindowExpiry h n s
  | .gatherWindowExpiry h n => Sys2Proof.Machine.execGatherWindowExpiry h n s
  | .publishProceed h n => Sys2Proof.Machine.execPublishProceed h n s
  | .snapshotStart b step => Sys2Proof.Machine.execSnapshotStart b step s
  | .captureComplete b => Sys2Proof.Machine.execCaptureComplete b s
  | .drainComplete b => Sys2Proof.Machine.execDrainComplete b s
  | .bindingStop u => Sys2Proof.Machine.execBindingStop u s
  | .rollbackNoticeReceive p => Sys2Proof.Machine.execRollbackNoticeReceive p s
  | .repairComplete u r => Sys2Proof.Machine.execRepairComplete u r s
  | .lstepAgreement b others => Sys2Proof.Machine.execLstepAgreement b others s
  | .restoreComplete b => Sys2Proof.Machine.execRestoreComplete b s
  | .halfResetRelease h => Sys2Proof.Machine.execHalfResetRelease h s
  | .moduleResetRelease => Sys2Proof.Machine.execModuleResetRelease s
  | .deferredSelftestResult u r => Sys2Proof.Machine.execDeferredSelftestResult u r s

end Sys2Proof.Machine
end

