-- ==== Sys2Proof/WellFormed.lean ====
section
/-! DEFINITION. Well-formed commands: the word of an instruction row belongs to that row, and every number names a thread,
core, half, die, stack, port, binding, function, endpoint, keeper, ticket or unit of the numbering (R3, R14, R15). -/

namespace Sys2Proof

/-- Class of a unit identifier (R15). -/
def unitClassOf (u : BitVec 16) : Nat := fld u 12 4

/-- Whether a command is well-formed. -/
def Instr.wellFormed : Instr → Bool
  | .nop g w => decide (g < 8192) && decide (opOf w = .nop)
  | .li g w => decide (g < 8192) && decide (opOf w = .li)
  | .add g w => decide (g < 8192) && decide (opOf w = .add)
  | .sub g w => decide (g < 8192) && decide (opOf w = .sub)
  | .andI g w => decide (g < 8192) && decide (opOf w = .andI)
  | .orI g w => decide (g < 8192) && decide (opOf w = .orI)
  | .xorI g w => decide (g < 8192) && decide (opOf w = .xorI)
  | .shl g w => decide (g < 8192) && decide (opOf w = .shl)
  | .shr g w => decide (g < 8192) && decide (opOf w = .shr)
  | .sra g w => decide (g < 8192) && decide (opOf w = .sra)
  | .minI g w => decide (g < 8192) && decide (opOf w = .minI)
  | .maxI g w => decide (g < 8192) && decide (opOf w = .maxI)
  | .sel g w => decide (g < 8192) && decide (opOf w = .sel)
  | .mov g w => decide (g < 8192) && decide (opOf w = .mov)
  | .tagof g w => decide (g < 8192) && decide (opOf w = .tagof)
  | .mul g w => decide (g < 8192) && decide (opOf w = .mul)
  | .mulh g w => decide (g < 8192) && decide (opOf w = .mulh)
  | .mulhu g w => decide (g < 8192) && decide (opOf w = .mulhu)
  | .div g w => decide (g < 8192) && decide (opOf w = .div)
  | .divu g w => decide (g < 8192) && decide (opOf w = .divu)
  | .rem g w => decide (g < 8192) && decide (opOf w = .rem)
  | .remu g w => decide (g < 8192) && decide (opOf w = .remu)
  | .fadd g w => decide (g < 8192) && decide (opOf w = .fadd)
  | .fsub g w => decide (g < 8192) && decide (opOf w = .fsub)
  | .fmul g w => decide (g < 8192) && decide (opOf w = .fmul)
  | .ffma g w => decide (g < 8192) && decide (opOf w = .ffma)
  | .fmin g w => decide (g < 8192) && decide (opOf w = .fmin)
  | .fmax g w => decide (g < 8192) && decide (opOf w = .fmax)
  | .fdiv g w => decide (g < 8192) && decide (opOf w = .fdiv)
  | .fsqrt g w => decide (g < 8192) && decide (opOf w = .fsqrt)
  | .cmp g w => decide (g < 8192) && decide (opOf w = .cmp)
  | .fcmp g w => decide (g < 8192) && decide (opOf w = .fcmp)
  | .pand g w => decide (g < 8192) && decide (opOf w = .pand)
  | .por g w => decide (g < 8192) && decide (opOf w = .por)
  | .pnot g w => decide (g < 8192) && decide (opOf w = .pnot)
  | .mkptr g w => decide (g < 8192) && decide (opOf w = .mkptr)
  | .ptrint g w => decide (g < 8192) && decide (opOf w = .ptrint)
  | .fbits g w => decide (g < 8192) && decide (opOf w = .fbits)
  | .bitsf g w => decide (g < 8192) && decide (opOf w = .bitsf)
  | .itof g w => decide (g < 8192) && decide (opOf w = .itof)
  | .ftoi g w => decide (g < 8192) && decide (opOf w = .ftoi)
  | .smv g w => decide (g < 8192) && decide (opOf w = .smv)
  | .b g w => decide (g < 8192) && decide (opOf w = .b)
  | .bt g w => decide (g < 8192) && decide (opOf w = .bt)
  | .bf g w => decide (g < 8192) && decide (opOf w = .bf)
  | .call g w => decide (g < 8192) && decide (opOf w = .call)
  | .callr g w => decide (g < 8192) && decide (opOf w = .callr)
  | .jr g w => decide (g < 8192) && decide (opOf w = .jr)
  | .ret g w => decide (g < 8192) && decide (opOf w = .ret)
  | .ld g w => decide (g < 8192) && decide (opOf w = .ld)
  | .ldf g w => decide (g < 8192) && decide (opOf w = .ldf)
  | .ldp g w => decide (g < 8192) && decide (opOf w = .ldp)
  | .ldt g w => decide (g < 8192) && decide (opOf w = .ldt)
  | .st g w => decide (g < 8192) && decide (opOf w = .st)
  | .stt g w => decide (g < 8192) && decide (opOf w = .stt)
  | .amo g w => decide (g < 8192) && decide (opOf w = .amo)
  | .mbar g w => decide (g < 8192) && decide (opOf w = .mbar)
  | .tcfg g w => decide (g < 8192) && decide (opOf w = .tcfg)
  | .tld g w => decide (g < 8192) && decide (opOf w = .tld)
  | .tldc g w => decide (g < 8192) && decide (opOf w = .tldc)
  | .tst g w => decide (g < 8192) && decide (opOf w = .tst)
  | .tsb g w => decide (g < 8192) && decide (opOf w = .tsb)
  | .tshift g w => decide (g < 8192) && decide (opOf w = .tshift)
  | .tmma g w => decide (g < 8192) && decide (opOf w = .tmma)
  | .tzero g w => decide (g < 8192) && decide (opOf w = .tzero)
  | .trel g w => decide (g < 8192) && decide (opOf w = .trel)
  | .twait g w => decide (g < 8192) && decide (opOf w = .twait)
  | .vld g w => decide (g < 8192) && decide (opOf w = .vld)
  | .vst g w => decide (g < 8192) && decide (opOf w = .vst)
  | .vmov g w => decide (g < 8192) && decide (opOf w = .vmov)
  | .vbcast g w => decide (g < 8192) && decide (opOf w = .vbcast)
  | .vadd g w => decide (g < 8192) && decide (opOf w = .vadd)
  | .vsub g w => decide (g < 8192) && decide (opOf w = .vsub)
  | .vmul g w => decide (g < 8192) && decide (opOf w = .vmul)
  | .vfma g w => decide (g < 8192) && decide (opOf w = .vfma)
  | .vmulw g w => decide (g < 8192) && decide (opOf w = .vmulw)
  | .vdotw g w => decide (g < 8192) && decide (opOf w = .vdotw)
  | .vcvt g w => decide (g < 8192) && decide (opOf w = .vcvt)
  | .vred g w => decide (g < 8192) && decide (opOf w = .vred)
  | .vchain g w => decide (g < 8192) && decide (opOf w = .vchain)
  | .vflow g w => decide (g < 8192) && decide (opOf w = .vflow)
  | .tdesc g w => decide (g < 8192) && decide (opOf w = .tdesc)
  | .dinfo g w => decide (g < 8192) && decide (opOf w = .dinfo)
  | .dinfoRetire g w => decide (g < 8192) && decide (opOf w = .dinfoRetire)
  | .dgth g w => decide (g < 8192) && decide (opOf w = .dgth)
  | .dsct g w => decide (g < 8192) && decide (opOf w = .dsct)
  | .pgather g w => decide (g < 8192) && decide (opOf w = .pgather)
  | .cbktOpen g w => decide (g < 8192) && decide (opOf w = .cbktOpen)
  | .cbktBucket g w => decide (g < 8192) && decide (opOf w = .cbktBucket)
  | .cbktClose g w => decide (g < 8192) && decide (opOf w = .cbktClose)
  | .cbktPublish g w => decide (g < 8192) && decide (opOf w = .cbktPublish)
  | .csend g w => decide (g < 8192) && decide (opOf w = .csend)
  | .crecv g w => decide (g < 8192) && decide (opOf w = .crecv)
  | .await g w => decide (g < 8192) && decide (opOf w = .await)
  | .tkpoll g w => decide (g < 8192) && decide (opOf w = .tkpoll)
  | .rep g w => decide (g < 8192) && decide (opOf w = .rep)
  | .repi g w => decide (g < 8192) && decide (opOf w = .repi)
  | .mset g w => decide (g < 8192) && decide (opOf w = .mset)
  | .csrr g w => decide (g < 8192) && decide (opOf w = .csrr)
  | .csrw g w => decide (g < 8192) && decide (opOf w = .csrw)
  | .ifence g w => decide (g < 8192) && decide (opOf w = .ifence)
  | .ecall g w => decide (g < 8192) && decide (opOf w = .ecall)
  | .brk g w => decide (g < 8192) && decide (opOf w = .brk)
  | .eret g w => decide (g < 8192) && decide (opOf w = .eret)
  | .tend g w => decide (g < 8192) && decide (opOf w = .tend)
  | .fixedResultCommit g => decide (g < 8192)
  | .repeatIteration g _ => decide (g < 8192)
  | .fetchReturn g _ => decide (g < 8192)
  | .ticketComplete g tk => decide (g < 8192) && decide (tk < 16)
  | .ticketFault g tk => decide (g < 8192) && decide (tk < 16)
  | .tendComplete g => decide (g < 8192)
  | .trapEntry g _ => decide (g < 8192)
  | .interruptTaken g => decide (g < 8192)
  | .timerCompare g => decide (g < 8192)
  | .vectorOpStart c => decide (c < 512)
  | .tileQueueExecute c _ => decide (c < 512)
  | .tileInstructionComplete c => decide (c < 512)
  | .chainQueueExecute c _ => decide (c < 512)
  | .vchainComplete c => decide (c < 512)
  | .vflowComplete c => decide (c < 512)
  | .descriptorQueueExecute c _ => decide (c < 512)
  | .translationWalkRead g tk _ => decide (g < 8192) && decide (tk < 16)
  | .memAccessPerformed g tk _ => decide (g < 8192) && decide (tk < 16)
  | .l1LineFill c _ _ => decide (c < 512)
  | .crossHalfAccessTimeout g tk => decide (g < 8192) && decide (tk < 16)
  | .meshFlitReceive g tk _ => decide (g < 8192) && decide (tk < 16)
  | .hbmReadReturn n _ _ _ => decide (n < 16)
  | .hbmRefresh n _ => decide (n < 16)
  | .fabricFlitReceive p f => decide (p < 24) && decide (f.content.length = 240)
  | .portRetrainComplete p _ => decide (p < 24)
  | .spareLaneRotation p _ => decide (p < 26)
  | .packetInject h _ => decide (h < 2)
  | .packetForward p => decide (p < 24)
  | .dataReceive p => decide (p < 24)
  | .expReceive p => decide (p < 24)
  | .agreedExponentReceive p => decide (p < 24)
  | .lanesReceive p => decide (p < 24)
  | .verdictReceive p => decide (p < 24)
  | .greqReceive p => decide (p < 24)
  | .cellarReceive p => decide (p < 24)
  | .beaconReceive p => decide (p < 24)
  | .beaconKeyTimeout h _ => decide (h < 2)
  | .helloSend p => decide (p < 24)
  | .helloReceive p => decide (p < 24)
  | .ackfReceive p => decide (p < 24)
  | .ackfSend _ => true
  | .packetRetransmitTimeout _ _ => true
  | .portOutputStallTimeout p => decide (p < 24)
  | .portDrainedEnd p => decide (p < 24)
  | .queueDepthSample h => decide (h < 2)
  | .equaliserAdapt p _ _ => decide (p < 26)
  | .portTrainingComplete p _ => decide (p < 24)
  | .portTrainingRetry p => decide (p < 24)
  | .heartbeatSend h => decide (h < 2)
  | .heartbeatReceive h _ => decide (h < 2)
  | .heartbeatTimeout h => decide (h < 2)
  | .halfLinkFlitReceive h _ c => decide (h < 2) && c.all (fun c => decide (c < 512))
  | .halfLinkRetrainComplete => true
  | .halfLinkDownTimeout => true
  | .halfLinkUp => true
  | .halfLinkTrainingComplete _ => true
  | .journalEntryReceive h => decide (h < 2)
  | .journalAckReceive h => decide (h < 2)
  | .completionRecordReceive h => decide (h < 2)
  | .coreFrequencyLoop d _ => decide (d < 8)
  | .droopTrip d => decide (d < 8)
  | .droopStretchEnd d => decide (d < 8)
  | .thermalLoop d _ => decide (d < 8)
  | .powerCapLoop h _ => decide (h < 2)
  | .thermalTrip d => decide (d < 8)
  | .thermalTripTimeout d _ => decide (d < 8)
  | .vinWarning _ => true
  | .vinLossTimeout _ => true
  | .railFault _ _ => true
  | .powerUp _ => true
  | .keeperBoot h k => decide (h < 2) && decide (k < 2)
  | .hbmTrainingComplete n _ => decide (n < 16)
  | .kuwickReady h => decide (h < 2)
  | .endpointLinkTrained h => decide (h < 2)
  | .pwrEnLow h => decide (h < 2)
  | .pwrEnHigh h => decide (h < 2)
  | .clipPresenceBreak => true
  | .moduleReset _ => true
  | .halfReset h _ => decide (h < 2)
  | .keeperReset h k => decide (h < 2) && decide (k < 2)
  | .keeperStandbyReturn h _ => decide (h < 2)
  | .noKeeperTimeout h => decide (h < 2)
  | .endpointReset h => decide (h < 2)
  | .functionLevelReset n => decide (n < 65 ∧ n ≠ 0)
  | .smbusTelemetry h _ _ _ => decide (h < 2)
  | .smbusFaultRecords h _ => decide (h < 2)
  | .smbusResetHalf h _ => decide (h < 2)
  | .smbusResetModule _ => true
  | .smbusRecoveryImageWrite h _ _ => decide (h < 2)
  | .smbusDeviceKey h _ => decide (h < 2)
  | .smbusOwnerKey h _ _ => decide (h < 2)
  | .jtagBypass h => decide (h < 2)
  | .jtagIdcode h => decide (h < 2)
  | .jtagSamplePreload h => decide (h < 2)
  | .jtagExtest h => decide (h < 2)
  | .kwSqTailWrite ep f _ => decide (ep < 2) && decide (f < 65)
  | .ringEnable ep f _ => decide (ep < 2) && decide (f < 65)
  | .ringDisable ep f _ => decide (ep < 2) && decide (f < 65)
  | .sqEntryRead h f _ _ => decide (h < 2) && decide (f < 65)
  | .commandFinal f _ => decide (f < 65)
  | .nopCommand f _ => decide (f < 65)
  | .query f _ => decide (f < 65)
  | .launch f _ => decide (f < 65)
  | .abort f _ => decide (f < 65)
  | .irqSet f _ => decide (f < 65)
  | .rack f _ => decide (f < 65)
  | .partnerLoad f _ => decide (f < 65)
  | .groupSet f _ => decide (f < 65)
  | .preempt f _ => decide (f < 65)
  | .resume f _ => decide (f < 65)
  | .cellarGrant f _ => decide (f < 65)
  | .cellarClient f _ => decide (f < 65)
  | .cellarRevoke f _ => decide (f < 65)
  | .mapC f _ => decide (f < 65)
  | .bind f _ => decide (f < 65)
  | .rebind f _ => decide (f < 65)
  | .unbind f _ => decide (f < 65)
  | .primacySet h _ _ => decide (h < 2)
  | .fabricIdSet f _ => decide (f < 65)
  | .keySet f _ => decide (f < 65)
  | .keyClear f _ => decide (f < 65)
  | .eventCfg f _ => decide (f < 65)
  | .selftest f _ _ => decide (f < 65)
  | .selftestSpareOk f _ _ => decide (f < 65)
  | .restore f _ => decide (f < 65)
  | .fwUpdate f _ _ => decide (f < 65)
  | .registerWrite _ _ => true
  | .crEpcWrite g _ _ => decide (g < 8192)
  | .crEstatWrite g _ => decide (g < 8192)
  | .crFflagsWrite g _ => decide (g < 8192)
  | .tlStatRead c => decide (c < 512)
  | .tlStatWrite c _ => decide (c < 512)
  | .vcStatRead c => decide (c < 512)
  | .dsOobcntRead c => decide (c < 512)
  | .mcStallRead c eng cause => decide (c < 512) && decide (eng < 16) && decide (cause < 16)
  | .mcStallctlClr c _ => decide (c < 512)
  | .mcParcntRead c => decide (c < 512)
  | .hbStatRead n => decide (n < 16)
  | .ceBucketWrite g _ => decide (g < 8192)
  | .ceStatRead bn h => decide (bn < 64) && decide (h < 2)
  | .skRxerrRead bn h => decide (bn < 64) && decide (h < 2)
  | .skBcnRead h => decide (h < 2)
  | .skLinkerrRead p => decide (p < 24)
  | .hlEventWrite h _ => decide (h < 2)
  | .pwEventWrite h _ => decide (h < 2)
  | .pwTcmpWrite g _ => decide (g < 8192)
  | .kwDbstatRead c => decide (c < 512)
  | .collectiveSlotDequeue c => decide (c < 512)
  | .bucketDequeue h _ => decide (h < 2)
  | .bucketWindowExpiry h _ => decide (h < 2)
  | .closeWindowExpiry h _ => decide (h < 2)
  | .postWindowExpiry h _ => decide (h < 2)
  | .gatherWindowExpiry h _ => decide (h < 2)
  | .publishProceed h _ => decide (h < 2)
  | .snapshotStart bn _ => decide (bn < 64)
  | .captureComplete bn => decide (bn < 64)
  | .drainComplete bn => decide (bn < 64)
  | .bindingStop u => decide (unitClassOf u < 9)
  | .rollbackNoticeReceive p => decide (p < 24)
  | .repairComplete u _ => decide (unitClassOf u < 9)
  | .lstepAgreement bn _ => decide (bn < 64)
  | .restoreComplete bn => decide (bn < 64)
  | .halfResetRelease h => decide (h < 2)
  | .moduleResetRelease => true
  | .deferredSelftestResult u _ => decide (unitClassOf u < 9)

end Sys2Proof
end

