-- ==== Sys2Proof/Safety.lean ====
section
/-! DEFINITION. The terms in which claims about the module are stated: the canonical form of memory, when a word may issue,
and the states that a word leaves behind. No command stops the module, so a safe run is one in which every command is
well-formed. -/

namespace Sys2Proof.Machine

/-! ### Canonical memory -/

/-- Memory in its one canonical form: addresses strictly rising, no byte listed that equals what an unlisted byte reads
as. -/
def Memory.wf (m : List Host.Cell) : Bool := FMap.wf 0#8 m

/-- Memory and the press tags are in their canonical form. -/
def State.canonical (s : State) : Bool := Memory.wf s.mem && FMap.wf 0#4 s.tags

/-! ### Issuing -/

/-- The thread as its next word finds it: the results due at its slot are committed (R36). -/
def State.now (s : State) (g : Nat) : Thread := (s.thread g).commitDue

/-- A long word of row `o` may issue on thread `g` (R22): its encoding is legal (R35), and it stands where it may
(R45). -/
structure Issues (s : State) (g : Nat) (w : Word) (o : Op) : Prop where
  row : opOf w = o
  long : isPair w = false
  may : s.mayIssue g w = true
  legal : fieldsLegal (longFields w) = true
  place : ((s.now g).delay.isSome && delayIllegal o) = false

/-- The thread after its word has executed and the next word follows (R36, R43, R45). -/
def Thread.went (t t' : Thread) (flow : Next) : Thread := t'.advance flow t.shadow.isSome

/-- The state after a word that queues the fixed-distance results `ws` and raises the flags `fl` (R36, R44). -/
def State.wrote (s : State) (g : Nat) (ws : List (Nat × TReg × VReg × Nat)) (fl : FFlags) : State :=
  s.setThread g ((s.now g).went (((s.now g).queueFixed ws).orFlags fl) .seq)

/-- Command `c`, issuing the word `w` of row `o` on thread `g`, completes with these results. -/
def Writes (s : State) (g : Nat) (w : Word) (o : Op) (c : Instr) (ws : List (Nat × TReg × VReg × Nat)) (fl : FFlags) : Prop :=
  Issues s g w o → exec c s = .next (s.wrote g ws fl)

/-- Command `c`, issuing the word `w` of row `o` on thread `g`, leaves the state `s'` with the thread `t'`, which goes on as
`flow` says. -/
def Leaves (s : State) (g : Nat) (w : Word) (o : Op) (c : Instr) (s' : State) (t' : Thread) (flow : Next) : Prop :=
  Issues s g w o → exec c s = .next (s'.setThread g ((s.now g).went t' flow))

/-- Command `c`, issuing the word `w` of row `o` on thread `g`, has no effect but that the thread recognises this trap
(R69). -/
def Traps (s : State) (g : Nat) (w : Word) (o : Op) (c : Instr) (cause : Nat) (etval : Word) : Prop :=
  Issues s g w o → ∃ p tk, exec c s = .next (s.setThread g ((s.now g).raise ⟨p, cause, etval, tk⟩ false true false))

/-- The row that issues an operation's word. -/
def instrOf (o : Op) (g : Nat) (w : Word) : Instr :=
  match o with
  | .nop => .nop g w
  | .li => .li g w
  | .add => .add g w
  | .sub => .sub g w
  | .andI => .andI g w
  | .orI => .orI g w
  | .xorI => .xorI g w
  | .shl => .shl g w
  | .shr => .shr g w
  | .sra => .sra g w
  | .minI => .minI g w
  | .maxI => .maxI g w
  | .sel => .sel g w
  | .mov => .mov g w
  | .tagof => .tagof g w
  | .mul => .mul g w
  | .mulh => .mulh g w
  | .mulhu => .mulhu g w
  | .div => .div g w
  | .divu => .divu g w
  | .rem => .rem g w
  | .remu => .remu g w
  | .fadd => .fadd g w
  | .fsub => .fsub g w
  | .fmul => .fmul g w
  | .ffma => .ffma g w
  | .fmin => .fmin g w
  | .fmax => .fmax g w
  | .fdiv => .fdiv g w
  | .fsqrt => .fsqrt g w
  | .cmp => .cmp g w
  | .fcmp => .fcmp g w
  | .pand => .pand g w
  | .por => .por g w
  | .pnot => .pnot g w
  | .mkptr => .mkptr g w
  | .ptrint => .ptrint g w
  | .fbits => .fbits g w
  | .bitsf => .bitsf g w
  | .itof => .itof g w
  | .ftoi => .ftoi g w
  | .smv => .smv g w
  | .b => .b g w
  | .bt => .bt g w
  | .bf => .bf g w
  | .call => .call g w
  | .callr => .callr g w
  | .jr => .jr g w
  | .ret => .ret g w
  | .ld => .ld g w
  | .ldf => .ldf g w
  | .ldp => .ldp g w
  | .ldt => .ldt g w
  | .st => .st g w
  | .stt => .stt g w
  | .amo => .amo g w
  | .mbar => .mbar g w
  | .tcfg => .tcfg g w
  | .tld => .tld g w
  | .tldc => .tldc g w
  | .tst => .tst g w
  | .tsb => .tsb g w
  | .tshift => .tshift g w
  | .tmma => .tmma g w
  | .tzero => .tzero g w
  | .trel => .trel g w
  | .twait => .twait g w
  | .vld => .vld g w
  | .vst => .vst g w
  | .vmov => .vmov g w
  | .vbcast => .vbcast g w
  | .vadd => .vadd g w
  | .vsub => .vsub g w
  | .vmul => .vmul g w
  | .vfma => .vfma g w
  | .vmulw => .vmulw g w
  | .vdotw => .vdotw g w
  | .vcvt => .vcvt g w
  | .vred => .vred g w
  | .vchain => .vchain g w
  | .vflow => .vflow g w
  | .tdesc => .tdesc g w
  | .dinfo => .dinfo g w
  | .dinfoRetire => .dinfoRetire g w
  | .dgth => .dgth g w
  | .dsct => .dsct g w
  | .pgather => .pgather g w
  | .cbktOpen => .cbktOpen g w
  | .cbktBucket => .cbktBucket g w
  | .cbktClose => .cbktClose g w
  | .cbktPublish => .cbktPublish g w
  | .csend => .csend g w
  | .crecv => .crecv g w
  | .await => .await g w
  | .tkpoll => .tkpoll g w
  | .rep => .rep g w
  | .repi => .repi g w
  | .mset => .mset g w
  | .csrr => .csrr g w
  | .csrw => .csrw g w
  | .ifence => .ifence g w
  | .ecall => .ecall g w
  | .brk => .brk g w
  | .eret => .eret g w
  | .tend => .tend g w

/-- A ticket that is neither in flight nor faulted (R39). -/
def Thread.ticketIdle (t : Thread) (tk : Nat) : Prop := (t.ticket tk).ops = [] ∧ (t.ticket tk).fault = none

end Sys2Proof.Machine
end

