-- ==== Sys2Proof/Certificates/Slice0/Obligations.lean ====
section
/-! DEFINITION. The statements for the provers, each over every state and operands that meet its hypotheses. -/

open Sys2Proof Sys2Proof.Machine

/-! ### Scalar instructions -/

/-- R28, R36: the integer ALU, in the long three-register form and the immediate form. -/
def Obligations.IntegerAlu : Prop :=
  ∀ (s : State) (g : Nat) (w : Word),
    let t := s.now g
    let f := longFields w
    let a := t.reg f.rs1
    let b := src2Of f t
    let put := fun (o : Op) (c : Instr) (tag : Tag) (v : Word) => Writes s g w o c [(f.rd, ⟨tag, v⟩, 0, 1)] 0
    t.isPend f.rd = false →
    (a.tag = .int ∨ a.tag = .ptr → b.tag = .int → put .add (.add g w) a.tag (a.val + b.val)) ∧
    (a.tag = .int ∨ a.tag = .ptr → b.tag = .int → put .sub (.sub g w) a.tag (a.val - b.val)) ∧
    (a.tag = .ptr → b.tag = .ptr → put .sub (.sub g w) .int (a.val - b.val)) ∧
    (a.tag = .int ∨ a.tag = .ptr → b.tag = .int → put .andI (.andI g w) a.tag (a.val &&& b.val)) ∧
    (a.tag = .int → b.tag = .int →
      put .orI (.orI g w) .int (a.val ||| b.val) ∧
      put .xorI (.xorI g w) .int (a.val ^^^ b.val) ∧
      put .shl (.shl g w) .int (a.val <<< (b.val.toNat % 64)) ∧
      put .shr (.shr g w) .int (a.val >>> (b.val.toNat % 64)) ∧
      put .sra (.sra g w) .int (a.val.sshiftRight (b.val.toNat % 64)) ∧
      put .minI (.minI g w) .int (if b.val.toInt < a.val.toInt then b.val else a.val) ∧
      put .maxI (.maxI g w) .int (if a.val.toInt < b.val.toInt then b.val else a.val))

/-- R26, R28, R46, R160: `nop`, `li`, `sel`, `mov` with `lnk` and the summary registers, `tagof`, `smv`. `sel` on a PRED that is neither 0 nor 1 completes
with some value of the sources' tag: the model's free value (log 111). The operations that give a value another tag. -/
def Obligations.MovesAndRetagging : Prop :=
  (∀ (s : State) (g : Nat) (w : Word),
    let t := s.now g
    let f := longFields w
    let srcCode := if bitAt (BitVec.ofNat 8 f.fn) 5 then codeLnk else if bitAt w 31 then codeSm f.rs1 else f.rs1
    let dstCode := if bitAt (BitVec.ofNat 8 f.fn) 6 then codeLnk else f.rd
    let smCode := if bitAt w 31 then codeSm f.rs1 else f.rs1
    Writes s g w .nop (.nop g w) [] 0 ∧
    (t.isPend f.rd = false →
      Writes s g w .li (.li g w) [(f.rd, ⟨.int, wordOf (sextNat (w.toNat % 2 ^ 42) 42)⟩, 0, 1)] 0 ∧
      ((t.reg f.rs1).tag = .pred → (t.reg f.rs2).tag ≠ .pend → (t.reg f.rs2).tag ≠ .inval → (t.reg f.rs3).tag = (t.reg f.rs2).tag →
        ((t.reg f.rs1).val = 1 → Writes s g w .sel (.sel g w) [(f.rd, t.reg f.rs2, 0, 1)] 0) ∧
        ((t.reg f.rs1).val = 0 → Writes s g w .sel (.sel g w) [(f.rd, t.reg f.rs3, 0, 1)] 0) ∧
        (∃ v, Writes s g w .sel (.sel g w) [(f.rd, ⟨(t.reg f.rs2).tag, v⟩, 0, 1)] 0)) ∧
      ((t.reg f.rs1).tag ≠ .pend →
        Writes s g w .tagof (.tagof g w) [(f.rd, ⟨.int, BitVec.ofNat 64 (tagCode (t.reg f.rs1).tag)⟩, 0, 1)] 0) ∧
      ((t.reg smCode).tag = .smry →
        Writes s g w .smv (.smv g w) [(f.rd, ⟨if f.fn % 2 = 1 then .fp64 else .int, (t.reg smCode).val⟩, 0, 1)] 0)) ∧
    (t.isPend dstCode = false → (t.reg srcCode).tag ≠ .pend → (t.reg srcCode).tag ≠ .inval →
      (bitAt (BitVec.ofNat 8 f.fn) 6 = true → (t.reg srcCode).tag = .ret) →
      Writes s g w .mov (.mov g w) [(dstCode, t.reg srcCode, 0, 1)] 0)) ∧
  (∀ (s : State) (g : Nat) (w : Word),
    let t := s.now g
    let f := longFields w
    let a := t.reg f.rs1
    let put := fun (o : Op) (c : Instr) (tag : Tag) => Writes s g w o c [(f.rd, ⟨tag, a.val⟩, 0, 1)] 0
    t.isPend f.rd = false →
    (a.tag = .int → put .mkptr (.mkptr g w) .ptr ∧ put .bitsf (.bitsf g w) .fp64) ∧
    (a.tag = .ptr → put .ptrint (.ptrint g w) .int) ∧
    (a.tag = .fp64 → put .fbits (.fbits g w) .int))

/-- R28, R36, R37: the halves of a product, two slots later. Division goes onto its ticket, its destination PEND; a zero divisor gives all ones and the
dividend. The quotient of the most negative number by -1 is the model's choice (log 18). -/
def Obligations.MultiplyAndDivide : Prop :=
  (∀ (s : State) (g : Nat) (w : Word),
    let t := s.now g
    let f := longFields w
    let a := (t.reg f.rs1).val
    let b := (t.reg f.rs2).val
    let put := fun (o : Op) (c : Instr) (v : Word) => Writes s g w o c [(f.rd, ⟨.int, v⟩, 0, 2)] 0
    t.isPend f.rd = false → (t.reg f.rs1).tag = .int → (t.reg f.rs2).tag = .int →
    put .mul (.mul g w) (BitVec.ofNat 64 (a.toNat * b.toNat)) ∧
    put .mulh (.mulh g w) (BitVec.ofInt 64 (a.toInt * b.toInt / 2 ^ 64)) ∧
    put .mulhu (.mulhu g w) (BitVec.ofNat 64 (a.toNat * b.toNat / 2 ^ 64))) ∧
  (∀ (s : State) (g : Nat) (w : Word),
    let t := s.now g
    let f := longFields w
    let a := (t.reg f.rs1).val
    let b := (t.reg f.rs2).val
    let put := fun (o : Op) (c : Instr) (v : Word) =>
      Leaves s g w o c s (t.addOp f.tk ⟨.calc ⟨.int, v⟩ 0, t.pc, [f.rd]⟩) .seq
    t.isPend f.rd = false → t.ticketIdle f.tk → (t.reg f.rs1).tag = .int → (t.reg f.rs2).tag = .int →
    put .div (.div g w) (if b = 0 then BitVec.allOnes 64 else BitVec.ofInt 64 (a.toInt.tdiv b.toInt)) ∧
    put .divu (.divu g w) (if b = 0 then BitVec.allOnes 64 else BitVec.ofNat 64 (a.toNat / b.toNat)) ∧
    put .rem (.rem g w) (if b = 0 then a else BitVec.ofInt 64 (a.toInt.tmod b.toInt)) ∧
    put .remu (.remu g w) (if b = 0 then a else BitVec.ofNat 64 (a.toNat % b.toNat)))

/-- R28, R36, R37, R44, R82, R83, R85: FP64 arithmetic and conversions, rounded by RM, with their flags. -/
def Obligations.ScalarFloat : Prop :=
  ∀ (s : State) (g : Nat) (w : Word),
    let t := s.now g
    let f := longFields w
    let a := (t.reg f.rs1).val.toNat
    let b := (t.reg f.rs2).val.toNat
    let c := (t.reg f.rs3).val.toNat
    let put := fun (o : Op) (i : Instr) (r : FRes) => Writes s g w o i [(f.rd, ⟨.fp64, BitVec.ofNat 64 r.code⟩, 0, 4)] r.flags
    let wait := fun (o : Op) (i : Instr) (r : FRes) =>
      Leaves s g w o i s (t.addOp f.tk ⟨.calc ⟨.fp64, BitVec.ofNat 64 r.code⟩ r.flags, t.pc, [f.rd]⟩) .seq
    t.isPend f.rd = false →
    ((t.reg f.rs1).tag = .fp64 → (t.reg f.rs2).tag = .fp64 →
      put .fadd (.fadd g w) (fAdd binary64 t.rm t.ftz a b) ∧
      put .fsub (.fsub g w) (fSub binary64 t.rm t.ftz a b) ∧
      put .fmul (.fmul g w) (fMul binary64 t.rm t.ftz a b) ∧
      put .fmin (.fmin g w) (fMinMax binary64 t.ftz false a b) ∧
      put .fmax (.fmax g w) (fMinMax binary64 t.ftz true a b) ∧
      ((t.reg f.rs3).tag = .fp64 → put .ffma (.ffma g w) (fFma binary64 t.rm t.ftz false a b c)) ∧
      (t.ticketIdle f.tk → wait .fdiv (.fdiv g w) (fDiv binary64 t.rm t.ftz a b))) ∧
    ((t.reg f.rs1).tag = .fp64 →
      (t.ticketIdle f.tk → wait .fsqrt (.fsqrt g w) (fSqrt binary64 t.rm t.ftz a)) ∧
      (let r := fToInt binary64 t.rm 64 a
       Writes s g w .ftoi (.ftoi g w) [(f.rd, ⟨.int, BitVec.ofInt 64 r.1⟩, 0, 4)] r.2)) ∧
    ((t.reg f.rs1).tag = .int → put .itof (.itof g w) (intToF binary64 t.rm (t.reg f.rs1).val.toInt))

/-- R28, R50, R160: comparisons and predicate operations write PRED, one slot later. A predicate operation on a PRED that is neither 0 nor 1 completes
with some PRED: the model's free value (log 111). -/
def Obligations.ComparesAndPredicates : Prop :=
  ∀ (s : State) (g : Nat) (w : Word) (p : Bool),
    let t := s.now g
    let f := longFields w
    let a := t.reg (if bitAt w 31 then codeSm f.rs1 else f.rs1)
    let b := t.reg f.rs2
    let fn := f.fn % 128
    let put := fun (o : Op) (c : Instr) (q : Bool) (fl : FFlags) => Writes s g w o c [(f.rd, ⟨.pred, if q then 1 else 0⟩, 0, 1)] fl
    let some' := fun (o : Op) (c : Instr) => ∃ v, Writes s g w o c [(f.rd, ⟨.pred, v⟩, 0, 1)] 0
    t.isPend f.rd = false →
    ((a.tag = .int ∧ b.tag = .int) ∨ (a.tag = .ptr ∧ b.tag = .ptr) ∨ (a.tag = .smry ∧ b.tag = .int) →
      (p = true ↔ (fn = 0 ∧ a.val = b.val) ∨ (fn = 1 ∧ a.val ≠ b.val) ∨ (fn = 2 ∧ a.val.toInt < b.val.toInt)
        ∨ (fn = 3 ∧ a.val.toInt ≤ b.val.toInt) ∨ (fn = 4 ∧ a.val.toNat < b.val.toNat) ∨ (fn = 5 ∧ a.val.toNat ≤ b.val.toNat)) →
      put .cmp (.cmp g w) p 0) ∧
    ((a.tag = .fp64 ∨ a.tag = .smry) → b.tag = .fp64 →
      (let k := if fn = 0 then FCmp.eq else if fn = 1 then .lt else if fn = 2 then .le else .un
       let r := fCompare binary64 k a.val.toNat b.val.toNat
       put .fcmp (.fcmp g w) r.1 r.2)) ∧
    ((t.reg f.rs1).tag = .pred →
      (∀ x, (t.reg f.rs1).val = (if x then 1 else 0) → put .pnot (.pnot g w) (!x) 0) ∧
      some' .pnot (.pnot g w) ∧
      (b.tag = .pred →
        (∀ x y, (t.reg f.rs1).val = (if x then 1 else 0) → b.val = (if y then 1 else 0) →
          put .pand (.pand g w) (x && y) 0 ∧ put .por (.por g w) (x || y) 0) ∧
        some' .pand (.pand g w) ∧ some' .por (.por g w)))

/-- R23, R33, R34, R51, R57, R59, R227, R232: a paired word of scalar slots: both read before either writes; a conflict or a reserved slot is an illegal
instruction, raised in slot B where slot B's function alone is reserved, and a fault of either slot leaves neither. The names of R34 are the slots'
own, by `pairRegs`. A fetch fills the buffer with the eight words of its 64-byte block, and a thread at M finds there the word at its program counter;
the block takes its path through the caches; a target that is no HBM is a fetch fault, a poisoned block an unrecoverable error, and a block of the
other half waits for the link. -/
def Obligations.PairedWordsAndFetch : Prop :=
  (∀ (s : State) (g : Nat) (w : Word),
    let t := s.now g
    let a := slotA w
    let b := slotB w
    let ra := fopOf a.op w a t
    let rb := fopOf b.op w b t
    let run := exec (instrOf (opOf w) g w) s
    let raised := fun (c : Cond) (inB : Bool) => Host.Outcome.next (s.setThread g (t.raise c inB true false))
    let illegal := bitAt w 0 || !fieldsLegal a || pairConflict (pairRegs a t) (pairRegs b t)
    isPair w = true → s.mayIssue g w = true → ra.pumps = 0 → rb.pumps = 0 →
    (illegal = true → run = raised ⟨30, 0x01, w, none⟩ false) ∧
    (illegal = false → fieldsLegal b = false → run = raised ⟨30, 0x01, w, none⟩ true) ∧
    (illegal = false → fieldsLegal b = true →
      (ra.fault = none → rb.fault = none → run = .next (s.wrote g (ra.writes ++ rb.writes) (ra.flags ||| rb.flags))) ∧
      (∀ c, ra.fault = some c → (∀ d, rb.fault = some d → c.prio ≤ d.prio) → run = raised c false) ∧
      (∀ d, rb.fault = some d → (∀ c, ra.fault = some c → d.prio < c.prio) → run = raised d true))) ∧
  (∀ (s : State) (g pa : Nat),
    let t := s.thread g
    let c := coreOf g
    let blk := pa / 64 * 64
    let words := (List.range 8).map (fun i => s.readWord (blk + 8 * i))
    let s' := s.cached c true blk 64
    let u := { t with fetch := some ⟨t.pc &&& 0xFFFF_FFFF_FFFF_FFC0#64, words⟩ }
    threadPresent s.build g = true → t.run = .run → t.trap = none → t.ending = false → t.word? = none →
    (s.core c).suspended = false → s.xlatQuick (s.bindingOf c) (s.core c).tcache t.estat.prv .x t.pc = .pa pa →
    (s.isHbm pa = true → s.linkWait c blk = true → exec (.fetchReturn g .ok) s = .next s) ∧
    (s.isHbm pa = true → s.linkWait c blk = false → s.poisoned blk 64 = false →
      exec (.fetchReturn g .ok) s = .next (s'.setThread g u) ∧ s' = { s with l2 := s'.l2, cores := s'.cores } ∧ (t.estat.prv = 3 → u.word? = some (s.readWord (pa / 8 * 8)))) ∧
    (s.isHbm pa = true → s.linkWait c blk = false → s.poisoned blk 64 = true →
      exec (.fetchReturn g .ok) s =
        .next ((s.setThread g (t.fetched.raise ⟨10, 0x10, BitVec.ofNat 64 (pa / 4 * 4), none⟩ false true false)).recordFault (unitOfPa s pa) 0x01)) ∧
    (s.isHbm pa = false → exec (.fetchReturn g .ok) s = .next (s.setThread g (t.fetched.raise ⟨20, 0x08, t.pc, none⟩ false true false))))

/-- R32, R45, R46: `bt` branches on 1 and `bf` on 0; branches and calls go on with their delay slot; `lnk` takes the branch + 16 with the tag RET. That an
offset counts from the branch itself is DEDUCED (log 27). Every branch has one delay slot, which issues before the target's first word whether or not
the branch is taken; a branch, `rep`, `repi`, `eret` or `tend` in it is illegal. -/
def Obligations.BranchesAndDelaySlots : Prop :=
  (∀ (s : State) (g : Nat) (w : Word),
    let t := s.now g
    let f := longFields w
    let target := t.pc + f.off * 8
    let a := t.reg f.rs1
    let linked := t.queueFixed [(codeLnk, ⟨.ret, t.pc + 16⟩, 0, 1)]
    Leaves s g w .b (.b g w) s t (.branch target true) ∧
    (a.tag = .pred →
      Leaves s g w .bt (.bt g w) s t (.branch target (decide (a.val = 1))) ∧
      Leaves s g w .bf (.bf g w) s t (.branch target (decide (a.val = 0)))) ∧
    (t.isPend codeLnk = false →
      Leaves s g w .call (.call g w) s linked (.branch target true) ∧
      ((a.tag = .ptr ∨ a.tag = .ret) → a.val.toNat % 8 = 0 → Leaves s g w .callr (.callr g w) s linked (.branch a.val true))) ∧
    ((a.tag = .ptr ∨ a.tag = .ret) → a.val.toNat % 8 = 0 → Leaves s g w .jr (.jr g w) s t (.branch a.val true)) ∧
    (t.lnk.tag = .ret → t.lnk.val.toNat % 8 = 0 → Leaves s g w .ret (.ret g w) s t (.branch t.lnk.val true))) ∧
  ((∀ (t u : Thread) (target : Word) (taken sh sh' : Bool),
    let b := t.advance (.branch target taken) sh
    b.pc = t.pc + 8 ∧ b.slot = t.slot + 1 ∧
    (u.pc = b.pc → u.delay = b.delay →
      (u.advance .seq sh').pc = (if taken then target else t.pc + 16) ∧ (u.advance .seq sh').delay = none)) ∧
  (∀ (s : State) (g : Nat) (w : Word),
    let t := s.now g
    isPair w = false → s.mayIssue g w = true → t.delay.isSome = true →
    opOf w ∈ [Op.b, .bt, .bf, .call, .callr, .jr, .ret, .rep, .repi, .eret, .tend] →
    exec (instrOf (opOf w) g w) s = .next (s.setThread g (t.raise ⟨30, 0x01, w, none⟩ false true false))))

/-! ### Memory instructions -/

/-- R30, R210, R222, R223, R225: a scalar access goes onto its ticket at its address, its destination PEND, and post-increment writes the base one slot
later, where the base is not the register loaded: that one ends with the loaded value (log 87). An `amo` goes onto its ticket; an `mbar` stands
between the accesses before it and those after. -/
def Obligations.MemoryAndAtomicIssue : Prop :=
  (∀ (s : State) (g : Nat) (w : Word),
    let t := s.now g
    let f := longFields w
    let base := (t.reg f.rs1).val
    let post := f.form = .lr ∧ f.fn / 8 % 2 = 1
    let n := if f.form = .li then 8 else 2 ^ (f.fn % 4)
    let signed := decide (f.form = .lr) && decide (f.fn / 4 % 2 = 1)
    let va := if f.form = .li then base + f.imm
      else if f.fn / 8 % 2 = 1 then base + (t.reg f.rs2).val else base + (t.reg f.rs2).val + sfld w 0 24
    let data := t.reg (if f.form = .li then f.rd else f.rs3)
    let held := isPress va.toNat = true ∧ s.pressHeld (s.bindingOf (coreOf g)) va.toNat = true
    let onto := fun (o : Op) (c : Instr) (a : AccOp) (dst : List Nat) =>
      let u := t.addAccess f.tk a va (s.beginAccess g a va t.estat.prv) dst
      (post ∧ f.rs1 ∉ dst → Leaves s g w o c s (u.queueFixed [(f.rs1, ⟨.ptr, base + sfld w 0 24⟩, 0, 1)]) .seq) ∧
      (¬ (post ∧ f.rs1 ∉ dst) → Leaves s g w o c s u .seq)
    (t.reg f.rs1).tag = .ptr → (f.form = .lr → (t.reg f.rs2).tag = .int) → t.ticketIdle f.tk →
    (t.estat.prv = 3 ∨ ctlHit va n = none) →
    (va.toNat % n = 0 →
      (t.isPend f.rd = false →
        onto .ld (.ld g w) (.load n signed .int) [f.rd] ∧
        onto .ldf (.ldf g w) (.load n signed .fp64) [f.rd] ∧
        onto .ldp (.ldp g w) (.load n signed .ptr) [f.rd]) ∧
      (data.tag ∈ [Tag.int, .fp64, .ptr, .pred, .smry] → onto .st (.st g w) (.store n data.val) [])) ∧
    ((t.estat.prv ≠ 0 ∨ held) → va.toNat % (if isPress va.toNat then 8 else 16) = 0 →
      (t.isPend f.rd = false → onto .ldt (.ldt g w) .loadT [f.rd]) ∧
      (data.tag ≠ .pend → data.tag ≠ .inval → onto .stt (.stt g w) (.storeT data) []))) ∧
  (∀ (s : State) (g : Nat) (w : Word),
    let t := s.now g
    let f := longFields w
    let n := 2 ^ (f.fn % 4)
    let va := (t.reg f.rs1).val + sfld w 0 24
    let a := AccOp.amo n (f.fn / 16) (decide (f.fn / 4 % 2 = 1)) (t.reg f.rs2).val (t.reg f.rs3).val
    ((t.reg f.rs1).tag = .ptr → (t.reg f.rs2).tag = .int → (t.reg f.rs3).tag = .int → t.isPend f.rd = false → t.ticketIdle f.tk →
      (t.estat.prv = 3 ∨ ctlHit va n = none) → va.toNat % n = 0 →
      Leaves s g w .amo (.amo g w) s (t.addAccess f.tk a va (s.beginAccess g a va t.estat.prv) [f.rd]) .seq) ∧
    (∃ live, (∀ fe ∈ live, fe ∈ t.fences) ∧
      (∀ fe ∈ t.fences, (∃ e ∈ t.accesses, e.ord < fe.ord ∧ e.phase.isOver = false) → fe ∈ live) ∧
      Leaves s g w .mbar (.mbar g w) s { t with fences := live ++ [⟨t.memOrd, BitVec.ofNat 4 (f.x24 % 16), decide (f.x24 / 16 = 1)⟩] } .seq))

/-! ### Tile, vector, chain, descriptor and collective instructions -/

/-- R102, R112-R122, R125, R127: a tile instruction that meets its checks against the issue view is queued with what it captured, and the view says what
it will leave. -/
def Obligations.TileIssue : Prop :=
  ∀ (s : State) (g : Nat) (w : Word) (d : Desc),
    let t := s.now g
    let f := longFields w
    let c := coreOf g
    let k := s.core c
    let n := f.x24
    let cfg := k.cfg n
    let l0 := (t.reg f.rs2).val.toInt
    let act := k.viewActive
    let sh := k.shape act
    let queued := fun (o : Op) (i : Instr) (k' : Core) (op : TileOp) =>
      Leaves s g w o i (s.setCore c { k' with tileQ := k'.tileQ ++ [⟨g, f.tk, t.estat.prv, op, false, []⟩] })
        (t.addOp f.tk ⟨.tile .waiting, t.pc, []⟩) .seq
    t.ticketIdle f.tk →
    ((t.reg f.rs1).tag = .desc → (t.reg f.rs2).tag = .int → s.handleDesc c t.estat.prv (t.reg f.rs1).val = some d →
      (cfgRows cfg ≠ 0 → n < 8 → loadFmtOk d.fmt (cfgFmt cfg) = true →
        ((cfgScl cfg = true → blockFieldsBad d 1 (min 32 (min (tileElems n cfg) d.rowLen)) = false) → queued .tld (.tld g w) (setEmptyView k n false) (.load n false cfg d l0)) ∧
        ((cfgScl cfg = true → blockFieldsBad d d.rowLen (min 32 (min (tileElems n cfg) (d.tot / d.rowLen))) = false) → queued .tldc (.tldc g w) (setEmptyView k n false) (.load n true cfg d l0))) ∧
      (cfgRows cfg ≠ 0 → 8 ≤ n → d.fmt = rawForm (acfgMode cfg) → (acfgMode cfg = 2 → bitAt k.vScaled (n - 8) = true) →
        queued .tld (.tld g w) (setEmptyView k n false) (.load n false cfg d l0)) ∧
      (cfgRows cfg ≠ 0 → isEmptyView k n = false → d.ro = false → d.fmt = (if n < 8 then cfgFmt cfg else acfgOfmt cfg) →
        (8 ≤ n → acfgOfmt cfg ≠ 0) → queued .tst (.tst g w) k (.store n cfg d l0)) ∧
      (∀ h, (t.reg f.rs3).tag = .int → bankShapeOf (t.reg f.rs3).val = some h →
        (h.fmt = fmtPsi → d.fmt = fmtPsi ∧ h.planes ≤ d.pm1 + 1 ∧
          blockFieldsBad d (if bitAt (t.reg f.rs3).val 31 then 1 else d.rowLen)
            (min 32 (min h.k (if bitAt (t.reg f.rs3).val 31 then d.rowLen else d.tot / d.rowLen))) = false) →
        (h.fmt ≠ fmtPsi → loadFmtOk d.fmt h.fmt = true) →
        queued .tsb (.tsb g w) { setEmptyView k (12 + k.viewShadow) false with vBanks := FMap.set BankShape.none k.vBanks k.viewShadow h }
          (.bank k.viewShadow (decide (n = act)) h (bitAt (t.reg f.rs3).val 31) d l0))) ∧
    (isEmptyView k (12 + act) = false → sh.fmt ≠ fmtPsi → 1 ≤ n % 256 → n % 256 ≤ sh.k - 1 →
      (n / 2048 % 2 = 1 ∨ (isEmptyView k (n / 256 % 8) = false ∧ fillMatches (k.cfg (n / 256 % 8)) sh = true)) →
      queued .tshift (.tshift g w) { setEmptyView k (12 + k.viewShadow) false with vBanks := FMap.set BankShape.none k.vBanks k.viewShadow sh }
        (.shift act (n % 256) (n / 256 % 8) (decide (n / 2048 % 2 = 1)) (k.cfg (n / 256 % 8)) sh)) ∧
    (∀ flip : Bool, flip = decide (n / 256 % 2 = 1) →
      (let bank := if flip then k.viewShadow else act
       let a := n / 16 % 4
       let z := decide (n / 512 % 2 = 1)
       tmmaCheck k (n % 8) a bank z (n / 4096 % 4) = none →
       queued .tmma (.tmma g w) { setEmptyView k (8 + a) false with vAct := if flip then !k.vAct else k.vAct }
         (.mma (n % 8) a bank flip z (7 - n / 4096 % 4) (k.cfg (n % 8)) (k.cfg (8 + a)) (k.shape bank)))) ∧
    (cfgRows cfg ≠ 0 → ¬(8 ≤ n ∧ acfgMode cfg = 2) → f.rs1 = 0 → queued .tzero (.tzero g w) (setEmptyView k n false) (.zero n cfg none)) ∧
    (cfgRows cfg ≠ 0 → 8 ≤ n → acfgMode cfg = 2 → (t.reg f.rs1).tag = .ptr → (t.reg f.rs1).val.toNat % 16 = 0 →
      (t.estat.prv = 3 ∨ ctlHit (t.reg f.rs1).val 384 = none) →
      queued .tzero (.tzero g w) { setEmptyView k n false with vScaled := k.vScaled ||| BitVec.ofNat 4 (2 ^ (n - 8)) }
        (.zero n cfg (some (t.reg f.rs1).val))) ∧
    queued .trel (.trel g w) { k with vEmpty := k.vEmpty ||| BitVec.ofNat 14 n, vScaled := k.vScaled &&& ~~~(BitVec.ofNat 4 (n / 256)) }
      (.rel (BitVec.ofNat 14 n)) ∧
    queued .twait (.twait g w) k .wait

/-- R136, R137, R139-R141, R144-R148: a vector operation whose function is listed, whose groups meet R138, whose registers are not pending, and for whose
pumps there is room, completes: its group pending, its lanes due eight slots later. -/
def Obligations.VectorIssue : Prop :=
  ∀ (s : State) (g : Nat) (w : Word),
    let t := s.now g
    let f := longFields w
    let n := t.vgrp
    let vf := f.fn % 16
    let fn := f.fn / 16 % 16
    let wd := vfWidth vf
    let a := groupNat t f.rs1 n
    let b := groupNat t f.rs2 n
    let c := groupNat t f.rd n
    let ops := vOperands f n
    let pumps := 2 * (ops.ops.map (·.2)).foldl max 0
    let lanes := fun (o : Op) => (List.range (n * 2048 / wd)).map (fun i =>
      laneOp o fn vf t.rm t.ftz (laneOf a wd i) (laneOf b wd i) (laneOf c wd i))
    let put := fun (o : Op) (i : Instr) (ws : List (Nat × TReg × VReg × Nat)) (fl : FFlags) =>
      Issues s g w o → exec i s = .next ((s.pushPumps g [pumps]).setThread g (t.went ((t.queueFixed ws).orFlags fl) .seq))
    let lanewise := fun (o : Op) (i : Instr) => put o i (vWrites f.rd n (packLanes wd ((lanes o).map (·.1)))) (orAll (lanes o))
    vecLegal f = true → groupCheck f n ops = none →
    (∀ r ∈ (vecRegs f n).srcs ++ (vecRegs f n).dsts, t.isPend r = false) → (s.core (coreOf g)).backlog + pumps ≤ 24 →
    (vf ≠ vxFormat → lanewise .vadd (.vadd g w)) ∧
    (vf = vxFormat → put .vadd (.vadd g w) (vWrites f.rd 4 (vxAdd (groupNat t f.rs1 4) (groupNat t f.rs2 4))) 0) ∧
    lanewise .vsub (.vsub g w) ∧ lanewise .vmul (.vmul g w) ∧ lanewise .vfma (.vfma g w) ∧
    put .vmov (.vmov g w) (vWrites f.rd n a) 0 ∧
    (vfIsInt vf = true → (t.reg f.rs1).tag = .int →
      put .vbcast (.vbcast g w) (vWrites f.rd n (packLanes wd (List.replicate (n * 2048 / wd) ((t.reg f.rs1).val.toNat % 2 ^ wd)))) 0) ∧
    (vfIsInt vf = false → (t.reg f.rs1).tag = .fp64 →
      (let r := fCvt binary64 (vfFloat vf) t.rm false (t.ftz && decide (vf = 9)) (t.reg f.rs1).val.toNat
       put .vbcast (.vbcast g w) (vWrites f.rd n (packLanes wd (List.replicate (n * 2048 / wd) r.code))) r.flags)) ∧
    (vfIsInt vf = true →
      put .vmulw (.vmulw g w) (vWrites f.rd (2 * n) (packLanes (2 * wd) ((List.range (n * 2048 / wd)).map (fun i =>
        if fn = 1 then laneOf a wd i * laneOf b wd i
        else ((sextNat (laneOf a wd i) wd * sextNat (laneOf b wd i) wd) % 2 ^ (2 * wd)).toNat)))) 0) ∧
    (vfIsInt vf = true →
      put .vdotw (.vdotw g w) (vWrites f.rd n (packLanes 32 ((List.range (n * 64)).map (fun i =>
        ((sextNat (laneOf c 32 i) 32 + sumInt ((List.range 4).map (fun k =>
          (if fn = 1 then (laneOf a 8 (4 * i + k) : Int) else sextNat (laneOf a 8 (4 * i + k)) 8) * sextNat (laneOf b 8 (4 * i + k)) 8))) % 2 ^ 32).toNat)))) 0) ∧
    (vfIsInt vf = false →
      (let src := vfFloat vf
       let l := (List.range (n * 2048 / wd)).map (fun i =>
         let x := src.dec (laneOf a wd i)
         let y := src.dec (laneOf b wd i)
         let r := fin2 (vfFloat (widenTo vf)) t.rm (t.ftz && decide (vf = 8)) (x.isSnan || y.isSnan) (x.mul y)
         (r.code, r.flags))
       put .vmulw (.vmulw g w) (vWrites f.rd (2 * n) (packLanes (2 * wd) (l.map (·.1)))) (orAll l))) ∧
    (vfIsInt vf = false →
      (let src := vfFloat vf
       let l := (List.range (n * 64)).map (fun i =>
         let ps := (List.range (32 / wd)).map (fun k => (src.dec (laneOf a wd (32 / wd * i + k)), src.dec (laneOf b wd (32 / wd * i + k))))
         let v := binary32.dec (laneOf c 32 i)
         let sum := FVal.sum t.rm (v :: ps.map (fun p => (p.1.mul p.2).1))
         let r := fin2 binary32 t.rm false (v.isSnan || ps.any (fun p => p.1.isSnan || p.2.isSnan)) (sum.1, sum.2 || ps.any (fun p => (p.1.mul p.2).2))
         (r.code, r.flags))
       put .vdotw (.vdotw g w) (vWrites f.rd n (packLanes 32 (l.map (·.1)))) (orAll l))) ∧
    (let vd := f.x24 % 16
     let l := (List.range (n * 2048 / wd)).map (fun i => cvtLane vf vd t.rm (f.x24 / 16 % 2 = 1) t.ftz (laneOf a wd i))
     put .vcvt (.vcvt g w) (vWrites f.rd (groupFor n (vfWidth vd) wd) (packLanes (vfWidth vd) (l.map (·.1)))) (orAll l)) ∧
    (t.isPend f.rd = false → vfIsInt vf = true →
      put .vred (.vred g w) [(f.rd, ⟨.int, redInt fn wd ((List.range (n * 2048 / wd)).map (laneOf a wd))⟩, 0, 8)] 0) ∧
    (t.isPend f.rd = false → vfIsInt vf = false →
      (let r := redFloat fn (vfFloat vf) t.rm t.ftz ((List.range (n * 2048 / wd)).map (laneOf a wd))
       put .vred (.vred g w) [(f.rd, ⟨.fp64, BitVec.ofNat 64 r.code⟩, 0, 8)] r.flags))

/-- R136, R137, R143: what lanes and groups hold: a lane packed into an image reads back, and a group that an operation writes reads back its image,
register by register, once its results commit. `vld` and `vst` go onto their ticket with the whole group. -/
def Obligations.VectorLanesAndMemory : Prop :=
  ((∀ (wd i : Nat) (l : List Nat) (h : i < l.length), 0 < wd → laneOf (packLanes wd l) wd i = l[i] % 2 ^ wd) ∧
  (∀ (t : Thread) (d n img : Nat), d + n ≤ 32 →
    groupNat ((vWrites d n img).foldl (fun t e => t.commit1 ⟨e.1, e.2.1, e.2.2.1, 0⟩) t) d n = img % 2 ^ (2048 * n))) ∧
  (∀ (s : State) (g : Nat) (w : Word),
    let t := s.now g
    let f := longFields w
    let n := t.vgrp
    let va := (t.reg f.rs1).val + (t.reg f.rs2).val
    let bytes := if f.fn % 16 = vxFormat then 576 else 256 * n
    let codes := groupCodes f.rd n
    let onto := fun (o : Op) (i : Instr) (a : AccOp) (dst : List Nat) =>
      Leaves s g w o i s (t.addAccess f.tk a va (s.beginAccess g a va t.estat.prv) dst) .seq
    vecLegal f = true → groupCheck f n (vOperands f n) = none → (t.reg f.rs1).tag = .ptr → (t.reg f.rs2).tag = .int →
    (∀ r ∈ codes, t.isPend r = false) → t.ticketIdle f.tk → (t.estat.prv = 3 ∨ ctlHit va bytes = none) → va.toNat % 64 = 0 →
    onto .vld (.vld g w) (.vload n bytes) codes ∧
    onto .vst (.vst g w) (.vstore ((List.range n).map (fun i => t.vreg (f.rd + i))) bytes) [])

/-- R150-R152, R160, R161, R167, R173: a `vchain` or `vflow` waits in the core's chain queue with what it captured; the summaries it will write hold PEND. -/
def Obligations.ChainIssue : Prop :=
  ∀ (s : State) (g : Nat) (w : Word),
    let t := s.now g
    let f := longFields w
    let c := coreOf g
    let k := s.core c
    let slot := f.x24 % 4
    let smask := f.x24 / 2 ^ 16 % 16
    let acc := decide (f.x24 / 2 ^ 20 % 2 = 1)
    let queued := fun (o : Op) (i : Instr) (op : ChainOp) (dst : List Nat) =>
      Leaves s g w o i (s.setCore c { k with chainQ := k.chainQ ++ [⟨g, f.tk, t.estat.prv, op, false, []⟩] })
        (t.addOp f.tk ⟨.chain .waiting, t.pc, dst⟩) .seq
    let flow := fun (d : Option Desc) => queued .vflow (.vflow g w) (.flow slot (t.reg f.rs1).val (t.reg f.rs2) d
      (if f.rs3 = 0 then none else some (t.reg f.rs3).val) (f.x24 / 16 % 4096 + 1) (BitVec.ofNat 4 smask) acc) (smCodes smask)
    t.ticketIdle f.tk → (t.reg f.rs1).tag = .ptr →
    queued .vchain (.vchain g w) (.chain slot (t.reg f.rs1).val) [] ∧
    ((f.rs3 = 0 ∨ (t.reg f.rs3).tag = .ptr) → (∀ r ∈ smCodes smask, (t.reg r).tag ≠ .pend ∧ (acc = true → (t.reg r).tag = .smry)) →
      ((t.reg f.rs2).tag = .ptr → flow none) ∧
      (∀ d, (t.reg f.rs2).tag = .desc → s.handleDesc c t.estat.prv (t.reg f.rs2).val = some d → d.ro = false →
        flowIssueFault k slot d = none → flow (some d)))

/-- R164, R166-R168, R171, R172, R180, R188: `tdesc` mints into the thread's first free slot a handle that names it, `dinfo` reports, function 0x80
retires the slot and moves its generation on, and gathers and scatters are queued with their entry. -/
def Obligations.DescriptorIssue : Prop :=
  ∀ (s : State) (g : Nat) (w : Word) (d : Desc),
    let t := s.now g
    let f := longFields w
    let c := coreOf g
    let k := s.core c
    let tid := tidOf g
    let a := t.reg f.rs1
    let after := fun (v : TReg) => t.went (t.queueFixed [(f.rd, v, 0, 1)]) .seq
    let rows := f.x24 % 65536 + 1
    let planes := f.x24 / 65536 % 16 + 1
    let queued := fun (o : Op) (i : Instr) (ga : Bool) =>
      Leaves s g w o i (s.setCore c { k with descQ := k.descQ ++
          [⟨g, f.tk, t.estat.prv, ga, d, (t.reg f.rs2).val.toInt, (t.reg f.rs3).val, rows, planes⟩] })
        (t.addOp f.tk ⟨.desc .waiting, t.pc, []⟩) .seq
    (∀ b off slot, a.tag = .ptr → (t.reg f.rs2).tag = .int → t.isPend f.rd = false → s.bindingOf c = some b →
      off = (t.reg f.rs2).val.toNat → off % 64 = 0 → off + 128 ≤ k.press →
      slot < 64 → (k.desc (tid * 64 + slot)).live = none → (∀ i, i < slot → (k.desc (tid * 64 + i)).live.isSome = true) →
      (let r := s.readRecord c off
       let ix := s.handleDesc c t.estat.prv (r.w 15)
       let gen := (k.desc (tid * 64 + slot)).gen
       let phys := decide (t.estat.prv = 3)
       recordFault r a.val ix ((List.range 64).filter (fun i => (k.desc (tid * 64 + i)).live.isSome)).length = none →
       Issues s g w .tdesc →
       exec (.tdesc g w) s = .next ((s.setCore c (k.setDesc (tid * 64 + slot) ⟨some (r.mint a.val ix phys), gen⟩)).setThread g
         (after ⟨.desc, wordFields [(gen.toNat, 32), (b2n phys, 19), (c, 10), (tid, 6), (slot, 0)]⟩)))) ∧
    (a.tag = .desc → s.handleDesc c t.estat.prv a.val = some d →
      (t.isPend f.rd = false →
        (Issues s g w .dinfo → exec (.dinfo g w) s = .next (s.setThread g (after ⟨.int, dinfoVal d f.fn⟩))) ∧
        (Issues s g w .dinfoRetire →
          (let i := fld a.val 6 4 * 64 + fld a.val 0 6
           exec (.dinfoRetire g w) s = .next ((s.setCore c (k.setDesc i ⟨none, (k.desc i).gen + 1⟩)).setThread g (after ⟨.int, 0⟩))))) ∧
      (t.ticketIdle f.tk → (t.reg f.rs2).tag = .int → (t.reg f.rs3).tag = .ptr →
        (queueDescFault s c d (t.reg f.rs3).val.toNat rows planes false = none → queued .dgth (.dgth g w) true) ∧
        (queueDescFault s c d (t.reg f.rs3).val.toNat rows planes true = none → queued .dsct (.dsct g w) false)))

/-- R39, R240: a collective instruction copies its 64-byte record and waits for a slot of its core's queue. `await` parks where a named ticket is in
flight, and `tkpoll` writes which of the named tickets are not. -/
def Obligations.CollectiveIssueAndTickets : Prop :=
  (∀ (s : State) (g : Nat) (w : Word),
    let t := s.now g
    let f := longFields w
    let c := coreOf g
    let k := s.core c
    let va := (t.reg f.rs1).val
    let queued := fun (o : Op) (i : Instr) (op : CollOp) =>
      Leaves s g w o i (s.setCore c { k with collQ := k.collQ ++
          [⟨op, g, f.tk, k.binding.getD 0, va, t.estat.prv, s.readBytes va.toNat 64⟩] })
        (t.addOp f.tk ⟨.coll .waiting, t.pc, []⟩) .seq
    (t.reg f.rs1).tag = .ptr → t.ticketIdle f.tk → va.toNat % 64 = 0 → s.inOwnPress c va.toNat 64 = true →
    queued .cbktOpen (.cbktOpen g w) .openE ∧ queued .cbktBucket (.cbktBucket g w) .bucket ∧
    queued .cbktClose (.cbktClose g w) .close ∧ queued .cbktPublish (.cbktPublish g w) .publish ∧
    queued .pgather (.pgather g w) .gather ∧ queued .csend (.csend g w) .send ∧ queued .crecv (.crecv g w) .recv) ∧
  (∀ (s : State) (g : Nat) (w : Word),
    let t := s.now g
    let f := longFields w
    let m := BitVec.ofNat 16 f.x24
    let named := fun (i : Nat) => i < 16 ∧ (m = 0 ∨ m.getLsbD i = true)
    (∀ i, named i → (t.ticket i).fault = none) →
    ((∀ i, named i → (t.ticket i).ops = []) → Leaves s g w .await (.await g w) s t .seq) ∧
    ((∃ i, named i ∧ (t.ticket i).ops ≠ []) →
      Issues s g w .await → exec (.await g w) s = .next (s.setThread g { t with run := .park m })) ∧
    (∀ v : BitVec 16, t.isPend f.rd = false → (∀ i, i < 16 → (v.getLsbD i = true ↔ named i ∧ (t.ticket i).ops = [])) →
      Writes s g w .tkpoll (.tkpoll g w) [(f.rd, ⟨.int, v.setWidth 64⟩, 0, 1)] 0))

/-! ### The system class -/

/-- R36, R48: `rep` and `repi` begin a repetition of the next word, or skip it where the count is 0; on a resume the count is CR_LOOPCNT. An iteration of
a repeated `add` is one slot with its own effect, and the last one goes on after the word; a fault of an iteration leaves the count, the prefix's
address and RPT; a word that may not be repeated is illegal at the prefix. -/
def Obligations.Repeats : Prop :=
  (∀ (s : State) (g : Nat) (w : Word),
    let t := s.now g
    let f := longFields w
    let begins := fun (o : Op) (i : Instr) (isRepi joins : Bool) (n : Nat) =>
      (n ≠ 0 → Leaves s g w o i s { t with rep := some ⟨t.pc, w, isRepi, n, true, joins, none⟩ } (.jump (t.pc + 8))) ∧
      (n = 0 → Leaves s g w o i s { t with loopcnt := 0 } (.jump (t.pc + 16)))
    t.shadow = none →
    (t.rptResume = false →
      begins .rep (.rep g w) false false (if f.x24 = 0 then 64 else f.x24) ∧
      ((t.reg f.rs1).tag = .int → (t.reg f.rs1).val.toNat < 2 ^ 32 → begins .repi (.repi g w) true false (t.reg f.rs1).val.toNat)) ∧
    (t.rptResume = true →
      begins .rep (.rep g w) false true t.loopcnt.toNat ∧ begins .repi (.repi g w) true true t.loopcnt.toNat)) ∧
  (∀ (s : State) (g : Nat) (w : Word) (r : RepState),
    let t := s.thread g
    let u := s.now g
    let f := longFields w
    let v := u.queueFixed [(f.rd, ⟨.int, (u.reg f.rs1).val + (src2Of f u).val⟩, 0, 1)]
    t.rep = some r → s.mayRepeat g w = true → isPair w = false →
    (opOf w = .add → fieldsLegal f = true → u.isPend f.rd = false → (u.reg f.rs1).tag = .int → (src2Of f u).tag = .int →
      exec (.repeatIteration g w) s = .next (s.setThread g
        (if r.left ≤ 1 then { v with rep := none, loopcnt := 0, pc := r.addr + 16, slot := u.slot + 1 }
         else { v with rep := some { r with fresh := false, tk := none, joins := true, left := r.left - 1 },
                       loopcnt := BitVec.ofNat 32 r.left, slot := u.slot + 1 }))) ∧
    (opOf w = .add → fieldsLegal f = true → u.isPend f.rd = false → f.form = .li → (u.reg f.rs1).tag = .pred →
      ∃ u' c, exec (.repeatIteration g w) s = .next (s.setThread g u') ∧ u'.trap = some c ∧ c.cause = 0x02 ∧ c.epc = r.addr ∧
        c.rpt = true ∧ u'.loopcnt = BitVec.ofNat 32 r.left ∧ u'.rep = none) ∧
    (r.fresh = true →
      opOf w ∈ [Op.b, .bt, .bf, .call, .callr, .jr, .ret, .rep, .repi, .await, .mset, .csrw, .ecall, .brk, .eret, .tend] →
      ∃ u' c, exec (.repeatIteration g w) s = .next (s.setThread g u') ∧ u'.trap = some c ∧ c.cause = 0x01 ∧ c.epc = r.addr ∧
        c.rpt = r.joins ∧ c.etval = r.word))

/-- R43, R49, R52, R57, R103, R105, R106: the mode and the registers. `mset`, and `csrw` of CR_MODE, begin the shadow after which the new mode is in
force; a register access completes at the register's lowest level or above: `csrr` with the value its read gives, `csrw` with the write of that
register, `csrw` of TL_CFG as `tcfg`; below that level it is a privilege fault, and of a number with no register an illegal instruction; `ifence`
discards the fetch buffer. `tcfg` writes a consistent configuration: where the shape stays the tile keeps its contents, where it changes the tile
becomes EMPTY; a queued instruction that names the tile makes that change a tile busy fault, and a value that is not consistent is a tile shape fault. -/
def Obligations.ModesAndConfiguration : Prop :=
  (∀ (s : State) (g : Nat) (w : Word),
    let t := s.now g
    let f := longFields w
    let n := f.x24 % 65536
    let a := t.reg f.rs1
    let c := coreOf g
    let under := fun (x : Nat) =>
      let mask := BitVec.ofNat 8 (if x = 0 then 0xE7 else x &&& 0xE7)
      (t.mode &&& ~~~mask) ||| (BitVec.ofNat 8 a.val.toNat &&& mask)
    let shadowed := fun (m : BitVec 8) => { t with shadow := some ⟨t.mode, m, 2, false⟩ }
    (t.shadow = none → a.tag = .int → fld (under (f.x24 % 256)) 0 3 ≤ 4 →
      Leaves s g w .mset (.mset g w) s (shadowed (under (f.x24 % 256))) .seq) ∧
    Leaves s g w .ifence (.ifence g w) s { t with fetch := none } .seq ∧
    (csrInfo s.build n = none → t.isPend f.rd = false →
      Traps s g w .csrr (.csrr g w) 0x01 w ∧ Traps s g w .csrw (.csrw g w) 0x01 w) ∧
    (∀ lvl cp, csrInfo s.build n = some (lvl, cp) →
      (t.estat.prv.toNat < lvl → t.isPend f.rd = false →
        Traps s g w .csrr (.csrr g w) 0x04 (BitVec.ofNat 64 n) ∧ Traps s g w .csrw (.csrw g w) 0x04 (BitVec.ofNat 64 n)) ∧
      (lvl ≤ t.estat.prv.toNat →
        (t.isPend f.rd = false → Issues s g w .csrr →
          (let r := csrRead (s.setThread g t) (s.csrOf g) n
           exec (.csrr g w) s = .next (r.2.setThread g (t.went ((r.2.thread g).queueFixed [(f.rd, ⟨.int, r.1⟩, 0, 1)]) .seq)))) ∧
        (n = 0x0010 → t.shadow = none → a.tag = .int → fld (under 0) 0 3 ≤ 4 → Leaves s g w .csrw (.csrw g w) s (shadowed (under 0)) .seq) ∧
        (∀ k', 0x1000 ≤ n → n ≤ 0x100B → a.tag = .int → tcfgDo (s.core c) (n - 0x1000) a.val = .ok k' →
          Leaves s g w .csrw (.csrw g w) (s.setCore c k') t .seq) ∧
        (a.tag = .int ∨ (n = 0x0020 ∧ (a.tag = .ptr ∨ a.tag = .ret)) → n ≠ 0x0010 → ¬(0x1000 ≤ n ∧ n ≤ 0x100B) → Issues s g w .csrw →
          (let s' := csrWrite (s.setThread g t) (s.csrOf g) n a.tag a.val t.estat.prv.toNat
           exec (.csrw g w) s = .next (s'.setThread g (t.went (s'.thread g) .seq))))))) ∧
  (∀ (s : State) (g : Nat) (w : Word),
    let t := s.now g
    let f := longFields w
    let c := coreOf g
    let k := s.core c
    let n := f.x24
    let v := (t.reg f.rs1).val
    let cfg := BitVec.ofNat 32 v.toNat
    let k1 := { k with tcfg := FMap.set 0#32 k.tcfg n cfg }
    (t.reg f.rs1).tag = .int →
    (tcfgConsistent n v = true →
      (shapeOf n (k.cfg n) = shapeOf n cfg → Leaves s g w .tcfg (.tcfg g w) (s.setCore c k1) t .seq) ∧
      (shapeOf n (k.cfg n) ≠ shapeOf n cfg →
        ((∀ e ∈ k.tileQ, n ∉ e.op.names) →
          Leaves s g w .tcfg (.tcfg g w)
            (s.setCore c { setEmptyView (k1.setTile n Tile.empty) n true with
              vScaled := if n < 8 then k.vScaled else k.vScaled &&& ~~~(BitVec.ofNat 4 (2 ^ (n - 8))) }) t .seq) ∧
        ((∃ e ∈ k.tileQ, n ∈ e.op.names) → Traps s g w .tcfg (.tcfg g w) 0x0A (BitVec.ofNat 64 n)))) ∧
    (tcfgConsistent n v = false → Traps s g w .tcfg (.tcfg g w) 0x09 (BitVec.ofNat 64 n)))

/-- R21, R57, R59, R76, R166: calls to a higher level and `brk` are recognised as traps that have no other effect; `eret` goes to CR_EPC with the saved
level and mode, and fetches anew (log 112); `tend` retires the thread's descriptor slots and issues no more. -/
def Obligations.CallsAndReturns : Prop :=
  ∀ (s : State) (g : Nat) (w : Word),
    let t := s.now g
    let f := longFields w
    let e := t.estat
    let k := s.core (coreOf g)
    Traps s g w .ecall (.ecall g w) (if e.prv = 0 then 0x12 else 0x13) 0 ∧
    Traps s g w .brk (.brk g w) 0x14 (BitVec.ofNat 64 f.x24) ∧
    (e.prv ≠ 0 → e.sprv ≠ 2 → e.sprv.toNat ≤ e.prv.toNat → (t.epc.tag = .ptr ∨ t.epc.tag = .ret) → e.svi = true → t.shadow = none →
      Issues s g w .eret →
      ∃ u, exec (.eret g w) s = .next (s.setThread g u) ∧ u.pc = t.epc.val ∧ u.slot = t.slot + 1 ∧ u.rptResume = e.rpt ∧ u.fetch = none ∧
        u.estat.prv = e.sprv ∧ u.estat.exl = false ∧ u.estat.lnta = false ∧ u.estat.eds = false ∧ u.estat.rpt = false ∧
        u.regs = t.regs ∧ u.lnk = t.lnk ∧ u.tickets = t.tickets ∧ u.fflags = t.fflags ∧
        (e.msh = false → u.mode = t.mode ∧ u.shadow = none) ∧
        (e.msh = true → e.shcnt = 0 → u.mode = e.pmode &&& 0xE7 ∧ u.shadow = none) ∧
        (e.msh = true → e.shcnt ≠ 0 → u.mode = e.omode &&& 0xE7 ∧ u.shadow = some ⟨e.omode &&& 0xE7, e.pmode &&& 0xE7, e.shcnt.toNat, true⟩)) ∧
    (Issues s g w .tend → ∃ k', exec (.tend g w) s = .next ((s.setCore (coreOf g) k').setThread g (t.went { t with ending := true } .seq)) ∧
      (∀ i, i < 64 → (k'.desc (tidOf g * 64 + i)).live = none ∧
        (k'.desc (tidOf g * 64 + i)).gen = (k.desc (tidOf g * 64 + i)).gen + 1) ∧
      (∀ i, (i < tidOf g * 64 ∨ tidOf g * 64 + 64 ≤ i) → k'.desc i = k.desc i) ∧
      k'.tileQ = k.tileQ ∧ k'.chainQ = k.chainQ ∧ k'.descQ = k.descQ ∧ k'.collQ = k.collQ)

/-! ### Events of a thread -/

/-- R27, R36, R40, R75: a fixed-distance destination holds PEND before slot k + n and the result from it on; a commit writes the results that are due, no
other register, and nothing else of the thread. A `ret` whose `lnk` holds another tag than RET, and an `eret` whose saved state is wrong, raise the
return integrity fault 0x0F with every failed check, and do not transfer. Before an instruction has any effect, a source or destination that holds
PEND raises not ready, and only then a source whose tag is not accepted a tag fault; nothing is written. The rows are the integer operations of three
registers; a thread with no deferred fault. -/
def Obligations.ResultsAndReadiness : Prop :=
  ((∀ (t : Thread) (rd n i : Nat) (v : TReg), isRegCode rd = true → rd ≠ 0 → (∀ r ∈ t.fixed, r.dst ≠ rd) →
    let u := { t.queueFixed [(rd, v, 0, n)] with slot := t.slot + i }
    (i < n → u.commitDue.reg rd = ⟨.pend, (t.reg rd).val⟩) ∧ (n ≤ i → u.commitDue.reg rd = v)) ∧
  (∀ (s : State) (g : Nat),
    let t := s.thread g
    let due := fun (r : FixedRes) => r ∈ t.fixed ∧ r.due ≤ t.slot
    ∃ u, exec (.fixedResultCommit g) s = .next (s.setThread g u) ∧
      u.fixed = t.fixed.filter (fun r => decide (t.slot < r.due)) ∧
      (∀ r, due r → (∀ q, due q → q.dst = r.dst → q = r) →
        (isRegCode r.dst = true → r.dst ≠ 0 → u.reg r.dst = r.val) ∧
        (isVCode r.dst = true → u.vreg (r.dst - 0x40) = r.vec ∧ u.vpend.getLsbD (r.dst - 0x40) = false)) ∧
      (∀ c, (∀ q, due q → q.dst ≠ c) → u.reg c = t.reg c) ∧
      (∀ v, v < 32 → (∀ q, due q → q.dst ≠ 0x40 + v) → u.vreg v = t.vreg v ∧ u.vpend.getLsbD v = t.vpend.getLsbD v) ∧
      u = { t with regs := u.regs, lnk := u.lnk, sm := u.sm, vregs := u.vregs, vpend := u.vpend, fixed := u.fixed })) ∧
  (∀ (s : State) (g : Nat) (w : Word),
    let t := s.now g
    let e := t.estat
    let at' := fun (u : Thread) => u.pc = t.pc ∧ u.run = .run ∧ u.delay = none
    let recorded := fun (u : Thread) (v : Nat) => ∃ r, u.trap = some r ∧ r.cause = 0x0F ∧ r.etval = BitVec.ofNat 64 v ∧ r.epc = t.pc
    let bad0 := e.sprv = 2 ∨ e.prv.toNat < e.sprv.toNat
    let bad1 := t.epc.tag ≠ .ptr ∧ t.epc.tag ≠ .ret
    t.rep = none → t.delay = none →
    (t.lnk.tag ≠ .ret → t.lnk.tag ≠ .pend → Issues s g w .ret →
      ∃ u, exec (.ret g w) s = .next (s.setThread g u) ∧ at' u ∧ recorded u (8 + 256 * tagCode t.lnk.tag)) ∧
    (e.prv ≠ 0 → Issues s g w .eret → ∀ v : Nat, v ≠ 0 → v < 8 →
      (v % 2 = 1 ↔ bad0) → (v / 2 % 2 = 1 ↔ bad1) → (v / 4 = 1 ↔ e.svi = false) →
      ∃ u, exec (.eret g w) s = .next (s.setThread g u) ∧ at' u ∧ recorded u v)) ∧
  (∀ (s : State) (g : Nat) (w : Word) (o : Op),
    let t := s.now g
    let f := longFields w
    let a := t.reg f.rs1
    let b := t.reg f.rs2
    let raised := fun (cause : Nat) (v : Nat) =>
      ∃ p, exec (instrOf o g w) s = .next (s.setThread g (t.raise ⟨p, cause, BitVec.ofNat 64 v, none⟩ false true false))
    o ∈ [Op.orI, .xorI, .shl, .shr, .sra, .minI, .maxI, .mul, .mulh, .mulhu] → f.form = .lr →
    (∀ i, i < 16 → (t.ticket i).fault = none) → Issues s g w o →
    (a.tag = .pend → raised 0x03 f.rs1) ∧
    (a.tag ≠ .pend → b.tag = .pend → raised 0x03 f.rs2) ∧
    (a.tag ≠ .pend → b.tag ≠ .pend → t.isPend f.rd = true → raised 0x03 f.rd) ∧
    (a.tag ≠ .pend → b.tag ≠ .pend → t.isPend f.rd = false →
      (a.tag ≠ .int → raised 0x02 (tagCode a.tag * 256 + f.rs1)) ∧
      (a.tag = .int → b.tag ≠ .int → raised 0x02 (tagCode b.tag * 256 + f.rs2))))

/-- R21, R37, R39, R40: a ticket whose operation has ended writes its destination and is free; a failed one sets FAULT and leaves the destination PEND;
either wakes a parked thread; after `tend` the thread goes to IDLE once every ticket is free. An `await` that names tickets with deferred faults
reports the lowest: the saved cause and value, CR_TKPC the ticketed instruction, CR_EPC the `await`; the ticket is free and the destination INVAL. -/
def Obligations.TicketEndsAndFaults : Prop :=
  (∀ (s : State) (g tk : Nat) (o : TOp),
    let t := s.thread g
    let k := t.ticket tk
    let idle := t.setTicket tk ⟨[], k.fault⟩
    k.ops = [o] → tk < 16 →
    (t.repeating tk = false →
      (∀ rd v fl, o.dst = [rd] → o.kind = .calc v fl ∨ (fl = 0 ∧ ∃ a, o.kind = .acc a ∧ a.phase = .performed [v] []) →
        (t.run = .run → exec (.ticketComplete g tk) s = .next (s.setThread g ((idle.orFlags fl).setReg rd v))) ∧
        (∀ m, t.run = .park m → (∀ i, i < 16 → (m = 0 ∨ m.getLsbD i = true) → (i ≠ tk → (t.ticket i).ops = []) ∧ (t.ticket i).fault = none) →
          exec (.ticketComplete g tk) s =
            .next (s.setThread g ({ (idle.orFlags fl).setReg rd v with run := .run }.advance .seq t.shadow.isSome)))) ∧
      (o.kind ∈ [TKind.tile (.done []), .chain (.done []), .desc (.done []), .coll (.done [])] → t.run = .run →
        exec (.ticketComplete g tk) s = .next (s.setThread g idle))) ∧
    (∀ a c v rd, o.kind = .acc a → a.phase = .failed c v → o.dst = [rd] → rd ≠ 0 → t.trap = none →
      (t.run = .run ∨ ∃ m : BitVec 16, t.run = .park m ∧ (m = 0 ∨ m.getLsbD tk = true)) →
      exec (.ticketFault g tk) s =
        .next (s.setThread g { t.setTicket tk ⟨[], some ⟨c, v, o.iaddr, [rd], false⟩⟩ with run := .run })) ∧
    (∀ g', (s.thread g').ending = true → (∀ i, i < 16 → ((s.thread g').ticket i).ops = []) →
      exec (.tendComplete g') s = .next (s.setThread g' { (s.thread g').commitAll with ending := false, run := .idle }))) ∧
  (∀ (s : State) (g : Nat) (w : Word) (i : Nat) (fa : TFault),
    let t := s.now g
    let m := BitVec.ofNat 16 (longFields w).x24
    let named := fun (j : Nat) => j < 16 ∧ (m = 0 ∨ m.getLsbD j = true)
    named i → (t.ticket i).fault = some fa → (∀ j, j < i → named j → (t.ticket j).fault = none) → t.rep = none → t.delay = none →
    Issues s g w .await →
    ∃ u r, exec (.await g w) s = .next (s.setThread g u) ∧ u.trap = some r ∧ r.cause = fa.cause ∧ r.etval = fa.etval ∧
      r.deferred = true ∧ r.epc = t.pc ∧ u.tkpc = fa.iaddr ∧ (u.ticket i).fault = none ∧ (u.ticket i).ops = (t.ticket i).ops ∧
      (∀ d ∈ fa.dst, isRegCode d = true → d ≠ 0 → (∀ q ∈ t.fixed, q.dst ≠ d) → (u.reg d).tag = .inval))

/-- R48, R69, R73, R74, R77, R307: what the recognition of a trap leaves for its entry: the results committed, CR_EPC the branch for a delay slot and the
prefix for a repeated word. The interrupts a thread sees pending, which of them is taken, and that a thread takes none inside a handler's EXL, between
a branch and its delay slot, or inside a shadow or `rep`. -/
def Obligations.TrapAndInterruptRecognition : Prop :=
  (∀ (t : Thread) (c : Cond) (slotb sync byEret : Bool), c.tk = none →
    let u := t.raise c slotb sync byEret
    u.fixed = [] ∧ u.run = .run ∧ u.mode = t.mode ∧ u.estat = t.estat ∧ u.epc = t.epc ∧ u.ecause = t.ecause ∧
    (∀ q ∈ t.fixed, isRegCode q.dst = true → q.dst ≠ 0 → (∀ x ∈ t.fixed, x.dst = q.dst → x = q) →
      (∀ i fa, i < 16 → (t.ticket i).fault = some fa → q.dst ∉ fa.dst) → u.reg q.dst = q.val) ∧
    ∃ r, u.trap = some r ∧ r.cause = c.cause ∧ r.etval = c.etval ∧ r.slotb = slotb ∧ r.deferred = false ∧ u.pc = r.epc ∧
      (t.rep = none → t.delay = none → r.epc = t.pc ∧ r.eds = false) ∧
      (∀ d, t.rep = none → t.delay = some d → r.epc = d.branch ∧ r.eds = true) ∧
      (∀ q, t.rep = some q → r.epc = q.addr ∧ (q.fresh = false → r.rpt = true ∧ u.loopcnt = BitVec.ofNat 32 q.left) ∧
        (q.fresh = true → sync = true → r.rpt = q.joins ∧ u.loopcnt = t.loopcnt))) ∧
  (∀ (s : State) (g : Nat),
    let t := s.thread g
    let c := coreOf g
    let h := s.half (halfOfCore c)
    let p := s.ipend g
    let ready := fun (i : Nat) => p.getLsbD i = true ∧ t.estat.imask.getLsbD i = true ∧ (t.estat.ie = true ∨ 4 ≤ i)
    (p.getLsbD 0 = true ↔ t.tcmpEn = true ∧ t.tcmp.toNat ≤ h.time.toNat % 2 ^ 63) ∧
    (p.getLsbD 1 = true ↔ s.isIrqThread g = true ∧ (s.core c).dbstat ≠ 0) ∧
    (p.getLsbD 2 = true ↔ t.cirq = true) ∧
    (p.getLsbD 3 = true ↔ s.isIrqThread g = true ∧ ∃ b, s.bindingOf c = some b ∧ (s.binding b).bcnPend = true) ∧
    (p.getLsbD 4 = true ↔ s.isIrqThread g = true ∧ h.event ≠ 0) ∧
    (p.getLsbD 5 = true ↔ s.isIrqThread g = true ∧ h.pwEvent ≠ 0) ∧
    (∀ i, i < 6 → ready i → (∀ j, i < j → j < 6 → ¬ ready j) → t.estat.exl = false → t.run ≠ .idle → t.trap = none → t.ending = false →
      t.delay = none → t.shadow = none → (∀ r, t.rep = some r → r.isRepi = true) → (s.core c).suspended = false →
      exec (.interruptTaken g) s = .next (s.setThread g (t.raise ⟨0, 0x20 + i, 0, none⟩ false false false))) ∧
    (t.estat.exl = true ∨ t.delay.isSome = true ∨ t.shadow.isSome = true ∨ (∃ r, t.rep = some r ∧ r.isRepi = false) ∨ (∀ i, i < 6 → ¬ ready i) →
      exec (.interruptTaken g) s = .next s) ∧
    (t.tcmpEn = true → h.time.toNat % 2 ^ 63 < t.tcmp.toNat → h.stage ≠ .off →
      ∃ s', exec (.timerCompare g) s = .next s' ∧ (s'.half (halfOfCore c)).time.toNat % 2 ^ 63 = t.tcmp.toNat ∧
        (s'.ipend g).getLsbD 0 = true ∧ s' = { s with half0 := s'.half0, half1 := s'.half1 }))

/-- R56, R63-R65, R67-R69, R78: entry by the address table from S and from U with its stack slot, and by the descriptor table at M: the handler, the
registers the entry writes, and the pushed `s30`. -/
def Obligations.TrapEntry : Prop :=
  ∀ (s : State) (g : Nat) (r : Trap),
    let t := s.thread g
    let c := coreOf g
    let e := t.estat
    let entered := fun (u : Thread) (level : BitVec 2) (pc : Word) =>
      { u with
        epc := ⟨.ptr, maskBits r.epc 3 47⟩, ecause := ⟨0, 0, false, r.deferred, BitVec.ofNat 6 r.cause⟩, etval := r.etval
        estat := { e with rpt := r.rpt, eds := r.eds, slotb := r.slotb, msh := false, nst := false, svi := true, exl := true,
                          sprv := e.prv, prv := level }
        trap := none, pc := pc, fetch := none }
    t.trap = some r → t.regTickets = false → (s.core c).suspended = false → t.shadow = none → e.exl = false →
    (∀ base, r.cause ≠ 0x0F → r.cause ≠ 0x10 → r.cause ≠ 0x13 → r.cause ≠ 0x24 → r.cause ≠ 0x25 →
      s.tableBase c = some base → s.poisoned (base + 8 * r.cause) 8 = false → s.poisoned (base + 512 + 8 * tidOf g) 8 = false → s.tagAt (base + 8 * r.cause) = 2 →
      (s.readWord (base + 8 * r.cause)).toNat % 8 = 0 →
      (e.prv = 1 → exec (.trapEntry g .ok) s = .next (s.setThread g (entered t 1 (s.readWord (base + 8 * r.cause))))) ∧
      (∀ a, e.prv = 0 → s.tagAt (base + 512 + 8 * tidOf g) = 2 →
        (let sp := s.readWord (base + 512 + 8 * tidOf g) - 16
         sp.toNat % 16 = 0 → inCtlRange sp.toNat = false → s.linkWait c a = false → s.xlatQuick (s.bindingOf c) (s.core c).tcache 1 .wr sp = .pa a → isPress a = true →
         (∃ c' off, physKind s a = .press c' off) →
         exec (.trapEntry g .ok) s =
           .next (((s.writeNat c a 8 (t.reg 30).val.toNat).setTags a 8 (BitVec.ofNat 4 (tagCode (t.reg 30).tag))).setThread g
             (entered (t.setReg 30 ⟨.ptr, sp⟩) 1 (s.readWord (base + 8 * r.cause))))))) ∧
    (let a := (s.core c).mtvdesc.toNat * 2 ^ 11 + 32 * r.cause
     e.prv = 3 → s.isHbm a = true → s.linkWait c a = false → s.poisoned a 32 = false → s.readNat (a + 8) 8 = 2 → (s.readWord a).toNat % 8 = 0 →
     (∃ k, 8 ≤ k ∧ k ≤ 20 ∧ s.readWord (a + 24) = BitVec.ofNat 64 (k * 256 + 3)) →
     exec (.trapEntry g .ok) s = .next (s.setThread g (entered t 3 (s.readWord a))))

/-- R70-R72: what stands in the way of an entry: a handler of another tag enters the lantern, where CAUSE says why, OCAUSE what was to be entered, and
`s30` is pushed on the lantern stack; with LNTA already set the thread stops for good. -/
def Obligations.Lantern : Prop :=
  ∀ (s : State) (g : Nat) (r : Trap),
    let t := s.thread g
    let c := coreOf g
    let e := t.estat
    let base := (s.core c).mtvdesc.toNat * 2 ^ 11
    let a := base + 32 * r.cause
    let sp := BitVec.ofNat 64 ((s.core c).lanternSp.toNat * 16) - BitVec.ofNat 64 (tidOf g * 4096 + 16)
    t.trap = some r → t.regTickets = false → (s.core c).suspended = false → e.prv = 3 →
    s.isHbm a = true → s.linkWait c a = false → s.poisoned a 32 = false → s.readNat (a + 8) 8 ≠ 2 →
    (e.lnta = false → s.isHbm base = true → s.linkWait c base = false → s.poisoned base 32 = false → s.readNat (base + 8) 8 = 2 → (s.readWord base).toNat % 8 = 0 →
      s.isHbm sp.toNat = true → s.linkWait c sp.toNat = false →
      ∃ u, exec (.trapEntry g .ok) s = .next ((s.writeNat c sp.toNat 16 ((t.reg 30).val.toNat + 2 ^ 64 * tagCode (t.reg 30).tag)).setThread g u) ∧
        u.pc = s.readWord base ∧ u.reg 30 = ⟨.ptr, sp⟩ ∧ u.epc = ⟨.ptr, maskBits r.epc 3 47⟩ ∧ u.estat.prv = 3 ∧ u.estat.sprv = e.prv ∧
        u.estat.exl = true ∧ u.estat.lnta = true ∧ u.ecause = ⟨2, BitVec.ofNat 6 r.cause, true, false, 0x02⟩ ∧
        u.etval = BitVec.ofNat 64 a ∧ u.trap = none) ∧
    (e.lnta = true → t.launch = none →
      exec (.trapEntry g .ok) s =
        .next ((s.setThread g { t with run := .idle, trap := none, tickets := [], shadow := none, stopped := true }).recordFault (unitId 0 c) 0x01))

/-! ### Memory -/

/-- R212: one table read of a walk: an entry that names a table carries the walk on, a leaf fills the cache and lets the access go where its permissions
allow and its page is HBM; any other entry, or a leaf that does not let a load or a store go, ends it with its page fault. -/
def Obligations.TableWalk : Prop :=
  ∀ (s : State) (g tk level table : Nat) (o : TOp) (a : Access),
    let t := s.thread g
    let c := coreOf g
    let va := a.va.toNat
    let ea := table + 8 * (va / 2 ^ (12 + 9 * level) % 512)
    let e := s.readWord ea
    let ppn := fld e 12 32 * 4096
    let size := 2 ^ (12 + 9 * level)
    let zero := fld e 44 18 = 0 ∧ fld e 6 6 = 0 ∧ fld e 0 2 = 0
    let isTable := bitAt e 63 = true ∧ bitAt e 62 = false ∧ zero ∧ level ≠ 0
    let isLeaf := bitAt e 63 = true ∧ bitAt e 62 = true ∧ zero ∧ level ≠ 3 ∧ ppn % size = 0
    let leaf : Leaf := ⟨va / size * size, size, ppn, BitVec.ofNat 4 (fld e 2 4)⟩
    let filled := s.setCore c { s.core c with tcache := (leaf :: (s.core c).tcache.filter (· ≠ leaf)).take 1024 }
    let put := fun (s' : State) (p : XPhase) =>
      exec (.translationWalkRead g tk .ok) s = .next (s'.setThread g (t.setTicket tk ⟨[{ o with kind := .acc { a with phase := p } }], (t.ticket tk).fault⟩))
    let needs := (a.prv ≠ 0 ∨ bitAt e 5 = true) ∧ (a.op.isLoad = true → bitAt e 2 = true) ∧ (a.op.isStore = true → bitAt e 3 = true)
    let may := needs ∧ s.isHbm (ppn + va % size) = true
    (t.ticket tk).ops = [o] → o.kind = .acc a → a.phase = .walk level table → s.linkWait c ea = false → s.poisoned ea 8 = false →
    (isTable → put s (.walk (level - 1) ppn)) ∧
    (isLeaf → may → put filled (.ready (ppn + va % size))) ∧
    (isLeaf → ¬ may → (a.op.isLoad = true → a.op.isStore = false → put filled (.failed 0x06 a.va)) ∧
      (a.op.isLoad = false → a.op.isStore = true → put filled (.failed 0x07 a.va))) ∧
    (¬ isTable → ¬ isLeaf → put s (.failed (if a.op.isLoad then 0x06 else 0x07) a.va))

/-- R30, R215, R216, R217, R222, R223, R232: a translated access to HBM or the press is performed: a load returns the bytes at its address, little-endian,
a store writes its bytes and makes press tags INT, an `amo` does both, `ldt` and `stt` carry the tag. A poisoned line is an unrecoverable error. The
byte order is the model's choice (log 10). What a write of bytes does, by address: those bytes and no other; the tags of the press words it touches;
no other core's copy of a line it touches is left; a line it touches is dirty in the L2; poison goes only from lines it covers whole; nothing else
changes. The ten operations of `amo` on a 4-byte or 8-byte word. -/
def Obligations.AccessesPerformed : Prop :=
  (∀ (s : State) (g tk pa : Nat) (o : TOp) (a : Access),
    let t := s.thread g
    let c := coreOf g
    let mem := s.isHbm pa = true ∨ (∃ c' off, physKind s pa = .press c' off)
    let put := fun (s' : State) (p : XPhase) =>
      exec (.memAccessPerformed g tk .ok) s = .next (s'.setThread g (t.setTicket tk ⟨[{ o with kind := .acc { a with phase := p } }], (t.ticket tk).fault⟩))
    (t.ticket tk).ops = [o] → o.kind = .acc a → a.phase = .ready pa → s.blocked c t a pa = false → s.linkHolds c a pa = none → mem →
    (∀ n sg tag, a.op = .load n sg tag → s.poisoned pa n = false → (isPress pa = true → s.tagAt pa ≠ 3 ∧ s.tagAt pa ≠ 6) →
      put (s.cached c true pa n) (.performed [⟨tag, extend n sg (s.readNat pa n)⟩] [])) ∧
    (∀ n sg tag, a.op = .load n sg tag → s.poisoned pa n = true → (pa + n - 1) / 128 = pa / 128 →
      exec (.memAccessPerformed g tk .ok) s = .next (((s.recordFault (unitOfPa s pa) 0x01)).setThread g
        (t.setTicket tk ⟨[{ o with kind := .acc { a with phase := .failed 0x10 (BitVec.ofNat 64 (pa / 4 * 4)) } }], (t.ticket tk).fault⟩))) ∧
    (∀ n v, a.op = .store n v → put (s.writeBytes c pa (leBytes n v.toNat)) (.performed [] [])) ∧
    (∀ n op sg v cmp, a.op = .amo n op sg v cmp → s.poisoned pa n = false →
      put (s.writeBytes c pa (leBytes n (amoVal op n (s.readNat pa n) v.toNat cmp.toNat))) (.performed [⟨.int, extend n sg (s.readNat pa n)⟩] [])) ∧
    (isPress pa = true → s.poisoned pa 8 = false → ∀ tag, tagOfCode (s.tagAt pa).toNat = some tag → a.op = .loadT →
      put s (.performed [⟨tag, s.readWord pa⟩] [])) ∧
    (isPress pa = true → ∀ v, a.op = .storeT v →
      put ((s.writeBytes c pa (leBytes 8 v.val.toNat)).setTags pa 8 (BitVec.ofNat 4 (tagCode v.tag))) (.performed [] []))) ∧
  (∀ (s : State) (c a : Nat) (l : List Byte),
    let u := s.writeBytes c a l
    (∀ x, u.byte x = if h : a ≤ x ∧ x < a + l.length then l[x - a] else s.byte x) ∧
    u.readBytes a l.length = l ∧
    (∀ x, isPress a = true → u.tagAt x = if l ≠ [] ∧ a / 8 ≤ x / 8 ∧ x / 8 ≤ (a + l.length - 1) / 8 then 0 else s.tagAt x) ∧
    (isPress a = false → u.tags = s.tags) ∧
    (∀ x, x ∈ u.poison ↔ x ∈ s.poison ∧ ¬ (a ≤ x * 128 ∧ x * 128 + 128 ≤ a + l.length)) ∧
    (∀ d x, x ∈ (u.core d).l1 ↔ x ∈ (s.core d).l1 ∧ (d = c ∨ l = [] ∨ x < a / 128 ∨ (a + l.length - 1) / 128 < x)) ∧
    (∀ d, { u.core d with l1 := (s.core d).l1 } = s.core d) ∧
    (l ≠ [] → (a + l.length - 1) / 128 = a / 128 → s.isHbm (a / 128 * 128) = true → u.dirtyAt a = true) ∧
    u = { s with mem := u.mem, tags := u.tags, poison := u.poison, cores := u.cores, l2 := u.l2 }) ∧
  (∀ (n old : Nat) (v cmp : Word), n = 4 ∨ n = 8 → old < 2 ^ (8 * n) →
    let m := 2 ^ (8 * n)
    let x := v.toNat % m
    let sg := fun (k : Nat) => sextNat k (8 * n)
    let f := fun (op : Nat) => amoVal op n old v.toNat cmp.toNat
    f 0 = (old + x) % m ∧ f 1 = x ∧ f 2 = (if old = cmp.toNat % m then x else old) ∧
    f 3 = old &&& x ∧ f 4 = old ||| x ∧ f 5 = old ^^^ x ∧
    (sg (f 6) = max (sg old) (sg x) ∧ sg (f 7) = min (sg old) (sg x)) ∧ f 8 = max old x ∧ f 9 = min old x)

/-- R214, R215, R226, R228, R229, R230, R231, R232, R233, R236, R297: a line that the core has requested is filled into its set of the L1, and no other
line is; a mesh flit replayed three times and then lost; a cross-half access that waited 1 ms ends with cause 0x10 and a permanent fault of the half
link. What a read of a stack counts and poisons, when a lane is marked for repair, and what a refresh touches. -/
def Obligations.CachesTransportAndHbm : Prop :=
  (∀ (s : State) (g tk : Nat),
    let t := s.thread g
    let c := coreOf g
    let k := s.core c
    (∀ line, k.requested line = false → exec (.l1LineFill c line .ok) s = .next s) ∧
    (∀ line, k.requested line = true →
      ((k.l1.filter (fun l => l ≠ line ∧ l % 64 = line % 64)).length < 8 →
        exec (.l1LineFill c line .ok) s = .next (s.setCore c { k with
          l1 := line :: k.l1.filter (· ≠ line), reqs := k.reqs.filter (fun e => decide (e.1 ≠ line)) })) ∧
      (∃ l1, exec (.l1LineFill c line .ok) s = .next (s.setCore c { k with l1 := l1, reqs := k.reqs.filter (fun e => decide (e.1 ≠ line)) }) ∧ line ∈ l1 ∧ (∀ x ∈ l1, x = line ∨ x ∈ k.l1) ∧
        (∀ x ∈ k.l1, x % 64 ≠ line % 64 → x ∈ l1) ∧
        (k.l1.Nodup → (k.l1.filter (fun l => l % 64 = line % 64)).length ≤ 8 → (l1.filter (fun l => l % 64 = line % 64)).length ≤ 8))) ∧
    exec (.meshFlitReceive g tk true) s = .next (s.setCore c { k with meshTries := 0 }) ∧
    (k.meshTries < 3 →
      exec (.meshFlitReceive g tk false) s = .next (s.setCore c { k with meshTries := k.meshTries + 1, parcnt := satAdd k.parcnt 1 })) ∧
    (∀ o a pa, (t.ticket tk).ops = [o] → o.kind = .acc a → a.phase = .ready pa →
      (let lost := t.setTicket tk ⟨[{ o with kind := .acc { a with phase := .failed 0x10 (BitVec.ofNat 64 pa) } }], (t.ticket tk).fault⟩
       (3 ≤ k.meshTries → exec (.meshFlitReceive g tk false) s =
          .next (((s.setCore c { k with meshTries := 0 }).setThread g lost).recordFault (unitId 6 (dieOfCore c)) 0x01)) ∧
       (homeHalf s pa ≠ halfOfCore c → (s.half (halfOfCore c)).link ≠ .up → exec (.crossHalfAccessTimeout g tk) s =
          .next ((s.setThread g lost).recordFault 0x3000 0x01))))) ∧
  (∀ (s : State) (n line : Nat),
    let h := halfOfStack n
    let x := (s.half h).hbm n
    let put := fun (s' : State) (y : Stack) => Host.Outcome.next (s'.setHalf h ((s'.half h).setHbm n y))
    let own := s.isHbm (line * 128) = true ∧ stackOfGranule (line * 128 / 2 ^ 30) = n
    stackPresent s.build n = true →
    exec (.hbmReadReturn n line .clean none) s = put s x ∧
    exec (.hbmReadReturn n line .corrected none) s = put s { x with ce := satAdd x.ce 1 } ∧
    (own → line ∉ s.poison → exec (.hbmReadReturn n line .uncorrectable none) s = put { s with poison := line :: s.poison } { x with ue := satAdd x.ue 1 }) ∧
    (own → line ∈ s.poison → exec (.hbmReadReturn n line .uncorrectable none) s = put s { x with ue := satAdd x.ue 1 }) ∧
    (∀ l, l ∉ x.marked → (∀ t ∈ FMap.get [] x.lanes l, (s.half h).time.toNat < t + 25000000) →
      (FMap.get [] x.lanes l).length = 15 →
      ∃ y, exec (.hbmReadReturn n line .clean (some l)) s = .next ((s.setHalf h ((s.half h).setHbm n y)).recordFaultAt (unitId 1 n) 0x01 (some l)) ∧
        y.marked = x.marked ++ [l] ∧ y.state = 2 ∧ y = { x with lanes := y.lanes, marked := y.marked, state := y.state }) ∧
    (∀ bank, ∃ y, exec (.hbmRefresh n bank) s = put s y ∧ y.bank = bank ∧ y = { x with bank := y.bank, recentred := y.recentred }))

/-! ### Engines of a core -/

/-- R86, R108, R109, R110, R114, R118, R119, R120, R121, R123, R125, R140: the tile queue's head begins and completes: what it leaves in its tile or bank,
its ticket ended, the queue moved on; a row that fails ends a store with nothing moved; the datapath takes the oldest operation. A completion is
stated where nothing behind it has begun and no agent has written memory since it began. A pass adds to each lane of its accumulator the products of
its A row and bank column: exactly, modulo 2^32, in INT32 mode, and one rounded addition per product in ascending k in FP32 mode. -/
def Obligations.TileQueueAndPasses : Prop :=
  (∀ (s : State) (c : Nat) (e : TileEntry) (rest : List TileEntry) (ia : Word),
    let k := s.core c
    let t := s.thread e.g
    let begins := fun (k' : Core) => exec (.tileQueueExecute c .ok) s = .next (s.setCore c { k' with tileQ := { e with begun := true, seen := s.mem } :: rest })
    let ended := fun (p : EngPhase) => t.setTicket e.tk ⟨[⟨.tile p, ia, []⟩], (t.ticket e.tk).fault⟩
    let ends := fun (k' : Core) =>
      exec (.tileInstructionComplete c) s = .next ((s.setCore c { k' with tileQ := rest }).setThread e.g (ended (.done [])))
    k.tileQ = e :: rest → k.suspended = false → (t.ticket e.tk).ops = [⟨.tile .waiting, ia, []⟩] →
    (e.begun = false →
      (∀ a n f z cfg sh, e.op = .shift a n f z cfg sh → begins k) ∧ (∀ n cfg, e.op = .zero n cfg none → begins k) ∧
      (∀ m, e.op = .rel m → begins k) ∧ (e.op = .wait → begins k) ∧
      (∀ n a b fl z S cfg acfg sh, e.op = .mma n a b fl z S cfg acfg sh → begins (if fl then { k with act := !k.act } else k)) ∧
      (∀ n cfg d l0 v, e.op = .store n cfg d l0 → tileCheck s c e = .error (.code 0x0B v) →
        (let s' := (s.setCore c { k with tileQ := rest }).setThread e.g (ended (.failed 0x0B v))
         exec (.tileQueueExecute c .ok) s = .next (s'.setCore c (s'.core c).syncView)))) ∧
    (e.begun = true → (∀ x ∈ rest, x.begun = false) → e.seen = s.mem →
      (∀ n cfg, e.op = .zero n cfg none → (8 ≤ n ∨ cfgScl cfg = false) → ends (k.setTile n ⟨true, [], [], [], none⟩)) ∧ (e.op = .wait → ends k) ∧
      (∀ m, e.op = .rel m → ∃ k', ends k' ∧ (∀ n, n < 12 → k'.tile n = if m.getLsbD n then Tile.empty else k.tile n) ∧
        (∀ n, n < 2 → k'.bank n = if m.getLsbD (12 + n) then Bank.empty else k.bank n) ∧ k' = { k with tiles := k'.tiles, banks := k'.banks }) ∧
      (∀ n a b fl z S cfg acfg, e.op = .mma n a b fl z S cfg acfg (k.bank b).shape → (k.bank b).hold = true → (k.tile n).hold = true →
        (z = true ∨ (k.tile (8 + a)).hold = true) → (acfgMode acfg = 2 → (k.tile (8 + a)).scale.isSome = true) →
        (let p := passTile (k.bank b) (k.tile n) (k.tile (8 + a)) s.free cfg acfg z S
         ends { k.setTile (8 + a) p.1 with sxovf := k.sxovf || p.2 })) ∧
      (∀ n col cfg d l0 tl els, e.op = .load n col cfg d l0 → loadTile s e c n col cfg d l0 (k.tile n) = .ok (tl, els) →
        ends ((k.setTile n tl).countOob false (oobCount els)))) ∧
    (∀ n q, k.vecQ = n :: q → exec (.vectorOpStart c) s = .next (s.setCore c { k with vecQ := q }))) ∧
  (∀ (b : Bank) (t acc : Tile) (fr S i j : Nat) (cfg acfg : BitVec 32) (z : Bool),
    let lane := FMap.get 0#98 (passTile b t acc fr cfg acfg z S).1.lanes (i * 128 + j)
    let old := if z then 0 else fld (FMap.get 0#98 acc.lanes (i * 128 + j)) 0 32
    b.hold = true → t.hold = true → (z = true ∨ acc.hold = true) → i < cfgRows cfg → j < b.n → b.n ≤ 128 →
    (b.fmt = 1 → cfgFmt cfg = 1 → acfgMode acfg = 1 → b.k ≤ cfgRbytes cfg →
      lane = BitVec.ofNat 98 (((old : Int) + sumInt ((List.range b.k).map (fun k =>
        sextNat (FMap.get 0#8 t.bytes (i * 256 + k)).toNat 8 * sextNat (FMap.get 0#64 b.cells (k * 128 + j)).toNat 8))) % 2 ^ 32).toNat) ∧
    (b.fmt = 6 → cfgFmt cfg = 6 → acfgMode acfg = 0 → 4 * b.k ≤ cfgRbytes cfg →
      lane = BitVec.ofNat 98 ((List.range b.k).foldl (fun v k =>
        (binary32.enc .rne false ((binary32.dec v).add .rne
          ((binary32.dec (leNat ((List.range 4).map (fun q => FMap.get 0#8 t.bytes (i * 256 + (k * 4 + q)))))).mul
            (binary32.dec (FMap.get 0#64 b.cells (k * 128 + j)).toNat)).1).1).code) old)))

/-- R150-R153, R159, R161: the chain queue's head begins; a `vchain` fills its slot with the chain that a descriptor states, or empties it with a chain
configuration fault where the descriptor lies wrong; a `vflow` of an empty slot ends with that fault and nothing written, and one whose plan meets its
checks writes the plan's rows and gives the summaries it names. Its completion is stated where no agent has written memory since it began. -/
def Obligations.ChainQueue : Prop :=
  ∀ (s : State) (c : Nat) (e : ChainEntry) (rest : List ChainEntry) (ia : Word) (dst : List Nat),
    let k := s.core c
    let t := s.thread e.g
    let begins := exec (.chainQueueExecute c .ok) s = .next (s.setCore c { k with chainQ := { e with begun := true, seen := s.mem } :: rest })
    let ended := fun (p : EngPhase) => t.setTicket e.tk ⟨[⟨.chain p, ia, dst⟩], (t.ticket e.tk).fault⟩
    let left := fun (slot : Nat) (v : ChainSlot) => { k with slots := FMap.set ChainSlot.empty k.slots slot v, chainQ := rest }
    k.chainQ = e :: rest → k.suspended = false → (t.ticket e.tk).ops = [⟨.chain .waiting, ia, dst⟩] →
    (∀ n a, e.op = .chain n a →
      (e.begun = false → begins) ∧
      (e.begun = true →
        (a.toNat % 256 ≠ 0 ∨ s.inOwnPress c a.toNat 256 = false →
          exec (.vchainComplete c) s =
            .next ((s.setCore c (left n ChainSlot.empty)).setThread e.g (ended (.failed 0x0E (wordFields [(1, 0), (0xFF, 8), (n, 16)]))))) ∧
        (∀ slot, validateChain s c a = .ok slot → slot.valid = true ∧ slot.hdr = s.readWord a.toNat ∧
          slot.stages.length = fld slot.hdr 0 3 ∧ 1 ≤ slot.stages.length ∧ slot.stages.length ≤ 6 ∧
          1 ≤ fld slot.hdr 32 13 ∧ fld slot.hdr 32 13 ≤ 4096 ∧
          exec (.vchainComplete c) s = .next ((s.setCore c (left n slot)).setThread e.g (ended (.done [])))))) ∧
    (∀ n src dr d aux rows sm acc, e.op = .flow n src dr d aux rows sm acc →
      (e.begun = false →
        (FMap.get ChainSlot.empty k.slots n).valid = false →
        exec (.chainQueueExecute c .ok) s =
          .next ((s.setCore c { k with chainQ := rest }).setThread e.g (ended (.failed 0x0E (wordFields [(9, 0), (0xFF, 8), (n, 16)]))))) ∧
      (∀ p, flowPlan s s c e n src dr d aux rows sm = .ok p →
        (e.begun = false → begins) ∧
        (e.begun = true → e.seen = s.mem → p.desc = none → (∀ w ∈ p.rows, w.notes = []) →
          ∃ vals, vals.length = ((List.range 4).filter (fun i => sm.getLsbD i)).length ∧ (∀ v ∈ vals, v.tag = .smry) ∧
            (acc = false → vals = ((List.range 4).filter (fun i => sm.getLsbD i)).map (fun i =>
              ⟨.smry, BitVec.ofNat 64 ((summaries (hdrWf64 (FMap.get ChainSlot.empty k.slots n).hdr) p.rows).getD i 0)⟩)) ∧
            (let s1 := p.press.foldl (fun s w => s.writeBytes c w.1 w.2) s
             exec (.vflowComplete c) s =
              .next ((s1.setCore c { (s1.core c).countOob true p.oob with chainQ := rest }).setThread e.g (ended (.done vals)))))))

/-- R180, R181, R189: the descriptor queue's head reads all it moves before it writes; a gather fills its press buffer and no other byte, a scatter makes
the writes of its plan, and a failed one writes nothing. -/
def Obligations.GathersAndScatters : Prop :=
  ∀ (s : State) (c : Nat) (e : DescEntry) (rest : List DescEntry) (ia : Word),
    let k := s.core c
    let t := s.thread e.g
    let ended := fun (p : EngPhase) => t.setTicket e.tk ⟨[⟨.desc p, ia, []⟩], (t.ticket e.tk).fault⟩
    k.descQ = e :: rest → k.suspended = false → (t.ticket e.tk).ops = [⟨.desc .waiting, ia, []⟩] →
    (e.gather = true →
      (∀ bytes oob vas, gatherData s c e = .ok (bytes, oob, vas) →
        ∃ s', exec (.descriptorQueueExecute c .ok) s = .next s' ∧
          (∀ x, s'.byte x = if h : e.buf.toNat ≤ x ∧ x < e.buf.toNat + bytes.length then bytes[x - e.buf.toNat] else s.byte x) ∧
          s'.thread e.g = ended (.done []) ∧ (s'.core c).descQ = rest ∧ (s'.core c).oobRd = satAdd k.oobRd oob ∧ (s'.core c).oobWr = k.oobWr) ∧
      (∀ v, gatherData s c e = .error (.code 0x0C v) →
        exec (.descriptorQueueExecute c .ok) s = .next ((s.setCore c { k with descQ := rest }).setThread e.g (ended (.failed 0x0C v)))) ∧
      (∀ va, gatherData s c e = .error (.xlat va) →
        exec (.descriptorQueueExecute c .ok) s = .next ((s.setCore c { k with descQ := rest }).setThread e.g (ended (.failed 0x06 va))))) ∧
    (e.gather = false →
      (∀ ws sc oob, scatterPlan s c e = .ok (ws, sc, oob) →
        ∃ s', exec (.descriptorQueueExecute c .ok) s = .next s' ∧
          s'.mem = ((s.doWrites c e.d ws).doWrites c { e.d with colr := 0 } sc).mem ∧
          s'.thread e.g = ended (.done []) ∧ (s'.core c).descQ = rest ∧ (s'.core c).oobWr = satAdd k.oobWr oob ∧ (s'.core c).oobRd = k.oobRd) ∧
      (∀ va, scatterPlan s c e = .error (.xlat va) →
        exec (.descriptorQueueExecute c .ok) s = .next ((s.setCore c { k with descQ := rest }).setThread e.g (ended (.failed 0x07 va)))))

/-! ### The fabric -/

/-- R266, R268-R270, R304, R338: a port's flits. A bad one is answered with a NAK at once and its replay counts against its lane, the sixteenth within a
second failing lane and port; one out of order is answered with a NAK, or dropped while a replay is awaited; the next in order is taken with what it
acknowledges and returns, a NAK has the unacknowledged flits sent again, and one after eight such replays makes the port retrain. A retrain sends
again what was not acknowledged and raises the link epoch. A rotation moves the role of the next active lane to the spare and says so in a LINK
packet. A tap moves one step. -/
def Obligations.FlitProtocol : Prop :=
  ∀ (s : State) (p : Nat) (f : Flit),
    let x := s.port p
    let put := fun (y : Port) => Host.Outcome.next (s.setPort p y)
    let nak := fun (y : Port) => ∃ g : Flit, g.nak = true ∧ g.seq = x.txSeq ∧ g.ack = x.rxSeq - 1 ∧
      y.wire = x.wire ++ [g] ∧ y.replayBuf = x.replayBuf ++ [g] ∧ y.awaiting = true ∧
      y = { x with laneErr := y.laneErr, wire := y.wire, replayBuf := y.replayBuf, txSeq := x.txSeq + 1, nakDue := false, awaiting := true,
                   owed := y.owed }
    p < 24 → x.trained = true → x.retraining = false → x.outQ = [] →
    (f.crcOk = false → (x.awaiting = false ∨ f.seq = x.rxSeq) → (FMap.get [] x.laneErr f.lane).length < 15 →
      ∃ y, exec (.fabricFlitReceive p f) s = put y ∧ nak y ∧
        (∀ l, l ≠ f.lane → FMap.get [] y.laneErr l = FMap.get [] x.laneErr l)) ∧
    (f.crcOk = false → x.awaiting = true → f.seq ≠ x.rxSeq → exec (.fabricFlitReceive p f) s = .next s) ∧
    (f.crcOk = false → (x.awaiting = false ∨ f.seq = x.rxSeq) → (FMap.get [] x.laneErr f.lane).length = 15 → f.lane < 5 →
      (∀ t ∈ FMap.get [] x.laneErr f.lane, (s.half (p / 12)).time.toNat < t + 25000000) →
      ∃ s', exec (.fabricFlitReceive p f) s = .next s' ∧ (s'.port p).state = .failed ∧ (s'.port p).lfail = satAdd x.lfail 1 ∧
        (s'.port p).lmask.getLsbD f.lane = false) ∧
    (f.crcOk = true → f.seq ≠ x.rxSeq →
      (x.awaiting = true → exec (.fabricFlitReceive p f) s = .next s) ∧
      (x.awaiting = false → ∃ y, exec (.fabricFlitReceive p f) s = put y ∧ nak y ∧ y.laneErr = x.laneErr)) ∧
    (f.crcOk = true → f.seq = x.rxSeq → x.state = .up → (∀ q ∈ (x.arrive f).1, q.ptype ≠ .reserved) →
      ∃ y buf sent, exec (.fabricFlitReceive p f) s = put y ∧ y.rxSeq = x.rxSeq + 1 ∧ y.awaiting = false ∧
        y.rxQ = x.rxQ ++ (x.arrive f).1 ∧ y.rxBytes = (x.arrive f).2 ∧
        (∀ a q b, x.replayBuf = a ++ q :: b → q.seq = f.ack → (∀ r ∈ a, r.seq ≠ f.ack) → buf = b) ∧
        ((∀ r ∈ x.replayBuf, r.seq ≠ f.ack) → buf = x.replayBuf) ∧
        y.replayBuf = buf ++ sent ∧
        (sent = [] ∨ ∃ g : Flit, sent = [g] ∧ g.seq = x.txSeq ∧ g.ack = x.rxSeq ∧ g.content = List.replicate 240 0) ∧
        ((x.arrive f).1 ≠ [] → y.retraining = false → sent ≠ []) ∧
        FMap.get 0 y.credits f.cvc.toNat = FMap.get 0 x.credits f.cvc.toNat + f.cret.toNat ∧
        (f.nak = false → y.replay = x.replay ∧ y.retraining = false ∧ y.wire = x.wire ++ sent) ∧
        (f.nak = true → buf ≠ [] → (x.tries < 8 ∨ buf.length < x.replayBuf.length) →
          y.replay = satAdd x.replay 1 ∧ y.retraining = false ∧ y.wire = x.wire ++ buf ++ sent) ∧
        (f.nak = true → buf = x.replayBuf → buf ≠ [] → 8 ≤ x.tries → y.retraining = true ∧ y.replay = x.replay) ∧
        y = { x with rxSeq := y.rxSeq, awaiting := y.awaiting, rxQ := y.rxQ, rxBytes := y.rxBytes, replayBuf := y.replayBuf,
                     tries := y.tries, credits := y.credits, replay := y.replay, retraining := y.retraining, wire := y.wire,
                     txSeq := y.txSeq, nakDue := y.nakDue, owed := y.owed }) ∧
    (∀ l, x.spare.toNat ≤ 4 → x.nextLane = l → l < 5 → x.lmask.getLsbD l = true → x.spare.toNat ≠ l →
      (∃ y k, exec (.spareLaneRotation p true) s = .next ((s.setPort p y).output p k) ∧
        k.ptype = .link ∧ k.body = .rotate l (x.txSeq + 1) ∧ k.crcOk = true ∧
        y.lmask.getLsbD l = false ∧ y.lmask.getLsbD x.spare.toNat = true ∧
        (∀ i, i ≠ l → i ≠ x.spare.toNat → y.lmask.getLsbD i = x.lmask.getLsbD i) ∧ y.spare.toNat = l ∧ FMap.get 0 y.taps l = 0 ∧
        y = { x with tested := some true, lmask := y.lmask, spare := y.spare, nextLane := (l + 1) % 5, taps := y.taps }) ∧
      exec (.spareLaneRotation p false) s = put { x with tested := some false, lepoch := x.lepoch + 1 }) ∧
    (∀ lane up, lane < 5 →
      (let v := FMap.get 0 x.taps lane + (if up then 1 else -1)
       (v.natAbs ≤ Config.tapMax → exec (.equaliserAdapt p lane up) s = put { x with taps := FMap.set 0 x.taps lane v }) ∧
       (Config.tapMax < v.natAbs → ∃ y, exec (.equaliserAdapt p lane up) s = put y ∧ y.taps = x.taps))) ∧
    (∀ q, q < 24 → (s.port q).trained = true → (s.port q).outQ = [] →
      exec (.portRetrainComplete q none) s = .next (s.setPort q
        { s.port q with retraining := false, awaiting := false, tries := 0, wire := (s.port q).wire ++ (s.port q).replayBuf,
                        lepoch := (s.port q).lepoch + 1, retrain := satAdd (s.port q).retrain 1 }))

/-- R266, R274-R276, R282, R305, R371: the states of a port: training, the quad check of its neighbour's HELLO, the HELLO it sends in a flit of its own, a
stalled output, and the sampled queues. -/
def Obligations.PortStates : Prop :=
  ∀ (s : State) (p : Nat) (lanes : BitVec 5) (k : Packet) (rest : List Packet) (y : Hello),
    let x := s.port p
    let d := p - (if p < 12 then 8 else 20)
    let close := (9 ≤ p ∧ p ≤ 11) ∨ (21 ≤ p ∧ p ≤ 23)
    let good := (List.range 5).filter (fun l => lanes.getLsbD l && !x.dead.contains l)
    let heard := fun (st : PortState) => exec (.helloReceive p) s = .next (s.setPort p
      { x with rxQ := rest, owed := FMap.set 0 x.owed (packetVc k) (FMap.get 0 x.owed (packetVc k) + packetUnits k),
               ndev := y.devid, nport := y.port, nbuild := y.build, nrev := y.rev, lepoch := y.lepoch, state := st })
    p < 24 → x.outQ = [] →
    (x.state = .training → (s.half (p / 12)).linkable = true → s.hbmTrained (p / 12) = true →
      (good.length < 4 → exec (.portTrainingComplete p lanes) s = .next (s.setPort p { x with state := .down })) ∧
      (4 ≤ good.length → ∃ z, exec (.portTrainingComplete p lanes) s = .next (s.setPort p z) ∧ z.state = .linkOnly ∧ z.lepoch = 1 ∧
        z.txSeq = 0 ∧ z.rxSeq = 0 ∧ z.replayBuf = [] ∧
        (∀ l, l < 5 → (z.lmask.getLsbD l = true ↔ l ∈ good.take 4)) ∧ z.spare.toNat = good.getD 4 7 ∧
        z = { x with state := z.state, lmask := z.lmask, spare := z.spare, lepoch := z.lepoch, nextLane := z.nextLane, txSeq := 0, rxSeq := 0,
                     replayBuf := [], wire := [], rxBytes := [], awaiting := false, owed := [], credits := z.credits })) ∧
    (x.state = .down → (s.half (p / 12)).linkable = true → exec (.portTrainingRetry p) s = .next (s.setPort p { x with state := .training })) ∧
    (x.state ∈ [PortState.up, .linkOnly] → x.rxQ = k :: rest → k.ptype = .link → k.crcOk = true → k.body = .hello y →
      (s.devValid = false → heard x.state) ∧
      (s.devValid = true → ¬ close → heard .up) ∧
      (s.devValid = true → close →
        (y.valid = false → heard .linkOnly) ∧
        (y.valid = true →
          (fld y.devid 2 18 ≠ fld s.devid 2 18 → heard .miswired) ∧
          (fld y.devid 0 2 ≠ fld s.devid 0 2 ^^^ d → heard .miswired) ∧
          (fld y.devid 2 18 = fld s.devid 2 18 → fld y.devid 0 2 = fld s.devid 0 2 ^^^ d → y.port.toNat = 8 + d ∨ y.port.toNat = 20 + d →
            (y.build.toNat = s.build.code → y.rev = 0 → heard .up) ∧ (y.build.toNat ≠ s.build.code → heard .mismatch))))) ∧
    (x.state = .up → x.replayBuf.length < 512 → x.retraining = false → 0 < FMap.get 0 x.credits 0 →
      ∃ (z : Port) (g : Flit) (q : Packet) (e : Hello), exec (.helloSend p) s = .next (s.setPort p z) ∧
        z.replayBuf = x.replayBuf ++ [g] ∧ z.wire = x.wire ++ [g] ∧ z.txSeq = x.txSeq + 1 ∧
        g.seq = x.txSeq ∧ g.ack = x.rxSeq - 1 ∧ g.nak = x.nakDue ∧ g.content = q.bytes ++ List.replicate (240 - q.bytes.length) 0 ∧
        q.ptype = .link ∧ q.crcOk = true ∧ q.body = .hello e ∧ e.devid = s.devid ∧ e.valid = s.devValid ∧ e.port.toNat = p ∧
        e.build.toNat = s.build.code ∧ e.lepoch = x.lepoch) ∧
    (x.state = .drained → exec (.portDrainedEnd p) s = .next (s.setPort p { x with state := x.resume })) ∧
    (∀ q, q < 24 → (s.port q).outQ ≠ [] → (s.port q).state = .up →
      (let s' := s.setPort q { s.port q with outQ := [], state := .drained, resume := .up }
       exec (.portOutputStallTimeout q) s = .next (s'.originate (q / 12) (s'.portKey q 4)))) ∧
    (∀ h, h < 2 → ∃ s', exec (.queueDepthSample h) s = .next s' ∧
      (∀ q, q / 12 = h → ∀ vc, vc < 4 → FMap.get 0 (s'.port q).samples vc = (s.port q).queued vc) ∧
      (∀ q, q / 12 ≠ h → s'.port q = s.port q) ∧ s' = { s with ports := s'.ports })

/-- R271, R272, R280, R281, R282, R283: without ADPT the first usable path of the entry is taken; with it, a usable path of the least score. A message
leaves with the flow's next PSN and its ECRC, at most 256 unacknowledged, and out of the first hop of its path; a transit packet goes out of HOP[HIDX]
with HIDX raised; an unacknowledged packet is sent again up to three times, and is then given up, which ends the `pgather` whose request it was LATE. -/
def Obligations.PathsAndPackets : Prop :=
  (∀ (s : State) (h : Nat) (x : Partner) (f : Flow),
    let now := (s.half h).time.toNat + 1
    let usable := fun (i : Nat) (hops : List Nat) => i ≤ x.np1 ∧ x.paths[i]? = some hops ∧ s.pathUsable x.ddev hops = true
    (s.choosePath h x f = none ↔ ∀ i hops, ¬ usable i hops) ∧
    (∀ i hops, s.choosePath h x f = some (i, hops) →
      usable i hops ∧
      (x.adpt = false → ∀ j l, j < i → ¬ usable j l) ∧
      (x.adpt = true → ∀ j l, usable j l → s.pathScore f now i hops ≤ s.pathScore f now j l))) ∧
  (∀ (s : State) (h i : Nat) (m : OutMsg) (p q : Nat) (hops : List Nat),
    let e := (s.half h).eng
    let x := s.partner h m.b m.partner
    let key : FlowKey := ⟨m.b, x.ddev, x.dbind, .dataGreq⟩
    let f := s.flow key
    let k : Packet := Packet.sealed
      { ddev := x.ddev, sdev := s.devid, dbind := x.dbind, sbind := m.b, ptype := .data, hidx := 0, path := p, cong := false,
        hops := q :: hops, rw2 := m.rw2, psn := f.nextPsn, xtag := m.xtag, ecrc := 0, body := m.body }
    (h < 2 → e.outbox[i]? = some m → m.ptype = .data → m.isRollback = false → x.valid = true → s.choosePath h x f = some (p, q :: hops) →
      (∀ j o, j < i → e.outbox[j]? = some o → ¬ (o.b = m.b ∧ o.partner = m.partner ∧ flowClass o.ptype = some .dataGreq)) →
      s.hopHeld h (q :: hops) = false →
      (f.unacked.length < 256 →
        exec (.packetInject h i) s = .next (((s.setHalf h { s.half h with eng := { e with outbox := e.outbox.eraseIdx i } }).setFlow
          { f with nextPsn := f.nextPsn + 1, waits := 0, unacked := f.unacked ++ [(k, 0)] }).output q { k with hidx := 1 })) ∧
      (256 ≤ f.unacked.length → exec (.packetInject h i) s = .next s)) ∧
    (∀ a t rest, (s.port a).rxQ = t :: rest → t.ptype ≠ .beacon → t.ptype ≠ .link → t.hops[t.hidx]? = some q → q < 24 →
      (portHalf q = portHalf a ∨ (s.half (portHalf a)).link = .up) → (s.port q).outQ = [] →
      (let popped := { s.port a with
         rxQ := rest, owed := FMap.set 0 (s.port a).owed (packetVc t) (FMap.get 0 (s.port a).owed (packetVc t) + packetUnits t) }
       exec (.packetForward a) s = .next ((s.setPort a popped).output q { t with hidx := t.hidx + 1, cong := t.cong }))) ∧
    (∀ fk psn u n, (s.flow fk).unacked.find? (fun e => decide (e.1.psn.toNat = psn)) = some (u, n) →
      (let s1 := s.setFlow { s.flow fk with unacked := (s.flow fk).unacked.filter (fun e => decide (e.1.psn.toNat ≠ psn)) }
       3 ≤ n →
        (∃ s', exec (.packetRetransmitTimeout fk psn) s = .next s' ∧ s'.flows = s1.flows) ∧
        (∀ gid shard planes v cmd ga, u.ptype = .greq → u.body = .greq (.gather gid shard planes v cmd) →
          (s.engine (idHalf cmd)).gathers.find? (fun y => y.id == cmd && decide (y.cmd.b = fk.local') && y.live) = some ga →
          exec (.packetRetransmitTimeout fk psn) s =
            .next ((s1.endGather (idHalf cmd) ga).endColl (idHalf cmd) ga.cmd stLate 0))) ∧
      (n < 3 → ∃ s', exec (.packetRetransmitTimeout fk psn) s = .next s' ∧
        (s'.flow fk).unacked = (s.flow fk).unacked.map (fun e => if e.1.psn.toNat = psn then (e.1, n + 1) else e) ∧
        (s'.flow fk).nextPsn = (s.flow fk).nextPsn)))

/-- R271-R273, R287: what arrives in a flow: in order it is delivered and the PSN advances, ahead of order it is held, behind it is dropped; a bad ECRC or
an unauthorised sender is counted and dropped. CELLAR bytes are written where every granule they touch is granted; an ACKF frees what it covers. -/
def Obligations.FlowDelivery : Prop :=
  ∀ (s : State) (p : Nat) (k : Packet) (rest : List Packet) (l : List Byte),
    let h := portHalf p
    let b := s.binding k.dbind
    let popped := s.setPort p { s.port p with rxQ := rest
                                              owed := FMap.set 0 (s.port p).owed (packetVc k) (FMap.get 0 (s.port p).owed (packetVc k) + packetUnits k) }
    let key : FlowKey := ⟨k.dbind, k.sdev, k.sbind, .dataGreq⟩
    let f := popped.flow key
    let seen := { f with sinceAck := f.sinceAck + 1, lastPath := k.path, lastCong := k.cong }
    let trusted := (popped.partnerNo h k.dbind k.sdev k.sbind).isSome = true
    let at' := fld k.rw2 0 44
    (s.port p).rxQ = k :: rest → k.hops.length ≤ k.hidx →
    (k.ptype = .data →
      (k.crcOk = false → exec (.dataReceive p) s = .next (popped.setBinding k.dbind { b with ecrc := FMap.set 0 b.ecrc h (satAdd (FMap.get 0#32 b.ecrc h) 1) })) ∧
      (k.crcOk = true → ¬ trusted →
        exec (.dataReceive p) s = .next (popped.setBinding k.dbind { b with unauth := FMap.set 0 b.unauth h (satAdd (FMap.get 0#32 b.unauth h) 1) })) ∧
      (k.crcOk = true → trusted →
        (k.psn = f.expPsn → f.held = [] →
          exec (.dataReceive p) s = .next ((popped.setFlow { seen with expPsn := f.expPsn + 1 }).onData k.dbind k.rw2.toNat k.xtag.toNat k.body)) ∧
        (k.psn ≠ f.expPsn → (k.psn - f.expPsn).toNat < 256 → (∀ q ∈ f.held, q.psn ≠ k.psn) →
          exec (.dataReceive p) s = .next (popped.setFlow { seen with held := f.held ++ [k] })) ∧
        (256 ≤ (k.psn - f.expPsn).toNat → exec (.dataReceive p) s = .next (popped.setFlow seen)))) ∧
    (k.ptype = .cellar → k.crcOk = true → k.body = .bytes l → l ≠ [] → bitAt k.rw2 63 = false →
      (let ck : FlowKey := ⟨k.dbind, k.sdev, k.sbind, .cellar⟩
       let cf := popped.flow ck
       let granted := ∀ g, at' / 2 ^ 30 ≤ g → g ≤ (at' + l.length - 1) / 2 ^ 30 → g ∈ popped.grantOf h k.dbind k.sdev k.sbind
       (granted → k.psn = cf.expPsn → cf.held = [] →
         (let cf' := { cf with sinceAck := cf.sinceAck + 1, lastPath := k.path, lastCong := k.cong, expPsn := cf.expPsn + 1 }
          exec (.cellarReceive p) s = .next ((popped.setFlow cf').writeBytes 512 at' l))) ∧
       (¬ granted →
         exec (.cellarReceive p) s = .next (popped.setBinding k.dbind { b with unauth := FMap.set 0 b.unauth h (satAdd (FMap.get 0#32 b.unauth h) 1) })))) ∧
    (k.ptype = .ackf → k.crcOk = true → trusted → k.xtag.toNat < 8 → bitAt k.xtag 2 = false →
      exec (.ackfReceive p) s = .next (popped.setFlow
        { f with unacked := f.unacked.filter (fun e => decide (2 ^ 15 ≤ (BitVec.ofNat 16 k.rw2.toNat - e.1.psn).toNat)) })) ∧
    (∀ fk n j hops, (s.flow fk).sinceAck ≠ 0 → s.partnerNo (s.homeOf fk.local') fk.local' fk.dev fk.bind = some n →
      s.choosePath (s.homeOf fk.local') (s.partner (s.homeOf fk.local') fk.local' n) (s.flow fk) = some (j, hops) →
      s.hopHeld (s.homeOf fk.local') hops = false →
      ∃ a, exec (.ackfSend fk) s = .next ((s.setFlow { s.flow fk with sinceAck := 0 }).launchPacket (s.homeOf fk.local') a) ∧
        a.ptype = .ackf ∧ a.crcOk = true ∧ a.ddev = fk.dev ∧ a.dbind = fk.bind ∧ a.hops = hops ∧ a.rw2.toNat = ((s.flow fk).expPsn - 1).toNat)

/-- R10, R230, R285, R286, R339, R375: a fault epoch rises with each fault and its record and beacon enter those of its half; a beacon that arrives is
absorbed where the device has its key live, and else entered, sent as it came with HIDX raised, below 15, out of every other UP port, and raises
interrupt 0x23 for the bindings it concerns; when its 10 ms are over its event goes to the host with its count. The event's slot is stated before the
ring has been filled once. -/
def Obligations.Beacons : Prop :=
  ∀ (s : State) (p : Nat) (k : Packet) (rest : List Packet) (fe : BitVec 32) (fc : BitVec 8) (od : BitVec 20),
    let h := portHalf p
    let popped := s.setPort p { s.port p with rxQ := rest
                                              owed := FMap.set 0 (s.port p).owed (packetVc k) (FMap.get 0 (s.port p).owed (packetVc k) + packetUnits k) }
    let x := s.half h
    let y := s.half (1 - h)
    let bk : BeaconKey := ⟨BitVec.ofNat 20 (fld k.rw2 44 20), BitVec.ofNat 16 (fld k.rw2 28 16), fe, fc, 0⟩
    let same := fun (e : BeaconKey) => e.odev = bk.odev ∧ e.unit = bk.unit ∧ e.fepoch = bk.fepoch
    let counted := fun (l : List BeaconKey) =>
      l.map (fun e => if e.odev == bk.odev && e.unit == bk.unit && e.fepoch == bk.fepoch then { e with count := e.count + 1 } else e)
    let fresh := (∀ e ∈ x.keyTable, ¬ same e) ∧ (x.link = .up → ∀ e ∈ y.keyTable, ¬ same e)
    (p < 24 → (s.port p).rxQ = k :: rest → k.ptype = .beacon → k.crcOk = true → k.body = .beacon fe od fc →
      ((∃ e ∈ x.keyTable, same e) →
        exec (.beaconReceive p) s = .next (popped.setHalf h { x with bcnAbs := satAdd x.bcnAbs 1, keyTable := counted x.keyTable })) ∧
      ((∀ e ∈ x.keyTable, ¬ same e) → x.link = .up → (∃ e ∈ y.keyTable, same e) →
        exec (.beaconReceive p) s = .next ((popped.setHalf h { x with bcnAbs := satAdd x.bcnAbs 1 }).setHalf (1 - h)
          { y with keyTable := counted y.keyTable })) ∧
      (fresh → x.keyTable.length < 1024 →
        ∃ s', exec (.beaconReceive p) s = .next s' ∧ (s'.half h).keyTable = x.keyTable ++ [{ bk with count := 1 }] ∧
          (bk.odev = s.devid → ∀ b, (s.binding b).live = true → (s'.binding b).bcnPend = true) ∧
          (∀ b, (s.binding b).live = false → s'.binding b = s.binding b) ∧
          (∀ q, q < 24 → q ≠ p → (portHalf q = h ∨ x.link = .up) → (s.port q).state = .up → (s.port q).outQ = [] →
            (s.port q).replayBuf.length < 512 → (s.port q).retraining = false → 0 < FMap.get 0 (s.port q).credits 3 → k.hidx < 15 →
            ∃ f : Flit, (s'.port q).replayBuf = (s.port q).replayBuf ++ [f] ∧
              f.content = ({ k with hidx := k.hidx + 1 } : Packet).bytes ++ List.replicate (240 - k.bytes.length) 0) ∧
          (15 ≤ k.hidx → s'.ports = popped.ports)) ∧
      (fresh → 1024 ≤ x.keyTable.length →
        ∃ s', exec (.beaconReceive p) s = .next s' ∧ (s'.half h).keyTable = x.keyTable ∧ (s'.half h).bcnOvf = satAdd x.bcnOvf 1)) ∧
    (∀ i e, h < 2 → x.keyTable[i]? = some e → s.evqOn = true → s.evWait = [] → s.evNext < s.evqSize →
      ∃ s', exec (.beaconKeyTimeout h i) s = .next s' ∧ (s'.half h).keyTable = x.keyTable.eraseIdx i ∧
        s'.events = s.events ++ [⟨s.evNext, true, ⟨1, e.unit, e.fepoch, e.odev, e.count, [e.fclass.toNat]⟩⟩] ∧ s'.evNext = s.evNext + 1 ∧
        s'.msix = s.msix ++ [(0, 1)]) ∧
    (∀ u fclass,
      (let s' := s.recordFault u fclass
       s'.fepoch u = s.fepoch u + 1 ∧ (∀ v, v ≠ u → s'.fepoch v = s.fepoch v) ∧ s'.mem = s.mem ∧ s'.threads = s.threads ∧ s'.cores = s.cores ∧
       ((s'.half (unitHalf u)).faults.getLast? = some ⟨u, s.fepoch u + 1, s.physOf u, none⟩) ∧
       (s'.half (unitHalf u)).faults.length ≤ 64))

/-! ### The halves -/

/-- R290, R293, R294, R369: a heartbeat goes out with the next HSEQ; one that is valid and newer is compared: a SPLIT half follows a PRIMARY, claims where
its peer follows, and where both are SPLIT the higher epoch, then the senior half, claims; of two PRIMARY halves the lower epoch gives way; differing
images leave a half SPLIT; 50 µs of silence leave it SPLIT. -/
def Obligations.Primacy : Prop :=
  ∀ (s : State) (h : Nat) (r : Heartbeat) (rest : List Heartbeat),
    let x := s.half h
    let y := s.half (1 - h)
    let becomes := fun (st : PState) (hold : Bool) => ∃ s', exec (.heartbeatReceive h true) s = .next s' ∧ (s'.half h).pstate = st ∧
      (s'.half h).hold = hold ∧ (s'.half h).event.getLsbD 0 = true ∧
      (st ≠ .primary → (s'.half h).epoch = x.epoch) ∧
      (st = .primary → (s'.half h).epoch = (if x.epoch.toNat < r.epoch.toNat then r.epoch else x.epoch) + 1)
    h < 2 → s.linkUp = true → x.ready = true →
    (∃ s', exec (.heartbeatSend h) s = .next s' ∧ (s'.half h) = { x with hseq := x.hseq + 1 } ∧
      ∃ b, (s'.half (1 - h)) = { y with hbIn := y.hbIn ++ [b] } ∧ b.epoch = x.epoch ∧ b.pstate = x.pstate ∧ b.solo = x.solo ∧ b.hseq = x.hseq + 1) ∧
    (x.pstate ≠ .split → x.solo = false ∨ x.lastHseq ≠ none →
      ∃ s', exec (.heartbeatTimeout h) s = .next s' ∧ (s'.half h).pstate = .split ∧ (s'.half h).hold = false ∧ (s'.half h).epoch = x.epoch ∧
        (s'.half h).event = x.event ||| 9) ∧
    (x.hbIn = r :: rest →
      exec (.heartbeatReceive h false) s = .next (s.setHalf h { x with hbIn := rest }) ∧
      (r.hseq ≤ x.lastHseq.getD 0 → exec (.heartbeatReceive h true) s = .next (s.setHalf h { x with hbIn := rest })) ∧
      (x.lastHseq.getD 0 < r.hseq → x.leftReset = false → y.leftReset = false →
        (x.flash.image.version % 2 ^ 32 = r.imgv →
          (x.pstate = .split → r.pstate = .primary → becomes .follower false) ∧
          (x.pstate = .split → r.pstate = .follower → becomes .primary true) ∧
          (x.pstate = .split → r.pstate = .split → x.epoch.toNat < r.epoch.toNat ∨ (x.epoch = r.epoch ∧ r.senior = true) → becomes .follower false) ∧
          (x.pstate = .split → r.pstate = .split → ¬ (x.epoch.toNat < r.epoch.toNat ∨ (x.epoch = r.epoch ∧ r.senior = true)) → becomes .primary true) ∧
          (x.pstate = .primary → r.pstate = .primary → x.epoch.toNat < r.epoch.toNat ∨ (x.epoch = r.epoch ∧ r.senior = true) → becomes .follower false)) ∧
        (x.flash.image.version % 2 ^ 32 ≠ r.imgv → x.pstate ≠ .split → x.solo = false → becomes .split false)))

/-- R229, R289, R290, R296, R307, R310, R318, R371: a bad half-link flit is replayed three times, then the link retrains; UP again both halves see LINKUP
and hold the larger of the counters of each slot whose key they agree on; not UP in time it is DOWN and what was in flight is lost. -/
def Obligations.HalfLink : Prop :=
  ∀ (s : State) (h : Nat),
    let x := s.half h
    let both := fun (p : Half → Half → Prop) (s' : State) => p s.half0 s'.half0 ∧ p s.half1 s'.half1
    let cut := fun (a b : Half) => b.link = .training ∧ b.event = a.event ||| 2 ∧ b.pstate = a.pstate ∧ b.epoch = a.epoch ∧ b.journal = a.journal
    let raised := fun (s' : State) => both (fun a b => b.link = .up ∧ b.event = a.event ||| 4 ∧ b.linkTries = 0 ∧ b.pstate = a.pstate ∧ b.epoch = a.epoch) s' ∧
      (∀ k, k < 16 → (s.half0.key k).key = (s.half1.key k).key → (s'.half0.key k).ctrHi = max (s.half0.key k).ctrHi (s.half1.key k).ctrHi ∧
        (s'.half1.key k).ctrHi = max (s.half0.key k).ctrHi (s.half1.key k).ctrHi)
    (h < 2 → s.linkUp = true →
      exec (.halfLinkFlitReceive h true none) s = .next (s.setHalf h { x with linkTries := 0 }) ∧
      (x.linkTries < 3 →
        exec (.halfLinkFlitReceive h false none) s = .next (s.setHalf h { x with linkTries := x.linkTries + 1 }) ∧
        (∀ c, corePresent s.build c = true → exec (.halfLinkFlitReceive h false (some c)) s = .next
          ((s.setHalf h { x with linkTries := x.linkTries + 1 }).setCore c { s.core c with parcnt := satAdd (s.core c).parcnt 1 }))) ∧
      (3 ≤ x.linkTries → ∃ s', exec (.halfLinkFlitReceive h false none) s = .next s' ∧ both cut s')) ∧
    (s.half0.link = .training →
      (∃ s', exec .halfLinkDownTimeout s = .next s' ∧ both (fun a b => b.link = .down ∧ b.journalIn = [] ∧ b.ackIn = [] ∧ b.hbIn = [] ∧ b.compIn = [] ∧
          b.journal = a.journal ∧ b.pstate = a.pstate) s' ∧
        s'.half0.compHeld = s.half0.compHeld ++ s.half1.compIn ∧ s'.half1.compHeld = s.half1.compHeld ++ s.half0.compIn) ∧
      (s.half0.linkable = true → s.half1.linkable = true → ∃ s', exec .halfLinkRetrainComplete s = .next s' ∧ raised s')) ∧
    (s.linkUp = false → s.half0.linkable = true → s.half1.linkable = true →
      (∃ s', exec .halfLinkUp s = .next s' ∧ raised s') ∧
      (s.hbmTrained 0 = true → s.hbmTrained 1 = true →
        (∃ s', exec (.halfLinkTrainingComplete true) s = .next s' ∧ raised s') ∧
        exec (.halfLinkTrainingComplete false) s =
          .next { s with half0 := { s.half0 with link := .training }, half1 := { s.half1 with link := .training } }))

/-- R291, R292, R326: the follower journals an entry and acknowledges it; the acknowledgement of an entry whose function has every earlier entry in both
journals, and no later one, accepts its command: ACCEPT is posted and the mirror point moves; a completion that reaches the poster ends its command. -/
def Obligations.Mirror : Prop :=
  ∀ (s : State) (h j : Nat) (rest : List Nat) (f seq : Nat) (more : List (Nat × Nat)) (c : Cmd),
    let x := s.half h
    let y := s.half (1 - h)
    let held := fun (d : Cmd) => d.phase = .final ∨ (d.jseq ∈ s.half0.journal ∧ d.jseq ∈ s.half1.journal)
    h < 2 → s.linkUp = true → x.ready = true →
    (x.journalIn = j :: rest → j ∉ x.journal →
      ∃ s', exec (.journalEntryReceive h) s = .next s' ∧ s'.half h = { x with journalIn := rest, journal := x.journal ++ [j] } ∧
        s'.half (1 - h) = { y with ackIn := y.ackIn ++ [j] } ∧ s' = { s with half0 := s'.half0, half1 := s'.half1 }) ∧
    (x.ackIn = j :: rest → s.cmds.find? (fun c => decide (c.jseq = j)) = some c → c.phase = .journalled → c.auth = false → c.opc ≠ 0x04 →
      s.cmds.Nodup → held c →
      (∀ d ∈ s.cmds, d.func = c.func → (d.seq < c.seq → held d ∧ d.phase ≠ .journalled) ∧ (c.seq < d.seq → ¬ held d) ∧ (d.seq = c.seq → d = c)) →
      c.func ≠ 0 → (x.ring c.func).cqEn = true →
      ∃ s' r, exec (.journalAckReceive h) s = .next s' ∧ s'.cq = s.cq ++ [r] ∧ r.kind = .accept ∧ r.func = c.func ∧ r.seq = c.seq ∧ r.solo = false ∧
        (s'.binding (c.func - 1)).mirror = some c.seq ∧
        s'.cmds = s.cmds.map (fun (d : Cmd) => if d.func = c.func ∧ d.seq = c.seq then { c with phase := .accepted, solo := false, half := h } else d)) ∧
    (x.compIn = (f, seq) :: more → s.cmd f seq = some c → c.phase = .running →
      exec (.completionRecordReceive h) s = .next ({ s with cmds := s.cmds.map (fun (d : Cmd) => if d.func = c.func ∧ d.seq = c.seq then { c with phase := .ended } else d) }.setHalf h
        { x with compIn := more }))

/-- R4, R309, R311, R312, R314-R316, R321: the registers of BAR 0 read as they are held; a write reaches both halves' copies while the link is UP; TAIL
does not fall; enabling a submission ring starts it at 0; an entry that fails validation is rejected with a record and passed, one that passes is
journalled. -/
def Obligations.Rings : Prop :=
  ∀ (s : State) (ep f : Nat) (v : Word) (r : RingSel) (e buf : List Byte),
    let own := (s.half ep).ring f
    let far := (s.half (1 - ep)).ring f
    let wrote := fun (c : Instr) (a b : Ring) => ∃ s', exec c s = .next s' ∧ (s'.half ep).ring f = a ∧ (s'.half (1 - ep)).ring f = (if s.linkUp then b else far) ∧
      (∀ i, i ≠ f → (s'.half ep).ring i = (s.half ep).ring i ∧ (s'.half (1 - ep)).ring i = (s.half (1 - ep)).ring i)
    let set := fun (x : Ring) => match r with
      | .sq => { x with sqEn := true, head := 0, tail := 0 }
      | .cq => { x with cqEn := true }
      | .evq => { x with evqEn := true }
    let cleared := fun (x : Ring) => match r with
      | .sq => { x with sqEn := false, sqClosing := false }
      | .cq => { x with cqEn := false, cqClosing := false }
      | .evq => { x with evqEn := false, evqClosing := false }
    let base := fun (off : Nat) (a : BitVec 52) (en : Bool) =>
      (s.barRead ep f off).extractLsb' 12 52 = a ∧ (s.barRead ep f off).getLsbD 0 = en ∧ (s.barRead ep f off).extractLsb' 1 11 = 0
    let isOn := fun (x : Ring) => match r with
      | .sq => x.sqEn
      | .cq => x.cqEn
      | .evq => x.evqEn
    ep < 2 → f ≤ 64 →
    (fld (s.barRead ep f 0) 16 8 = f ∧ fld (s.barRead ep f 0) 8 8 = 0 ∧ fld (s.barRead ep f 0) 4 2 = s.build.code ∧ fld (s.barRead ep f 0) 0 1 = ep ∧
      base 8 own.sqBase own.sqEn ∧ base 0x10 own.cqBase own.cqEn ∧ (f = 0 → base 0x18 own.evqBase own.evqEn) ∧ (f ≠ 0 → s.barRead ep f 0x18 = 0) ∧
      s.barRead ep f 0x20 = BitVec.ofNat 64 own.logn.toNat ∧ s.barRead ep f 0x28 = BitVec.ofNat 64 own.tail ∧
      s.barRead ep f 0x30 = BitVec.ofNat 64 own.head) ∧
    wrote (.kwSqTailWrite ep f v) { own with tail := max own.tail v.toNat } { far with tail := max far.tail v.toNat } ∧
    ((s.half ep).ready = true → (r = .evq → f = 0) → isOn own = false → isOn far = false → wrote (.ringEnable ep f r) (set own) (set far)) ∧
    ((∀ c ∈ s.cmds, c.func = f → c.phase = .journalled ∨ c.phase = .final) → isOn own = true → isOn far = true →
      wrote (.ringDisable ep f r) (cleared own) (cleared far)) ∧
    ((s.half ep).ready = true → own.sqEn = true → own.sqClosing = false → own.cqClosing = false → own.evqClosing = false → own.head < own.tail → (s.half ep).pstate = .primary →
      (e.length ≠ 128 ∨ bytesAt e 8 8 ≠ own.head → own.cqEn = true →
        ∃ s' q, exec (.sqEntryRead ep f e buf) s = .next s' ∧ s'.cq = s.cq ++ [q] ∧ q.kind = .reject ∧ q.status = 0x20 ∧ q.seq = own.head ∧ q.func = f ∧
          ((s'.half ep).ring f).head = own.head + 1 ∧ s'.cmds = s.cmds) ∧
      (s.validate ep f e buf = none → (s.half ep).solo = false → bitAt (BitVec.ofNat 64 (bytesAt e 0 8)) 55 = false →
        f ≠ 0 ∨ bytesAt e 7 1 ≠ 0x13 ∨ s.linkUp = true →
        ∃ s' c, exec (.sqEntryRead ep f e buf) s = .next s' ∧ s'.cmds = s.cmds ++ [c] ∧ c.func = f ∧ c.seq = own.head ∧ c.opc = bytesAt e 7 1 ∧
          c.entry = e ∧ c.phase = .journalled ∧ c.half = ep ∧ (s'.half ep).journal = (s.half ep).journal ++ [c.jseq] ∧ c.jseq = s.jnext ∧
          ((s'.half ep).ring f).head = own.head + 1 ∧
          (s.linkUp = true → (s'.half (1 - ep)).journalIn = (s.half (1 - ep)).journalIn ++ [c.jseq])))

/-! ### Power, resets and management -/

/-- R302, R303, R306, R307, R339: the loops of a die, with a power event for each bit of PW_EVENT newly set: the highest step its limits allow, the trips
of the last millisecond, the steps down of the thermal and power-cap loops, and the trip at 115 °C. That a loop steps down by one step of 25 MHz at a
time is the model's reading of R302. -/
def Obligations.PowerLoops : Prop :=
  ∀ (s : State) (d : Nat) (r : LoopReading) (temp : Nat),
    let h := d / 4
    let x := s.half h
    let y := x.die d
    let put := fun (z : Die) (ev : BitVec 6) =>
      let t := s.setHalf h { x.setDie d z with pwEvent := x.pwEvent ||| ev }
      let new := ev &&& ~~~x.pwEvent
      (Host.Outcome.next (if new = 0 then t else t.postEvent ⟨4, unitId 6 d, 0, 0, 0, [h, new.toNat]⟩) : Out)
    let m := min (min r.voltMHz r.thermMHz) (min r.capMHz r.ceilMHz)
    let slower := fun (z : Die) (lim : BitVec 4) => { z with freq := BitVec.ofNat 11 (max 600 (z.freq.toNat - 25)), lim := z.lim ||| lim }
    let trips := (y.trips.filter (fun t => decide (x.time.toNat < t + 25000))).length + 1
    diePresent s.build d = true → x.stage ≠ .off →
    (∃ z ev, exec (.coreFrequencyLoop d r) s = put z ev ∧ z.freq.toNat % 25 = 0 ∧ 600 ≤ z.freq.toNat ∧ z.freq.toNat ≤ 1600 ∧
      (y.tripped = true → z.freq.toNat = 600) ∧
      (y.tripped = false → 600 ≤ m → z.freq.toNat ≤ m ∧ (z.freq.toNat + 25 ≤ 1600 → m < z.freq.toNat + 25)) ∧
      (z.lim.getLsbD 3 = true ↔ r.thermMHz = m ∧ m < 1600) ∧ (z.lim.getLsbD 2 = true ↔ r.capMHz = m ∧ m < 1600) ∧
      (z.lim.getLsbD 1 = true ↔ r.voltMHz = m ∧ m < 1600) ∧ (z.lim.getLsbD 0 = true ↔ r.ceilMHz = m ∧ m < 1600) ∧
      (ev.getLsbD 2 = z.lim.getLsbD 3) ∧ (ev.getLsbD 1 = z.lim.getLsbD 2) ∧ 600 ≤ z.vcore.toNat ∧ z.vcore.toNat ≤ 950) ∧
    (∃ z, exec (.droopTrip d) s = put z (if 64 ≤ trips then 1 else 0) ∧ z.stretched = true ∧ z.droop.toNat = min 255 trips ∧
      z = { y with stretched := z.stretched, trips := z.trips, droop := z.droop }) ∧
    exec (.droopStretchEnd d) s = put { y with stretched := false } 0 ∧
    (105 < temp → exec (.thermalLoop d temp) s = put (slower { y with temp := BitVec.ofNat 8 (min 255 temp) } 8) 4) ∧
    (temp ≤ 105 → exec (.thermalLoop d temp) s = put { y with temp := BitVec.ofNat 8 temp } 0) ∧
    exec (.thermalTrip d) s = put { y with tripped := true, freq := 600, temp := BitVec.ofNat 8 (max 115 y.temp.toNat) } 8 ∧
    (y.tripped = true →
      (temp ≤ 105 → exec (.thermalTripTimeout d temp) s = put { y with temp := BitVec.ofNat 8 temp, tripped := false } 0) ∧
      (105 < temp → exec (.thermalTripTimeout d temp) s = .next
        ((s.setHalf h (x.setDie d { y with temp := BitVec.ofNat 8 (min 255 temp) })).recordFault (unitId 6 d) 0x01))) ∧
    (∀ watts, h < 2 →
      (let cap := match s.build with
        | .t8 => 4300
        | .t4 => 2250
        | .t2 => 1200
       (watts ≤ cap → exec (.powerCapLoop h watts) s = .next s) ∧
       (cap < watts → ∃ s', exec (.powerCapLoop h watts) s = .next s' ∧ (s'.half h).pwEvent = x.pwEvent ||| 2 ∧
         (∀ i, i < 4 → (s'.half h).die (4 * h + i) = if diePresent s.build (4 * h + i) then slower (x.die (4 * h + i)) 4 else x.die (4 * h + i)))))

/-- R306, R307, R361, R372: VIN near the edge of its window is an event, and outside it, as a broken clip, a loss of power; a rail that leaves its window
is an event and a permanent fault of its die. -/
def Obligations.SupplyFaults : Prop :=
  ∀ (s : State) (mv n : Nat) (ra : Rail),
    let off := fun (s' : State) => ∀ h, h < 2 → (s'.half h).stage = .off ∧ (s'.half h).pstate = .split ∧ (s'.half h).link = .down ∧ (s'.half h).time = 0 ∧
      (s'.half h).epoch = 0 ∧ (s'.half h).keeper0 ≠ .booting
    (mv < 42000 ∨ 58000 < mv → ∃ s', exec (.vinWarning mv) s = .next s' ∧ s' = ({ s with vin := mv }.powerEvent 0 0 pwInput).powerEvent 1 0 pwInput ∧
      s'.vin = mv ∧ s'.half0 = { s.half0 with pwEvent := s.half0.pwEvent ||| 16 } ∧ s'.half1 = { s.half1 with pwEvent := s.half1.pwEvent ||| 16 }) ∧
    (42000 ≤ mv → mv ≤ 58000 → exec (.vinWarning mv) s = .next { s with vin := mv }) ∧
    (40000 ≤ mv → mv ≤ 60000 → exec (.vinLossTimeout mv) s = .next s) ∧
    (mv < 40000 ∨ 60000 < mv → ∃ s', exec (.vinLossTimeout mv) s = .next s' ∧ off s' ∧ s'.threads = [] ∧ s'.bindings = [] ∧ s'.vin = mv ∧
      ∀ c, s'.core c = { Core.reset with phys := (s.core c).phys }) ∧
    (∃ s', exec .clipPresenceBreak s = .next s' ∧ off s' ∧ s'.present = false ∧ s'.threads = [] ∧ s'.retired = s.retired) ∧
    (ra = .vcore ∨ ra = .vsram → diePresent s.build n = true →
      exec (.railFault ra n) s = .next
        ((s.powerEvent (n / 4) (unitId 6 n) pwRail).recordFault (unitId 6 n) 0x01)) ∧
    (ra ≠ .vcore → ra ≠ .vsram → ra ≠ .vhbm → n < 2 → ∃ s', exec (.railFault ra n) s = .next s' ∧ (s'.half n).pwEvent = (s.half n).pwEvent ||| 32)

/-- R364-R367, R371: power-up starts both AON domains at zero; a keeper boots the bank that ACTIVE names, else the other, else the half enters recovery;
stacks train or retire; Kuwick is ready once they have; the endpoint trains, and PWR_EN takes the half down and up. -/
def Obligations.PowerUp : Prop :=
  ∀ (s : State) (h k n : Nat),
    let x := s.half h
    let f := if x.promote then (match x.flash.pending with
      | some b => { x.flash with active := b, pending := none }
      | none => x.flash) else x.flash
    let bank := fun (b : Bool) => if b then f.bankB else f.bankA
    let good := fun (b : Bool) => (bank b).sigOk = true ∧ (bank b).key < 4 ∧ Config.keyRevoked (bank b).key = false ∧ f.fuseMin ≤ (bank b).version ∧
      (bank b).size ≤ 64 * 2 ^ 20
    (∀ mv, 40000 ≤ mv → mv ≤ 60000 → s.half0.stage = .off → s.half1.stage = .off →
      ∃ s', exec (.powerUp mv) s = .next s' ∧ s'.vin = mv ∧ s'.present = true ∧ s'.threads = [] ∧ s'.bindings = [] ∧ s'.mem = [] ∧ s'.devid = 0xF_FFFF ∧
        (∀ i, i < 2 → (s'.half i).time = 0 ∧ (s'.half i).epoch = 0 ∧ (s'.half i).pstate = .split ∧
          (s'.half i).stage = if (s.half i).pwrEn then .boot else .waitEn)) ∧
    (h < 2 → k < 2 → x.stage = .boot → x.inReset = false → (if k = 0 then x.keeper0 else x.keeper1) ≠ .out →
      (∀ b, (good f.active ∧ b = f.active) ∨ (¬ good f.active ∧ good (!f.active) ∧ b = !f.active) →
        ∃ s', exec (.keeperBoot h k) s = .next s' ∧ (s'.half h).stage = .train ∧ (s'.half h).pgood = true ∧ (s'.half h).flash = { f with running := some b, ran := bank b } ∧
          (∀ c, corePresent s.build c = true → c / 256 = h → (s'.core c).mtvdesc = Config.mtvdesc c ∧ (s'.core c).lanternSp = Config.lanternSp c)) ∧
      (¬ good f.active → ¬ good (!f.active) →
        ∃ s', exec (.keeperBoot h k) s = .next s' ∧ (s'.half h).stage = .recovery ∧ (s'.half h).pgood = x.pgood ∧ s'.cores = s.cores)) ∧
    (stackPresent s.build n = true → (s.half (n / 8)).linkable = true → ((s.half (n / 8)).hbm n).state = 0 → n ∉ s.retired →
      exec (.hbmTrainingComplete n true) s = .next (s.setHalf (n / 8) ((s.half (n / 8)).setHbm n { (s.half (n / 8)).hbm n with state := 1 })) ∧
      (∃ s', exec (.hbmTrainingComplete n false) s = .next s' ∧ ((s'.half (n / 8)).hbm n).state = 3 ∧ s'.retired = n :: s.retired)) ∧
    (h < 2 →
      (x.stage = .train → x.inReset = false → s.hbmTrained h = true →
        exec (.kuwickReady h) s = .next (s.setHalf h { x with stage := .ready, pstate := .split })) ∧
      (x.pgood = true → x.stage ≠ .recovery → exec (.endpointLinkTrained h) s = .next (s.setHalf h { x with epTrained := true })) ∧
      exec (.endpointReset h) s = .next (s.setHalf h { x with epTrained := false }) ∧
      (x.stage = .waitEn → x.inReset = false → 40000 ≤ s.vin → s.vin ≤ 60000 →
        exec (.pwrEnHigh h) s = .next (s.setHalf h { x with pwrEn := true, stage := .boot })) ∧
      (x.pwrEn = true → x.stage = .ready →
        ∃ s', exec (.pwrEnLow h) s = .next s' ∧ (s'.half h).pwrEn = false ∧ (s'.half h).stage = .waitEn ∧ (s'.half h).time = x.time ∧ (s'.half h).epoch = x.epoch))

/-- R236, R318, R330, R357, R360-R363: what a half reset reaches and what it leaves: its threads, ports and journal go, its AON registers, keys and spares
stay, ctr_hi restarts 4,096 above the mark; a pulse under 0.5 ms is ignored and one of 1 ms or more taken; a module reset; a keeper's watchdog and its
return; the reset's release; the reset of a function. Which memory a reset loses is the model's choice (log 6). -/
def Obligations.Resets : Prop :=
  ∀ (s : State) (h us : Nat),
    let x := s.half h
    let y := s.half (1 - h)
    let good := fun (m : Image) => m.sigOk = true ∧ m.key < 4 ∧ Config.keyRevoked m.key = false ∧ x.flash.fuseMin ≤ m.version ∧ m.size ≤ 64 * 2 ^ 20
    let wasReset := fun (a b : Half) => b.time = a.time ∧ b.epoch = a.epoch ∧ b.pstate = .split ∧ b.event = 0 ∧ b.journal = [] ∧ b.rings = [] ∧ b.keyTable = [] ∧
      b.eng = Engine.reset ∧ b.faults = [] ∧ b.flash = { a.flash with running := none } ∧ b.linkSpares = a.linkSpares ∧
      (∀ k, k < 16 →
        (b.key k).key = (a.key k).key ∧ (b.key k).mark = (a.key k).mark ∧ (b.key k).ctrHi = (a.key k).mark + 4096)
    let reached := fun (s' : State) => wasReset x (s'.half h) ∧
      (∀ g, halfOfCore (coreOf g) = h → s'.thread g = Thread.reset) ∧
      (∀ c, halfOfCore c = h → (s'.core c).binding = (s.core c).binding ∧ (s'.core c).tileQ = [] ∧ (s'.core c).slots = [] ∧ (s'.core c).tvbase = 0 ∧
        (s'.core c).press = (s.core c).press ∧ (s'.core c).phys = (s.core c).phys) ∧
      (∀ b, FMap.get 0 (s'.binding b).unauth h = 0 ∧ FMap.get 0 (s'.binding b).ecrc h = 0) ∧
      (∀ p, p < 24 → p / 12 = h → s'.port p = { Port.reset with dead := (s.port p).dead }) ∧
      (∀ a, inHalf h a = true → s'.byte a = 0)
    (h < 2 → x.stage ≠ .off →
      (us < 500 → exec (.halfReset h us) s = .next s) ∧
      (1000 ≤ us → ∃ s', exec (.halfReset h us) s = .next s' ∧ reached s' ∧ (s'.half h).inReset = true ∧ (s'.half h).pin = true ∧
        ((∀ b, (s.binding b).live = false) → (s'.half (1 - h)).pstate = y.pstate ∧ (s'.half (1 - h)).journal = y.journal ∧
          (∀ a, inHalf h a = false → s'.byte a = s.byte a) ∧ (∀ g, halfOfCore (coreOf g) = 1 - h → s'.thread g = s.thread g))) ∧
      (x.stage = .ready → x.keeper0 ≠ .active → x.keeper1 ≠ .active → ∃ s', exec (.noKeeperTimeout h) s = .next s' ∧ reached s' ∧
        (s'.half h).stage = if x.pwrEn then .boot else .waitEn) ∧
      (x.stage = .ready → x.keeper0 = .active → x.keeper1 = .standby →
        exec (.keeperReset h 0) s = .next (s.setHalf h { x with keeper0 := .booting, keeper1 := .active })) ∧
      (x.keeper0 = .booting → x.keeper1 = .active →
        (good x.flash.bankA ∨ good x.flash.bankB → exec (.keeperStandbyReturn h true) s = .next (s.setHalf h { x with keeper0 := .standby })) ∧
        (∀ b, b = false ∨ (¬ good x.flash.bankA ∧ ¬ good x.flash.bankB) →
          exec (.keeperStandbyReturn h b) s = .next ((s.setHalf h { x with keeper0 := .out }).recordFault (unitId 4 (2 * h)) 0x01)))) ∧
    (h < 2 → x.pin = true →
      exec (.halfResetRelease h) s = .next (s.setHalf h { x with stage := if x.pwrEn then .boot else .waitEn, inReset := false, pin := false })) ∧
    (s.half0.stage ≠ .off → 
      (us < 500 → exec (.moduleReset us) s = .next s) ∧
      (1000 ≤ us → ∃ s', exec (.moduleReset us) s = .next s' ∧ wasReset s.half0 s'.half0 ∧ wasReset s.half1 s'.half1 ∧ s'.threads = [] ∧
        (∀ c, s'.core c = { Core.reset with phys := (s.core c).phys }) ∧
        s'.bindings = [] ∧ s'.mem = [] ∧ s'.devid = 0xF_FFFF ∧ s'.devValid = false ∧ s'.half0.inReset = true ∧ s'.half1.inReset = true ∧ s'.retired = s.retired)) ∧
    (s.half0.inReset = true → s.half1.inReset = true → s.half0.promote = true → s.half1.promote = true →
      ∃ s', exec .moduleResetRelease s = .next s' ∧ ∀ i, i < 2 → (s'.half i).inReset = false ∧
        (s'.half i).stage = if (s.half i).pwrEn then .boot else .waitEn) ∧
    (∀ n, 1 ≤ n → n ≤ 64 → (∀ c ∈ s.cmds, c.func = n → c.phase = .journalled ∨ c.phase = .final) →
      ∃ s', exec (.functionLevelReset n) s = .next s' ∧ (∀ i, i < 2 → (s'.half i).ring n = Ring.reset ∧ ∀ j, j ≠ n → (s'.half i).ring j = (s.half i).ring j) ∧
        s'.cmds = s.cmds.filter (fun c => !(decide (c.func = n) && c.phase == .journalled)))

/-- R318, R360, R367, R370, R375, R376: SMBus and TAP: what each command reads or changes where the packet check holds, nothing where it does not, and
which of them a half in recovery answers. -/
def Obligations.Management : Prop :=
  ∀ (s : State) (h mv watts : Nat) (im : Image) (wrapped : List Byte),
    let x := s.half h
    let f := x.flash
    let bank := fun (b : Bool) => if b then { f with bankB := im } else { f with bankA := im }
    let tap := fun (ir : Nat) (out : List Word) => Host.Outcome.next { s.setHalf h { x with tapIr := ir } with readPort := out }
    h < 2 →
    (x.stage ≠ .off →
      (∃ l, l.length = s.build.dies ∧ (∀ i (hi : i < l.length), l[i] = dieStat (x.die (4 * h + i))) ∧
        exec (.smbusTelemetry h true mv watts) s = .next { s with readPort := l ++ [BitVec.ofNat 64 mv, BitVec.ofNat 64 watts, hlStat x h] }) ∧
      (∃ l, l.length = 2 * x.faults.length ∧ (∀ i (hj : i < x.faults.length),
          fld (l.getD (2 * i) 0) 0 32 = (x.faults[i]).fepoch.toNat ∧ fld (l.getD (2 * i) 0) 32 16 = (x.faults[i]).unit.toNat ∧
          l.getD (2 * i + 1) 0 = BitVec.ofNat 64 (((x.faults[i]).pos.map (· + 1)).getD 0)) ∧
        exec (.smbusFaultRecords h true) s = .next { s with readPort := l }) ∧
      exec (.smbusRecoveryImageWrite h true im) s = .next (s.setHalf h { x with flash := { bank (!f.active) with active := !f.active } }) ∧
      (∃ l, l.length = (Config.deviceKey.length + 7) / 8 ∧ exec (.smbusDeviceKey h true) s = .next { s with readPort := l }) ∧
      (x.stage ≠ .recovery →
        (∃ s', exec (.smbusResetHalf h true) s = .next s' ∧ (s'.half h).stage = (if x.pwrEn then .boot else .waitEn) ∧ (s'.half h).inReset = false ∧
          (s'.half h).epoch = x.epoch ∧ (s'.half h).rings = []) ∧
        (∃ s', exec (.smbusResetModule true) s = .next s' ∧ s'.threads = [] ∧ s'.bindings = [] ∧
          ∀ i, i < 2 → (s'.half i).epoch = (s.half i).epoch ∧ (s'.half i).stage = if (s.half i).pwrEn then .boot else .waitEn) ∧
        (∀ key, (x.key 0).key = none → Config.ecdhUnwrap wrapped = some key → key.length = 32 →
          ∃ s', exec (.smbusOwnerKey h true wrapped) s = .next s' ∧ ((s'.half h).key 0).key = some key ∧
            (s.linkUp = true → ((s'.half (1 - h)).key 0).key = some key)) ∧
        ((x.key 0).key.isSome = true → exec (.smbusOwnerKey h true wrapped) s = .next s)) ∧
      (x.stage = .recovery → exec (.smbusResetHalf h true) s = .next s ∧ exec (.smbusOwnerKey h true wrapped) s = .next s)) ∧
    exec (.smbusTelemetry h false mv watts) s = .next s ∧ exec (.smbusFaultRecords h false) s = .next s ∧
    exec (.smbusResetHalf h false) s = .next s ∧ exec (.smbusResetModule false) s = .next s ∧
    exec (.smbusRecoveryImageWrite h false im) s = .next s ∧ exec (.smbusDeviceKey h false) s = .next s ∧ exec (.smbusOwnerKey h false wrapped) s = .next s ∧
    exec (.jtagBypass h) s = tap 0 [0] ∧ exec (.jtagIdcode h) s = tap 1 [0x0C31254F] ∧ (∃ o, exec (.jtagSamplePreload h) s = tap 2 o) ∧
    (x.pin = true → exec (.jtagExtest h) s = tap 3 []) ∧ (x.pin = false → exec (.jtagExtest h) s = tap 0 [0])

/-! ### Collectives -/

/-- R243: OPEN sets the open epoch of the group to (STEP, ATTEMPT) in both halves' engines and ends with DONE; a pair that is not above the open one ends
with EPOCH; no bucket of a former epoch stays in flight at this member, and those that were end with EPOCH. -/
def Obligations.OpeningAnEpoch : Prop :=
  ∀ (s : State) (c : Nat) (m : CollCmd) (rest : List CollCmd) (g : Group),
    let k := s.core c
    let h := halfOfCore c
    let taken := s.setCore c { k with collQ := rest }
    let isAbove := ∀ q, g.epoch = some q → q.1 < m.step ∨ (q.1 = m.step ∧ q.2 < m.attempt)
    let former := fun (y : Bucket) => y.gid = m.gid ∧ ¬ (y.step = m.step ∧ y.attempt = m.attempt)
    k.collQ = m :: rest → (s.engine h).inFlight < 4096 → (s.freeId h).isSome = true → m.op = .openE →
    (s.cutOff m.b = true → exec (.collectiveSlotDequeue c) s = .next s) ∧ (s.cutOff m.b = false → taken.group h m.b m.gid = some g → g.me.role ≠ 2 →
    (¬ isAbove → exec (.collectiveSlotDequeue c) s = .next (taken.endColl h m 6 0)) ∧
    (isAbove → ∃ s' : State, exec (.collectiveSlotDequeue c) s = .next (s'.endColl h m 1 0) ∧
      (∀ i, i < 2 → i = h ∨ s.linkUp = true →
        FMap.get none (s'.engine i).groups m.gid = some { g with epoch := some (m.step, m.attempt), opened := true }) ∧
      (∀ i, i < 2 → ∀ y ∈ (s'.engine i).buckets, ¬ former y) ∧
      (∀ i, i < 2 → ∀ y ∈ (s.engine i).buckets, former y → ⟨y.gid, y.step, y.attempt, y.bseq, 6⟩ ∈ (s'.engine i).ended)))

/-- R239-R242, R244, R245, R247, R251, R256-R258, R261, R263: how a command of a core's collective queue starts: a bucket waits QUEUED, CLOSE, PUBLISH,
gathers and posts wait; an observer, a passed pair and a bad record end with ROLE, EPOCH and CONFIG. A command that ends leaves its status in CSTAT,
ends the operation of its ticket, and raises CIRQ where its record asks. -/
def Obligations.CollectiveCommands : Prop :=
  (∀ (s : State) (c : Nat) (m : CollCmd) (rest : List CollCmd) (g : Group),
    let k := s.core c
    let h := halfOfCore c
    let taken := s.setCore c { k with collQ := rest }
    let e := s.engine h
    let spoilt := fun (st : Nat) => exec (.collectiveSlotDequeue c) s = .next ((taken.spoil h m).endColl h m st 0)
    let ends := fun (st : Nat) => exec (.collectiveSlotDequeue c) s = .next (taken.endColl h m st 0)
    let r := bucketReq g m
    let isNow := g.opened = true ∧ g.epoch = some (m.step, m.attempt)
    let post := fun (id : Nat) => { taken.setEngine h { e.giveId id with
      posts := e.posts ++ [⟨m, id, s.posted, m.gid, m.peer, m.tag, m.buf, m.nbytes, none, 0, []⟩] } with posted := s.posted + 1 }
    let badPost := g.members.length ≤ m.peer ∨ 2 ^ 16 ≤ m.tag ∨ m.nbytes = 0 ∨ 2 ^ 32 < m.nbytes
    (k.collQ = [] → exec (.collectiveSlotDequeue c) s = .next s) ∧
    (k.collQ = m :: rest → 4096 ≤ e.inFlight → exec (.collectiveSlotDequeue c) s = .next s) ∧
    (k.collQ = m :: rest → s.startWaits h m ≠ none ∨ s.freeId h = none ∨ ((m.op = .send ∨ m.op = .recv) ∧ 4096 ≤ e.unmatched) →
      exec (.collectiveSlotDequeue c) s = .next s) ∧
    (∀ id, k.collQ = m :: rest → e.inFlight < 4096 → s.freeId h = some id → s.startWaits h m = none →
      (m.op = .send ∨ m.op = .recv → e.unmatched < 4096) → (m.op = .openE → s.cutOff m.b = false) →
      (taken.group h m.b m.gid = none → ends 8) ∧
      (taken.group h m.b m.gid = some g →
        (m.op = .bucket →
          (g.me.role = 2 → ends 7) ∧
          (g.me.role ≠ 2 → ¬ isNow → spoilt 6) ∧
          (g.me.role ≠ 2 → isNow → r.ok = false → spoilt 8) ∧
          (∀ split t, g.me.role ≠ 2 → isNow → r.ok = true →
            (r.all = true ∧ split = [] ∧ t = taken) ∨ (∃ l, r.all = false ∧ taken.collRead m r.splitAt (4 * g.members.length) = (.ok l, t) ∧
              split = (upto g.members.length).map (fun i => bytesAt l (4 * i) 4)) →
            (let sumOk := split.sum = r.elems ∧ ∀ i, i < g.members.length → (g.members.getD i ⟨0, 0, 0⟩).role = 2 → split.getD i 0 = 0
             (r.all = false → ¬ sumOk → exec (.collectiveSlotDequeue c) s = .next ((t.spoil h m).endColl h m 8 0)) ∧
             (r.all = true ∨ sumOk →
               (∀ st, t.endedStatus m.gid m.step m.attempt r.bseq = some st → exec (.collectiveSlotDequeue c) s = .next (t.endColl h m st 0)) ∧
               (t.endedStatus m.gid m.step m.attempt r.bseq = none → t.findBucket m.gid m.step m.attempt r.bseq = none →
                 exec (.collectiveSlotDequeue c) s = .next (t.setEngine h { t.engine h with
                   buckets := (t.engine h).buckets ++ [{ Bucket.placeholder m.gid m.step m.attempt r.bseq with cmd := some m, split := split }] })) ∧
               (∀ i j kk, t.endedStatus m.gid m.step m.attempt r.bseq = none → t.findBucket m.gid m.step m.attempt r.bseq = some (i, j) →
                 (t.engine i).buckets[j]? = some kk →
                 (let u := t.setEngine i { t.engine i with buckets := (t.engine i).buckets.eraseIdx j }
                  exec (.collectiveSlotDequeue c) s =
                    .next (u.setEngine h { u.engine h with buckets := (u.engine h).buckets ++ [{ kk with cmd := some m, split := split }] })))))) ∧
          (∀ er t, g.me.role ≠ 2 → isNow → r.ok = true → r.all = false → taken.collRead m r.splitAt (4 * g.members.length) = (.error er, t) →
            exec (.collectiveSlotDequeue c) s = .next ((t.spoil h m).failColl m er false))) ∧
        (m.op = .close →
          (g.me.role = 2 → ends 7) ∧
          (g.me.role ≠ 2 → ¬ isNow → ends 6) ∧
          (g.me.role ≠ 2 → isNow → (s.engine 0).closes = [] → (s.engine 1).closes = [] →
            (∃ b ∈ e.buckets, b.cmd.isSome = true ∧ b.gid = m.gid ∧ b.step = m.step ∧ b.attempt = m.attempt) → g.me.role = 1 → g.self < g.members.length →
            exec (.collectiveSlotDequeue c) s = .next (taken.setEngine h { e with closes := [⟨some m, m.gid, m.step, m.attempt, false, [], []⟩] }))) ∧
        (m.op = .publish →
          (publishOk g m = false → ends 8) ∧
          (publishOk g m = true → (g.parts.getD m.shard ⟨0, 0⟩).owner ≠ g.self → ends 7) ∧
          (publishOk g m = true → (g.parts.getD m.shard ⟨0, 0⟩).owner = g.self →
            (∃ p, s.publishedOf m.b m.gid m.shard = some p ∧ m.step ≤ p.step) ∨
              (s.closedStep m.gid m.step = false ∧ ∃ p, g.epoch = some p ∧ m.step < p.1) → ends 6) ∧
          (publishOk g m = true → (g.parts.getD m.shard ⟨0, 0⟩).owner = g.self → (∀ p, s.publishedOf m.b m.gid m.shard = some p → p.step < m.step) →
            s.closedStep m.gid m.step = true ∨ (∀ p, g.epoch = some p → p.1 ≤ m.step) →
            exec (.collectiveSlotDequeue c) s = .next (taken.setEngine h { e with publishes := e.publishes ++ [m] }))) ∧
        (m.op = .gather →
          (g.parts.length ≤ m.shard ∨ m.dst % 64 ≠ 0 ∨ m.std % 16 ≠ 0 ∨ m.field 28 4 / 1024 ≠ 0 ∨ m.field 28 4 / 128 % 2 ≠ 0 ∨
            taken.inOwnPress m.core m.std 16 = false ∨ taken.inOwnPress m.core m.dst 0 = false → ends 8) ∧
          (m.shard < g.parts.length → m.dst % 64 = 0 → m.std % 16 = 0 → m.field 28 4 / 1024 = 0 → m.field 28 4 / 128 % 2 = 0 →
            taken.inOwnPress m.core m.std 16 = true → taken.inOwnPress m.core m.dst 0 = true →
            (let x : Gather := ⟨m, id, true, m.gid, m.shard, none, 0, 0, 0, []⟩
             let part := g.parts.getD m.shard ⟨0, 0⟩
             (part.owner ≠ g.self →
               exec (.collectiveSlotDequeue c) s = .next ((taken.setEngine h { e.giveId id with gathers := e.gathers ++ [x] }).sendMember
                 h m.b g part.owner .greq (wordAt m.shard) id (.greq (.gather m.gid m.shard m.gplanes m.verify id)))) ∧
             (part.owner = g.self → s.publishedOf m.b m.gid m.shard = none → ends 9) ∧
             (∀ p stamp l, part.owner = g.self → s.publishedOf m.b m.gid m.shard = some p →
               taken.serve p part.elems m.gplanes m.verify = .ok (stamp, l) →
               exec (.collectiveSlotDequeue c) s = .next ((taken.setEngine h { e with gathers := e.gathers ++ [{ x with got := l }] }).gatherStamp
                 h { x with got := l } stamp p.nfmt p.planes l.length part.elems))))) ∧
        (m.op = .recv →
          (badPost → ends 8) ∧
          (¬ badPost → m.peer ≠ g.self →
            exec (.collectiveSlotDequeue c) s = .next ((post id).sendMember h m.b g m.peer .greq 0 id (.greq (.recv m.gid g.self m.tag m.nbytes id)))) ∧
          (¬ badPost → m.peer = g.self → (∀ i, i < 2 → ∀ p ∈ (s.engine i).posts, p.cmd.op ≠ .send) →
            exec (.collectiveSlotDequeue c) s = .next { post id with recvs := s.recvs ++ [⟨m.b, m.gid, g.self, m.tag, m.nbytes, id⟩] })) ∧
        (m.op = .send →
          (badPost → ends 8) ∧
          (¬ badPost → s.recvs = [] → exec (.collectiveSlotDequeue c) s = .next (post id)))))) ∧
  (∀ (s : State) (h : Nat) (m : CollCmd) (status count : Nat), status < 2 ^ 24 → count < 2 ^ 40 →
    let s' := s.endColl h m status count
    let at' := m.recAt.toNat + 8
    s'.readNat at' 8 = status + count * 2 ^ 24 ∧ (∀ a, a < at' ∨ at' + 8 ≤ a → s'.byte a = s.byte a) ∧
    (s'.thread m.g).cirq = ((s.thread m.g).cirq || m.irq) ∧ (∀ g, g ≠ m.g → s'.thread g = s.thread g) ∧
    (∀ tk, tk ≠ m.tk → (s'.thread m.g).ticket tk = (s.thread m.g).ticket tk) ∧
    FMap.get 0#16 (s'.engine h).late m.b = (if status = 4 then satAdd (FMap.get 0#16 (s.engine h).late m.b) 1 else FMap.get 0#16 (s.engine h).late m.b))

/-- R245, R251-R253, R255, R257, R260, R261: a bucket leaves QUEUED for its exponent pass, or for its sum pass where it is a maximum or minimum; one whose
parameters differ ends with CONFIG; what still waits when WINDOW expires ends LATE, and a CLOSE FAILED; a PUBLISH whose step is closed sets the copy
with its digest. -/
def Obligations.CollectiveEvents : Prop :=
  ∀ (s : State) (h n : Nat), h < 2 →
    let e := s.engine h
    let late := fun (t : State) (b : Nat) (g : Group) (k : Bucket) => ∃ u : State, t = u.endBucket h n k 4 0 ∧
      u = s.setEngine h { e with outbox := e.outbox ++ ((upto g.members.length).filter (fun m =>
        decide (m ≠ g.self) && decide ((g.members.getD m ⟨0, 0, 0⟩).ccnt ≠ 0))).map (fun m =>
          ⟨b, (g.members.getD m ⟨0, 0, 0⟩).partner, .verdict, wordAt k.step, BitVec.ofNat 16 k.bseq, .verdict k.gid k.attempt (.bucket 4)⟩) }
    (∀ x, s.liveRun h n = some x →
      (let active := (e.buckets.filter (fun k => k.cmd.isSome && decide (k.gid = x.k.gid) && decide (k.phase ≠ .queued))).length
       let setTo := fun (s' : State) (k' : Bucket) => exec (.bucketDequeue h n) s = .next s' ∧ (s'.engine h).buckets = e.buckets.set n k' ∧
         s'.mem = s.mem ∧ s'.threads = s.threads ∧ k'.cmd = x.k.cmd ∧ k'.heard = x.k.heard
       let ready := x.k.phase = .queued ∧ active < 16
       (x.k.phase ≠ .queued → exec (.bucketDequeue h n) s = .next (s.moveBucket h n)) ∧
       (x.k.phase = .queued → 16 ≤ active → exec (.bucketDequeue h n) s = .next s) ∧
       (ready → x.mismatch = true → exec (.bucketDequeue h n) s = .next (s.endBucket h n x.k 8 0)) ∧
       (ready → x.mismatch = false → (∃ l, (x.contribs s).1 = .ok l) →
         (x.r.rop = 0 → x.g.me.ccnt ≠ 0 → (∃ b, b < x.r.nblk ∧ x.k.agreedAt b = none ∧ b ∉ x.ownBlocks) →
           ∃ s' k', setTo s' k' ∧ k'.phase = .exponent ∧ (∀ b ∈ x.ownBlocks, (k'.expOf b).2 = (x.k.expOf b).2 + x.g.me.ccnt) ∧
             (∀ b, b ∉ x.ownBlocks → k'.agreedAt b = x.k.agreedAt b)) ∧
         (x.r.rop ≠ 0 → (∃ b ∈ x.ownBlocks, (x.k.sum b).ncon + x.g.me.ccnt ≠ x.g.total) →
           ∃ s' k', setTo s' k' ∧ k'.phase = .sum ∧ ∀ b ∈ x.ownBlocks, (k'.sum b).ncon = (x.k.sum b).ncon + x.g.me.ccnt)) ∧
       (x.ownBlocks ≠ [] → x.k.phase ≠ .queued ∨ x.k.heard ≠ [] →
         ∃ s', exec (.bucketWindowExpiry h n) s = .next s' ∧ late s' x.c.b x.g x.k) ∧
       (x.ownBlocks = [] → x.g.me.ccnt = 0 ∨ x.r.rop ≠ 0 → exec (.bucketWindowExpiry h n) s = .next s) ∧
       (x.ownBlocks = [] → x.g.me.ccnt ≠ 0 → x.r.rop = 0 →
         ((∃ b, b < x.r.nblk ∧ x.k.agreedAt b = none) → exec (.bucketWindowExpiry h n) s = .next (s.endBucket h n x.k 4 0)) ∧
         ((∀ b, b < x.r.nblk → (x.k.agreedAt b).isSome = true) → exec (.bucketWindowExpiry h n) s = .next s)))) ∧
    (∀ k g, e.buckets[n]? = some k → s.liveRun h n = none → FMap.get none e.groups k.gid = some g →
      ∃ s', exec (.bucketWindowExpiry h n) s = .next s' ∧ late s' g.binding g k) ∧
    (∀ k c g, e.closes[n]? = some k → k.cmd = some c → s.group h c.b k.gid = some g →
      ∃ s' : State, exec (.closeWindowExpiry h n) s = .next (s'.endColl h c 5 0) ∧ s'.mem = s.mem ∧ s'.threads = s.threads ∧ (s'.engine h).closed = e.closed ∧
        (s'.engine h).closes = e.closes.filter (fun y => !y.key k.gid k.step k.attempt) ∧
        (∀ m ∈ closers g, m ≠ g.self → (⟨c.b, (g.members.getD m ⟨0, 0, 0⟩).partner, .verdict, wordAt k.step, 0,
          .verdict k.gid k.attempt (.close k.nbkt false g.self)⟩ : OutMsg) ∈ (s'.engine h).outbox) ∧
        (g.epoch = some (k.step, k.attempt) → ∀ i, i < 2 → i = h ∨ s.linkUp = true → FMap.get none (s'.engine i).groups k.gid = some { g with opened := false })) ∧
    (∀ p, e.posts[n]? = some p → p.matched ≠ none → exec (.postWindowExpiry h n) s = .next s) ∧
    (∀ p g, e.posts[n]? = some p → p.matched = none → s.group h p.cmd.b p.gid = some g →
      (let gone := (s.setEngine h { e with posts := e.posts.filter (fun q => q.id != p.id) }).endColl h p.cmd 4 0
       (p.cmd.op = .send → exec (.postWindowExpiry h n) s = .next gone) ∧
       (p.cmd.op = .recv → p.peer = g.self →
         exec (.postWindowExpiry h n) s = .next { gone with recvs := s.recvs.filter (fun a => a.cmd != p.id) }) ∧
       (p.cmd.op = .recv → p.peer ≠ g.self →
         exec (.postWindowExpiry h n) s = .next (gone.sendMember h p.cmd.b g p.peer .greq 0 p.id (.greq (.withdraw p.gid g.self p.id)))))) ∧
    (∀ x, e.gathers[n]? = some x →
      (x.live = false → exec (.gatherWindowExpiry h n) s = .next s) ∧
      (x.live = true → exec (.gatherWindowExpiry h n) s = .next ((s.setEngine h { e with
        gathers := if x.whole then e.gathers.filter (fun y => y.id != x.id)
          else e.gathers.map (fun y => if y.id = x.id then { x with live := false } else y) }).endColl h x.cmd 4 0))) ∧
    (∀ c g, e.publishes[n]? = some c → s.group h c.b c.gid = some g →
      (let closed := (c.gid, c.step) ∈ (s.engine 0).closed ∨ (c.gid, c.step) ∈ (s.engine 1).closed
       let took := s.setEngine h { e with publishes := e.publishes.eraseIdx n }
       let fl := publishFlags c
       let p : Published := ⟨c.b, c.gid, c.shard, c.step, 0, wordAt (c.field 32 8), c.field 40 8, wordAt (c.field 48 8), fl.1, fl.2, c.core, c.prv⟩
       (¬ closed → exec (.publishProceed h n) s = .next s) ∧
       (∀ er, closed → (∀ q, s.publishedOf c.b c.gid c.shard = some q → q.step < c.step) →
         took.readCopy p (copyPieces p (g.parts.getD c.shard ⟨0, 0⟩).elems fl.2) = .error er →
         exec (.publishProceed h n) s = .next (if er.waits.isSome then s else took.failColl c er false)) ∧
       (∀ bytes, closed → (∀ q, s.publishedOf c.b c.gid c.shard = some q → q.step < c.step) →
         took.readCopy p (copyPieces p (g.parts.getD c.shard ⟨0, 0⟩).elems fl.2) = .ok bytes →
         ∃ s' : State, exec (.publishProceed h n) s = .next (s'.endColl h c 1 0) ∧ s'.mem = s.mem ∧ s'.threads = s.threads ∧
           (s'.engine h).publishes = e.publishes.eraseIdx n ∧ s'.publishedOf c.b c.gid c.shard = some { p with digest := crc32c bytes }) ∧
       (closed → (∃ q, s.publishedOf c.b c.gid c.shard = some q ∧ c.step ≤ q.step) →
         exec (.publishProceed h n) s = .next (took.endColl h c 6 0))))

/-- R244, R245, R249, R251, R252, R255, R259-R261, R273, R352: what another member's packet does: an exponent record, agreed exponents or lanes of a pair
that is not the open one are dropped and counted; else exponents take the larger and lanes are added; a verdict ends its bucket; a request is
answered; and a rollback notice stops the binding. -/
def Obligations.CollectiveReceives : Prop :=
  ∀ (s : State) (p : Nat) (k : Packet) (rest : List Packet) (g : Group) (sub : SubHdr) (crc : BitVec 32) (elems rop : Nat),
    let h := portHalf p
    let popped := s.setPort p { s.port p with rxQ := rest
                                              owed := FMap.set 0 (s.port p).owed (packetVc k) (FMap.get 0 (s.port p).owed (packetVc k) + packetUnits k) }
    let step := k.rw2.toNat
    let bseq := k.xtag.toNat
    let live := fun (attempt : Nat) => g.opened = true ∧ g.epoch = some (step, attempt) ∧ s.endedStatus sub.gid step attempt bseq = none
    let dropped := popped.countDrop h k.dbind
    let e := s.engine h
    let fresh := (s.engine 0).buckets = [] ∧ (s.engine 1).buckets = []
    let new := fun (kk : Bucket) => popped.setEngine h { e with buckets := [kk] }
    let sender := s.memberOf h k.dbind g k.sdev k.sbind
    let heard := match sender with
      | some m => [m]
      | none => []
    let blank : Bucket := { Bucket.placeholder sub.gid step sub.attempt bseq with heard := heard }
    let key : FlowKey := ⟨k.dbind, k.sdev, k.sbind, .verdict⟩
    let f := s.flow key
    let inOrder := k.psn = f.expPsn ∧ f.held = [] ∧ s.partnerNo h k.dbind k.sdev k.sbind ≠ none
    let seen := popped.setFlow { f with sinceAck := f.sinceAck + 1, lastPath := k.path, lastCong := k.cong, expPsn := f.expPsn + 1 }
    let grouped := s.group h k.dbind sub.gid = some g
    p < 24 → (s.port p).rxQ = k :: rest → k.hops.length ≤ k.hidx → k.crcOk = true →
    (∀ l, grouped → k.ptype = .exp → k.body = .exps sub crc elems rop l →
      (sub.owner = g.self →
        (¬ live sub.attempt → exec (.expReceive p) s = .next dropped) ∧
        (live sub.attempt → fresh → ∃ kk, exec (.expReceive p) s = .next (new kk) ∧
          kk = { blank with cfgs := [⟨elems, rop, crc, 0⟩], expIn := kk.expIn } ∧
          (∀ i (hi : i < l.length), (kk.expOf (sub.blk + i)).2 = sub.ncon ∧ (kk.expOf (sub.blk + i)).1 = maxExp 0x8000#16 l[i]))) ∧
      (sub.owner ≠ g.self →
        (¬ live sub.attempt → exec (.agreedExponentReceive p) s = .next dropped) ∧
        (live sub.attempt → fresh → exec (.agreedExponentReceive p) s = .next dropped) ∧
        (∀ kk, live sub.attempt → e.buckets = [kk] → (s.engine (1 - h)).buckets = [] → kk.cmd = none → kk.key sub.gid step sub.attempt bseq = true →
          ∃ kk', exec (.agreedExponentReceive p) s = .next (new kk') ∧ kk' = { kk with agreed := kk'.agreed } ∧
            (∀ i (hi : i < l.length), kk'.agreedAt (sub.blk + i) = some l[i]) ∧
            (∀ b, b < sub.blk ∨ sub.blk + l.length ≤ b → kk'.agreedAt b = kk.agreedAt b)))) ∧
    (∀ l, grouped → k.ptype = .lanes → k.body = .lanes sub l →
      (¬ live sub.attempt → exec (.lanesReceive p) s = .next dropped) ∧
      (live sub.attempt → fresh → ∃ kk, exec (.lanesReceive p) s = .next (new kk) ∧ kk = { blank with sums := kk.sums } ∧
        (∀ i (hi : i < l.length), kk.sum (sub.blk + i) = ⟨l[i].lanes, l[i].res, l[i].nanf, sub.ncon⟩ ∨
          (l[i].res = [] ∧ (kk.sum (sub.blk + i)).lanes = l[i].lanes ∧ (kk.sum (sub.blk + i)).ncon = sub.ncon)))) ∧
    (∀ attempt st, grouped → k.ptype = .verdict → k.body = .verdict sub.gid attempt (.bucket st) → inOrder →
      (¬ live attempt → exec (.verdictReceive p) s = .next (seen.countDrop h k.dbind)) ∧
      (live attempt → fresh →
        exec (.verdictReceive p) s = .next (seen.setEngine h { e with ended := ⟨sub.gid, step, attempt, bseq, st⟩ :: e.ended }))) ∧
    (∀ gid attempt m, k.ptype = .verdict → k.body = .verdict gid attempt (.rollback m) → inOrder → (s.binding k.dbind).stop = false →
      ∃ s', exec (.rollbackNoticeReceive p) s = .next s' ∧ (s'.binding k.dbind).stop = true ∧ (s'.binding k.dbind).phase = .stopped ∧
        (∀ t, s.bindingOf (coreOf t) = some k.dbind → (s'.thread t).run = .idle) ∧
        (∀ t, s.bindingOf (coreOf t) ≠ some k.dbind → s'.thread t = s.thread t) ∧ s'.mem = s.mem) ∧
    (∀ gid member tag bytes cmd,
      (let gk : FlowKey := ⟨k.dbind, k.sdev, k.sbind, .dataGreq⟩
       let gf := s.flow gk
       k.ptype = .greq → k.body = .greq (.recv gid member tag bytes cmd) → k.psn = gf.expPsn → gf.held = [] → s.partnerNo h k.dbind k.sdev k.sbind ≠ none →
       (s.engine 0).posts = [] → (s.engine 1).posts = [] →
       exec (.greqReceive p) s = .next { popped.setFlow { gf with sinceAck := gf.sinceAck + 1, lastPath := k.path, lastCong := k.cong, expPsn := gf.expPsn + 1 }
         with recvs := s.recvs ++ [⟨k.dbind, gid, member, tag, bytes, cmd⟩] }))

/-! ### Kuwick commands -/

/-- R315, R321-R324, R327, R331, R352: a command of a function starts only behind the commands ahead of it; NOP, QUERY, LAUNCH with its registers and its
end, ABORT with its decision; final records are posted in SEQ order, with their slot and phase bit. That a command runs as one step is the model's
choice (log 2), and so is the layout of QUERY's words (log 39). -/
def Obligations.BindingCommands : Prop :=
  ∀ (s : State) (f seq : Nat) (c : Cmd),
    let b := f - 1
    let x := s.binding b
    let may := fun (opc : Nat) => s.toStart f seq opc = some c
    let ends := fun (i : Instr) (status detail : Nat) => exec i s = .next (s.endCmd c status 0 detail [])
    let done := fun (i : Instr) (t : State) => exec i s = .next (t.doneCmd c)
    (∀ opc, may opc → c.func = f ∧ c.seq = seq ∧ c.opc = opc ∧ c.phase = .accepted ∧ (f ≠ 0 → x.stop = false) ∧
      ∀ d ∈ s.cmds, d.func = f → d.seq < seq → d.phase ≠ .journalled ∧ d.phase ≠ .accepted) ∧
    (∀ (t : State) st u det res, t.endCmd c st u det res = { t with
      cmds := t.cmds.map (fun (d : Cmd) => if d.func = c.func ∧ d.seq = c.seq then { c with phase := .ended, status := st, unit := u, detail := det, result := res } else d) }) ∧
    (may 0x01 → done (.nopCommand f seq) s) ∧
    (may 0x02 → ∃ l : List Word, done (.query f seq) { s with readPort := l } ∧ l.length ≤ c.arg 32 4 / 8 ∧
      (c.arg 40 4 = 0 → 24 ≤ c.arg 32 4 → l = [BitVec.ofNat 64 s.build.code, 0, Config.serial]) ∧
      (c.arg 40 4 = 2 → 192 ≤ c.arg 32 4 → ∀ p, p < 24 → l[p]? = some (skPort (s.port p))) ∧
      (c.arg 40 4 = 4 → 128 ≤ c.arg 32 4 → ∀ k, k < 16 → l[k]? = some (BitVec.ofNat 64 ((s.half (s.posterOf c)).key k).ctrHi))) ∧
    (may 0x03 → c.launchList ≠ [] → ∃ s', exec (.launch f seq) s = .next s' ∧
      s'.cmds = s.cmds.map (fun (d : Cmd) => if d.func = c.func ∧ d.seq = c.seq then { c with phase := .running } else d) ∧ s'.mem = s.mem ∧
      (∀ g, g ∉ c.launchList → s'.thread g = s.thread g) ∧
      (∀ i g, c.launchList[i]? = some g →
        (let t := s'.thread g
         t.run = .run ∧ t.launch = some c.jseq ∧ t.pc = BitVec.ofNat 64 (c.arg 40 8) ∧ t.estat.prv = BitVec.ofNat 2 (c.arg 66 1) ∧
         t.reg 1 = ⟨.ptr, BitVec.ofNat 64 (c.arg 48 8)⟩ ∧ t.reg 2 = ⟨.int, BitVec.ofNat 64 i⟩ ∧
         t.reg 3 = ⟨.int, BitVec.ofNat 64 c.launchList.length⟩ ∧ t.reg 30 = t.reg 31 ∧ (t.reg 30).tag = .ptr ∧
         (∀ j, j < 64 → ((s'.core (coreOf g)).desc (tidOf g * 64 + j)).live = none)))) ∧
    (s.cmd f seq = some c → c.opc = 0x03 → c.phase = .running → (f ≠ 0 → x.stop = false) → c.status = 0 → s.launchHalf c = s.posterOf c →
      (∀ g ∈ c.launchList, (s.thread g).run = .idle ∧ (s.thread g).trap = none) →
      exec (.launch f seq) s = .next (s.setCmd (if c.result = [] then
        { c with phase := .ended, status := 1, result := leBytes 8 (2 ^ 64 - 1) ++ leBytes 8 0 } else { c with phase := .ended, status := 8 }))) ∧
    (∀ t, s.cmd c.func (c.arg 40 8) = some t → t.seq < c.seq →
      (t.phase = .accepted → s.decideAbort c = (s.endCmd t 2 0 0 []).setCmd { c with status := 2 }) ∧
      (t.phase = .ended ∨ t.phase = .final → s.decideAbort c = s.setCmd { c with status := 3 }) ∧
      (t.phase = .running → t.opc ≠ 0x03 → s.decideAbort c = s.setCmd { c with status := 3 }) ∧
      (t.phase = .running → t.opc = 0x03 → ∀ g, (s.thread g).launch = some t.jseq → ((s.decideAbort c).thread g).run = .idle)) ∧
    (may 0x04 → ends (.abort f seq) c.status 0) ∧
    (s.cmd f seq = some c → c.phase = .ended → (s.half (s.posterOf c)).ready = true →
      (let r := (s.half (s.posterOf c)).ring f
       let n := 2 ^ r.logn.toNat
       let turn := ∀ d ∈ s.cmds, d.func = f → d.seq < seq → d.phase = .final
       (¬ turn → exec (.commandFinal f seq) s = .next s) ∧
       (f ≠ 0 → x.stop = true → exec (.commandFinal f seq) s = .next s) ∧
       (turn → (f ≠ 0 → x.stop = false) → r.cqEn = true → ∃ s', exec (.commandFinal f seq) s = .next s' ∧
         s'.cq = s.cq ++ [⟨f, 2 * (seq % n) + 1, seq, decide ((seq / n + 1) % 2 = 1), false, .final, c.status, c.unit, c.detail, c.result⟩] ∧
         s'.cmds = s.cmds.map (fun (d : Cmd) => if d.func = f ∧ d.seq = seq then { c with phase := .final } else d) ∧ s'.mem = s.mem ∧ s'.threads = s.threads ∧
         s'.msix = s.msix ++ (if bitAt (BitVec.ofNat 64 (c.arg 0 8)) 54 then [(f, 0)] else []))))

/-- R325: IRQ_SET sets the interrupt thread of the binding on all its cores; the default is thread 0; interrupt 0x21 is pending on that thread, and on no
other, while KW_DBSTAT of its core is not zero. -/
def Obligations.InterruptThread : Prop :=
  (∀ (s : State) (f seq : Nat) (c : Cmd), s.toStart f seq 0x05 = some c →
    (let t := s.setBinding (f - 1) { s.binding (f - 1) with irqThread := c.arg 40 1 }
     exec (.irqSet f seq) s = .next (t.doneCmd c) ∧
     ∀ g, s.bindingOf (coreOf g) = some (f - 1) → ((t.doneCmd c).isIrqThread g = true ↔ tidOf g = c.arg 40 1))) ∧
  Binding.empty.irqThread = 0 ∧
  (∀ (s : State) (g : Nat), (s.ipend g).getLsbD 1 = true ↔ s.isIrqThread g = true ∧ (s.core (coreOf g)).dbstat ≠ 0)

/-- R189-R191, R238, R277, R279, R289, R320, R321: RACK flips the active bank of its binding, and waits for the half link where the binding has cores in
both halves (log 142); PARTNER_LOAD writes the routes of the shadow bank in both halves while the link is UP, else in its own, and is refused where a
path is bad or an entry would name another partner; GROUP_SET writes a record likewise, or is refused, or finds no room. The DETAIL of a refusal whose
rule names none is the model's choice (log 50). -/
def Obligations.PartnersAndGroups : Prop :=
  ∀ (s : State) (f seq : Nat) (c : Cmd),
    let b := f - 1
    let x := s.binding b
    let may := fun (opc : Nat) => s.toStart f seq opc = some c
    let ends := fun (i : Instr) (status detail : Nat) => exec i s = .next (s.endCmd c status 0 detail [])
    let done := fun (i : Instr) (t : State) => exec i s = .next (t.doneCmd c)
    let h := s.posterOf c
    let copied := fun (i : Nat) => i < 2 ∧ (i = h ∨ s.linkUp = true)
    (may 0x06 → s.spans b = true → s.linkUp = false → exec (.rack f seq) s = .next s) ∧
    (may 0x06 → s.spans b = false ∨ s.linkUp = true → done (.rack f seq) (s.setBinding b { x with ptAct := !x.ptAct, flips := x.flips + 1 })) ∧
    (may 0x07 →
      (let rs := partRecs c
       let routes := rs.all (fun e => e.2.routesOk s.devid)
       let names := rs.all (fun e => e.2.keepsName b (FMap.get Partner.invalid (s.half h).partners0 e.1))
       (routes = false → ends (.partnerLoad f seq) 11 274) ∧
       (routes = true → names = false → ends (.partnerLoad f seq) 11 189) ∧
       (routes = true → names = true → ∃ s', done (.partnerLoad f seq) s' ∧
         (∀ n, (∀ e ∈ rs, e.1 ≠ n) → ∀ i, i < 2 → FMap.get Partner.invalid (s'.half i).partners0 n = FMap.get Partner.invalid (s.half i).partners0 n ∧
           FMap.get Partner.invalid (s'.half i).partners1 n = FMap.get Partner.invalid (s.half i).partners1 n) ∧
         (∀ e ∈ rs, ∀ i, copied i →
           (let act := FMap.get Partner.invalid (if x.ptAct then (s'.half i).partners1 else (s'.half i).partners0) e.1
            let was := FMap.get Partner.invalid (if x.ptAct then (s.half i).partners1 else (s.half i).partners0) e.1
            let shadow := FMap.get Partner.invalid ((s'.half i).shadowBank x.ptAct) e.1
            act.np1 = was.np1 ∧ act.adpt = was.adpt ∧ act.paths = was.paths ∧ shadow.np1 = e.2.np1 ∧ shadow.adpt = e.2.adpt ∧ shadow.pdep = e.2.pdep ∧
            shadow.paths = e.2.paths.map (·.2)))))) ∧
    (may 0x08 →
      (let gid := grpGid c.buf
       let g := groupRec b c.buf
       let old := FMap.get none (s.half h).eng.groups gid
       let fits := grpFieldsOk c.buf g = true ∧ g.ok = true ∧ s.partTotal h gid + g.parts.length ≤ 524288 ∧ ∀ o, old = some o → o.binding = b
       (¬ fits → ends (.groupSet f seq) 11 233) ∧
       (fits → x.groups ≤ s.groupCount h b gid → ends (.groupSet f seq) 10 0) ∧
       (fits → s.groupCount h b gid < x.groups → ∃ s' r, done (.groupSet f seq) s' ∧
         (∀ i, copied i → FMap.get none (s'.engine i).groups gid = some r) ∧ (∀ i, i < 2 → ∀ k, k ≠ gid → FMap.get none (s'.engine i).groups k = FMap.get none (s.engine i).groups k) ∧
         r = { g with hdepth := r.hdepth, epoch := r.epoch, opened := r.opened } ∧ (old = none → r.epoch = none ∧ r.opened = false))))

/-- R335, R336, R346, R377: PREEMPT suspends the named cores of a binding and RESUME continues them, or puts back what was saved of one that has been
scrubbed; GRANT and REVOKE move granules into and out of a grant, scrubbed (at REVOKE stated where the binding maps no page, for else its tables may
go into a granule that returns); CLIENT sets what is saved where; MAP writes the tables, or is refused, or finds no room. What a save area holds, and
the refusal of a RESUME that finds none, are the model's choices (log 40). -/
def Obligations.PreemptionGrantsAndMaps : Prop :=
  ∀ (s : State) (f seq : Nat) (c : Cmd),
    let b := f - 1
    let x := s.binding b
    let may := fun (opc : Nat) => s.toStart f seq opc = some c
    let ends := fun (i : Instr) (status detail : Nat) => exec i s = .next (s.endCmd c status 0 detail [])
    let done := fun (i : Instr) (t : State) => exec i s = .next (t.doneCmd c)
    (may 0x09 →
      (let pb := c.arg 48 1
       let l := maskBytes (c.buf.take 64)
       (s.ownHbm pb (c.arg 40 8) = false → ends (.preempt f seq) 11 329) ∧
       (s.ownHbm pb (c.arg 40 8) = true → (∃ k ∈ l, (s.core k).addingStore = true) → exec (.preempt f seq) s = .next s) ∧
       (s.ownHbm pb (c.arg 40 8) = true → (∀ k ∈ l, (s.core k).addingStore = false) → ∃ s', done (.preempt f seq) s' ∧
         FMap.get none s'.saved (c.arg 40 8) = some ⟨pb, l.map (fun k => (k, s'.core k)),
           (l.flatMap (fun k => (upto 16).map (· + 16 * k))).map (fun g => (g, s.thread g))⟩ ∧ s'.threads = s.threads ∧ s'.mem = s.mem ∧
         (∀ k ∈ l, (s'.core k).suspended = true ∧ (s'.core k).tiles = (s.core k).tiles ∧ (s'.core k).banks = (s.core k).banks) ∧
         (∀ k, k ∉ l → s'.core k = s.core k)))) ∧
    (may 0x0A →
      (let rb := c.arg 48 1
       (∀ v, FMap.get none s.saved (c.arg 40 8) = some v → v.b = rb → (v.cores.map (·.1)).Nodup → ∃ s', done (.resume f seq) s' ∧
         FMap.get none s'.saved (c.arg 40 8) = none ∧ s'.mem = s.mem ∧
         (∀ e ∈ v.cores, s.bindingOf e.1 = some rb → s'.core e.1 =
           if (s.core e.1).suspended then { s.core e.1 with suspended := false } else (s.core e.1).putBack e.2) ∧
         (∀ k, k ∉ v.cores.map (·.1) ∨ s.bindingOf k ≠ some rb → s'.core k = s.core k) ∧
         ((∀ e ∈ v.cores, (s.core e.1).suspended = true) → s'.threads = s.threads) ∧
         (∀ e ∈ v.cores, s.bindingOf e.1 = some rb → (s.core e.1).suspended = false →
           ∀ t ∈ v.threads, coreOf t.1 = e.1 → (∀ q ∈ v.threads, q.1 = t.1 → q = t) → s'.thread t.1 = t.2)) ∧
       ((∀ v, FMap.get none s.saved (c.arg 40 8) = some v → v.b ≠ rb) → ends (.resume f seq) 11 335))) ∧
    (may 0x0B →
      (let n := c.arg 44 4
       let gs := maskBytes (c.buf.take 96)
       let had := FMap.get [] x.grants n
       let own := fun (g : Nat) => s.granOwner g = some b ∧ FMap.get none s.granted g = none
       let blank := fun (s' : State) (l : List Nat) => ∀ g ∈ l, ∀ a, g * 2 ^ 30 ≤ a → a < (g + 1) * 2 ^ 30 → s'.byte a = 0
       let rs := regionsOf c.buf
       let big := largestSnapshot rs
       let small := s.reserveBytes b n < 2 * (4096 + big + s.recordBytes b) ∨ c.arg 62 2 * 2 ^ 30 < big ∨
         ∃ i, i < c.arg 62 2 ∧ ¬ own (c.arg 60 2 + i)
       (c.arg 40 1 = 1 →
         (s.grantedCount + gs.length > s.build.grantLimit ∨ (∃ g ∈ gs, ¬ own g) → ends (.cellarGrant f seq) 11 338) ∧
         (s.grantedCount + gs.length ≤ s.build.grantLimit → (∀ g ∈ gs, own g) → ∃ s', done (.cellarGrant f seq) s' ∧ blank s' gs ∧
           (∀ g ∈ gs, FMap.get none s'.granted g = some n) ∧ (∀ g, g ∉ gs → FMap.get none s'.granted g = FMap.get none s.granted g) ∧
           FMap.get [] (s'.binding b).grants n = had ++ gs ∧ s'.owner = s.owner)) ∧
       (c.arg 40 1 = 3 → ∃ s', done (.cellarRevoke f seq) s' ∧ (s.leavesOf b = [] → blank s' had) ∧ (∀ g ∈ had, FMap.get none s'.granted g = none) ∧
         FMap.get [] (s'.binding b).grants n = [] ∧ s'.owner = s.owner) ∧
       (c.arg 40 1 = 2 →
         (small → ends (.cellarClient f seq) 11 338) ∧
         (¬ small → ∃ y, done (.cellarClient f seq) (s.setBinding b y) ∧
           y.cfg = some ⟨n, c.arg 48 8, c.arg 56 2, decide (c.arg 58 1 = 1), if c.arg 59 1 = 0 then 25 else c.arg 59 1, c.arg 60 2, c.arg 62 2, rs⟩ ∧
           y.phase = (if x.phase = .none then .idle else x.phase) ∧ 
           (x.cfg.map (·.partner) ≠ some n → y.slot0 = none ∧ y.slot1 = none ∧ y.lvalid = false ∧ y.lstep = 0 ∧
             y.captured = s.lastClosed (c.arg 56 2) ∧ y.drainedTo = s.lastClosed (c.arg 56 2)) ∧
           (x.cfg.map (·.partner) = some n → y.slot0 = x.slot0 ∧ y.slot1 = x.slot1 ∧ y.lvalid = x.lvalid ∧ y.lstep = x.lstep))))) ∧
    (may 0x0C →
      (let rs := mapRecs c.buf (c.arg 40 4)
       (s.mapPlan b rs = none → ends (.mapC f seq) 11 377) ∧
       (s.mapPlan b rs ≠ none → s.mapApply b rs = none → ends (.mapC f seq) 10 0) ∧
       (∀ t, s.mapPlan b rs ≠ none → s.mapApply b rs = some t → done (.mapC f seq) t)))

/-- R332, R333, R352, R354, R358: BIND makes a binding of scrubbed resources, REBIND moves them to a binding that it makes where there is none, UNBIND
frees them, RESTORE stops a binding and scrubs it; where each is refused, or finds its resources taken. The DETAIL of these refusals is the model's
choice, but for RESTORE's (log 50). -/
def Obligations.BindingsMadeAndMoved : Prop :=
  ∀ (s : State) (f seq : Nat) (c : Cmd),
    let may := fun (opc : Nat) => s.toStart f seq opc = some c
    let ends := fun (i : Instr) (status detail : Nat) => exec i s = .next (s.endCmd c status 0 detail [])
    let done := fun (i : Instr) (t : State) => exec i s = .next (t.doneCmd c)
    let b := c.arg 40 1
    let x := s.binding b
    let r := resList c.buf
    let given := fun (s' : State) (l : List Nat) (o : Option Nat) =>
      ∀ k ∈ l, s'.bindingOf k = o ∧ (s'.core k).phys = (s.core k).phys ∧ ∀ t, t < 16 → s'.thread (16 * k + t) = Thread.reset
    let bare := fun (s' : State) (l : List Nat) => ∀ g ∈ l, ∀ a, g * 2 ^ 30 ≤ a → a < (g + 1) * 2 ^ 30 → s'.byte a = 0
    let h := s.posterOf c
    let noPartners := fun (s' : State) => ∀ n, r.pfirst ≤ n → n < r.pfirst + r.pcount → ∀ i, i < 2 → i = h ∨ s.linkUp = true →
      FMap.get Partner.invalid (s'.half i).partners0 n = Partner.invalid ∧ FMap.get Partner.invalid (s'.half i).partners1 n = Partner.invalid
    (may 0x10 →
      (x.live = true → ends (.bind f seq) 11 332) ∧
      (x.live = false → s.unbound r = false → ends (.bind f seq) 10 0) ∧
      (x.live = false → s.unbound r = true → ∃ s', done (.bind f seq) s' ∧ given s' r.cores (some b) ∧ bare s' r.granules ∧ noPartners s' ∧
        (∀ k ∈ r.cores, ∀ o, o < 0x200000 → s'.byte (pressAddr k o) = 0) ∧ (∀ g ∈ r.granules, s'.granOwner g = some b) ∧
        (∀ k, k ∉ r.cores → s'.bindingOf k = s.bindingOf k) ∧ (∀ g, g ∉ r.granules → s'.granOwner g = s.granOwner g) ∧
        (∀ y, y ≠ b → s'.binding y = s.binding y) ∧
        (∀ k ∈ r.cores, (s'.core k).press = r.press) ∧
        s'.binding b = { Binding.empty with live := true, ranges := if r.pcount = 0 then [] else [(r.pfirst, r.pcount)], groups := r.groups,
                                            ttRoot := (s'.binding b).ttRoot, ttEn := (s'.binding b).ttEn, ttUsed := (s'.binding b).ttUsed })) ∧
    (may 0x11 →
      (let d := c.arg 41 1
       let y := s.binding d
       let movable := (∀ k ∈ r.cores, s.bindingOf k = some b) ∧ (∀ g ∈ r.granules, s.granOwner g = some b) ∧
         (∀ n, r.pfirst ≤ n → n < r.pfirst + r.pcount → x.ownsPartner n = true) ∧ s.groupCount h b 4096 + r.groups ≤ x.groups
       (¬ movable → ends (.rebind f seq) 10 0) ∧
       (movable → ∃ s', done (.rebind f seq) s' ∧ given s' r.cores (some d) ∧ noPartners s' ∧ (∀ k ∈ r.cores, (s'.core k).press = r.press) ∧
         (∀ g ∈ r.granules, s'.granOwner g = some d ∧ FMap.get none s'.granted g = none) ∧ (s'.binding b).live = true ∧ (s'.binding d).live = true ∧
         (b ≠ d → (s'.binding b).ranges = rangesLess x.ranges r.pfirst r.pcount ∧ (s'.binding d).ranges = rangesMore y.ranges r.pfirst r.pcount ∧
           (s'.binding b).groups = x.groups - r.groups ∧ (s'.binding d).groups = y.groups + r.groups) ∧
         (b = d → (s'.binding b).ranges = rangesMore (rangesLess x.ranges r.pfirst r.pcount) r.pfirst r.pcount) ∧
         (∀ k, k ∉ r.cores → s'.bindingOf k = s.bindingOf k) ∧ (∀ g, g ∉ r.granules → s'.granOwner g = s.granOwner g)))) ∧
    (may 0x12 →
      (x.live = false → ends (.unbind f seq) 11 332) ∧
      (x.live = true → ∃ s', done (.unbind f seq) s' ∧ s'.binding b = Binding.empty ∧ given s' (s.coresOf b) none ∧ bare s' (s.granulesOf b) ∧
        (∀ g, s.granOwner g = some b → s'.granOwner g = none) ∧ (∀ k, s.bindingOf k ≠ some b → s'.bindingOf k = s.bindingOf k) ∧
        (∀ a v, FMap.get none s'.saved a = some v → v.b ≠ b) ∧
        (∀ g, s.granOwner g ≠ some b → s'.granOwner g = s.granOwner g))) ∧
    (may 0x18 →
      (x.live = false → ends (.restore f seq) 11 358) ∧
      (x.live = true → ∃ s', exec (.restore f seq) s = .next (s'.setCmd { c with phase := .running }) ∧ (s'.binding b).stop = true ∧
        (s'.binding b).phase = .restore ∧ (s'.binding b).agreed = some (c.arg 64 8) ∧ (s'.binding b).keepnet = decide (c.arg 41 1 = 1) ∧
        (s'.binding b).restFrom = some ⟨BitVec.ofNat 20 (c.arg 44 4), c.arg 48 1, BitVec.ofNat 20 (c.arg 52 4), c.arg 56 1⟩ ∧
        given s' (s.coresOf b) (some b) ∧ bare s' ((s.granulesOf b).filter (fun g => (FMap.get none s.granted g).isNone))))

/-- R274, R295, R301, R319, R337, R338, R358, R368: what the other commands of the PF do: primacy claimed by sampling HOLD, the device identifier, keys,
EVX_MODE, tests at once or deferred, an image written to the inactive banks; and where each is refused. The DETAIL of a refusal whose rule names none
is the model's choice (log 50). -/
def Obligations.DeviceCommands : Prop :=
  ∀ (s : State) (f seq : Nat) (c : Cmd),
    let may := fun (opc : Nat) => s.toStart f seq opc = some c
    let ends := fun (i : Instr) (status detail : Nat) => exec i s = .next (s.endCmd c status 0 detail [])
    let done := fun (i : Instr) (t : State) => exec i s = .next (t.doneCmd c)
    let b := c.arg 40 1
    (∀ h late, h < 2 → s.cmd 0 seq = some c → c.opc = 0x13 → (s.half h).ready = true → c.jseq ∈ (s.half h).journal →
      (∀ d ∈ s.cmds, d.func = 0 → d.seq < seq → d.phase ≠ .accepted) →
      (let differ := s.linkUp = true ∧ s.half0.flash.image.version % 2 ^ 32 ≠ s.half1.flash.image.version % 2 ^ 32
       let x := s.half h
       (c.phase = .accepted → differ → ends (.primacySet h seq late) 11 370) ∧
       (c.phase = .accepted → ¬ differ → h ≠ c.arg 40 1 → ∃ s', exec (.primacySet h seq late) s = .next s' ∧ (s'.half h).hold = false ∧
         (s'.half h).pstate = (if x.pstate ≠ .primary then x.pstate else if s.linkUp then .follower else .split)) ∧
       (c.phase = .accepted → ¬ differ → h = c.arg 40 1 →
         (late = true → exec (.primacySet h seq late) s = .next s) ∧
         (late = false → x.pstate = .primary → done (.primacySet h seq late) s) ∧
         (late = false → x.pstate ≠ .primary → s.linkUp = false →
           ((s.half (1 - h)).hold = true → ends (.primacySet h seq late) 6 0) ∧
           ((s.half (1 - h)).hold = false → exec (.primacySet h seq late) s = .next ((s.setHold h true).setCmd { c with phase := .running }))) ∧
         (late = false → x.pstate ≠ .primary → s.linkUp = true → ∃ s' : State, exec (.primacySet h seq late) s = .next (s'.setCmd { c with phase := .running }) ∧
           (s'.half h).hold = true ∧ (s'.half (1 - h)).hold = false ∧ (s'.half (1 - h)).pstate ≠ .primary)) ∧
       (c.phase = .running → late = true → h = c.arg 40 1 →
         (h = 1 → s.half0.hold = true → exec (.primacySet h seq late) s = .next ((s.setHold h false).endCmd c 6 0 0 [])) ∧
         (h = 0 ∨ s.half0.hold = false → ∃ s', done (.primacySet h seq late) s' ∧ (s'.half h).pstate = .primary ∧ (s'.half h).hold = true ∧
           (s.linkUp = false → (s'.half h).solo = true) ∧ (s'.half h).epoch = (if x.epoch.toNat < x.peerEpoch.toNat then x.peerEpoch else x.epoch) + 1)))) ∧
    (may 0x14 →
      ((∃ y, (s.binding y).live = true ∧ (s.binding y).ranges ≠ []) → ends (.fabricIdSet f seq) 11 269) ∧
      ((∀ y, (s.binding y).live = true → (s.binding y).ranges = []) →
        done (.fabricIdSet f seq) { s with devid := BitVec.ofNat 20 (c.arg 40 4), devValid := true })) ∧
    (may 0x15 →
      (let h := s.posterOf c
       let key := ((s.half h).key 0).key.bind (fun k => keyUnwrap k c.buf)
       let slot := fun (s' : State) (v : KeySlot → KeySlot) => (s'.half h).key b = v ((s.half h).key b) ∧
         (∀ k, k ≠ b → (s'.half h).key k = (s.half h).key k) ∧ (s.linkUp = true → h < 2 → (s'.half (1 - h)).key b = v ((s.half (1 - h)).key b)) ∧
         s'.mem = s.mem ∧ s'.threads = s.threads
       (c.arg 41 1 = 0 →
         (∀ k, key = some k → k.length = 32 → ∃ s', done (.keySet f seq) s' ∧ slot s' (fun _ => ⟨some k, 0, 0, 0⟩)) ∧
         ((∀ k, key = some k → k.length ≠ 32) → ends (.keySet f seq) 11 319)) ∧
       (c.arg 41 1 = 1 → ∃ s', done (.keyClear f seq) s' ∧ slot s' (fun k => { k with key := none })))) ∧
    (may 0x16 → done (.eventCfg f seq)
      (let h := s.posterOf c
       if s.linkUp then { s with half0 := { s.half0 with evx := BitVec.ofNat 3 b }, half1 := { s.half1 with evx := BitVec.ofNat 3 b } }
       else s.setHalf h { s.half h with evx := BitVec.ofNat 3 b, owes := true })) ∧
    (may 0x17 → ∀ t : Option Word,
      (let u := BitVec.ofNat 16 (c.arg 40 2)
       let link := unitClass u = 2 ∨ unitClass u = 3
       let fails := fun (i : Instr) (w : Word) (spare : Nat) => exec i s = .next (s.endCmd c 7 u 0 (leBytes 8 w.toNat ++ leBytes 8 spare))
       let reports := fun (i : Instr) => (t = none → done i s) ∧ (∀ w, t = some w → fails i w 0)
       let rotation := fun (i : Instr) =>
         let l := if unitClass u = 2 then [unitIdx u] else [24, 25]
         ((∀ p ∈ l, (s.port p).tested ≠ some false) → done i s) ∧ ((∃ p ∈ l, (s.port p).tested = some false) → fails i (t.getD 0) 0)
       let spare := s.nextSpare u
       let defers := fun (i : Instr) => exec i s = .next (State.endCmd
         { s with deferredTests := if u ∈ s.deferredTests then s.deferredTests else s.deferredTests ++ [u] } c 5 u 0 [])
       (c.arg 42 1 = 0 → (link → rotation (.selftest f seq t)) ∧ (¬ link → s.unitBound u = false → reports (.selftest f seq t)) ∧
         (¬ link → s.unitBound u = true → defers (.selftest f seq t))) ∧
       (c.arg 42 1 = 1 → (link → rotation (.selftestSpareOk f seq t)) ∧
         (¬ link → s.spareLeft u = true →
           (t = none → exec (.selftestSpareOk f seq t) s = .next (s.endCmd c 1 0 0 (leBytes 8 0 ++ leBytes 8 spare))) ∧
           (∀ w, t = some w → fails (.selftestSpareOk f seq t) w spare)) ∧
         (¬ link → s.spareLeft u = false → s.unitBound u = false → reports (.selftestSpareOk f seq t)) ∧
         (¬ link → s.spareLeft u = false → s.unitBound u = true → defers (.selftestSpareOk f seq t))))) ∧
    (may 0x19 → ∀ im,
      (s.linkUp = false → exec (.fwUpdate f seq im) s = .next s) ∧
      (s.linkUp = true → imageOk s.half0.flash im = true → imageOk s.half1.flash im = true → ∃ s', done (.fwUpdate f seq im) s' ∧ ∀ i, i < 2 →
        (let o := (s.half i).flash
         let w := (s'.half i).flash
         w.active = o.active ∧ w.running = o.running ∧ w.ran = o.ran ∧ w.pending = some (!o.active) ∧ w.bank (!o.active) = im ∧ w.bank o.active = o.bank o.active)) ∧
      (s.linkUp = true → imageOk s.half0.flash im = false ∨ imageOk s.half1.flash im = false → ends (.fwUpdate f seq im) 11 358))

/-! ### Registers -/

/-- R4, R126, R149, R189, R235, R236, R263, R287, R341: a read of a register with a field that clears answers the fields at their bits and clears that
field alone; a register that this build does not have leaves the module as it was. -/
def Obligations.RegisterReads : Prop :=
  ∀ (s : State) (c n h b p eng cause : Nat),
    let k := s.core c
    let x := s.half (halfOfStack n)
    let y := s.binding b
    let e := s.engine h
    let reads := fun (i : Instr) (t : State) (good : Word → Prop) => ∃ v : Word, exec i s = .next { t with readPort := [v] } ∧ good v
    (corePresent s.build c = true →
      reads (.tlStatRead c) (s.setCore c { k with redir := 0 }) (fun v =>
        fld v 48 16 = k.redir.toNat ∧ bitAt v 32 = k.sxovf ∧ bitAt v 16 = k.act ∧ (∀ i, i < 12 → bitAt v i = !(k.tile i).hold) ∧
        (∀ i, i < 2 → bitAt v (12 + i) = !(k.bank i).hold)) ∧
      reads (.vcStatRead c) (s.setCore c { k with hold := 0 }) (fun v =>
        fld v 48 16 = k.hold.toNat ∧ fld v 16 8 = min k.backlog 255 ∧ fld v 0 9 = min k.chainQ.length 256) ∧
      reads (.dsOobcntRead c) (s.setCore c { k with oobRd := 0, oobWr := 0 }) (fun v => fld v 32 32 = k.oobWr.toNat ∧ fld v 0 32 = k.oobRd.toNat) ∧
      reads (.mcParcntRead c) (s.setCore c { k with parcnt := 0 }) (fun v => v.toNat = k.parcnt.toNat) ∧
      reads (.kwDbstatRead c) (s.setCore c { k with dbstat := 0 }) (fun v => v.toNat = k.dbstat.toNat) ∧
      (eng < 7 → cause ≤ 8 → reads (.mcStallRead c eng cause) (s.setCore c { k with stalls := FMap.set 0 k.stalls (16 * eng + cause) 0 })
        (fun v => v = FMap.get 0 k.stalls (16 * eng + cause)))) ∧
    (stackPresent s.build n = true → reads (.hbStatRead n) (s.setHalf (halfOfStack n) (x.setHbm n { x.hbm n with ce := 0, ue := 0 })) (fun v =>
      fld v 48 16 = (x.hbm n).ce.toNat ∧ fld v 40 8 = (x.hbm n).ue.toNat ∧ fld v 32 8 = (x.hbm n).spused.toNat ∧ fld v 24 8 = (x.hbm n).spleft.toNat ∧
      fld v 0 2 = (x.hbm n).state.toNat)) ∧
    (b < 64 → h < 2 →
      reads (.ceStatRead b h) (s.setHalf h { s.half h with
          eng := { e with drop := FMap.set 0 e.drop b 0, late := FMap.set 0 e.late b 0, bad := FMap.set 0 e.bad b 0 } })
        (fun v => fld v 48 16 = (FMap.get 0#16 e.bad b).toNat ∧ fld v 32 16 = (FMap.get 0#16 e.late b).toNat ∧ fld v 0 32 = (FMap.get 0#32 e.drop b).toNat) ∧
      reads (.skRxerrRead b h) (s.setBinding b { y with ecrc := FMap.set 0 y.ecrc h 0, unauth := FMap.set 0 y.unauth h 0 })
        (fun v => fld v 32 32 = (FMap.get 0#32 y.unauth h).toNat ∧ fld v 0 32 = (FMap.get 0#32 y.ecrc h).toNat)) ∧
    (h < 2 → (s.half h).keyTable.length ≤ 1024 → reads (.skBcnRead h) (s.setHalf h { s.half h with bcnAbs := 0, bcnOvf := 0 }) (fun v =>
      fld v 32 32 = (s.half h).bcnAbs.toNat ∧ fld v 16 16 = (s.half h).bcnOvf.toNat ∧ fld v 0 11 = (s.half h).keyTable.length)) ∧
    (p < 24 → reads (.skLinkerrRead p) (s.setPort p { s.port p with replay := 0, lfail := 0, retrain := 0 }) (fun v =>
      fld v 48 16 = (s.port p).retrain.toNat ∧ fld v 32 16 = (s.port p).lfail.toNat ∧ fld v 0 32 = (s.port p).replay.toNat)) ∧
    (corePresent s.build c = false → ∀ i ∈ [Instr.tlStatRead c, .vcStatRead c, .dsOobcntRead c, .mcParcntRead c, .kwDbstatRead c, .mcStallRead c eng cause],
      exec i s = .next s) ∧
    (stackPresent s.build n = false → exec (.hbStatRead n) s = .next s)

/-- R4, R5, R43, R44, R60, R63, R126, R211, R235, R263, R307, R311, R312, R341: what a write of a register sets, clears or leaves; the interrupt that an
event register holds pending ends with its last bit. -/
def Obligations.RegisterWrites : Prop :=
  ∀ (s : State) (g c h ep f : Nat) (v : Word) (tag : Tag),
    let t := s.thread g
    let k := s.core c
    let x := s.half h
    let sets := fun (i : Instr) (s' : State) => exec i s = .next s'
    let cleared := fun (n w lo : Nat) => ∀ i, i < w → BitVec.getLsbD (BitVec.ofNat 64 n) i = true → bitAt v (lo + i) = true
    let ofThread := fun (n : Nat) => Instr.registerWrite (.ctl (coreOf g * 2 ^ 23 + tidOf g * 2 ^ 19 + 8 * n)) v
    let ofCore := fun (n : Nat) => Instr.registerWrite (.ctl (2 ^ 33 + c * 2 ^ 23 + 8 * n)) v
    (threadPresent s.build g = true →
      (∃ a : Word, sets (.crEpcWrite g tag v) (s.setThread g { t with epc := ⟨tag, a⟩ }) ∧
        ∀ i, i < 64 → a.getLsbD i = (decide (3 ≤ i ∧ i ≤ 47) && v.getLsbD i)) ∧
      (∃ e : EStat, sets (.crEstatWrite g v) (s.setThread g { t with estat := e }) ∧
        e.pmode.toNat = fld v 48 8 ∧ e.omode.toNat = fld v 40 8 ∧ e.shcnt.toNat = fld v 38 2 ∧ e.msh = bitAt v 37 ∧ e.rpt = bitAt v 36 ∧ e.eds = bitAt v 35 ∧
        e.slotb = bitAt v 34 ∧ e.ie = bitAt v 5 ∧ e.exl = bitAt v 4 ∧ e.sprv.toNat = fld v 2 2 ∧ e.prv = t.estat.prv ∧ e.lnta = t.estat.lnta ∧
        (∀ i, i < 4 → e.imask.getLsbD i = bitAt v (8 + i)) ∧
        (t.estat.prv = 3 → e.nst = bitAt v 33 ∧ e.svi = bitAt v 32 ∧ ∀ i, i < 6 → e.imask.getLsbD i = bitAt v (8 + i)) ∧
        (t.estat.prv ≠ 3 → e.nst = t.estat.nst ∧ e.svi = t.estat.svi ∧ ∀ i, 4 ≤ i → i < 6 → e.imask.getLsbD i = t.estat.imask.getLsbD i)) ∧
      (∃ w : BitVec 5, sets (.crFflagsWrite g v) (s.setThread g { t with fflags := w }) ∧ ∀ i, i < 5 → w.getLsbD i = (t.fflags.getLsbD i && !bitAt v i)) ∧
      sets (.ceBucketWrite g v) (s.setThread g { t with cirq := t.cirq && !bitAt v 0 }) ∧
      sets (.pwTcmpWrite g v) (s.setThread g { t with tcmpEn := bitAt v 63, tcmp := BitVec.ofNat 63 v.toNat }) ∧
      sets (ofThread 0x0013) (s.setThread g { t with loopcnt := BitVec.ofNat 32 v.toNat }) ∧
      sets (ofThread 0x0022) (s.setThread g { t with etval := v }) ∧
      sets (ofThread 0x0021) (s.setThread g { t with
        ecause := ⟨BitVec.ofNat 2 (fld v 14 2), BitVec.ofNat 6 (fld v 8 6), bitAt v 7, bitAt v 6, BitVec.ofNat 6 (fld v 0 6)⟩ }) ∧
      (5 ≤ fld v 0 3 → sets (ofThread 0x0010) s) ∧ sets (ofThread 0x0001) s ∧ sets (ofThread 0x0011) s ∧ sets (ofThread 0x0012) s) ∧
    (corePresent s.build c = true →
      sets (.tlStatWrite c v) (s.setCore c { k with sxovf := k.sxovf && !bitAt v 32 }) ∧
      sets (.mcStallctlClr c v) (s.setCore c { k with freeze := bitAt v 1, stalls := if bitAt v 0 then [] else k.stalls }) ∧
      (∃ w : Word, sets (ofCore 0x0030) (s.setCore c { k with tvbase := w }) ∧
        ∀ i, i < 64 → w.getLsbD i = (decide (i = 0 ∨ (10 ≤ i ∧ i ≤ 47)) && v.getLsbD i)) ∧
      sets (ofCore 0x0031) (s.setCore c { k with mtvdesc := BitVec.ofNat 33 (fld v 11 33) }) ∧
      sets (ofCore 0x0032) (s.setCore c { k with lanternSp := BitVec.ofNat 40 (fld v 4 40) }) ∧
      sets (ofCore 0x2010) s ∧ sets (ofCore 0x9000) s) ∧
    (h < 2 →
      (∃ w : BitVec 4, sets (.hlEventWrite h v) (s.setHalf h { x with event := w }) ∧ ∀ i, i < 4 → w.getLsbD i = (x.event.getLsbD i && !bitAt v i)) ∧
      (∃ w : BitVec 6, sets (.pwEventWrite h v) (s.setHalf h { x with pwEvent := w }) ∧ ∀ i, i < 6 → w.getLsbD i = (x.pwEvent.getLsbD i && !bitAt v i)) ∧
      sets (.registerWrite (.ctl (3 * 2 ^ 33 + h * 2 ^ 19 + 8 * 0xA011)) v) (s.setHalf h { x with evx := BitVec.ofNat 3 v.toNat }) ∧
      (halfOfCore (coreOf g) = h →
        (cleared x.event.toNat 4 0 → ∃ s', sets (.hlEventWrite h v) s' ∧ (s'.ipend g).getLsbD 4 = false) ∧
        (cleared x.pwEvent.toNat 6 0 → ∃ s', sets (.pwEventWrite h v) s' ∧ (s'.ipend g).getLsbD 5 = false))) ∧
    (threadPresent s.build g = true →
      (bitAt v 0 = true → ∃ s', sets (.ceBucketWrite g v) s' ∧ (s'.ipend g).getLsbD 2 = false) ∧
      (bitAt v 63 = false ∨ (s.half (halfOfCore (coreOf g))).time.toNat % 2 ^ 63 < v.toNat % 2 ^ 63 →
        ∃ s', sets (.pwTcmpWrite g v) s' ∧ (s'.ipend g).getLsbD 0 = false) ∧
      (∃ s', sets (.kwDbstatRead (coreOf g)) s' ∧ (s'.ipend g).getLsbD 1 = false)) ∧
    (∀ off, off % 8 ≠ 0 → sets (.registerWrite (.ctl off) v) s) ∧
    (ep < 2 → f ≤ 64 → ((s.half ep).ring f).sqEn = false → ((s.half ep).ring f).cqEn = false → ((s.half ep).ring f).evqEn = false →
      6 ≤ fld v 0 5 → fld v 0 5 ≤ 16 →
      ∃ s', sets (.registerWrite (.bar ep f 0x20) v) s' ∧ (s'.half ep).ring f = { (s.half ep).ring f with logn := BitVec.ofNat 5 (fld v 0 5) } ∧
        (s.linkUp = false → s'.half (1 - ep) = s.half (1 - ep)))

/-! ### Recovery -/

/-- R345, R347-R349, R354: a snapshot begins once after its step is closed, is captured and drains into the slot that does not hold the latest complete
one; a restore ends with the group epochs at (s*, 0xFF) and every open command of the binding ROLLED. -/
def Obligations.SnapshotsAndRestore : Prop :=
  ∀ (s : State) (b : Nat) (step : Word) (cfg : CellarCfg) (sn : SnapSlot),
    let x := s.binding b
    let fresh := ∀ n, x.captured = some n → n < step.toNat
    let home := s.homeOf b
    (x.cfg = some cfg → x.live = true → x.stop = false → x.phase = .idle →
      (s.closedStep cfg.gid step.toNat = true → step.toNat % cfg.k = 0 → fresh → ∃ r, exec (.snapshotStart b step) s =
        .next (s.setBinding b { x with phase := .capture, snap := some r }) ∧ r.step = step.toNat ∧ r.state = 1 ∧ r.ptAct = x.ptAct) ∧
      (s.closedStep cfg.gid step.toNat = false ∨ step.toNat % cfg.k ≠ 0 ∨ ¬ fresh → exec (.snapshotStart b step) s = .next s)) ∧
    (x.cfg = some cfg → x.snap = some sn → x.phase = .capture → (s.engine 0).closes = [] → (s.engine 1).closes = [] →
      ∃ s' d, exec (.captureComplete b) s = .next s' ∧ (s'.binding b).phase = .drain ∧ (s'.binding b).captured = some sn.step ∧ (s'.binding b).snap = some { sn with data := d } ∧
        (if x.lvalid && !x.slotSel then (s'.binding b).slot1 else (s'.binding b).slot0) = some { sn with data := d } ∧
        (if x.lvalid && !x.slotSel then (s'.binding b).slot0 = x.slot0 else (s'.binding b).slot1 = x.slot1) ∧
        d.map (·.1) = (cfg.regions.filter (fun r => r.par = 0 ∨ (r.par = 1 ∧ sn.step % 2 = 0) ∨ (r.par = 2 ∧ sn.step % 2 = 1))).map (·.va) ∧
        (∀ a, a < cfg.stageFirst * 2 ^ 30 ∨ cfg.stageFirst * 2 ^ 30 + (d.map (·.2)).flatten.length ≤ a → s'.byte a = s.byte a) ∧
        (∃ l, (s'.engine home).outbox = (s.engine home).outbox ++ l ∧ l ≠ [] ∧ ∀ o ∈ l, o.b = b ∧ o.ptype = .cellar ∧ o.partner = cfg.partner) ∧
        s'.threads = s.threads) ∧
    (x.cfg = some cfg → x.snap = some sn → x.phase = .drain →
      (s.drained b = false → exec (.drainComplete b) s = .next s) ∧
      (s.drained b = true → (s.engine 0).closes = [] → (s.engine 1).closes = [] → ∃ y, exec (.drainComplete b) s =
          .next ((s.setBinding b y).sendCellar b cfg.partner sn.step (x.lvalid && !x.slotSel) 0 (leBytes 8 (shdr0 2 b s.devid))) ∧ y.phase = .idle ∧
        y.drainedTo = some sn.step ∧
        y.snap = none ∧ y.lvalid = true ∧ y.lstep = BitVec.ofNat 40 sn.step ∧ y.slotSel = (x.lvalid && !x.slotSel) ∧
        (if y.slotSel then y.slot1 else y.slot0) = some { sn with state := 2 } ∧ (if y.slotSel then y.slot0 = x.slot0 else y.slot1 = x.slot1))) ∧
    (∀ r, x.live = true → x.phase = .restore → s.restoreSlot b = some r → ∃ s', exec (.restoreComplete b) s = .next s' ∧
      (s'.binding b).stop = false ∧ (s'.binding b).phase = (if x.cfg = none then .none else .idle) ∧ (s'.binding b).agreed = none ∧
      (∀ c ∈ s.cmds, c.func = b + 1 → c.phase ≠ .journalled → ∃ c' ∈ s'.cmds, c'.func = c.func ∧ c'.seq = c.seq ∧ c'.phase = .final) ∧
      (s'.binding b).captured = some r.1.step ∧
      (∀ h, h < 2 → h = home ∨ s.linkUp = true → ∀ e ∈ (s'.engine h).groups, ∀ g, e.2 = some g → g.binding = b → g.epoch = some (r.1.step, 0xFF) ∧ g.opened = false))

/-- R353: s* is the smallest of the exchanged values of LSTEP; with AUTO = 1 the member restores s* at once, with AUTO = 0 it waits. A binding whose
repair found no spare waits for RESTORE (R358). -/
def Obligations.LstepAgreement : Prop :=
  ∀ (s : State) (b : Nat) (others : List Nat),
    let x := s.binding b
    x.stop = true → x.lvalid = true → x.phase = .stopped →
    (x.stranded = true → exec (.lstepAgreement b others) s = .next s) ∧
    (x.stranded = false → ∃ least, (least = x.lstep.toNat ∨ least ∈ others) ∧ least ≤ x.lstep.toNat ∧ (∀ n ∈ others, least ≤ n) ∧
      ((∀ y, x.cfg = some y → y.auto = false) → exec (.lstepAgreement b others) s = .next (s.setBinding b { x with agreed := some least })) ∧
      (∀ y, x.cfg = some y → y.auto = true → ∃ s', exec (.lstepAgreement b others) s = .next s' ∧ (s'.binding b).phase = .restore ∧
        (s'.binding b).agreed = some least ∧ ∀ c ∈ s.coresOf b, ∀ t, t < 16 → s'.thread (16 * c + t) = Thread.reset))

/-- R10, R231, R270, R337, R344, R352, R357, R358: a permanent fault stops the bindings that it touches; a repair puts a spare in place of the unit, or
retires it where none is left and strands its bindings until a RESTORE; a deferred test ends as an event once its unit is unbound. That the bindings
of a unit under repair show REPAIR, and DETAIL of that event, are the model's reading (log 35, 41). -/
def Obligations.Repairs : Prop :=
  ∀ (s : State) (u : BitVec 16),
    let i := unitIdx u
    let d := (s.half (i / 256)).die (i / 64)
    let m := (s.half (halfOfStack i)).hbm i
    (unitClass u = 0 → corePresent s.build i = true →
      (∃ s', exec (.bindingStop u) s = .next s' ∧
        (∀ y, (s.binding y).live = true → s.bindingOf i = some y →
          (s'.binding y).stop = true ∧ (s'.binding y).phase = .repair ∧
          ((s.binding y).stop = false → ∀ g, s.bindingOf (coreOf g) = some y → (s'.thread g).run = .idle)) ∧
        (∀ y, s.bindingOf i ≠ some y → s'.binding y = s.binding y ∧ ∀ g, s.bindingOf (coreOf g) = some y → s'.thread g = s.thread g) ∧ s'.mem = s.mem) ∧
      (d.cleft ≠ 0 → ∃ s', exec (.repairComplete u .core) s = .next s' ∧ ((s'.half (i / 256)).die (i / 64)).cleft = d.cleft - 1 ∧
        (s'.core i).phys = d.spares.headD 0 + 1 ∧ (s'.core i).binding = (s.core i).binding ∧ (∀ t, t < 16 → s'.thread (16 * i + t) = Thread.reset) ∧
        (∀ o, o < 0x200000 → s'.byte (pressAddr i o) = 0)) ∧
      (d.cleft = 0 → ∃ s', exec (.repairComplete u .core) s = .next s' ∧ u ∈ s'.gone ∧ s'.fepoch u = s.fepoch u + 1)) ∧
    (∀ lane, unitClass u = 1 → stackPresent s.build i = true →
      (m.spleft ≠ 0 → ∃ s', exec (.repairComplete u (.hbmLane lane)) s = .next s' ∧
        (let m' := (s'.half (halfOfStack i)).hbm i
         m'.spleft = m.spleft - 1 ∧ m'.spused = m.spused + 1 ∧ m'.state = 1 ∧ lane ∉ m'.marked)) ∧
      (m.spleft = 0 → ∃ s', exec (.repairComplete u (.hbmLane lane)) s = .next s' ∧ i ∈ s'.retired ∧ ((s'.half (halfOfStack i)).hbm i).state = 3)) ∧
    (∀ lane, lane < 5 → unitClass u = 2 → i < 24 → (s.port i).spare.toNat < 5 → (s.port i).spare.toNat ≠ lane →
      ∃ s', exec (.repairComplete u (.fabricLane lane)) s = .next s' ∧ (s'.port i).state = .up ∧ (s'.port i).spare = 7 ∧ (s'.port i).dead = lane :: (s.port i).dead ∧
        (s'.port i).lmask.getLsbD lane = false ∧ (s'.port i).lmask.getLsbD (s.port i).spare.toNat = true) ∧
    (∀ lane, unitClass u = 2 → i < 24 → 5 ≤ (s.port i).spare.toNat →
      ∃ s', exec (.repairComplete u (.fabricLane lane)) s = .next s' ∧ u ∈ s'.gone ∧ (s'.port i).state = .failed) ∧
    (unitClass u = 3 → i = 0 → s.half0.linkSpares ≠ 0 → s.half1.linkSpares ≠ 0 →
      ∃ s', exec (.repairComplete u .halfLinkLane) s = .next s' ∧ ∀ h, h < 2 → (s'.half h).linkSpares = (s.half h).linkSpares - 1) ∧
    (unitClass u = 6 → diePresent s.build i = true → ((s.half (i / 4)).die i).l2left ≠ 0 →
      ∃ s', exec (.repairComplete u .l2Frame) s = .next s' ∧ ((s'.half (i / 4)).die i).l2left = ((s.half (i / 4)).die i).l2left - 1) ∧
    (4 ≤ unitClass u → unitPresent s.build u = true → (∀ y, (s.binding y).byReset = false) →
      ∃ s', exec (.repairComplete u .nothing) s = .next s' ∧ u ∈ s'.gone ∧ s'.fepoch u = s.fepoch u + 1 ∧
        ∀ y ∈ s.stoppedBy u, (s.binding y).stop = true → (s'.binding y).stop = true ∧ (s'.binding y).phase = .stopped ∧ (s'.binding y).stranded = true) ∧
    (s.evqOn = true → s.evWait = [] → s.evNext < s.evqSize →
      (u ∈ s.deferredTests → s.unitBound u = false →
        ∀ r : Option Word, exec (.deferredSelftestResult u r) s = .next { s with
          deferredTests := s.deferredTests.filter (· ≠ u), evNext := s.evNext + 1, msix := s.msix ++ [(0, 1)]
          events := s.events ++ [⟨s.evNext % s.evqSize, decide ((s.evNext / s.evqSize + 1) % 2 = 1), ⟨2, u, 0, 0, 0, match r with
            | none => [1]
            | some w => [7, w.toNat]⟩⟩] }) ∧
      (u ∉ s.deferredTests ∨ s.unitBound u = true → ∀ r, exec (.deferredSelftestResult u r) s = .next s))

/-! ### The machine -/

/-- A step takes the command at the front of the queue and runs it on the state with the rest of the queue; the model's choice for an empty queue is that
the tick advances (log 2). -/
def Obligations.StepRunsTheFrontCommand : Prop :=
  ∀ (s : State) (c : Instr) (rest : List Instr),
    step { s with pending := c :: rest } = exec c { s with pending := rest } ∧
    (∃ s', step { s with pending := [] } = .next s' ∧ s'.pending = [] ∧ s'.mem = s.mem ∧ s'.bindings = s.bindings ∧ s'.events = s.events)

/-- What reset leaves: registers at the values that the layouts give. The values for which the spec gives none are the model's (log 3 to 8). -/
def Obligations.ResetState : Prop :=
  let s := State.reset
  s.canonical = true ∧ s.pending = [] ∧ s.devid = 0xF_FFFF ∧ s.devValid = false ∧ s.threads = [] ∧ s.bindings = [] ∧ s.mem = [] ∧ s.cmds = [] ∧
  (∀ g, (s.thread g).run = .idle ∧ (s.thread g).mode = 0 ∧ (s.thread g).fflags = 0 ∧ (s.thread g).loopcnt = 0 ∧ (s.thread g).etval = 0 ∧
    (s.thread g).estat.prv = 0 ∧ (s.thread g).estat.exl = false ∧ (s.thread g).reg 0 = ⟨.int, 0⟩ ∧ (s.thread g).tkstat = 0 ∧ (s.thread g).tcmpEn = false) ∧
  (∀ c, (tlStat (s.core c)).toNat = 0x3FFF ∧ (vcStat (s.core c)).toNat = 0 ∧ (s.core c).freeze = false ∧ (s.core c).parcnt = 0 ∧ (s.core c).tvbase = 0) ∧
  (∀ p, (s.port p).state = .down ∧ (s.port p).spare = 7 ∧ (s.port p).lmask = 0 ∧ (s.port p).ndev = 0xF_FFFF ∧ (s.port p).nport = 0b11111) ∧
  (∀ h, h < 2 → (s.half h).pstate = .split ∧ (s.half h).link = .down ∧ (s.half h).epoch = 0 ∧ (s.half h).time = 0 ∧ (s.half h).event = 0 ∧ (s.half h).pwEvent = 0)

/-- The canonical form of memory and of the press tags is kept by every step, from every state that has it. -/
def Obligations.EveryStepKeepsMemoryCanonical : Prop :=
  ∀ (s s' : State), s.canonical = true → step s = .next s' → s'.canonical = true
end

