-- ==== Sys2Proof/Laws/Maps.lean ====
section
/-! SUPPORT. The laws of finite maps and of memory: a read after a write, and the canonical form that every operation
keeps. The read laws hold of every map; the canonical form is not needed for them. -/

namespace Sys2Proof

section
variable {α : Type} [DecidableEq α] (d : α)

omit [DecidableEq α] in
theorem FMap.get_ins (m : FMap α) (k : Nat) (v : α) (j : Nat) :
    FMap.get d (FMap.ins m k v) j = if j = k then v else FMap.get d m j := by
  induction m with
  | nil => simp [FMap.ins, FMap.get]
  | cons e t ih =>
    obtain ⟨k', v'⟩ := e
    simp only [FMap.ins]
    split
    · subst_vars; simp only [FMap.get]; split <;> rfl
    · split
      · simp only [FMap.get]
      · simp only [FMap.get, ih]; split
        · subst_vars; rw [if_neg (by omega)]
        · rfl

omit [DecidableEq α] in
theorem FMap.get_del (m : FMap α) (k j : Nat) : FMap.get d (FMap.del m k) j = if j = k then d else FMap.get d m j := by
  induction m with
  | nil => simp [FMap.del, FMap.get]
  | cons e t ih =>
    obtain ⟨k', v'⟩ := e
    simp only [FMap.del]
    split
    · subst_vars; rw [ih]; simp only [FMap.get]; split <;> rfl
    · simp only [FMap.get, ih]; split
      · subst_vars; rw [if_neg (by omega)]
      · rfl

/-- A read after a write. -/
theorem FMap.get_set (m : FMap α) (k : Nat) (v : α) (j : Nat) :
    FMap.get d (FMap.set d m k v) j = if j = k then v else FMap.get d m j := by
  unfold FMap.set
  split
  · subst_vars; rw [FMap.get_del]
  · rw [FMap.get_ins]

@[simp] theorem FMap.get_set_same (m : FMap α) (k : Nat) (v : α) : FMap.get d (FMap.set d m k v) k = v := by
  rw [FMap.get_set, if_pos rfl]

theorem FMap.get_set_other (m : FMap α) (k : Nat) (v : α) (j : Nat) (h : j ≠ k) :
    FMap.get d (FMap.set d m k v) j = FMap.get d m j := by rw [FMap.get_set, if_neg h]

omit [DecidableEq α] in
@[simp] theorem FMap.get_nil (j : Nat) : FMap.get d [] j = d := rfl

omit [DecidableEq α] in
theorem FMap.get_clear (m : FMap α) (lo hi j : Nat) :
    FMap.get d (FMap.clear m lo hi) j = if lo ≤ j ∧ j < hi then d else FMap.get d m j := by
  induction m with
  | nil => simp [FMap.clear, FMap.get]
  | cons e t ih =>
    obtain ⟨k', v'⟩ := e
    unfold FMap.clear at *
    simp only [List.filter_cons]
    by_cases h : k' < lo ∨ hi ≤ k'
    · rw [if_pos (by simpa using h)]; simp only [FMap.get]; rw [ih]
      by_cases hj : j = k'
      · rw [if_pos hj, if_neg (by omega), if_pos hj]
      · rw [if_neg hj, if_neg hj]
    · rw [if_neg (by simpa using h), ih]; simp only [FMap.get]
      by_cases hj : j = k'
      · rw [if_pos (by omega), if_pos (by omega)]
      · rw [if_neg hj]

/-- A run of writes: the values at their keys, every other key as before. -/
theorem FMap.get_setRun (l : List α) (m : FMap α) (k j : Nat) :
    FMap.get d (FMap.setRun d m k l) j = if h : k ≤ j ∧ j < k + l.length then l[j - k]'(by omega) else FMap.get d m j := by
  induction l generalizing m k with
  | nil => simp [FMap.setRun]
  | cons v t ih =>
    simp only [FMap.setRun, ih, FMap.get_set, List.length_cons]
    by_cases h1 : j = k
    · subst h1; rw [dif_neg (by omega), if_pos rfl, dif_pos (by omega)]; simp
    · by_cases h2 : k ≤ j ∧ j < k + (t.length + 1)
      · rw [dif_pos (by omega), dif_pos h2]
        rw [List.getElem_cons]; rw [dif_neg (by omega)]; congr 1
      · rw [dif_neg (by omega), dif_neg h2, if_neg h1]

/-! ### The canonical form -/

theorem FMap.wfFrom_mono {lo lo' : Nat} (h : lo' ≤ lo) (m : FMap α) (hm : FMap.wfFrom d lo m = true) : FMap.wfFrom d lo' m = true := by
  cases m with
  | nil => rfl
  | cons e t =>
    simp only [FMap.wfFrom, Bool.and_eq_true, decide_eq_true_eq] at *
    exact ⟨⟨by omega, hm.1.2⟩, hm.2⟩

theorem FMap.wfFrom_filter (p : Nat × α → Bool) (lo : Nat) (m : FMap α) (hm : FMap.wfFrom d lo m = true) :
    FMap.wfFrom d lo (m.filter p) = true := by
  induction m generalizing lo with
  | nil => rfl
  | cons e t ih =>
    simp only [FMap.wfFrom, Bool.and_eq_true, decide_eq_true_eq] at hm
    simp only [List.filter_cons]
    split
    · simp only [FMap.wfFrom, Bool.and_eq_true, decide_eq_true_eq]; exact ⟨hm.1, ih _ hm.2⟩
    · exact FMap.wfFrom_mono d (by omega) _ (ih _ hm.2)

omit [DecidableEq α] in
theorem FMap.del_eq_filter (m : FMap α) (k : Nat) : FMap.del m k = m.filter (fun e => !decide (e.1 = k)) := by
  induction m with
  | nil => rfl
  | cons e t ih =>
    simp only [FMap.del, List.filter_cons, ih]
    by_cases h : k = e.1
    · simp [h]
    · rw [if_neg h, if_pos (by simp; omega)]

theorem FMap.wfFrom_ins (m : FMap α) (lo k : Nat) (v : α) (hk : lo ≤ k) (hv : v ≠ d) (hm : FMap.wfFrom d lo m = true) :
    FMap.wfFrom d lo (FMap.ins m k v) = true := by
  induction m generalizing lo with
  | nil => simp [FMap.ins, FMap.wfFrom, hk, hv]
  | cons e t ih =>
    obtain ⟨k', v'⟩ := e
    have hm' := hm
    simp only [FMap.wfFrom, Bool.and_eq_true, decide_eq_true_eq] at hm
    simp only [FMap.ins]
    split
    · subst_vars; simp [FMap.wfFrom, hm, hv]
    · split
      · simp only [FMap.wfFrom, Bool.and_eq_true, decide_eq_true_eq]
        exact ⟨⟨hk, by simp [hv]⟩, ⟨by omega, hm.1.2⟩, hm.2⟩
      · simp only [FMap.wfFrom, Bool.and_eq_true, decide_eq_true_eq]
        exact ⟨hm.1, ih _ (by omega) hm.2⟩

@[simp] theorem FMap.wf_nil : FMap.wf d [] = true := rfl

theorem FMap.wf_set (m : FMap α) (k : Nat) (v : α) (hm : FMap.wf d m = true) : FMap.wf d (FMap.set d m k v) = true := by
  unfold FMap.set FMap.wf at *
  split
  · rw [FMap.del_eq_filter]; exact FMap.wfFrom_filter d _ _ _ hm
  · exact FMap.wfFrom_ins d _ _ _ _ (Nat.zero_le _) (by assumption) hm

theorem FMap.wf_filter (m : FMap α) (p : Nat × α → Bool) (hm : FMap.wf d m = true) : FMap.wf d (m.filter p) = true :=
  FMap.wfFrom_filter d _ _ _ hm

theorem FMap.wf_clear (m : FMap α) (lo hi : Nat) (hm : FMap.wf d m = true) : FMap.wf d (FMap.clear m lo hi) = true :=
  FMap.wf_filter d _ _ hm

theorem FMap.wf_setRun (l : List α) (m : FMap α) (k : Nat) (hm : FMap.wf d m = true) : FMap.wf d (FMap.setRun d m k l) = true := by
  induction l generalizing m k with
  | nil => exact hm
  | cons v t ih => exact ih _ _ (FMap.wf_set d _ _ _ hm)

/-- In the canonical form, equal reads are equal maps. -/
theorem FMap.get_below (m : FMap α) (lo j : Nat) (hm : FMap.wfFrom d lo m = true) (h : j < lo) : FMap.get d m j = d := by
  induction m generalizing lo with
  | nil => rfl
  | cons e t ih =>
    simp only [FMap.wfFrom, Bool.and_eq_true, decide_eq_true_eq] at hm
    simp only [FMap.get]
    rw [if_neg (by omega)]
    exact ih _ hm.2 (by omega)

end

end Sys2Proof
end

