-- ==== Sys2Proof/Laws/State.lean ====
section
/-! SUPPORT. What each named update of the state, of a thread and of a core leaves as it was, field by field, and what it
reads back as. -/

namespace Sys2Proof.Machine

/-! ### `State.setThread` -/

@[simp] theorem State.setThread_build (s : State) (g : Nat) (t : Thread) : (s.setThread g t).build = s.build := rfl
@[simp] theorem State.setThread_cores (s : State) (g : Nat) (t : Thread) : (s.setThread g t).cores = s.cores := rfl
@[simp] theorem State.setThread_mem (s : State) (g : Nat) (t : Thread) : (s.setThread g t).mem = s.mem := rfl
@[simp] theorem State.setThread_tags (s : State) (g : Nat) (t : Thread) : (s.setThread g t).tags = s.tags := rfl
@[simp] theorem State.setThread_poison (s : State) (g : Nat) (t : Thread) : (s.setThread g t).poison = s.poison := rfl
@[simp] theorem State.setThread_l2 (s : State) (g : Nat) (t : Thread) : (s.setThread g t).l2 = s.l2 := rfl
@[simp] theorem State.setThread_owner (s : State) (g : Nat) (t : Thread) : (s.setThread g t).owner = s.owner := rfl
@[simp] theorem State.setThread_granted (s : State) (g : Nat) (t : Thread) : (s.setThread g t).granted = s.granted := rfl
@[simp] theorem State.setThread_retired (s : State) (g : Nat) (t : Thread) : (s.setThread g t).retired = s.retired := rfl
@[simp] theorem State.setThread_gone (s : State) (g : Nat) (t : Thread) : (s.setThread g t).gone = s.gone := rfl
@[simp] theorem State.setThread_bindings (s : State) (g : Nat) (t : Thread) : (s.setThread g t).bindings = s.bindings := rfl
@[simp] theorem State.setThread_half0 (s : State) (g : Nat) (t : Thread) : (s.setThread g t).half0 = s.half0 := rfl
@[simp] theorem State.setThread_half1 (s : State) (g : Nat) (t : Thread) : (s.setThread g t).half1 = s.half1 := rfl
@[simp] theorem State.setThread_ports (s : State) (g : Nat) (t : Thread) : (s.setThread g t).ports = s.ports := rfl
@[simp] theorem State.setThread_devid (s : State) (g : Nat) (t : Thread) : (s.setThread g t).devid = s.devid := rfl
@[simp] theorem State.setThread_devValid (s : State) (g : Nat) (t : Thread) : (s.setThread g t).devValid = s.devValid := rfl
@[simp] theorem State.setThread_flows (s : State) (g : Nat) (t : Thread) : (s.setThread g t).flows = s.flows := rfl
@[simp] theorem State.setThread_cmds (s : State) (g : Nat) (t : Thread) : (s.setThread g t).cmds = s.cmds := rfl
@[simp] theorem State.setThread_cq (s : State) (g : Nat) (t : Thread) : (s.setThread g t).cq = s.cq := rfl
@[simp] theorem State.setThread_events (s : State) (g : Nat) (t : Thread) : (s.setThread g t).events = s.events := rfl
@[simp] theorem State.setThread_evWait (s : State) (g : Nat) (t : Thread) : (s.setThread g t).evWait = s.evWait := rfl
@[simp] theorem State.setThread_evNext (s : State) (g : Nat) (t : Thread) : (s.setThread g t).evNext = s.evNext := rfl
@[simp] theorem State.setThread_msix (s : State) (g : Nat) (t : Thread) : (s.setThread g t).msix = s.msix := rfl
@[simp] theorem State.setThread_recvs (s : State) (g : Nat) (t : Thread) : (s.setThread g t).recvs = s.recvs := rfl
@[simp] theorem State.setThread_posted (s : State) (g : Nat) (t : Thread) : (s.setThread g t).posted = s.posted := rfl
@[simp] theorem State.setThread_jnext (s : State) (g : Nat) (t : Thread) : (s.setThread g t).jnext = s.jnext := rfl
@[simp] theorem State.setThread_fepochs (s : State) (g : Nat) (t : Thread) : (s.setThread g t).fepochs = s.fepochs := rfl
@[simp] theorem State.setThread_deferredTests (s : State) (g : Nat) (t : Thread) : (s.setThread g t).deferredTests = s.deferredTests := rfl
@[simp] theorem State.setThread_saved (s : State) (g : Nat) (t : Thread) : (s.setThread g t).saved = s.saved := rfl
@[simp] theorem State.setThread_readPort (s : State) (g : Nat) (t : Thread) : (s.setThread g t).readPort = s.readPort := rfl
@[simp] theorem State.setThread_vin (s : State) (g : Nat) (t : Thread) : (s.setThread g t).vin = s.vin := rfl
@[simp] theorem State.setThread_present (s : State) (g : Nat) (t : Thread) : (s.setThread g t).present = s.present := rfl
@[simp] theorem State.setThread_pulses (s : State) (g : Nat) (t : Thread) : (s.setThread g t).pulses = s.pulses := rfl
@[simp] theorem State.setThread_free (s : State) (g : Nat) (t : Thread) : (s.setThread g t).free = s.free := rfl
@[simp] theorem State.setThread_pending (s : State) (g : Nat) (t : Thread) : (s.setThread g t).pending = s.pending := rfl

/-! ### `State.setCore` -/

@[simp] theorem State.setCore_build (s : State) (c : Nat) (k : Core) : (s.setCore c k).build = s.build := rfl
@[simp] theorem State.setCore_threads (s : State) (c : Nat) (k : Core) : (s.setCore c k).threads = s.threads := rfl
@[simp] theorem State.setCore_mem (s : State) (c : Nat) (k : Core) : (s.setCore c k).mem = s.mem := rfl
@[simp] theorem State.setCore_tags (s : State) (c : Nat) (k : Core) : (s.setCore c k).tags = s.tags := rfl
@[simp] theorem State.setCore_poison (s : State) (c : Nat) (k : Core) : (s.setCore c k).poison = s.poison := rfl
@[simp] theorem State.setCore_l2 (s : State) (c : Nat) (k : Core) : (s.setCore c k).l2 = s.l2 := rfl
@[simp] theorem State.setCore_owner (s : State) (c : Nat) (k : Core) : (s.setCore c k).owner = s.owner := rfl
@[simp] theorem State.setCore_granted (s : State) (c : Nat) (k : Core) : (s.setCore c k).granted = s.granted := rfl
@[simp] theorem State.setCore_retired (s : State) (c : Nat) (k : Core) : (s.setCore c k).retired = s.retired := rfl
@[simp] theorem State.setCore_gone (s : State) (c : Nat) (k : Core) : (s.setCore c k).gone = s.gone := rfl
@[simp] theorem State.setCore_bindings (s : State) (c : Nat) (k : Core) : (s.setCore c k).bindings = s.bindings := rfl
@[simp] theorem State.setCore_half0 (s : State) (c : Nat) (k : Core) : (s.setCore c k).half0 = s.half0 := rfl
@[simp] theorem State.setCore_half1 (s : State) (c : Nat) (k : Core) : (s.setCore c k).half1 = s.half1 := rfl
@[simp] theorem State.setCore_ports (s : State) (c : Nat) (k : Core) : (s.setCore c k).ports = s.ports := rfl
@[simp] theorem State.setCore_devid (s : State) (c : Nat) (k : Core) : (s.setCore c k).devid = s.devid := rfl
@[simp] theorem State.setCore_devValid (s : State) (c : Nat) (k : Core) : (s.setCore c k).devValid = s.devValid := rfl
@[simp] theorem State.setCore_flows (s : State) (c : Nat) (k : Core) : (s.setCore c k).flows = s.flows := rfl
@[simp] theorem State.setCore_cmds (s : State) (c : Nat) (k : Core) : (s.setCore c k).cmds = s.cmds := rfl
@[simp] theorem State.setCore_cq (s : State) (c : Nat) (k : Core) : (s.setCore c k).cq = s.cq := rfl
@[simp] theorem State.setCore_events (s : State) (c : Nat) (k : Core) : (s.setCore c k).events = s.events := rfl
@[simp] theorem State.setCore_evWait (s : State) (c : Nat) (k : Core) : (s.setCore c k).evWait = s.evWait := rfl
@[simp] theorem State.setCore_evNext (s : State) (c : Nat) (k : Core) : (s.setCore c k).evNext = s.evNext := rfl
@[simp] theorem State.setCore_msix (s : State) (c : Nat) (k : Core) : (s.setCore c k).msix = s.msix := rfl
@[simp] theorem State.setCore_recvs (s : State) (c : Nat) (k : Core) : (s.setCore c k).recvs = s.recvs := rfl
@[simp] theorem State.setCore_posted (s : State) (c : Nat) (k : Core) : (s.setCore c k).posted = s.posted := rfl
@[simp] theorem State.setCore_jnext (s : State) (c : Nat) (k : Core) : (s.setCore c k).jnext = s.jnext := rfl
@[simp] theorem State.setCore_fepochs (s : State) (c : Nat) (k : Core) : (s.setCore c k).fepochs = s.fepochs := rfl
@[simp] theorem State.setCore_deferredTests (s : State) (c : Nat) (k : Core) : (s.setCore c k).deferredTests = s.deferredTests := rfl
@[simp] theorem State.setCore_saved (s : State) (c : Nat) (k : Core) : (s.setCore c k).saved = s.saved := rfl
@[simp] theorem State.setCore_readPort (s : State) (c : Nat) (k : Core) : (s.setCore c k).readPort = s.readPort := rfl
@[simp] theorem State.setCore_vin (s : State) (c : Nat) (k : Core) : (s.setCore c k).vin = s.vin := rfl
@[simp] theorem State.setCore_present (s : State) (c : Nat) (k : Core) : (s.setCore c k).present = s.present := rfl
@[simp] theorem State.setCore_pulses (s : State) (c : Nat) (k : Core) : (s.setCore c k).pulses = s.pulses := rfl
@[simp] theorem State.setCore_free (s : State) (c : Nat) (k : Core) : (s.setCore c k).free = s.free := rfl
@[simp] theorem State.setCore_pending (s : State) (c : Nat) (k : Core) : (s.setCore c k).pending = s.pending := rfl

/-! ### `State.setPort` -/

@[simp] theorem State.setPort_build (s : State) (p : Nat) (x : Port) : (s.setPort p x).build = s.build := rfl
@[simp] theorem State.setPort_threads (s : State) (p : Nat) (x : Port) : (s.setPort p x).threads = s.threads := rfl
@[simp] theorem State.setPort_cores (s : State) (p : Nat) (x : Port) : (s.setPort p x).cores = s.cores := rfl
@[simp] theorem State.setPort_mem (s : State) (p : Nat) (x : Port) : (s.setPort p x).mem = s.mem := rfl
@[simp] theorem State.setPort_tags (s : State) (p : Nat) (x : Port) : (s.setPort p x).tags = s.tags := rfl
@[simp] theorem State.setPort_poison (s : State) (p : Nat) (x : Port) : (s.setPort p x).poison = s.poison := rfl
@[simp] theorem State.setPort_l2 (s : State) (p : Nat) (x : Port) : (s.setPort p x).l2 = s.l2 := rfl
@[simp] theorem State.setPort_owner (s : State) (p : Nat) (x : Port) : (s.setPort p x).owner = s.owner := rfl
@[simp] theorem State.setPort_granted (s : State) (p : Nat) (x : Port) : (s.setPort p x).granted = s.granted := rfl
@[simp] theorem State.setPort_retired (s : State) (p : Nat) (x : Port) : (s.setPort p x).retired = s.retired := rfl
@[simp] theorem State.setPort_gone (s : State) (p : Nat) (x : Port) : (s.setPort p x).gone = s.gone := rfl
@[simp] theorem State.setPort_bindings (s : State) (p : Nat) (x : Port) : (s.setPort p x).bindings = s.bindings := rfl
@[simp] theorem State.setPort_half0 (s : State) (p : Nat) (x : Port) : (s.setPort p x).half0 = s.half0 := rfl
@[simp] theorem State.setPort_half1 (s : State) (p : Nat) (x : Port) : (s.setPort p x).half1 = s.half1 := rfl
@[simp] theorem State.setPort_devid (s : State) (p : Nat) (x : Port) : (s.setPort p x).devid = s.devid := rfl
@[simp] theorem State.setPort_devValid (s : State) (p : Nat) (x : Port) : (s.setPort p x).devValid = s.devValid := rfl
@[simp] theorem State.setPort_flows (s : State) (p : Nat) (x : Port) : (s.setPort p x).flows = s.flows := rfl
@[simp] theorem State.setPort_cmds (s : State) (p : Nat) (x : Port) : (s.setPort p x).cmds = s.cmds := rfl
@[simp] theorem State.setPort_cq (s : State) (p : Nat) (x : Port) : (s.setPort p x).cq = s.cq := rfl
@[simp] theorem State.setPort_events (s : State) (p : Nat) (x : Port) : (s.setPort p x).events = s.events := rfl
@[simp] theorem State.setPort_evWait (s : State) (p : Nat) (x : Port) : (s.setPort p x).evWait = s.evWait := rfl
@[simp] theorem State.setPort_evNext (s : State) (p : Nat) (x : Port) : (s.setPort p x).evNext = s.evNext := rfl
@[simp] theorem State.setPort_msix (s : State) (p : Nat) (x : Port) : (s.setPort p x).msix = s.msix := rfl
@[simp] theorem State.setPort_recvs (s : State) (p : Nat) (x : Port) : (s.setPort p x).recvs = s.recvs := rfl
@[simp] theorem State.setPort_posted (s : State) (p : Nat) (x : Port) : (s.setPort p x).posted = s.posted := rfl
@[simp] theorem State.setPort_jnext (s : State) (p : Nat) (x : Port) : (s.setPort p x).jnext = s.jnext := rfl
@[simp] theorem State.setPort_fepochs (s : State) (p : Nat) (x : Port) : (s.setPort p x).fepochs = s.fepochs := rfl
@[simp] theorem State.setPort_deferredTests (s : State) (p : Nat) (x : Port) : (s.setPort p x).deferredTests = s.deferredTests := rfl
@[simp] theorem State.setPort_saved (s : State) (p : Nat) (x : Port) : (s.setPort p x).saved = s.saved := rfl
@[simp] theorem State.setPort_readPort (s : State) (p : Nat) (x : Port) : (s.setPort p x).readPort = s.readPort := rfl
@[simp] theorem State.setPort_vin (s : State) (p : Nat) (x : Port) : (s.setPort p x).vin = s.vin := rfl
@[simp] theorem State.setPort_present (s : State) (p : Nat) (x : Port) : (s.setPort p x).present = s.present := rfl
@[simp] theorem State.setPort_pulses (s : State) (p : Nat) (x : Port) : (s.setPort p x).pulses = s.pulses := rfl
@[simp] theorem State.setPort_free (s : State) (p : Nat) (x : Port) : (s.setPort p x).free = s.free := rfl
@[simp] theorem State.setPort_pending (s : State) (p : Nat) (x : Port) : (s.setPort p x).pending = s.pending := rfl

/-! ### `State.setBinding` -/

@[simp] theorem State.setBinding_build (s : State) (b : Nat) (x : Binding) : (s.setBinding b x).build = s.build := rfl
@[simp] theorem State.setBinding_threads (s : State) (b : Nat) (x : Binding) : (s.setBinding b x).threads = s.threads := rfl
@[simp] theorem State.setBinding_cores (s : State) (b : Nat) (x : Binding) : (s.setBinding b x).cores = s.cores := rfl
@[simp] theorem State.setBinding_mem (s : State) (b : Nat) (x : Binding) : (s.setBinding b x).mem = s.mem := rfl
@[simp] theorem State.setBinding_tags (s : State) (b : Nat) (x : Binding) : (s.setBinding b x).tags = s.tags := rfl
@[simp] theorem State.setBinding_poison (s : State) (b : Nat) (x : Binding) : (s.setBinding b x).poison = s.poison := rfl
@[simp] theorem State.setBinding_l2 (s : State) (b : Nat) (x : Binding) : (s.setBinding b x).l2 = s.l2 := rfl
@[simp] theorem State.setBinding_owner (s : State) (b : Nat) (x : Binding) : (s.setBinding b x).owner = s.owner := rfl
@[simp] theorem State.setBinding_granted (s : State) (b : Nat) (x : Binding) : (s.setBinding b x).granted = s.granted := rfl
@[simp] theorem State.setBinding_retired (s : State) (b : Nat) (x : Binding) : (s.setBinding b x).retired = s.retired := rfl
@[simp] theorem State.setBinding_gone (s : State) (b : Nat) (x : Binding) : (s.setBinding b x).gone = s.gone := rfl
@[simp] theorem State.setBinding_half0 (s : State) (b : Nat) (x : Binding) : (s.setBinding b x).half0 = s.half0 := rfl
@[simp] theorem State.setBinding_half1 (s : State) (b : Nat) (x : Binding) : (s.setBinding b x).half1 = s.half1 := rfl
@[simp] theorem State.setBinding_ports (s : State) (b : Nat) (x : Binding) : (s.setBinding b x).ports = s.ports := rfl
@[simp] theorem State.setBinding_devid (s : State) (b : Nat) (x : Binding) : (s.setBinding b x).devid = s.devid := rfl
@[simp] theorem State.setBinding_devValid (s : State) (b : Nat) (x : Binding) : (s.setBinding b x).devValid = s.devValid := rfl
@[simp] theorem State.setBinding_flows (s : State) (b : Nat) (x : Binding) : (s.setBinding b x).flows = s.flows := rfl
@[simp] theorem State.setBinding_cmds (s : State) (b : Nat) (x : Binding) : (s.setBinding b x).cmds = s.cmds := rfl
@[simp] theorem State.setBinding_cq (s : State) (b : Nat) (x : Binding) : (s.setBinding b x).cq = s.cq := rfl
@[simp] theorem State.setBinding_events (s : State) (b : Nat) (x : Binding) : (s.setBinding b x).events = s.events := rfl
@[simp] theorem State.setBinding_evWait (s : State) (b : Nat) (x : Binding) : (s.setBinding b x).evWait = s.evWait := rfl
@[simp] theorem State.setBinding_evNext (s : State) (b : Nat) (x : Binding) : (s.setBinding b x).evNext = s.evNext := rfl
@[simp] theorem State.setBinding_msix (s : State) (b : Nat) (x : Binding) : (s.setBinding b x).msix = s.msix := rfl
@[simp] theorem State.setBinding_recvs (s : State) (b : Nat) (x : Binding) : (s.setBinding b x).recvs = s.recvs := rfl
@[simp] theorem State.setBinding_posted (s : State) (b : Nat) (x : Binding) : (s.setBinding b x).posted = s.posted := rfl
@[simp] theorem State.setBinding_jnext (s : State) (b : Nat) (x : Binding) : (s.setBinding b x).jnext = s.jnext := rfl
@[simp] theorem State.setBinding_fepochs (s : State) (b : Nat) (x : Binding) : (s.setBinding b x).fepochs = s.fepochs := rfl
@[simp] theorem State.setBinding_deferredTests (s : State) (b : Nat) (x : Binding) : (s.setBinding b x).deferredTests = s.deferredTests := rfl
@[simp] theorem State.setBinding_saved (s : State) (b : Nat) (x : Binding) : (s.setBinding b x).saved = s.saved := rfl
@[simp] theorem State.setBinding_readPort (s : State) (b : Nat) (x : Binding) : (s.setBinding b x).readPort = s.readPort := rfl
@[simp] theorem State.setBinding_vin (s : State) (b : Nat) (x : Binding) : (s.setBinding b x).vin = s.vin := rfl
@[simp] theorem State.setBinding_present (s : State) (b : Nat) (x : Binding) : (s.setBinding b x).present = s.present := rfl
@[simp] theorem State.setBinding_pulses (s : State) (b : Nat) (x : Binding) : (s.setBinding b x).pulses = s.pulses := rfl
@[simp] theorem State.setBinding_free (s : State) (b : Nat) (x : Binding) : (s.setBinding b x).free = s.free := rfl
@[simp] theorem State.setBinding_pending (s : State) (b : Nat) (x : Binding) : (s.setBinding b x).pending = s.pending := rfl

/-! ### `State.answer` -/

@[simp] theorem State.answer_build (s : State) (l : List Word) : (s.answer l).build = s.build := rfl
@[simp] theorem State.answer_threads (s : State) (l : List Word) : (s.answer l).threads = s.threads := rfl
@[simp] theorem State.answer_cores (s : State) (l : List Word) : (s.answer l).cores = s.cores := rfl
@[simp] theorem State.answer_mem (s : State) (l : List Word) : (s.answer l).mem = s.mem := rfl
@[simp] theorem State.answer_tags (s : State) (l : List Word) : (s.answer l).tags = s.tags := rfl
@[simp] theorem State.answer_poison (s : State) (l : List Word) : (s.answer l).poison = s.poison := rfl
@[simp] theorem State.answer_l2 (s : State) (l : List Word) : (s.answer l).l2 = s.l2 := rfl
@[simp] theorem State.answer_owner (s : State) (l : List Word) : (s.answer l).owner = s.owner := rfl
@[simp] theorem State.answer_granted (s : State) (l : List Word) : (s.answer l).granted = s.granted := rfl
@[simp] theorem State.answer_retired (s : State) (l : List Word) : (s.answer l).retired = s.retired := rfl
@[simp] theorem State.answer_gone (s : State) (l : List Word) : (s.answer l).gone = s.gone := rfl
@[simp] theorem State.answer_bindings (s : State) (l : List Word) : (s.answer l).bindings = s.bindings := rfl
@[simp] theorem State.answer_half0 (s : State) (l : List Word) : (s.answer l).half0 = s.half0 := rfl
@[simp] theorem State.answer_half1 (s : State) (l : List Word) : (s.answer l).half1 = s.half1 := rfl
@[simp] theorem State.answer_ports (s : State) (l : List Word) : (s.answer l).ports = s.ports := rfl
@[simp] theorem State.answer_devid (s : State) (l : List Word) : (s.answer l).devid = s.devid := rfl
@[simp] theorem State.answer_devValid (s : State) (l : List Word) : (s.answer l).devValid = s.devValid := rfl
@[simp] theorem State.answer_flows (s : State) (l : List Word) : (s.answer l).flows = s.flows := rfl
@[simp] theorem State.answer_cmds (s : State) (l : List Word) : (s.answer l).cmds = s.cmds := rfl
@[simp] theorem State.answer_cq (s : State) (l : List Word) : (s.answer l).cq = s.cq := rfl
@[simp] theorem State.answer_events (s : State) (l : List Word) : (s.answer l).events = s.events := rfl
@[simp] theorem State.answer_evWait (s : State) (l : List Word) : (s.answer l).evWait = s.evWait := rfl
@[simp] theorem State.answer_evNext (s : State) (l : List Word) : (s.answer l).evNext = s.evNext := rfl
@[simp] theorem State.answer_msix (s : State) (l : List Word) : (s.answer l).msix = s.msix := rfl
@[simp] theorem State.answer_recvs (s : State) (l : List Word) : (s.answer l).recvs = s.recvs := rfl
@[simp] theorem State.answer_posted (s : State) (l : List Word) : (s.answer l).posted = s.posted := rfl
@[simp] theorem State.answer_jnext (s : State) (l : List Word) : (s.answer l).jnext = s.jnext := rfl
@[simp] theorem State.answer_fepochs (s : State) (l : List Word) : (s.answer l).fepochs = s.fepochs := rfl
@[simp] theorem State.answer_deferredTests (s : State) (l : List Word) : (s.answer l).deferredTests = s.deferredTests := rfl
@[simp] theorem State.answer_saved (s : State) (l : List Word) : (s.answer l).saved = s.saved := rfl
@[simp] theorem State.answer_vin (s : State) (l : List Word) : (s.answer l).vin = s.vin := rfl
@[simp] theorem State.answer_present (s : State) (l : List Word) : (s.answer l).present = s.present := rfl
@[simp] theorem State.answer_pulses (s : State) (l : List Word) : (s.answer l).pulses = s.pulses := rfl
@[simp] theorem State.answer_free (s : State) (l : List Word) : (s.answer l).free = s.free := rfl
@[simp] theorem State.answer_pending (s : State) (l : List Word) : (s.answer l).pending = s.pending := rfl

/-! ### `State.setHalf` -/

@[simp] theorem State.setHalf_build (s : State) (h : Nat) (x : Half) : (s.setHalf h x).build = s.build := by unfold State.setHalf; split <;> rfl
@[simp] theorem State.setHalf_threads (s : State) (h : Nat) (x : Half) : (s.setHalf h x).threads = s.threads := by unfold State.setHalf; split <;> rfl
@[simp] theorem State.setHalf_cores (s : State) (h : Nat) (x : Half) : (s.setHalf h x).cores = s.cores := by unfold State.setHalf; split <;> rfl
@[simp] theorem State.setHalf_mem (s : State) (h : Nat) (x : Half) : (s.setHalf h x).mem = s.mem := by unfold State.setHalf; split <;> rfl
@[simp] theorem State.setHalf_tags (s : State) (h : Nat) (x : Half) : (s.setHalf h x).tags = s.tags := by unfold State.setHalf; split <;> rfl
@[simp] theorem State.setHalf_poison (s : State) (h : Nat) (x : Half) : (s.setHalf h x).poison = s.poison := by unfold State.setHalf; split <;> rfl
@[simp] theorem State.setHalf_l2 (s : State) (h : Nat) (x : Half) : (s.setHalf h x).l2 = s.l2 := by unfold State.setHalf; split <;> rfl
@[simp] theorem State.setHalf_owner (s : State) (h : Nat) (x : Half) : (s.setHalf h x).owner = s.owner := by unfold State.setHalf; split <;> rfl
@[simp] theorem State.setHalf_granted (s : State) (h : Nat) (x : Half) : (s.setHalf h x).granted = s.granted := by unfold State.setHalf; split <;> rfl
@[simp] theorem State.setHalf_retired (s : State) (h : Nat) (x : Half) : (s.setHalf h x).retired = s.retired := by unfold State.setHalf; split <;> rfl
@[simp] theorem State.setHalf_gone (s : State) (h : Nat) (x : Half) : (s.setHalf h x).gone = s.gone := by unfold State.setHalf; split <;> rfl
@[simp] theorem State.setHalf_bindings (s : State) (h : Nat) (x : Half) : (s.setHalf h x).bindings = s.bindings := by unfold State.setHalf; split <;> rfl
@[simp] theorem State.setHalf_ports (s : State) (h : Nat) (x : Half) : (s.setHalf h x).ports = s.ports := by unfold State.setHalf; split <;> rfl
@[simp] theorem State.setHalf_devid (s : State) (h : Nat) (x : Half) : (s.setHalf h x).devid = s.devid := by unfold State.setHalf; split <;> rfl
@[simp] theorem State.setHalf_devValid (s : State) (h : Nat) (x : Half) : (s.setHalf h x).devValid = s.devValid := by unfold State.setHalf; split <;> rfl
@[simp] theorem State.setHalf_flows (s : State) (h : Nat) (x : Half) : (s.setHalf h x).flows = s.flows := by unfold State.setHalf; split <;> rfl
@[simp] theorem State.setHalf_cmds (s : State) (h : Nat) (x : Half) : (s.setHalf h x).cmds = s.cmds := by unfold State.setHalf; split <;> rfl
@[simp] theorem State.setHalf_cq (s : State) (h : Nat) (x : Half) : (s.setHalf h x).cq = s.cq := by unfold State.setHalf; split <;> rfl
@[simp] theorem State.setHalf_events (s : State) (h : Nat) (x : Half) : (s.setHalf h x).events = s.events := by unfold State.setHalf; split <;> rfl
@[simp] theorem State.setHalf_evWait (s : State) (h : Nat) (x : Half) : (s.setHalf h x).evWait = s.evWait := by unfold State.setHalf; split <;> rfl
@[simp] theorem State.setHalf_evNext (s : State) (h : Nat) (x : Half) : (s.setHalf h x).evNext = s.evNext := by unfold State.setHalf; split <;> rfl
@[simp] theorem State.setHalf_msix (s : State) (h : Nat) (x : Half) : (s.setHalf h x).msix = s.msix := by unfold State.setHalf; split <;> rfl
@[simp] theorem State.setHalf_recvs (s : State) (h : Nat) (x : Half) : (s.setHalf h x).recvs = s.recvs := by unfold State.setHalf; split <;> rfl
@[simp] theorem State.setHalf_posted (s : State) (h : Nat) (x : Half) : (s.setHalf h x).posted = s.posted := by unfold State.setHalf; split <;> rfl
@[simp] theorem State.setHalf_jnext (s : State) (h : Nat) (x : Half) : (s.setHalf h x).jnext = s.jnext := by unfold State.setHalf; split <;> rfl
@[simp] theorem State.setHalf_fepochs (s : State) (h : Nat) (x : Half) : (s.setHalf h x).fepochs = s.fepochs := by unfold State.setHalf; split <;> rfl
@[simp] theorem State.setHalf_deferredTests (s : State) (h : Nat) (x : Half) : (s.setHalf h x).deferredTests = s.deferredTests := by unfold State.setHalf; split <;> rfl
@[simp] theorem State.setHalf_saved (s : State) (h : Nat) (x : Half) : (s.setHalf h x).saved = s.saved := by unfold State.setHalf; split <;> rfl
@[simp] theorem State.setHalf_readPort (s : State) (h : Nat) (x : Half) : (s.setHalf h x).readPort = s.readPort := by unfold State.setHalf; split <;> rfl
@[simp] theorem State.setHalf_vin (s : State) (h : Nat) (x : Half) : (s.setHalf h x).vin = s.vin := by unfold State.setHalf; split <;> rfl
@[simp] theorem State.setHalf_present (s : State) (h : Nat) (x : Half) : (s.setHalf h x).present = s.present := by unfold State.setHalf; split <;> rfl
@[simp] theorem State.setHalf_pulses (s : State) (h : Nat) (x : Half) : (s.setHalf h x).pulses = s.pulses := by unfold State.setHalf; split <;> rfl
@[simp] theorem State.setHalf_free (s : State) (h : Nat) (x : Half) : (s.setHalf h x).free = s.free := by unfold State.setHalf; split <;> rfl
@[simp] theorem State.setHalf_pending (s : State) (h : Nat) (x : Half) : (s.setHalf h x).pending = s.pending := by unfold State.setHalf; split <;> rfl

/-! ### Reading back -/

theorem State.thread_setThread (s : State) (g j : Nat) (t : Thread) : (s.setThread g t).thread j = if j = g then t else s.thread j :=
  FMap.get_set _ _ _ _ _
@[simp] theorem State.thread_setThread_same (s : State) (g : Nat) (t : Thread) : (s.setThread g t).thread g = t := by
  rw [State.thread_setThread, if_pos rfl]
theorem State.core_setCore (s : State) (c j : Nat) (k : Core) : (s.setCore c k).core j = if j = c then k else s.core j :=
  FMap.get_set _ _ _ _ _
@[simp] theorem State.core_setCore_same (s : State) (c : Nat) (k : Core) : (s.setCore c k).core c = k := by
  rw [State.core_setCore, if_pos rfl]
theorem State.port_setPort (s : State) (p j : Nat) (x : Port) : (s.setPort p x).port j = if j = p then x else s.port j :=
  FMap.get_set _ _ _ _ _
@[simp] theorem State.port_setPort_same (s : State) (p : Nat) (x : Port) : (s.setPort p x).port p = x := by
  rw [State.port_setPort, if_pos rfl]
theorem State.binding_setBinding (s : State) (b j : Nat) (x : Binding) : (s.setBinding b x).binding j = if j = b then x else s.binding j :=
  FMap.get_set _ _ _ _ _
@[simp] theorem State.binding_setBinding_same (s : State) (b : Nat) (x : Binding) : (s.setBinding b x).binding b = x := by
  rw [State.binding_setBinding, if_pos rfl]
theorem State.half_setHalf (s : State) (h j : Nat) (x : Half) (hh : h < 2) (hj : j < 2) :
    (s.setHalf h x).half j = if j = h then x else s.half j := by
  unfold State.setHalf State.half
  split <;> split <;> split <;> first | rfl | omega
@[simp] theorem State.half_setHalf_same (s : State) (h : Nat) (x : Half) : (s.setHalf h x).half h = x := by
  unfold State.setHalf State.half; split <;> simp_all

@[simp] theorem State.thread_setCore (s : State) (c : Nat) (k : Core) (j : Nat) : (s.setCore c k).thread j = s.thread j := rfl
@[simp] theorem State.thread_setPort (s : State) (p : Nat) (x : Port) (j : Nat) : (s.setPort p x).thread j = s.thread j := rfl
@[simp] theorem State.thread_setBinding (s : State) (b : Nat) (x : Binding) (j : Nat) : (s.setBinding b x).thread j = s.thread j := rfl
@[simp] theorem State.thread_answer (s : State) (l : List Word) (j : Nat) : (s.answer l).thread j = s.thread j := rfl
@[simp] theorem State.core_setThread (s : State) (g : Nat) (t : Thread) (j : Nat) : (s.setThread g t).core j = s.core j := rfl
@[simp] theorem State.core_setPort (s : State) (p : Nat) (x : Port) (j : Nat) : (s.setPort p x).core j = s.core j := rfl
@[simp] theorem State.core_setBinding (s : State) (b : Nat) (x : Binding) (j : Nat) : (s.setBinding b x).core j = s.core j := rfl
@[simp] theorem State.core_answer (s : State) (l : List Word) (j : Nat) : (s.answer l).core j = s.core j := rfl
@[simp] theorem State.port_setThread (s : State) (g : Nat) (t : Thread) (j : Nat) : (s.setThread g t).port j = s.port j := rfl
@[simp] theorem State.port_setCore (s : State) (c : Nat) (k : Core) (j : Nat) : (s.setCore c k).port j = s.port j := rfl
@[simp] theorem State.port_setBinding (s : State) (b : Nat) (x : Binding) (j : Nat) : (s.setBinding b x).port j = s.port j := rfl
@[simp] theorem State.binding_setThread (s : State) (g : Nat) (t : Thread) (j : Nat) : (s.setThread g t).binding j = s.binding j := rfl
@[simp] theorem State.binding_setCore (s : State) (c : Nat) (k : Core) (j : Nat) : (s.setCore c k).binding j = s.binding j := rfl
@[simp] theorem State.binding_setPort (s : State) (p : Nat) (x : Port) (j : Nat) : (s.setPort p x).binding j = s.binding j := rfl
@[simp] theorem State.half_setThread (s : State) (g : Nat) (t : Thread) (j : Nat) : (s.setThread g t).half j = s.half j := rfl
@[simp] theorem State.half_setCore (s : State) (c : Nat) (k : Core) (j : Nat) : (s.setCore c k).half j = s.half j := rfl
@[simp] theorem State.half_setPort (s : State) (p : Nat) (x : Port) (j : Nat) : (s.setPort p x).half j = s.half j := rfl
@[simp] theorem State.half_setBinding (s : State) (b : Nat) (x : Binding) (j : Nat) : (s.setBinding b x).half j = s.half j := rfl
@[simp] theorem State.thread_setHalf (s : State) (h : Nat) (x : Half) (j : Nat) : (s.setHalf h x).thread j = s.thread j := by unfold State.setHalf; split <;> rfl
@[simp] theorem State.core_setHalf (s : State) (h : Nat) (x : Half) (j : Nat) : (s.setHalf h x).core j = s.core j := by unfold State.setHalf; split <;> rfl
@[simp] theorem State.port_setHalf (s : State) (h : Nat) (x : Half) (j : Nat) : (s.setHalf h x).port j = s.port j := by unfold State.setHalf; split <;> rfl
@[simp] theorem State.binding_setHalf (s : State) (h : Nat) (x : Half) (j : Nat) : (s.setHalf h x).binding j = s.binding j := by unfold State.setHalf; split <;> rfl

/-! ### A thread's updates -/

@[simp] theorem Thread.setVreg_run (t : Thread) (v : Nat) (x : VReg) : (t.setVreg v x).run = t.run := rfl
@[simp] theorem Thread.setVreg_ending (t : Thread) (v : Nat) (x : VReg) : (t.setVreg v x).ending = t.ending := rfl
@[simp] theorem Thread.setVreg_stopped (t : Thread) (v : Nat) (x : VReg) : (t.setVreg v x).stopped = t.stopped := rfl
@[simp] theorem Thread.setVreg_launch (t : Thread) (v : Nat) (x : VReg) : (t.setVreg v x).launch = t.launch := rfl
@[simp] theorem Thread.setVreg_pc (t : Thread) (v : Nat) (x : VReg) : (t.setVreg v x).pc = t.pc := rfl
@[simp] theorem Thread.setVreg_fetch (t : Thread) (v : Nat) (x : VReg) : (t.setVreg v x).fetch = t.fetch := rfl
@[simp] theorem Thread.setVreg_regs (t : Thread) (v : Nat) (x : VReg) : (t.setVreg v x).regs = t.regs := rfl
@[simp] theorem Thread.setVreg_lnk (t : Thread) (v : Nat) (x : VReg) : (t.setVreg v x).lnk = t.lnk := rfl
@[simp] theorem Thread.setVreg_sm (t : Thread) (v : Nat) (x : VReg) : (t.setVreg v x).sm = t.sm := rfl
@[simp] theorem Thread.setVreg_vpend (t : Thread) (v : Nat) (x : VReg) : (t.setVreg v x).vpend = t.vpend := rfl
@[simp] theorem Thread.setVreg_fixed (t : Thread) (v : Nat) (x : VReg) : (t.setVreg v x).fixed = t.fixed := rfl
@[simp] theorem Thread.setVreg_slot (t : Thread) (v : Nat) (x : VReg) : (t.setVreg v x).slot = t.slot := rfl
@[simp] theorem Thread.setVreg_mode (t : Thread) (v : Nat) (x : VReg) : (t.setVreg v x).mode = t.mode := rfl
@[simp] theorem Thread.setVreg_shadow (t : Thread) (v : Nat) (x : VReg) : (t.setVreg v x).shadow = t.shadow := rfl
@[simp] theorem Thread.setVreg_fflags (t : Thread) (v : Nat) (x : VReg) : (t.setVreg v x).fflags = t.fflags := rfl
@[simp] theorem Thread.setVreg_tickets (t : Thread) (v : Nat) (x : VReg) : (t.setVreg v x).tickets = t.tickets := rfl
@[simp] theorem Thread.setVreg_tkpc (t : Thread) (v : Nat) (x : VReg) : (t.setVreg v x).tkpc = t.tkpc := rfl
@[simp] theorem Thread.setVreg_loopcnt (t : Thread) (v : Nat) (x : VReg) : (t.setVreg v x).loopcnt = t.loopcnt := rfl
@[simp] theorem Thread.setVreg_delay (t : Thread) (v : Nat) (x : VReg) : (t.setVreg v x).delay = t.delay := rfl
@[simp] theorem Thread.setVreg_rep (t : Thread) (v : Nat) (x : VReg) : (t.setVreg v x).rep = t.rep := rfl
@[simp] theorem Thread.setVreg_rptResume (t : Thread) (v : Nat) (x : VReg) : (t.setVreg v x).rptResume = t.rptResume := rfl
@[simp] theorem Thread.setVreg_epc (t : Thread) (v : Nat) (x : VReg) : (t.setVreg v x).epc = t.epc := rfl
@[simp] theorem Thread.setVreg_ecause (t : Thread) (v : Nat) (x : VReg) : (t.setVreg v x).ecause = t.ecause := rfl
@[simp] theorem Thread.setVreg_etval (t : Thread) (v : Nat) (x : VReg) : (t.setVreg v x).etval = t.etval := rfl
@[simp] theorem Thread.setVreg_estat (t : Thread) (v : Nat) (x : VReg) : (t.setVreg v x).estat = t.estat := rfl
@[simp] theorem Thread.setVreg_tcmpEn (t : Thread) (v : Nat) (x : VReg) : (t.setVreg v x).tcmpEn = t.tcmpEn := rfl
@[simp] theorem Thread.setVreg_tcmp (t : Thread) (v : Nat) (x : VReg) : (t.setVreg v x).tcmp = t.tcmp := rfl
@[simp] theorem Thread.setVreg_cirq (t : Thread) (v : Nat) (x : VReg) : (t.setVreg v x).cirq = t.cirq := rfl
@[simp] theorem Thread.setVreg_trap (t : Thread) (v : Nat) (x : VReg) : (t.setVreg v x).trap = t.trap := rfl
@[simp] theorem Thread.setVreg_memOrd (t : Thread) (v : Nat) (x : VReg) : (t.setVreg v x).memOrd = t.memOrd := rfl
@[simp] theorem Thread.setVreg_fences (t : Thread) (v : Nat) (x : VReg) : (t.setVreg v x).fences = t.fences := rfl
@[simp] theorem Thread.clearV_run (t : Thread) (v : Nat) : (t.clearV v).run = t.run := rfl
@[simp] theorem Thread.clearV_ending (t : Thread) (v : Nat) : (t.clearV v).ending = t.ending := rfl
@[simp] theorem Thread.clearV_stopped (t : Thread) (v : Nat) : (t.clearV v).stopped = t.stopped := rfl
@[simp] theorem Thread.clearV_launch (t : Thread) (v : Nat) : (t.clearV v).launch = t.launch := rfl
@[simp] theorem Thread.clearV_pc (t : Thread) (v : Nat) : (t.clearV v).pc = t.pc := rfl
@[simp] theorem Thread.clearV_fetch (t : Thread) (v : Nat) : (t.clearV v).fetch = t.fetch := rfl
@[simp] theorem Thread.clearV_regs (t : Thread) (v : Nat) : (t.clearV v).regs = t.regs := rfl
@[simp] theorem Thread.clearV_lnk (t : Thread) (v : Nat) : (t.clearV v).lnk = t.lnk := rfl
@[simp] theorem Thread.clearV_sm (t : Thread) (v : Nat) : (t.clearV v).sm = t.sm := rfl
@[simp] theorem Thread.clearV_vregs (t : Thread) (v : Nat) : (t.clearV v).vregs = t.vregs := rfl
@[simp] theorem Thread.clearV_fixed (t : Thread) (v : Nat) : (t.clearV v).fixed = t.fixed := rfl
@[simp] theorem Thread.clearV_slot (t : Thread) (v : Nat) : (t.clearV v).slot = t.slot := rfl
@[simp] theorem Thread.clearV_mode (t : Thread) (v : Nat) : (t.clearV v).mode = t.mode := rfl
@[simp] theorem Thread.clearV_shadow (t : Thread) (v : Nat) : (t.clearV v).shadow = t.shadow := rfl
@[simp] theorem Thread.clearV_fflags (t : Thread) (v : Nat) : (t.clearV v).fflags = t.fflags := rfl
@[simp] theorem Thread.clearV_tickets (t : Thread) (v : Nat) : (t.clearV v).tickets = t.tickets := rfl
@[simp] theorem Thread.clearV_tkpc (t : Thread) (v : Nat) : (t.clearV v).tkpc = t.tkpc := rfl
@[simp] theorem Thread.clearV_loopcnt (t : Thread) (v : Nat) : (t.clearV v).loopcnt = t.loopcnt := rfl
@[simp] theorem Thread.clearV_delay (t : Thread) (v : Nat) : (t.clearV v).delay = t.delay := rfl
@[simp] theorem Thread.clearV_rep (t : Thread) (v : Nat) : (t.clearV v).rep = t.rep := rfl
@[simp] theorem Thread.clearV_rptResume (t : Thread) (v : Nat) : (t.clearV v).rptResume = t.rptResume := rfl
@[simp] theorem Thread.clearV_epc (t : Thread) (v : Nat) : (t.clearV v).epc = t.epc := rfl
@[simp] theorem Thread.clearV_ecause (t : Thread) (v : Nat) : (t.clearV v).ecause = t.ecause := rfl
@[simp] theorem Thread.clearV_etval (t : Thread) (v : Nat) : (t.clearV v).etval = t.etval := rfl
@[simp] theorem Thread.clearV_estat (t : Thread) (v : Nat) : (t.clearV v).estat = t.estat := rfl
@[simp] theorem Thread.clearV_tcmpEn (t : Thread) (v : Nat) : (t.clearV v).tcmpEn = t.tcmpEn := rfl
@[simp] theorem Thread.clearV_tcmp (t : Thread) (v : Nat) : (t.clearV v).tcmp = t.tcmp := rfl
@[simp] theorem Thread.clearV_cirq (t : Thread) (v : Nat) : (t.clearV v).cirq = t.cirq := rfl
@[simp] theorem Thread.clearV_trap (t : Thread) (v : Nat) : (t.clearV v).trap = t.trap := rfl
@[simp] theorem Thread.clearV_memOrd (t : Thread) (v : Nat) : (t.clearV v).memOrd = t.memOrd := rfl
@[simp] theorem Thread.clearV_fences (t : Thread) (v : Nat) : (t.clearV v).fences = t.fences := rfl
@[simp] theorem Thread.setTicket_run (t : Thread) (i : Nat) (k : Ticket) : (t.setTicket i k).run = t.run := rfl
@[simp] theorem Thread.setTicket_ending (t : Thread) (i : Nat) (k : Ticket) : (t.setTicket i k).ending = t.ending := rfl
@[simp] theorem Thread.setTicket_stopped (t : Thread) (i : Nat) (k : Ticket) : (t.setTicket i k).stopped = t.stopped := rfl
@[simp] theorem Thread.setTicket_launch (t : Thread) (i : Nat) (k : Ticket) : (t.setTicket i k).launch = t.launch := rfl
@[simp] theorem Thread.setTicket_pc (t : Thread) (i : Nat) (k : Ticket) : (t.setTicket i k).pc = t.pc := rfl
@[simp] theorem Thread.setTicket_fetch (t : Thread) (i : Nat) (k : Ticket) : (t.setTicket i k).fetch = t.fetch := rfl
@[simp] theorem Thread.setTicket_regs (t : Thread) (i : Nat) (k : Ticket) : (t.setTicket i k).regs = t.regs := rfl
@[simp] theorem Thread.setTicket_lnk (t : Thread) (i : Nat) (k : Ticket) : (t.setTicket i k).lnk = t.lnk := rfl
@[simp] theorem Thread.setTicket_sm (t : Thread) (i : Nat) (k : Ticket) : (t.setTicket i k).sm = t.sm := rfl
@[simp] theorem Thread.setTicket_vregs (t : Thread) (i : Nat) (k : Ticket) : (t.setTicket i k).vregs = t.vregs := rfl
@[simp] theorem Thread.setTicket_vpend (t : Thread) (i : Nat) (k : Ticket) : (t.setTicket i k).vpend = t.vpend := rfl
@[simp] theorem Thread.setTicket_fixed (t : Thread) (i : Nat) (k : Ticket) : (t.setTicket i k).fixed = t.fixed := rfl
@[simp] theorem Thread.setTicket_slot (t : Thread) (i : Nat) (k : Ticket) : (t.setTicket i k).slot = t.slot := rfl
@[simp] theorem Thread.setTicket_mode (t : Thread) (i : Nat) (k : Ticket) : (t.setTicket i k).mode = t.mode := rfl
@[simp] theorem Thread.setTicket_shadow (t : Thread) (i : Nat) (k : Ticket) : (t.setTicket i k).shadow = t.shadow := rfl
@[simp] theorem Thread.setTicket_fflags (t : Thread) (i : Nat) (k : Ticket) : (t.setTicket i k).fflags = t.fflags := rfl
@[simp] theorem Thread.setTicket_tkpc (t : Thread) (i : Nat) (k : Ticket) : (t.setTicket i k).tkpc = t.tkpc := rfl
@[simp] theorem Thread.setTicket_loopcnt (t : Thread) (i : Nat) (k : Ticket) : (t.setTicket i k).loopcnt = t.loopcnt := rfl
@[simp] theorem Thread.setTicket_delay (t : Thread) (i : Nat) (k : Ticket) : (t.setTicket i k).delay = t.delay := rfl
@[simp] theorem Thread.setTicket_rep (t : Thread) (i : Nat) (k : Ticket) : (t.setTicket i k).rep = t.rep := rfl
@[simp] theorem Thread.setTicket_rptResume (t : Thread) (i : Nat) (k : Ticket) : (t.setTicket i k).rptResume = t.rptResume := rfl
@[simp] theorem Thread.setTicket_epc (t : Thread) (i : Nat) (k : Ticket) : (t.setTicket i k).epc = t.epc := rfl
@[simp] theorem Thread.setTicket_ecause (t : Thread) (i : Nat) (k : Ticket) : (t.setTicket i k).ecause = t.ecause := rfl
@[simp] theorem Thread.setTicket_etval (t : Thread) (i : Nat) (k : Ticket) : (t.setTicket i k).etval = t.etval := rfl
@[simp] theorem Thread.setTicket_estat (t : Thread) (i : Nat) (k : Ticket) : (t.setTicket i k).estat = t.estat := rfl
@[simp] theorem Thread.setTicket_tcmpEn (t : Thread) (i : Nat) (k : Ticket) : (t.setTicket i k).tcmpEn = t.tcmpEn := rfl
@[simp] theorem Thread.setTicket_tcmp (t : Thread) (i : Nat) (k : Ticket) : (t.setTicket i k).tcmp = t.tcmp := rfl
@[simp] theorem Thread.setTicket_cirq (t : Thread) (i : Nat) (k : Ticket) : (t.setTicket i k).cirq = t.cirq := rfl
@[simp] theorem Thread.setTicket_trap (t : Thread) (i : Nat) (k : Ticket) : (t.setTicket i k).trap = t.trap := rfl
@[simp] theorem Thread.setTicket_memOrd (t : Thread) (i : Nat) (k : Ticket) : (t.setTicket i k).memOrd = t.memOrd := rfl
@[simp] theorem Thread.setTicket_fences (t : Thread) (i : Nat) (k : Ticket) : (t.setTicket i k).fences = t.fences := rfl
@[simp] theorem Thread.orFlags_run (t : Thread) (f : BitVec 5) : (t.orFlags f).run = t.run := rfl
@[simp] theorem Thread.orFlags_ending (t : Thread) (f : BitVec 5) : (t.orFlags f).ending = t.ending := rfl
@[simp] theorem Thread.orFlags_stopped (t : Thread) (f : BitVec 5) : (t.orFlags f).stopped = t.stopped := rfl
@[simp] theorem Thread.orFlags_launch (t : Thread) (f : BitVec 5) : (t.orFlags f).launch = t.launch := rfl
@[simp] theorem Thread.orFlags_pc (t : Thread) (f : BitVec 5) : (t.orFlags f).pc = t.pc := rfl
@[simp] theorem Thread.orFlags_fetch (t : Thread) (f : BitVec 5) : (t.orFlags f).fetch = t.fetch := rfl
@[simp] theorem Thread.orFlags_regs (t : Thread) (f : BitVec 5) : (t.orFlags f).regs = t.regs := rfl
@[simp] theorem Thread.orFlags_lnk (t : Thread) (f : BitVec 5) : (t.orFlags f).lnk = t.lnk := rfl
@[simp] theorem Thread.orFlags_sm (t : Thread) (f : BitVec 5) : (t.orFlags f).sm = t.sm := rfl
@[simp] theorem Thread.orFlags_vregs (t : Thread) (f : BitVec 5) : (t.orFlags f).vregs = t.vregs := rfl
@[simp] theorem Thread.orFlags_vpend (t : Thread) (f : BitVec 5) : (t.orFlags f).vpend = t.vpend := rfl
@[simp] theorem Thread.orFlags_fixed (t : Thread) (f : BitVec 5) : (t.orFlags f).fixed = t.fixed := rfl
@[simp] theorem Thread.orFlags_slot (t : Thread) (f : BitVec 5) : (t.orFlags f).slot = t.slot := rfl
@[simp] theorem Thread.orFlags_mode (t : Thread) (f : BitVec 5) : (t.orFlags f).mode = t.mode := rfl
@[simp] theorem Thread.orFlags_shadow (t : Thread) (f : BitVec 5) : (t.orFlags f).shadow = t.shadow := rfl
@[simp] theorem Thread.orFlags_tickets (t : Thread) (f : BitVec 5) : (t.orFlags f).tickets = t.tickets := rfl
@[simp] theorem Thread.orFlags_tkpc (t : Thread) (f : BitVec 5) : (t.orFlags f).tkpc = t.tkpc := rfl
@[simp] theorem Thread.orFlags_loopcnt (t : Thread) (f : BitVec 5) : (t.orFlags f).loopcnt = t.loopcnt := rfl
@[simp] theorem Thread.orFlags_delay (t : Thread) (f : BitVec 5) : (t.orFlags f).delay = t.delay := rfl
@[simp] theorem Thread.orFlags_rep (t : Thread) (f : BitVec 5) : (t.orFlags f).rep = t.rep := rfl
@[simp] theorem Thread.orFlags_rptResume (t : Thread) (f : BitVec 5) : (t.orFlags f).rptResume = t.rptResume := rfl
@[simp] theorem Thread.orFlags_epc (t : Thread) (f : BitVec 5) : (t.orFlags f).epc = t.epc := rfl
@[simp] theorem Thread.orFlags_ecause (t : Thread) (f : BitVec 5) : (t.orFlags f).ecause = t.ecause := rfl
@[simp] theorem Thread.orFlags_etval (t : Thread) (f : BitVec 5) : (t.orFlags f).etval = t.etval := rfl
@[simp] theorem Thread.orFlags_estat (t : Thread) (f : BitVec 5) : (t.orFlags f).estat = t.estat := rfl
@[simp] theorem Thread.orFlags_tcmpEn (t : Thread) (f : BitVec 5) : (t.orFlags f).tcmpEn = t.tcmpEn := rfl
@[simp] theorem Thread.orFlags_tcmp (t : Thread) (f : BitVec 5) : (t.orFlags f).tcmp = t.tcmp := rfl
@[simp] theorem Thread.orFlags_cirq (t : Thread) (f : BitVec 5) : (t.orFlags f).cirq = t.cirq := rfl
@[simp] theorem Thread.orFlags_trap (t : Thread) (f : BitVec 5) : (t.orFlags f).trap = t.trap := rfl
@[simp] theorem Thread.orFlags_memOrd (t : Thread) (f : BitVec 5) : (t.orFlags f).memOrd = t.memOrd := rfl
@[simp] theorem Thread.orFlags_fences (t : Thread) (f : BitVec 5) : (t.orFlags f).fences = t.fences := rfl
@[simp] theorem Thread.clearFlags_run (t : Thread) (v : Word) : (t.clearFlags v).run = t.run := rfl
@[simp] theorem Thread.clearFlags_ending (t : Thread) (v : Word) : (t.clearFlags v).ending = t.ending := rfl
@[simp] theorem Thread.clearFlags_stopped (t : Thread) (v : Word) : (t.clearFlags v).stopped = t.stopped := rfl
@[simp] theorem Thread.clearFlags_launch (t : Thread) (v : Word) : (t.clearFlags v).launch = t.launch := rfl
@[simp] theorem Thread.clearFlags_pc (t : Thread) (v : Word) : (t.clearFlags v).pc = t.pc := rfl
@[simp] theorem Thread.clearFlags_fetch (t : Thread) (v : Word) : (t.clearFlags v).fetch = t.fetch := rfl
@[simp] theorem Thread.clearFlags_regs (t : Thread) (v : Word) : (t.clearFlags v).regs = t.regs := rfl
@[simp] theorem Thread.clearFlags_lnk (t : Thread) (v : Word) : (t.clearFlags v).lnk = t.lnk := rfl
@[simp] theorem Thread.clearFlags_sm (t : Thread) (v : Word) : (t.clearFlags v).sm = t.sm := rfl
@[simp] theorem Thread.clearFlags_vregs (t : Thread) (v : Word) : (t.clearFlags v).vregs = t.vregs := rfl
@[simp] theorem Thread.clearFlags_vpend (t : Thread) (v : Word) : (t.clearFlags v).vpend = t.vpend := rfl
@[simp] theorem Thread.clearFlags_fixed (t : Thread) (v : Word) : (t.clearFlags v).fixed = t.fixed := rfl
@[simp] theorem Thread.clearFlags_slot (t : Thread) (v : Word) : (t.clearFlags v).slot = t.slot := rfl
@[simp] theorem Thread.clearFlags_mode (t : Thread) (v : Word) : (t.clearFlags v).mode = t.mode := rfl
@[simp] theorem Thread.clearFlags_shadow (t : Thread) (v : Word) : (t.clearFlags v).shadow = t.shadow := rfl
@[simp] theorem Thread.clearFlags_tickets (t : Thread) (v : Word) : (t.clearFlags v).tickets = t.tickets := rfl
@[simp] theorem Thread.clearFlags_tkpc (t : Thread) (v : Word) : (t.clearFlags v).tkpc = t.tkpc := rfl
@[simp] theorem Thread.clearFlags_loopcnt (t : Thread) (v : Word) : (t.clearFlags v).loopcnt = t.loopcnt := rfl
@[simp] theorem Thread.clearFlags_delay (t : Thread) (v : Word) : (t.clearFlags v).delay = t.delay := rfl
@[simp] theorem Thread.clearFlags_rep (t : Thread) (v : Word) : (t.clearFlags v).rep = t.rep := rfl
@[simp] theorem Thread.clearFlags_rptResume (t : Thread) (v : Word) : (t.clearFlags v).rptResume = t.rptResume := rfl
@[simp] theorem Thread.clearFlags_epc (t : Thread) (v : Word) : (t.clearFlags v).epc = t.epc := rfl
@[simp] theorem Thread.clearFlags_ecause (t : Thread) (v : Word) : (t.clearFlags v).ecause = t.ecause := rfl
@[simp] theorem Thread.clearFlags_etval (t : Thread) (v : Word) : (t.clearFlags v).etval = t.etval := rfl
@[simp] theorem Thread.clearFlags_estat (t : Thread) (v : Word) : (t.clearFlags v).estat = t.estat := rfl
@[simp] theorem Thread.clearFlags_tcmpEn (t : Thread) (v : Word) : (t.clearFlags v).tcmpEn = t.tcmpEn := rfl
@[simp] theorem Thread.clearFlags_tcmp (t : Thread) (v : Word) : (t.clearFlags v).tcmp = t.tcmp := rfl
@[simp] theorem Thread.clearFlags_cirq (t : Thread) (v : Word) : (t.clearFlags v).cirq = t.cirq := rfl
@[simp] theorem Thread.clearFlags_trap (t : Thread) (v : Word) : (t.clearFlags v).trap = t.trap := rfl
@[simp] theorem Thread.clearFlags_memOrd (t : Thread) (v : Word) : (t.clearFlags v).memOrd = t.memOrd := rfl
@[simp] theorem Thread.clearFlags_fences (t : Thread) (v : Word) : (t.clearFlags v).fences = t.fences := rfl
@[simp] theorem Thread.startShadow_run (t : Thread) (m : BitVec 8) : (t.startShadow m).run = t.run := rfl
@[simp] theorem Thread.startShadow_ending (t : Thread) (m : BitVec 8) : (t.startShadow m).ending = t.ending := rfl
@[simp] theorem Thread.startShadow_stopped (t : Thread) (m : BitVec 8) : (t.startShadow m).stopped = t.stopped := rfl
@[simp] theorem Thread.startShadow_launch (t : Thread) (m : BitVec 8) : (t.startShadow m).launch = t.launch := rfl
@[simp] theorem Thread.startShadow_pc (t : Thread) (m : BitVec 8) : (t.startShadow m).pc = t.pc := rfl
@[simp] theorem Thread.startShadow_fetch (t : Thread) (m : BitVec 8) : (t.startShadow m).fetch = t.fetch := rfl
@[simp] theorem Thread.startShadow_regs (t : Thread) (m : BitVec 8) : (t.startShadow m).regs = t.regs := rfl
@[simp] theorem Thread.startShadow_lnk (t : Thread) (m : BitVec 8) : (t.startShadow m).lnk = t.lnk := rfl
@[simp] theorem Thread.startShadow_sm (t : Thread) (m : BitVec 8) : (t.startShadow m).sm = t.sm := rfl
@[simp] theorem Thread.startShadow_vregs (t : Thread) (m : BitVec 8) : (t.startShadow m).vregs = t.vregs := rfl
@[simp] theorem Thread.startShadow_vpend (t : Thread) (m : BitVec 8) : (t.startShadow m).vpend = t.vpend := rfl
@[simp] theorem Thread.startShadow_fixed (t : Thread) (m : BitVec 8) : (t.startShadow m).fixed = t.fixed := rfl
@[simp] theorem Thread.startShadow_slot (t : Thread) (m : BitVec 8) : (t.startShadow m).slot = t.slot := rfl
@[simp] theorem Thread.startShadow_mode (t : Thread) (m : BitVec 8) : (t.startShadow m).mode = t.mode := rfl
@[simp] theorem Thread.startShadow_fflags (t : Thread) (m : BitVec 8) : (t.startShadow m).fflags = t.fflags := rfl
@[simp] theorem Thread.startShadow_tickets (t : Thread) (m : BitVec 8) : (t.startShadow m).tickets = t.tickets := rfl
@[simp] theorem Thread.startShadow_tkpc (t : Thread) (m : BitVec 8) : (t.startShadow m).tkpc = t.tkpc := rfl
@[simp] theorem Thread.startShadow_loopcnt (t : Thread) (m : BitVec 8) : (t.startShadow m).loopcnt = t.loopcnt := rfl
@[simp] theorem Thread.startShadow_delay (t : Thread) (m : BitVec 8) : (t.startShadow m).delay = t.delay := rfl
@[simp] theorem Thread.startShadow_rep (t : Thread) (m : BitVec 8) : (t.startShadow m).rep = t.rep := rfl
@[simp] theorem Thread.startShadow_rptResume (t : Thread) (m : BitVec 8) : (t.startShadow m).rptResume = t.rptResume := rfl
@[simp] theorem Thread.startShadow_epc (t : Thread) (m : BitVec 8) : (t.startShadow m).epc = t.epc := rfl
@[simp] theorem Thread.startShadow_ecause (t : Thread) (m : BitVec 8) : (t.startShadow m).ecause = t.ecause := rfl
@[simp] theorem Thread.startShadow_etval (t : Thread) (m : BitVec 8) : (t.startShadow m).etval = t.etval := rfl
@[simp] theorem Thread.startShadow_estat (t : Thread) (m : BitVec 8) : (t.startShadow m).estat = t.estat := rfl
@[simp] theorem Thread.startShadow_tcmpEn (t : Thread) (m : BitVec 8) : (t.startShadow m).tcmpEn = t.tcmpEn := rfl
@[simp] theorem Thread.startShadow_tcmp (t : Thread) (m : BitVec 8) : (t.startShadow m).tcmp = t.tcmp := rfl
@[simp] theorem Thread.startShadow_cirq (t : Thread) (m : BitVec 8) : (t.startShadow m).cirq = t.cirq := rfl
@[simp] theorem Thread.startShadow_trap (t : Thread) (m : BitVec 8) : (t.startShadow m).trap = t.trap := rfl
@[simp] theorem Thread.startShadow_memOrd (t : Thread) (m : BitVec 8) : (t.startShadow m).memOrd = t.memOrd := rfl
@[simp] theorem Thread.startShadow_fences (t : Thread) (m : BitVec 8) : (t.startShadow m).fences = t.fences := rfl
@[simp] theorem Thread.setReg_run (t : Thread) (c : Nat) (v : TReg) : (t.setReg c v).run = t.run := by unfold Thread.setReg; (repeat' split) <;> rfl
@[simp] theorem Thread.setReg_ending (t : Thread) (c : Nat) (v : TReg) : (t.setReg c v).ending = t.ending := by unfold Thread.setReg; (repeat' split) <;> rfl
@[simp] theorem Thread.setReg_stopped (t : Thread) (c : Nat) (v : TReg) : (t.setReg c v).stopped = t.stopped := by unfold Thread.setReg; (repeat' split) <;> rfl
@[simp] theorem Thread.setReg_launch (t : Thread) (c : Nat) (v : TReg) : (t.setReg c v).launch = t.launch := by unfold Thread.setReg; (repeat' split) <;> rfl
@[simp] theorem Thread.setReg_pc (t : Thread) (c : Nat) (v : TReg) : (t.setReg c v).pc = t.pc := by unfold Thread.setReg; (repeat' split) <;> rfl
@[simp] theorem Thread.setReg_fetch (t : Thread) (c : Nat) (v : TReg) : (t.setReg c v).fetch = t.fetch := by unfold Thread.setReg; (repeat' split) <;> rfl
@[simp] theorem Thread.setReg_vregs (t : Thread) (c : Nat) (v : TReg) : (t.setReg c v).vregs = t.vregs := by unfold Thread.setReg; (repeat' split) <;> rfl
@[simp] theorem Thread.setReg_vpend (t : Thread) (c : Nat) (v : TReg) : (t.setReg c v).vpend = t.vpend := by unfold Thread.setReg; (repeat' split) <;> rfl
@[simp] theorem Thread.setReg_fixed (t : Thread) (c : Nat) (v : TReg) : (t.setReg c v).fixed = t.fixed := by unfold Thread.setReg; (repeat' split) <;> rfl
@[simp] theorem Thread.setReg_slot (t : Thread) (c : Nat) (v : TReg) : (t.setReg c v).slot = t.slot := by unfold Thread.setReg; (repeat' split) <;> rfl
@[simp] theorem Thread.setReg_mode (t : Thread) (c : Nat) (v : TReg) : (t.setReg c v).mode = t.mode := by unfold Thread.setReg; (repeat' split) <;> rfl
@[simp] theorem Thread.setReg_shadow (t : Thread) (c : Nat) (v : TReg) : (t.setReg c v).shadow = t.shadow := by unfold Thread.setReg; (repeat' split) <;> rfl
@[simp] theorem Thread.setReg_fflags (t : Thread) (c : Nat) (v : TReg) : (t.setReg c v).fflags = t.fflags := by unfold Thread.setReg; (repeat' split) <;> rfl
@[simp] theorem Thread.setReg_tickets (t : Thread) (c : Nat) (v : TReg) : (t.setReg c v).tickets = t.tickets := by unfold Thread.setReg; (repeat' split) <;> rfl
@[simp] theorem Thread.setReg_tkpc (t : Thread) (c : Nat) (v : TReg) : (t.setReg c v).tkpc = t.tkpc := by unfold Thread.setReg; (repeat' split) <;> rfl
@[simp] theorem Thread.setReg_loopcnt (t : Thread) (c : Nat) (v : TReg) : (t.setReg c v).loopcnt = t.loopcnt := by unfold Thread.setReg; (repeat' split) <;> rfl
@[simp] theorem Thread.setReg_delay (t : Thread) (c : Nat) (v : TReg) : (t.setReg c v).delay = t.delay := by unfold Thread.setReg; (repeat' split) <;> rfl
@[simp] theorem Thread.setReg_rep (t : Thread) (c : Nat) (v : TReg) : (t.setReg c v).rep = t.rep := by unfold Thread.setReg; (repeat' split) <;> rfl
@[simp] theorem Thread.setReg_rptResume (t : Thread) (c : Nat) (v : TReg) : (t.setReg c v).rptResume = t.rptResume := by unfold Thread.setReg; (repeat' split) <;> rfl
@[simp] theorem Thread.setReg_epc (t : Thread) (c : Nat) (v : TReg) : (t.setReg c v).epc = t.epc := by unfold Thread.setReg; (repeat' split) <;> rfl
@[simp] theorem Thread.setReg_ecause (t : Thread) (c : Nat) (v : TReg) : (t.setReg c v).ecause = t.ecause := by unfold Thread.setReg; (repeat' split) <;> rfl
@[simp] theorem Thread.setReg_etval (t : Thread) (c : Nat) (v : TReg) : (t.setReg c v).etval = t.etval := by unfold Thread.setReg; (repeat' split) <;> rfl
@[simp] theorem Thread.setReg_estat (t : Thread) (c : Nat) (v : TReg) : (t.setReg c v).estat = t.estat := by unfold Thread.setReg; (repeat' split) <;> rfl
@[simp] theorem Thread.setReg_tcmpEn (t : Thread) (c : Nat) (v : TReg) : (t.setReg c v).tcmpEn = t.tcmpEn := by unfold Thread.setReg; (repeat' split) <;> rfl
@[simp] theorem Thread.setReg_tcmp (t : Thread) (c : Nat) (v : TReg) : (t.setReg c v).tcmp = t.tcmp := by unfold Thread.setReg; (repeat' split) <;> rfl
@[simp] theorem Thread.setReg_cirq (t : Thread) (c : Nat) (v : TReg) : (t.setReg c v).cirq = t.cirq := by unfold Thread.setReg; (repeat' split) <;> rfl
@[simp] theorem Thread.setReg_trap (t : Thread) (c : Nat) (v : TReg) : (t.setReg c v).trap = t.trap := by unfold Thread.setReg; (repeat' split) <;> rfl
@[simp] theorem Thread.setReg_memOrd (t : Thread) (c : Nat) (v : TReg) : (t.setReg c v).memOrd = t.memOrd := by unfold Thread.setReg; (repeat' split) <;> rfl
@[simp] theorem Thread.setReg_fences (t : Thread) (c : Nat) (v : TReg) : (t.setReg c v).fences = t.fences := by unfold Thread.setReg; (repeat' split) <;> rfl
@[simp] theorem Thread.markPend_run (t : Thread) (c : Nat) : (t.markPend c).run = t.run := by unfold Thread.markPend; split <;> simp
@[simp] theorem Thread.invalidate_run (t : Thread) (c : Nat) : (t.invalidate c).run = t.run := by unfold Thread.invalidate; split <;> simp
@[simp] theorem Thread.markPend_ending (t : Thread) (c : Nat) : (t.markPend c).ending = t.ending := by unfold Thread.markPend; split <;> simp
@[simp] theorem Thread.invalidate_ending (t : Thread) (c : Nat) : (t.invalidate c).ending = t.ending := by unfold Thread.invalidate; split <;> simp
@[simp] theorem Thread.markPend_stopped (t : Thread) (c : Nat) : (t.markPend c).stopped = t.stopped := by unfold Thread.markPend; split <;> simp
@[simp] theorem Thread.invalidate_stopped (t : Thread) (c : Nat) : (t.invalidate c).stopped = t.stopped := by unfold Thread.invalidate; split <;> simp
@[simp] theorem Thread.markPend_launch (t : Thread) (c : Nat) : (t.markPend c).launch = t.launch := by unfold Thread.markPend; split <;> simp
@[simp] theorem Thread.invalidate_launch (t : Thread) (c : Nat) : (t.invalidate c).launch = t.launch := by unfold Thread.invalidate; split <;> simp
@[simp] theorem Thread.markPend_pc (t : Thread) (c : Nat) : (t.markPend c).pc = t.pc := by unfold Thread.markPend; split <;> simp
@[simp] theorem Thread.invalidate_pc (t : Thread) (c : Nat) : (t.invalidate c).pc = t.pc := by unfold Thread.invalidate; split <;> simp
@[simp] theorem Thread.markPend_fetch (t : Thread) (c : Nat) : (t.markPend c).fetch = t.fetch := by unfold Thread.markPend; split <;> simp
@[simp] theorem Thread.invalidate_fetch (t : Thread) (c : Nat) : (t.invalidate c).fetch = t.fetch := by unfold Thread.invalidate; split <;> simp
@[simp] theorem Thread.markPend_vregs (t : Thread) (c : Nat) : (t.markPend c).vregs = t.vregs := by unfold Thread.markPend; split <;> simp
@[simp] theorem Thread.invalidate_vregs (t : Thread) (c : Nat) : (t.invalidate c).vregs = t.vregs := by unfold Thread.invalidate; split <;> simp
@[simp] theorem Thread.markPend_fixed (t : Thread) (c : Nat) : (t.markPend c).fixed = t.fixed := by unfold Thread.markPend; split <;> simp
@[simp] theorem Thread.invalidate_fixed (t : Thread) (c : Nat) : (t.invalidate c).fixed = t.fixed := by unfold Thread.invalidate; split <;> simp
@[simp] theorem Thread.markPend_slot (t : Thread) (c : Nat) : (t.markPend c).slot = t.slot := by unfold Thread.markPend; split <;> simp
@[simp] theorem Thread.invalidate_slot (t : Thread) (c : Nat) : (t.invalidate c).slot = t.slot := by unfold Thread.invalidate; split <;> simp
@[simp] theorem Thread.markPend_mode (t : Thread) (c : Nat) : (t.markPend c).mode = t.mode := by unfold Thread.markPend; split <;> simp
@[simp] theorem Thread.invalidate_mode (t : Thread) (c : Nat) : (t.invalidate c).mode = t.mode := by unfold Thread.invalidate; split <;> simp
@[simp] theorem Thread.markPend_shadow (t : Thread) (c : Nat) : (t.markPend c).shadow = t.shadow := by unfold Thread.markPend; split <;> simp
@[simp] theorem Thread.invalidate_shadow (t : Thread) (c : Nat) : (t.invalidate c).shadow = t.shadow := by unfold Thread.invalidate; split <;> simp
@[simp] theorem Thread.markPend_fflags (t : Thread) (c : Nat) : (t.markPend c).fflags = t.fflags := by unfold Thread.markPend; split <;> simp
@[simp] theorem Thread.invalidate_fflags (t : Thread) (c : Nat) : (t.invalidate c).fflags = t.fflags := by unfold Thread.invalidate; split <;> simp
@[simp] theorem Thread.markPend_tickets (t : Thread) (c : Nat) : (t.markPend c).tickets = t.tickets := by unfold Thread.markPend; split <;> simp
@[simp] theorem Thread.invalidate_tickets (t : Thread) (c : Nat) : (t.invalidate c).tickets = t.tickets := by unfold Thread.invalidate; split <;> simp
@[simp] theorem Thread.markPend_tkpc (t : Thread) (c : Nat) : (t.markPend c).tkpc = t.tkpc := by unfold Thread.markPend; split <;> simp
@[simp] theorem Thread.invalidate_tkpc (t : Thread) (c : Nat) : (t.invalidate c).tkpc = t.tkpc := by unfold Thread.invalidate; split <;> simp
@[simp] theorem Thread.markPend_loopcnt (t : Thread) (c : Nat) : (t.markPend c).loopcnt = t.loopcnt := by unfold Thread.markPend; split <;> simp
@[simp] theorem Thread.invalidate_loopcnt (t : Thread) (c : Nat) : (t.invalidate c).loopcnt = t.loopcnt := by unfold Thread.invalidate; split <;> simp
@[simp] theorem Thread.markPend_delay (t : Thread) (c : Nat) : (t.markPend c).delay = t.delay := by unfold Thread.markPend; split <;> simp
@[simp] theorem Thread.invalidate_delay (t : Thread) (c : Nat) : (t.invalidate c).delay = t.delay := by unfold Thread.invalidate; split <;> simp
@[simp] theorem Thread.markPend_rep (t : Thread) (c : Nat) : (t.markPend c).rep = t.rep := by unfold Thread.markPend; split <;> simp
@[simp] theorem Thread.invalidate_rep (t : Thread) (c : Nat) : (t.invalidate c).rep = t.rep := by unfold Thread.invalidate; split <;> simp
@[simp] theorem Thread.markPend_rptResume (t : Thread) (c : Nat) : (t.markPend c).rptResume = t.rptResume := by unfold Thread.markPend; split <;> simp
@[simp] theorem Thread.invalidate_rptResume (t : Thread) (c : Nat) : (t.invalidate c).rptResume = t.rptResume := by unfold Thread.invalidate; split <;> simp
@[simp] theorem Thread.markPend_epc (t : Thread) (c : Nat) : (t.markPend c).epc = t.epc := by unfold Thread.markPend; split <;> simp
@[simp] theorem Thread.invalidate_epc (t : Thread) (c : Nat) : (t.invalidate c).epc = t.epc := by unfold Thread.invalidate; split <;> simp
@[simp] theorem Thread.markPend_ecause (t : Thread) (c : Nat) : (t.markPend c).ecause = t.ecause := by unfold Thread.markPend; split <;> simp
@[simp] theorem Thread.invalidate_ecause (t : Thread) (c : Nat) : (t.invalidate c).ecause = t.ecause := by unfold Thread.invalidate; split <;> simp
@[simp] theorem Thread.markPend_etval (t : Thread) (c : Nat) : (t.markPend c).etval = t.etval := by unfold Thread.markPend; split <;> simp
@[simp] theorem Thread.invalidate_etval (t : Thread) (c : Nat) : (t.invalidate c).etval = t.etval := by unfold Thread.invalidate; split <;> simp
@[simp] theorem Thread.markPend_estat (t : Thread) (c : Nat) : (t.markPend c).estat = t.estat := by unfold Thread.markPend; split <;> simp
@[simp] theorem Thread.invalidate_estat (t : Thread) (c : Nat) : (t.invalidate c).estat = t.estat := by unfold Thread.invalidate; split <;> simp
@[simp] theorem Thread.markPend_tcmpEn (t : Thread) (c : Nat) : (t.markPend c).tcmpEn = t.tcmpEn := by unfold Thread.markPend; split <;> simp
@[simp] theorem Thread.invalidate_tcmpEn (t : Thread) (c : Nat) : (t.invalidate c).tcmpEn = t.tcmpEn := by unfold Thread.invalidate; split <;> simp
@[simp] theorem Thread.markPend_tcmp (t : Thread) (c : Nat) : (t.markPend c).tcmp = t.tcmp := by unfold Thread.markPend; split <;> simp
@[simp] theorem Thread.invalidate_tcmp (t : Thread) (c : Nat) : (t.invalidate c).tcmp = t.tcmp := by unfold Thread.invalidate; split <;> simp
@[simp] theorem Thread.markPend_cirq (t : Thread) (c : Nat) : (t.markPend c).cirq = t.cirq := by unfold Thread.markPend; split <;> simp
@[simp] theorem Thread.invalidate_cirq (t : Thread) (c : Nat) : (t.invalidate c).cirq = t.cirq := by unfold Thread.invalidate; split <;> simp
@[simp] theorem Thread.markPend_trap (t : Thread) (c : Nat) : (t.markPend c).trap = t.trap := by unfold Thread.markPend; split <;> simp
@[simp] theorem Thread.invalidate_trap (t : Thread) (c : Nat) : (t.invalidate c).trap = t.trap := by unfold Thread.invalidate; split <;> simp
@[simp] theorem Thread.markPend_memOrd (t : Thread) (c : Nat) : (t.markPend c).memOrd = t.memOrd := by unfold Thread.markPend; split <;> simp
@[simp] theorem Thread.invalidate_memOrd (t : Thread) (c : Nat) : (t.invalidate c).memOrd = t.memOrd := by unfold Thread.invalidate; split <;> simp
@[simp] theorem Thread.markPend_fences (t : Thread) (c : Nat) : (t.markPend c).fences = t.fences := by unfold Thread.markPend; split <;> simp
@[simp] theorem Thread.invalidate_fences (t : Thread) (c : Nat) : (t.invalidate c).fences = t.fences := by unfold Thread.invalidate; split <;> simp

@[simp] theorem Thread.ticket_setTicket_same (t : Thread) (i : Nat) (k : Ticket) : (t.setTicket i k).ticket i = k :=
  FMap.get_set_same _ _ _ _
theorem Thread.ticket_setTicket (t : Thread) (i j : Nat) (k : Ticket) : (t.setTicket i k).ticket j = if j = i then k else t.ticket j :=
  FMap.get_set _ _ _ _ _
@[simp] theorem Thread.reg_zero (t : Thread) : t.reg 0 = TReg.zero := rfl
@[simp] theorem Thread.setReg_zero (t : Thread) (v : TReg) : t.setReg 0 v = t := rfl
/-- What a register reads after a write: a code that names none, and `s0`, discard it. -/
theorem Thread.reg_setReg (t : Thread) (c j : Nat) (v : TReg) :
    (t.setReg c v).reg j = if c ≠ 0 ∧ isRegCode c = true ∧ j = c then v else t.reg j := by
  unfold Thread.setReg Thread.reg isRegCode codeLnk
  by_cases h0 : c = 0
  · subst h0; simp
  by_cases h1 : c < 32
  · simp only [if_neg h0, if_pos h1, FMap.get_set]
    by_cases hj : j = c
    · subst hj; simp [h0, h1]; omega
    · simp [hj]
  by_cases h2 : c = 32
  · subst h2
    by_cases hj : j = 32
    · subst hj; simp
    · simp [hj]
  by_cases h3 : 96 ≤ c
  · simp only [if_neg h0, if_neg h1, if_neg h2, if_pos h3, FMap.get_set]
    by_cases hj : j = c
    · subst hj; simp [h0, h1, h2, h3]
    · have : ¬ (96 ≤ j ∧ j - 96 = c - 96) := by omega
      simp only [hj, and_false, if_false]
      by_cases h4 : 96 ≤ j
      · simp [h4, show ¬ (j - 96 = c - 96) by omega]
      · simp [h4]
  · simp [h0, h1, h2, h3]; omega

end Sys2Proof.Machine
end

