-- ==== Sys2Proof/Laws/Issue.lean ====
section
/-! SUPPORT. Issuing a word: what a row answers once its word may issue, and when the register checks of R27 pass. -/

namespace Sys2Proof.Machine

theorem checkRegs_none (t : Thread) (srcs : List (Nat × Accept)) (dsts : List Nat)
    (h1 : ∀ c ∈ srcs.map (·.1) ++ dsts, t.isPend c = false) (h2 : t.checkTags srcs = none) : t.checkRegs srcs dsts = none := by
  have hp : (List.filter (fun c => t.isPend c) (List.map (fun x => x.1) srcs ++ dsts)) = [] := by
    rw [List.filter_eq_nil_iff]; intro c hc; simp [h1 c hc]
  unfold Thread.checkRegs Thread.checkReady
  rw [hp]; simp [h2]

theorem issueRow_long {s : State} {g : Nat} {w : Word} {o : Op} (h : Issues s g w o) (body : Body) :
    issueRow o body g w s = .next (finish (longCtx s g w false) (body (longCtx s g w false))) := by
  obtain ⟨h1, h2, h3, h4, h5⟩ := h
  have hop : (longFields w).op = o := by simpa [opOf, h2] using h1
  have hd : ((s.thread g).commitDue.delay.isSome && delayIllegal o) = false := h5
  unfold issueRow
  rw [if_pos h1, if_pos h3]
  simp only [h2, issueLong, longRes, Bool.false_eq_true, if_false]
  have : (!fieldsLegal (longCtx s g w false).f || (longCtx s g w false).th.delay.isSome && delayIllegal (longCtx s g w false).f.op) = false := by
    show (!fieldsLegal (longFields w) || (s.thread g).commitDue.delay.isSome && delayIllegal (longFields w).op) = false
    rw [hop, hd, h4]; rfl
  rw [this]; simp

theorem hasRoom_self (s : State) (c : Nat) : s.hasRoom s c = true := by simp [State.hasRoom]

theorem issueRow_ok {s : State} {g : Nat} {w : Word} {o : Op} (h : Issues s g w o) (body : Body) (t' : Thread) (flow : Next)
    (hb : body (longCtx s g w false) = .ok s t' flow) :
    issueRow o body g w s = .next (s.setThread g ((s.now g).went t' flow)) := by
  rw [issueRow_long h, hb]; simp [finish, longCtx, hasRoom_self, Thread.went, State.now]

theorem issueRow_fixed {s : State} {g : Nat} {w : Word} {o : Op} (h : Issues s g w o) (fb : FBody) (ws) (fl) (first)
    (hb : fb w (longFields w) (s.now g) = ⟨none, ws, fl, 0, first⟩) :
    issueRow o (fixedBody fb) g w s = .next (s.wrote g ws fl) := by
  apply issueRow_ok h
  show (fb w (longFields w) (s.now g)).res (longCtx s g w false) = _
  rw [hb]; simp [FixedOp.res, State.pushPumps, longCtx, State.now]

theorem fixed1_none (t srcs rd dist v fl) (h : t.checkRegs srcs [rd] = none) : fixed1 t srcs rd dist v fl = ⟨none, [(rd, v, 0, dist)], fl, 0, 0⟩ := by
  simp [fixed1, h]

theorem pend_iff (t : Thread) (c : Nat) (h : c < 64) : t.isPend c = decide ((t.reg c).tag = .pend) := by
  simp [Thread.isPend, isVCode]; omega

theorem lt32 (w : Word) (lo : Nat) : fld w lo 5 < 32 := by unfold fld; exact Nat.mod_lt _ (by decide)

/-- A word whose body changes the state and leaves the datapath's backlog as it was. -/
theorem issueRow_state {s : State} {g : Nat} {w : Word} {o : Op} (h : Issues s g w o) (body : Body) (s' : State) (t' : Thread) (flow : Next)
    (hb : body (longCtx s g w false) = .ok s' t' flow) (hr : (s'.core (coreOf g)).vecQ = (s.core (coreOf g)).vecQ) :
    issueRow o body g w s = .next (s'.setThread g ((s.now g).went t' flow)) := by
  have hroom : s.hasRoom s' (coreOf g) = true := by simp [State.hasRoom, Core.backlog, hr]
  rw [issueRow_long h, hb]; simp [finish, longCtx, hroom, Thread.went, State.now]

/-- A word whose body ends in a trap. -/
theorem issueRow_trap {s : State} {g : Nat} {w : Word} {o : Op} (h : Issues s g w o) (ho : o ≠ .eret) (body : Body) (c : Cond)
    (hb : body (longCtx s g w false) = .trap c) : issueRow o body g w s = .next (s.setThread g ((s.now g).raise c false true false)) := by
  have hop : (longFields w).op = o := by have h1 := h.row; simpa [opOf, h.long] using h1
  rw [issueRow_long h, hb]; simp [finish, longCtx, State.now, hop, ho]

theorem checkTags_nil (t : Thread) : t.checkTags [] = none := rfl
theorem checkTags_cons (t : Thread) (c : Nat) (acc : Accept) (l) (h : (t.reg c).tag ∈ acc) (h2 : t.checkTags l = none) :
    t.checkTags ((c, acc) :: l) = none := by
  unfold Thread.checkTags at *
  simp only [firstSome]
  rw [if_pos (by simp [h])]; exact h2

theorem not_pend_of (t : Thread) (c : Nat) (hc : c < 64 ∨ 96 ≤ c) (h : (t.reg c).tag ≠ .pend) : t.isPend c = false := by
  have : isVCode c = false := by simp [isVCode]; omega
  simp [Thread.isPend, this, h]

theorem opEq {w : Word} {o : Op} (hp : isPair w = false) (h : opOf w = o) : (longFields w).op = o := by simpa [opOf, hp] using h

theorem Issues.op {s g w o} (h : Issues s g w o) : (longFields w).op = o := opEq h.long h.row

theorem checkRegs_ok (t : Thread) (srcs : List (Nat × Accept)) (dsts : List Nat)
    (h1 : ∀ e ∈ srcs, (e.1 < 64 ∨ 96 ≤ e.1) ∧ Tag.pend ∉ e.2 ∧ (t.reg e.1).tag ∈ e.2) (h2 : ∀ c ∈ dsts, t.isPend c = false) :
    t.checkRegs srcs dsts = none := by
  apply checkRegs_none
  · intro c hc
    simp only [List.mem_append, List.mem_map] at hc
    rcases hc with ⟨e, he, rfl⟩ | hc
    · obtain ⟨a, b, d⟩ := h1 e he
      exact not_pend_of _ _ a (fun hh => b (hh ▸ d))
    · exact h2 c hc
  · induction srcs with
    | nil => rfl
    | cons e l ih => exact checkTags_cons _ e.1 e.2 _ (h1 e (by simp)).2.2 (ih (fun e' h' => h1 e' (by simp [h'])))

theorem fixed_writes {s : State} {g : Nat} {w : Word} {o : Op} (h : Issues s g w o) (fb : FBody) (srcs rd dist v fl)
    (hb : fb w (longFields w) (s.now g) = guardLegal w (longFields w) true (fixed1 (s.now g) srcs rd dist v fl))
    (h1 : ∀ e ∈ srcs, (e.1 < 64 ∨ 96 ≤ e.1) ∧ Tag.pend ∉ e.2 ∧ ((s.now g).reg e.1).tag ∈ e.2)
    (hd : (s.now g).isPend rd = false) :
    issueRow o (fixedBody fb) g w s = .next (s.wrote g [(rd, v, 0, dist)] fl) := by
  apply issueRow_fixed h (first := 0)
  rw [hb]
  simp only [guardLegal, h.legal, Bool.and_self, if_true]
  exact fixed1_none _ _ _ _ _ _ (checkRegs_ok _ _ _ h1 (by simpa using hd))

theorem rs1_lt (w : Word) : (longFields w).rs1 < 32 := by unfold longFields; dsimp only; split <;> exact lt32 _ _
theorem rs2_lt (w : Word) : (longFields w).rs2 < 32 := lt32 _ _
theorem rs3_lt (w : Word) : (longFields w).rs3 < 32 := lt32 _ _
theorem rd_lt (w : Word) : (longFields w).rd < 32 := lt32 _ _
theorem tk_lt (w : Word) : (longFields w).tk < 16 := by unfold longFields; dsimp only; split <;> (unfold fld; exact Nat.mod_lt _ (by decide))

theorem sm_eq {w : Word} (h : namesSummary (longFields w).op = true) : (longFields w).sm = bitAt w 31 := by
  have : (longFields w).sm = (namesSummary (longFields w).op && bitAt w 31) := rfl
  rw [this, h]; simp
theorem form_of (w : Word) : (longFields w).form = formOfMajor (majorOf w) := rfl

/-- A ticketed word's checks pass: its sources' tags are accepted, its destinations are not pending, its ticket is free. -/
theorem checkTicketed_ok (x : Ctx) (srcs : List (Nat × Accept)) (dsts : List Nat) (hj : x.join = false)
    (h1 : ∀ e ∈ srcs, (isVCode e.1 = true ∧ x.th.isPend e.1 = false) ∨
      ((e.1 < 64 ∨ 96 ≤ e.1) ∧ Tag.pend ∉ e.2 ∧ (x.th.reg e.1).tag ∈ e.2))
    (h2 : ∀ c ∈ dsts, x.th.isPend c = false) (ht : x.th.ticketIdle x.f.tk) : x.checkTicketed srcs dsts = none := by
  have hp : (List.filter (fun c => x.th.isPend c) (List.map (fun e => e.1) srcs ++ x.exempt dsts)) = [] := by
    rw [List.filter_eq_nil_iff]
    intro c hc
    simp only [List.mem_append, List.mem_map, Ctx.exempt, hj, Bool.false_eq_true, if_false] at hc
    rcases hc with ⟨e, he, rfl⟩ | hc
    · rcases h1 e he with h | ⟨a, b, d⟩
      · simp [h.2]
      · simp [not_pend_of _ _ a (fun hh => b (hh ▸ d))]
    · simp [h2 c hc]
  have hr : x.th.checkReady (srcs.map (·.1) ++ x.exempt dsts) (some x.f.tk) x.join = none := by
    unfold Thread.checkReady
    rw [hp]
    simp [Ticket.faulted, Ticket.busy, ht.1, ht.2]
  have hg : x.th.checkTags srcs = none := by
    clear hp hr
    induction srcs with
    | nil => rfl
    | cons e l ih =>
      have hl := ih (fun e' h' => h1 e' (by simp [h']))
      unfold Thread.checkTags at *
      simp only [firstSome]
      rw [if_pos]
      · exact hl
      · rcases h1 e (by simp) with h | h
        · simp [h.1]
        · simp [h.2.2]
  unfold Ctx.checkTicketed
  rw [hr, hg]; rfl

end Sys2Proof.Machine
end

