-- ==== Sys2Proof/Laws/Memory.lean ====
section
/-! SUPPORT. Memory: what each operation on it leaves, and that every one of them keeps the canonical form of memory and of
the press tags. -/

namespace Sys2Proof.Machine

/-! ### Walks over cores, threads and bindings leave memory as it was -/

theorem foldl_keeps {α β γ : Type} (l : List β) (f : α → β → α) (p : α → γ) (h : ∀ a b, p (f a b) = p a) (a : α) : p (l.foldl f a) = p a := by
  induction l generalizing a with
  | nil => rfl
  | cons x t ih => rw [List.foldl_cons, ih, h]

@[simp] theorem State.mapCores_mem (s : State) (f : Nat → Core → Core) : (s.mapCores f).mem = s.mem := by
  apply foldl_keeps _ _ State.mem; intro _ _; rfl
@[simp] theorem State.mapCores_tags (s : State) (f : Nat → Core → Core) : (s.mapCores f).tags = s.tags := by
  apply foldl_keeps _ _ State.tags; intro _ _; rfl
@[simp] theorem State.mapCores_poison (s : State) (f : Nat → Core → Core) : (s.mapCores f).poison = s.poison := by
  apply foldl_keeps _ _ State.poison; intro _ _; rfl
@[simp] theorem State.mapCores_threads (s : State) (f : Nat → Core → Core) : (s.mapCores f).threads = s.threads := by
  apply foldl_keeps _ _ State.threads; intro _ _; rfl
@[simp] theorem State.mapThreads_mem (s : State) (f : Nat → Thread → Thread) : (s.mapThreads f).mem = s.mem := by
  apply foldl_keeps _ _ State.mem; intro _ _; rfl
@[simp] theorem State.mapThreads_tags (s : State) (f : Nat → Thread → Thread) : (s.mapThreads f).tags = s.tags := by
  apply foldl_keeps _ _ State.tags; intro _ _; rfl
@[simp] theorem State.mapBindings_mem (s : State) (f : Nat → Binding → Binding) : (s.mapBindings f).mem = s.mem := by
  apply foldl_keeps _ _ State.mem; intro _ _; rfl
@[simp] theorem State.mapBindings_tags (s : State) (f : Nat → Binding → Binding) : (s.mapBindings f).tags = s.tags := by
  apply foldl_keeps _ _ State.tags; intro _ _; rfl

/-- The walk changes every core that is listed, and no other. -/
theorem State.mapCores_core (s : State) (f : Nat → Core → Core) (c : Nat) :
    (s.mapCores f).core c = if c ∈ s.cores.map (·.1) then f c (s.core c) else s.core c := by
  suffices ∀ (l : List (Nat × Core)) (a : State), (l.foldl (fun a e => a.setCore e.1 (f e.1 (s.core e.1))) a).core c =
      if c ∈ l.map (·.1) then f c (s.core c) else a.core c from this s.cores s
  intro l
  induction l with
  | nil => intro a; simp
  | cons e t ih =>
    intro a
    have hs : (a.setCore e.1 (f e.1 (s.core e.1))).core c = if c = e.1 then f e.1 (s.core e.1) else a.core c := FMap.get_set _ _ _ _ _
    rw [List.foldl_cons, ih, hs]
    by_cases h1 : c = e.1
    · subst h1; simp
    · rw [if_neg h1, List.map_cons]; congr 1; simp only [List.mem_cons, h1, false_or]

/-! ### Writing -/

@[simp] theorem State.setTags_mem (s : State) (a n : Nat) (t : BitVec 4) : (s.setTags a n t).mem = s.mem := by unfold State.setTags; split <;> rfl
@[simp] theorem State.setTags_poison (s : State) (a n : Nat) (t : BitVec 4) : (s.setTags a n t).poison = s.poison := by unfold State.setTags; split <;> rfl
@[simp] theorem State.setTags_cores (s : State) (a n : Nat) (t : BitVec 4) : (s.setTags a n t).cores = s.cores := by unfold State.setTags; split <;> rfl
@[simp] theorem State.setTags_threads (s : State) (a n : Nat) (t : BitVec 4) : (s.setTags a n t).threads = s.threads := by unfold State.setTags; split <;> rfl

/-- Setting tags changes nothing else. -/
theorem State.setTags_eq (s : State) (a n : Nat) (t : BitVec 4) : s.setTags a n t = { s with tags := (s.setTags a n t).tags } := by
  unfold State.setTags; split <;> rfl

@[simp] theorem State.invalidateL1_mem (s : State) (c a n : Nat) : (s.invalidateL1 c a n).mem = s.mem := State.mapCores_mem _ _
@[simp] theorem State.invalidateL1_tags (s : State) (c a n : Nat) : (s.invalidateL1 c a n).tags = s.tags := State.mapCores_tags _ _
@[simp] theorem State.invalidateL1_poison (s : State) (c a n : Nat) : (s.invalidateL1 c a n).poison = s.poison := State.mapCores_poison _ _
/-- Using a line changes the L2 alone. -/
theorem State.l2Use_eq (s : State) (d : Bool) (l : Nat) : s.l2Use d l = { s with l2 := (s.l2Use d l).l2 } := by
  unfold State.l2Use; split <;> rfl
@[simp] theorem State.l2Use_mem (s : State) (d : Bool) (l : Nat) : (s.l2Use d l).mem = s.mem := by rw [State.l2Use_eq]
@[simp] theorem State.l2Use_tags (s : State) (d : Bool) (l : Nat) : (s.l2Use d l).tags = s.tags := by rw [State.l2Use_eq]
@[simp] theorem State.l2Use_cores (s : State) (d : Bool) (l : Nat) : (s.l2Use d l).cores = s.cores := by rw [State.l2Use_eq]
@[simp] theorem State.l2Use_threads (s : State) (d : Bool) (l : Nat) : (s.l2Use d l).threads = s.threads := by rw [State.l2Use_eq]
@[simp] theorem State.l2Uses_mem (s : State) (d : Bool) (l : List Nat) : (l.foldl (State.l2Use · d) s).mem = s.mem := by
  apply foldl_keeps _ _ State.mem; intro _ _; simp
@[simp] theorem State.l2Uses_tags (s : State) (d : Bool) (l : List Nat) : (l.foldl (State.l2Use · d) s).tags = s.tags := by
  apply foldl_keeps _ _ State.tags; intro _ _; simp
@[simp] theorem State.clearPoison_mem (s : State) (a n : Nat) : (s.clearPoison a n).mem = s.mem := rfl
@[simp] theorem State.clearPoison_tags (s : State) (a n : Nat) : (s.clearPoison a n).tags = s.tags := rfl

/-- The bytes of a write go to its address, in order. -/
@[simp] theorem State.writeBytes_mem (s : State) (c a : Nat) (l : List Byte) : (s.writeBytes c a l).mem = FMap.setRun 0#8 s.mem a l := by
  simp [State.writeBytes]

/-- The tags of the press words that a write touches become INT; no other tag changes. -/
@[simp] theorem State.writeBytes_tags (s : State) (c a : Nat) (l : List Byte) :
    (s.writeBytes c a l).tags = if isPress a then (wordsTouched a l.length).foldl (fun m w => FMap.set 0#4 m w 0) s.tags else s.tags := by
  simp only [State.writeBytes, State.clearPoison_tags]
  unfold State.setTags
  split <;> simp

@[simp] theorem State.writeNat_mem (s : State) (c a n v : Nat) : (s.writeNat c a n v).mem = FMap.setRun 0#8 s.mem a (leBytes n v) :=
  State.writeBytes_mem _ _ _ _

@[simp] theorem State.scrubRange_mem (s : State) (lo n : Nat) : (s.scrubRange lo n).mem = FMap.clear s.mem lo (lo + n) := rfl
@[simp] theorem State.scrubRange_tags (s : State) (lo n : Nat) : (s.scrubRange lo n).tags = FMap.clear s.tags (lo / 8) ((lo + n) / 8) := rfl

/-- A scrubbed byte reads 0, and every byte outside the range as before. -/
theorem State.scrubRange_byte (s : State) (lo n x : Nat) : (s.scrubRange lo n).byte x = if lo ≤ x ∧ x < lo + n then 0 else s.byte x :=
  FMap.get_clear _ _ _ _ _

/-! ### The canonical form -/

theorem State.canonical_iff (s : State) : s.canonical = true ↔ FMap.wf 0#8 s.mem = true ∧ FMap.wf 0#4 s.tags = true := by
  simp [State.canonical, Memory.wf]

/-- The form depends on memory and tags alone. -/
theorem State.canonical_congr {s s' : State} (hm : s'.mem = s.mem) (ht : s'.tags = s.tags) (h : s.canonical = true) : s'.canonical = true := by
  rw [State.canonical_iff] at *; rw [hm, ht]; exact h

theorem State.canonical_of_wf {s s' : State} (hm : FMap.wf 0#8 s.mem = true → FMap.wf 0#8 s'.mem = true)
    (ht : FMap.wf 0#4 s.tags = true → FMap.wf 0#4 s'.tags = true) (h : s.canonical = true) : s'.canonical = true := by
  rw [State.canonical_iff] at *; exact ⟨hm h.1, ht h.2⟩

/-- A walk whose steps keep the form keeps it. -/
theorem State.canonical_foldl {β : Type} (l : List β) (f : State → β → State) (hf : ∀ s b, s.canonical = true → (f s b).canonical = true)
    (s : State) (h : s.canonical = true) : (l.foldl f s).canonical = true := by
  induction l generalizing s with
  | nil => exact h
  | cons x t ih => exact ih _ (hf _ _ h)

theorem wf_setAll (l : List Nat) (t : BitVec 4) (m : FMap (BitVec 4)) (h : FMap.wf 0#4 m = true) :
    FMap.wf 0#4 (l.foldl (fun m w => FMap.set 0#4 m w t) m) = true := by
  induction l generalizing m with
  | nil => exact h
  | cons x r ih => exact ih _ (FMap.wf_set _ _ _ _ h)

theorem State.canonical_reset : State.reset.canonical = true := rfl

theorem State.canonical_setTags (s : State) (a n : Nat) (t : BitVec 4) (h : s.canonical = true) : (s.setTags a n t).canonical = true := by
  apply State.canonical_of_wf _ _ h
  · simp
  · unfold State.setTags; split
    · exact wf_setAll _ _ _
    · exact id

theorem State.canonical_writeBytes (s : State) (c a : Nat) (l : List Byte) (h : s.canonical = true) : (s.writeBytes c a l).canonical = true := by
  apply State.canonical_of_wf _ _ h
  · rw [State.writeBytes_mem]; exact FMap.wf_setRun _ _ _ _
  · rw [State.writeBytes_tags]; split
    · exact wf_setAll _ _ _
    · exact id

theorem State.canonical_writeNat (s : State) (c a n v : Nat) (h : s.canonical = true) : (s.writeNat c a n v).canonical = true :=
  State.canonical_writeBytes _ _ _ _ h

theorem State.canonical_scrubRange (s : State) (lo n : Nat) (h : s.canonical = true) : (s.scrubRange lo n).canonical = true :=
  State.canonical_of_wf (FMap.wf_clear _ _ _ _) (FMap.wf_clear _ _ _ _) h

theorem State.canonical_clearPoison (s : State) (a n : Nat) (h : s.canonical = true) : (s.clearPoison a n).canonical = true := h

theorem State.canonical_invalidateL1 (s : State) (c a n : Nat) (h : s.canonical = true) : (s.invalidateL1 c a n).canonical = true :=
  State.canonical_congr (State.invalidateL1_mem _ _ _ _) (State.invalidateL1_tags _ _ _ _) h

theorem State.canonical_forget (s : State) (h : Nat) (hs : s.canonical = true) : (s.forget h).canonical = true :=
  State.canonical_of_wf (FMap.wf_filter _ _ _) (FMap.wf_filter _ _ _) hs

theorem State.canonical_writePieces (s : State) (c : Nat) (ps : List (Nat × Nat)) (l : List Byte) (h : s.canonical = true) :
    (s.writePieces c ps l).canonical = true := by
  induction ps generalizing s l with
  | nil => exact h
  | cons p t ih => exact ih _ _ (State.canonical_writeBytes _ _ _ _ h)

theorem State.canonical_doWrites (s : State) (c : Nat) (d : Desc) (ws : List ElemWrite) (h : s.canonical = true) :
    (s.doWrites c d ws).canonical = true := by
  apply State.canonical_foldl _ _ _ _ h
  intro s w hs
  dsimp only
  split <;> exact State.canonical_writeNat _ _ _ _ _ hs

end Sys2Proof.Machine
end

