-- ==== Sys2Proof/Laws/Rows.lean ====
section
/-! SUPPORT. Shared shapes of the rows: a command of a ring, an event of a half, a register access, and the step. -/

namespace Sys2Proof.Machine

/-! ### A command of a ring starts, or nothing happens (R322) -/

theorem State.command_of_start {s : State} {f seq opc : Nat} {c : Cmd} (h : s.toStart f seq opc = some c) (run : Cmd → State) :
    s.command f seq opc run = run c := by simp [State.command, h]

theorem State.command_of_none {s : State} {f seq opc : Nat} (h : s.toStart f seq opc = none) (run : Cmd → State) :
    s.command f seq opc run = s := by simp [State.command, h]

/-- What a command that may start is. -/
theorem State.toStart_spec {s : State} {f seq opc : Nat} {c : Cmd} (h : s.toStart f seq opc = some c) :
    s.cmd f seq = some c ∧ c.opc = opc ∧ c.phase = .accepted ∧ s.canStart c = true := by
  simp only [State.toStart, Option.filter_eq_some_iff, Bool.and_eq_true, decide_eq_true_eq, beq_iff_eq] at h
  exact ⟨h.1, h.2.1.1, h.2.1.2, h.2.2⟩

/-- A command that runs keeps what every run of it keeps. -/
theorem State.command_keeps (s : State) (f seq opc : Nat) (run : Cmd → State) (P : State → Prop) (h0 : P s) (hr : ∀ c, P (run c)) :
    P (s.command f seq opc run) := by
  unfold State.command; split
  · exact hr _
  · exact h0

@[simp] theorem State.setCmd_mem (s : State) (c : Cmd) : (s.setCmd c).mem = s.mem := rfl
@[simp] theorem State.setCmd_tags (s : State) (c : Cmd) : (s.setCmd c).tags = s.tags := rfl
@[simp] theorem State.setCmd_threads (s : State) (c : Cmd) : (s.setCmd c).threads = s.threads := rfl
@[simp] theorem State.setCmd_bindings (s : State) (c : Cmd) : (s.setCmd c).bindings = s.bindings := rfl
@[simp] theorem State.endCmd_mem (s : State) (c : Cmd) (st : Nat) (u : BitVec 16) (d : Nat) (r : List Byte) : (s.endCmd c st u d r).mem = s.mem := rfl
@[simp] theorem State.endCmd_tags (s : State) (c : Cmd) (st : Nat) (u : BitVec 16) (d : Nat) (r : List Byte) : (s.endCmd c st u d r).tags = s.tags := rfl
@[simp] theorem State.endCmd_threads (s : State) (c : Cmd) (st : Nat) (u : BitVec 16) (d : Nat) (r : List Byte) :
    (s.endCmd c st u d r).threads = s.threads := rfl
@[simp] theorem State.endCmd_bindings (s : State) (c : Cmd) (st : Nat) (u : BitVec 16) (d : Nat) (r : List Byte) :
    (s.endCmd c st u d r).bindings = s.bindings := rfl

/-! ### Events of a half, register accesses -/

theorem onHalf_of_lt {h : Nat} (hh : h < 2) (s r : State) : onHalf h s r = r := by simp [onHalf, hh]
theorem readAnswer_true (r : Word × State) (s : State) : readAnswer true r s = r.2.answer [r.1] := rfl
theorem readAnswer_false (r : Word × State) (s : State) : readAnswer false r s = s := rfl
theorem writeWhere_true (r s : State) : writeWhere true r s = r := rfl
theorem writeWhere_false (r s : State) : writeWhere false r s = s := rfl

/-! ### The step -/

theorem step_cons (s : State) (c : Instr) (rest : List Instr) (h : s.pending = c :: rest) : step s = exec c { s with pending := rest } := by
  simp [step, h]

theorem step_nil (s : State) (h : s.pending = []) : step s = .next (s.tick 1) := by simp [step, h]

/-- A step answers a state that has a property where every command's answer has it and the tick keeps it. -/
theorem step_keeps (P : State → Prop) (hq : ∀ s q, P s → P { s with pending := q }) (ht : ∀ s, P s → P (s.tick 1))
    (he : ∀ s c s', P s → exec c s = .next s' → P s') {s s' : State} (h : P s) (hs : step s = .next s') : P s' := by
  unfold step at hs
  split at hs
  · cases hs; exact ht _ h
  · exact he _ _ _ (hq _ _ h) hs

end Sys2Proof.Machine
end

