-- ==== Sys2Proof/Tests/Slice0.lean ====
section
/-! SUPPORT. Tests: ill-formed terms that WellFormed refuses, words written out bit by bit from the encodings of R32, R33 and
R50, small steps whose results the rules give, and for each statement a state and operands that meet its hypotheses. -/

open Sys2Proof Sys2Proof.Machine

namespace Sys2Proof.Tests

set_option Elab.async false

/-! ### Helpers -/

/-- The state a command answers with, where it answers a next state. -/
def ans (o : Host.Outcome State Fault Refusal) : Option State :=
  match o with
  | .next s => some s
  | _ => none

/-- A thread at level `lvl` whose next word is `w`. -/
def th (w : Word) (lvl : BitVec 2) (regs : FMap TReg) : Thread :=
  { Thread.reset with run := .run, estat := { EStat.reset with prv := lvl, svi := true }, fetch := some ⟨0, [w]⟩, regs := regs }

/-- A module whose thread 0 of core 0 has `w` as its next word. -/
def cpu (w : Word) (lvl : BitVec 2) (regs : FMap TReg) : State := State.reset.setThread 0 (th w lvl regs)

/-- The conditions of `Issues` on a concrete state. -/
def issuable (s : State) (g : Nat) (w : Word) (o : Op) : Bool :=
  decide (opOf w = o) && !isPair w && s.mayIssue g w && fieldsLegal (longFields w) && !((s.now g).delay.isSome && delayIllegal o)

theorem issues_of_issuable {s : State} {g : Nat} {w : Word} {o : Op} (h : issuable s g w o = true) : Issues s g w o := by
  simp only [issuable, Bool.and_eq_true, Bool.not_eq_true', decide_eq_true_eq] at h
  exact ⟨h.1.1.1.1, h.1.1.1.2, h.1.1.2, h.1.2, h.2⟩

/-- A long word of the LR form (R32): op, rd, rs1, rs2, rs3, tk, fn8, x24. -/
def lr (op rd rs1 rs2 rs3 tk fn x : Nat) : Word :=
  BitVec.ofNat 64 (op * 2 ^ 56 + rd * 2 ^ 51 + rs1 * 2 ^ 46 + rs2 * 2 ^ 41 + rs3 * 2 ^ 36 + tk * 2 ^ 32 + fn * 2 ^ 24 + x)

/-- A long word of the LI form (R32): op, rd, rs1, fn or tk, imm42. -/
def li (op rd rs1 q imm : Nat) : Word := BitVec.ofNat 64 (op * 2 ^ 56 + rd * 2 ^ 51 + rs1 * 2 ^ 46 + q * 2 ^ 42 + imm % 2 ^ 42)

/-- A long word of the LB form (R32): op, rs1, fn, off47. -/
def lb (op rs1 fn off : Nat) : Word := BitVec.ofNat 64 (op * 2 ^ 56 + rs1 * 2 ^ 51 + fn * 2 ^ 47 + off % 2 ^ 47)

/-! ### Encodings -/

/-- `add s3, s1, s2`. -/
def wAdd : Word := 0b0_0000011_00011_00001_00010_00000_0000_00000000_000000000000000000000000#64
/-- `li s7, -1`. -/
def wLi : Word := 0b0_0000010_00111_00000_0000_111111111111111111111111111111111111111111#64
/-- `sub s3, s1, 5` in the LI form. -/
def wSubI : Word := 0b0_0010111_00011_00001_0001_000000000000000000000000000000000000000101#64
/-- `fmul s3, s1, s2`. -/
def wFmul : Word := 0b0_0011010_00011_00001_00010_00000_0000_00000000_000000000000000000000000#64
/-- `cmp.lt s3, s1, s2`. -/
def wCmp : Word := 0b0_0100000_00011_00001_00010_00000_0000_00000010_000000000000000000000000#64
/-- `bt s4, -2`. -/
def wBt : Word := 0b0_0110001_00100_0000_11111111111111111111111111111111111111111111110#64
/-- `ld.w` signed, post-increment: `s3`, base `s1`, index `s2`, ticket 4, x24 = 8. -/
def wLd : Word := 0b0_0111000_00011_00001_00010_00000_0100_00001110_000000000000000000001000#64
/-- `st` in the LI form: `s3` to `s1` + 16, ticket 9. -/
def wStI : Word := 0b0_1001110_00011_00001_1001_000000000000000000000000000000000000010000#64
/-- `tmma` of tile 3, accumulator 1, with Z. -/
def wTmma : Word := 0b0_1000110_00000_00000_00000_00000_0010_00000000_000000000000001000010011#64
/-- `vadd v2, v4, v6` in FP32. -/
def wVadd : Word := 0b0_1010100_00010_00100_00110_00000_0000_00001000_000000000000000000000000#64
/-- `vflow` through slot 2. -/
def wVflow : Word := 0b0_1100001_00000_00001_00010_00000_0001_00000000_000000000000000000000010#64
/-- `dinfo` function 0x80. -/
def wRetire : Word := 0b0_1100101_00011_00001_00000_00000_0000_10000000_000000000000000000000000#64
/-- `cbkt` CLOSE. -/
def wClose : Word := 0b0_1101101_00000_00001_00000_00000_0011_00000000_000000000000000000000010#64
/-- `tkpoll s3, 0x8001`. -/
def wTkpoll : Word := 0b0_1110101_00011_00000_00000_00000_0000_00000000_000000001000000000000001#64
/-- A pair: `mov s1, s2` beside `fadd s3, s4, s5`. -/
def wPair : Word := 0b1_001100_00001_00010_00000_0000000000_001111_00011_00100_00101_0000000000_0#64

theorem test_words_name_their_rows :
    opOf wAdd = .add ∧ opOf wLi = .li ∧ opOf wSubI = .sub ∧ opOf wFmul = .fmul ∧ opOf wCmp = .cmp ∧ opOf wBt = .bt ∧ opOf wLd = .ld ∧
    opOf wStI = .st ∧ opOf wTmma = .tmma ∧ opOf wVadd = .vadd ∧ opOf wVflow = .vflow ∧ opOf wRetire = .dinfoRetire ∧ opOf wClose = .cbktClose ∧
    opOf wTkpoll = .tkpoll ∧ opOf wPair = .mov ∧ (slotB wPair).op = .fadd := by decide

theorem test_fields_of_words :
    ((longFields wAdd).rd, (longFields wAdd).rs1, (longFields wAdd).rs2) = (3, 1, 2) ∧
    ((longFields wLi).rd, (longFields wLi).imm) = (7, -1) ∧
    ((longFields wSubI).form, (longFields wSubI).rd, (longFields wSubI).rs1, (longFields wSubI).imm) = (.li, 3, 1, 5) ∧
    ((longFields wCmp).rd, (longFields wCmp).fn) = (3, 2) ∧
    ((longFields wBt).rs1, (longFields wBt).fn, (longFields wBt).off) = (4, 0, -2) ∧
    ((longFields wLd).rd, (longFields wLd).rs1, (longFields wLd).rs2, (longFields wLd).tk, (longFields wLd).fn, (longFields wLd).x24) = (3, 1, 2, 4, 14, 8) ∧
    ((longFields wStI).rd, (longFields wStI).rs1, (longFields wStI).tk, (longFields wStI).imm) = (3, 1, 9, 16) ∧
    ((longFields wTmma).tk, (longFields wTmma).x24) = (2, 0x213) ∧
    ((slotA wPair).rd, (slotA wPair).rs1, (slotB wPair).rd, (slotB wPair).rs1, (slotB wPair).rs2) = (1, 2, 3, 4, 5) := by decide

/-- Major opcodes of R50 (function fields zero). -/
def majors1 : List (Op × Nat) :=
  [(.nop, 1), (.li, 2), (.add, 3), (.sub, 4), (.andI, 5), (.orI, 6), (.xorI, 7), (.shl, 8), (.shr, 9), (.sra, 10), (.minI, 11), (.maxI, 12), (.sel, 13), (.mov, 14), (.tagof, 15), (.mul, 16), (.mulh, 17), (.mulhu, 18), (.div, 19), (.divu, 20), (.rem, 21), (.remu, 22), (.fadd, 24), (.fsub, 25), (.fmul, 26), (.ffma, 27)]

/-- Major opcodes of R50 (function fields zero). -/
def majors2 : List (Op × Nat) :=
  [(.fmin, 28), (.fmax, 29), (.fdiv, 30), (.fsqrt, 31), (.cmp, 32), (.fcmp, 33), (.pand, 34), (.por, 35), (.pnot, 36), (.mkptr, 37), (.ptrint, 38), (.fbits, 39), (.bitsf, 40), (.itof, 41), (.ftoi, 42), (.smv, 43), (.b, 48), (.bt, 49), (.bf, 50), (.call, 51), (.callr, 52), (.jr, 53), (.ret, 54), (.ld, 56), (.ldf, 57), (.ldp, 58)]

/-- Major opcodes of R50 (function fields zero). -/
def majors3 : List (Op × Nat) :=
  [(.ldt, 59), (.st, 60), (.stt, 61), (.amo, 62), (.mbar, 63), (.tcfg, 64), (.tld, 65), (.tldc, 66), (.tst, 67), (.tsb, 68), (.tshift, 69), (.tmma, 70), (.tzero, 71), (.trel, 72), (.twait, 73), (.vld, 80), (.vst, 81), (.vmov, 82), (.vbcast, 83), (.vadd, 84), (.vsub, 85), (.vmul, 86), (.vfma, 87), (.vmulw, 88), (.vdotw, 89), (.vcvt, 90)]

/-- Major opcodes of R50 (function fields zero). -/
def majors4 : List (Op × Nat) :=
  [(.vred, 91), (.vchain, 96), (.vflow, 97), (.tdesc, 100), (.dinfo, 101), (.dgth, 102), (.dsct, 103), (.pgather, 108), (.cbktOpen, 109), (.csend, 110), (.crecv, 111), (.await, 116), (.tkpoll, 117), (.rep, 118), (.repi, 119), (.mset, 120), (.csrr, 121), (.csrw, 122), (.ifence, 123), (.ecall, 124), (.brk, 125), (.eret, 126), (.tend, 127)]

/-- The major opcodes of R50. -/
def majors : List (Op × Nat) := majors1 ++ (majors2 ++ (majors3 ++ majors4))

theorem test_majors : majors.all (fun e => decide (opOf (lr e.2 0 0 0 0 0 0 0) = e.1) && (instrOf e.1 8191 (lr e.2 0 0 0 0 0 0 0)).wellFormed) = true := by
  decide

theorem test_variants :
    opOf (lr 101 0 0 0 0 0 0x80 0) = .dinfoRetire ∧ opOf (lr 109 0 0 0 0 0 0 1) = .cbktBucket ∧ opOf (lr 109 0 0 0 0 0 0 2) = .cbktClose ∧
    opOf (lr 109 0 0 0 0 0 0 3) = .cbktPublish ∧ opOf (li 0x4A 0 0 0 0) = .ld ∧ opOf (li 0x4F 0 0 0 0) = .stt ∧ opOf (li 0x17 0 0 9 0) = .maxI ∧
    (longFields (li 0x17 0 0 10 0)).bad = true ∧ (longFields (lr 0x2C 0 0 0 0 0 0 0)).bad = true ∧ (slotFields (0x21 * 2 ^ 25)).bad = true := by decide

/-! ### Ill-formed terms are refused -/

theorem test_ill_formed_thread_number : majors.all (fun e => !(instrOf e.1 8192 (lr e.2 0 0 0 0 0 0 0)).wellFormed) = true := by decide

theorem test_ill_formed_word : majors.all (fun e => !(instrOf e.1 0 (lr (if e.2 = 1 then 2 else 1) 0 0 0 0 0 0 0)).wellFormed) = true := by decide

theorem test_ill_formed_variants :
    ([.dinfoRetire 0 (lr 101 0 0 0 0 0 0 0), .dinfoRetire 8192 (lr 101 0 0 0 0 0 0x80 0), .dinfo 0 (lr 101 0 0 0 0 0 0x80 0),
      .cbktBucket 0 (lr 109 0 0 0 0 0 0 2), .cbktBucket 8192 (lr 109 0 0 0 0 0 0 1), .cbktClose 0 (lr 109 0 0 0 0 0 0 0),
      .cbktClose 8192 (lr 109 0 0 0 0 0 0 2), .cbktPublish 0 (lr 109 0 0 0 0 0 0 0), .cbktPublish 8192 (lr 109 0 0 0 0 0 0 3)] : List Instr).all
      (fun i => !i.wellFormed) = true := by decide

theorem test_word_of_another_row_is_malformed : ans (exec (.add 0 wLi) (cpu wLi 3 [])) = none := by decide

/-- A flit that carries nothing. -/
def noFlit : Flit := ⟨0, 0, false, 0, 0, true, 0, []⟩

theorem test_ill_formed_events_1 :
    ([.fixedResultCommit 8192, .repeatIteration 8192 0, .fetchReturn 8192 .ok, .ticketComplete 8192 0, .ticketComplete 0 16,
    .ticketFault 8192 0, .ticketFault 0 16, .tendComplete 8192, .trapEntry 8192 .ok, .interruptTaken 8192, .timerCompare 8192,
    .vectorOpStart 512, .tileQueueExecute 512 .ok, .tileInstructionComplete 512, .chainQueueExecute 512 .ok, .vchainComplete 512,
    .vflowComplete 512, .descriptorQueueExecute 512 .ok, .translationWalkRead 8192 0 .ok, .translationWalkRead 0 16 .ok,
    .memAccessPerformed 8192 0 .ok, .memAccessPerformed 0 16 .ok, .l1LineFill 512 0 .ok, .crossHalfAccessTimeout 8192 0,
    .crossHalfAccessTimeout 0 16, .meshFlitReceive 8192 0 true, .meshFlitReceive 0 16 true, .hbmReadReturn 16 0 .clean none,
    .hbmRefresh 16 0, .fabricFlitReceive 24 noFlit, .portRetrainComplete 24 none, .spareLaneRotation 26 true, .packetInject 2 0,
    .packetForward 24, .dataReceive 24, .expReceive 24, .agreedExponentReceive 24, .lanesReceive 24, .verdictReceive 24, .greqReceive 24,
    .cellarReceive 24, .beaconReceive 24, .beaconKeyTimeout 2 0, .helloSend 24, .helloReceive 24] : List Instr).all (fun i => !i.wellFormed) = true := by decide

theorem test_ill_formed_events_2 :
    ([.ackfReceive 24, .portOutputStallTimeout 24, .portDrainedEnd 24, .queueDepthSample 2, .equaliserAdapt 26 0 true,
    .portTrainingComplete 24 0, .portTrainingRetry 24, .heartbeatSend 2, .heartbeatReceive 2 true, .heartbeatTimeout 2,
    .halfLinkFlitReceive 2 true none, .halfLinkFlitReceive 0 true (some 512), .journalEntryReceive 2, .journalAckReceive 2,
    .completionRecordReceive 2, .coreFrequencyLoop 8 ⟨0, 0, 0, 0, 0, 0⟩, .droopTrip 8, .droopStretchEnd 8, .thermalLoop 8 0,
    .powerCapLoop 2 0, .thermalTrip 8, .thermalTripTimeout 8 0, .keeperBoot 2 0, .keeperBoot 0 2, .hbmTrainingComplete 16 true,
    .kuwickReady 2, .endpointLinkTrained 2, .pwrEnLow 2, .pwrEnHigh 2, .halfReset 2 0, .keeperReset 2 0, .keeperReset 0 2,
    .keeperStandbyReturn 2 true, .noKeeperTimeout 2, .endpointReset 2, .functionLevelReset 65, .functionLevelReset 0,
    .smbusTelemetry 2 true 0 0, .smbusFaultRecords 2 true, .smbusResetHalf 2 true, .smbusRecoveryImageWrite 2 true Image.shipped,
    .smbusDeviceKey 2 true, .smbusOwnerKey 2 true [], .jtagBypass 2, .jtagIdcode 2] : List Instr).all (fun i => !i.wellFormed) = true := by decide

theorem test_ill_formed_events_3 :
    ([.jtagSamplePreload 2, .jtagExtest 2, .kwSqTailWrite 2 0 0, .kwSqTailWrite 0 65 0, .ringEnable 2 0 .sq, .ringEnable 0 65 .sq,
    .ringDisable 2 0 .sq, .ringDisable 0 65 .sq, .sqEntryRead 2 0 [] [], .sqEntryRead 0 65 [] [], .commandFinal 65 0, .nopCommand 65 0,
    .query 65 0, .launch 65 0, .abort 65 0, .irqSet 65 0, .rack 65 0, .partnerLoad 65 0, .groupSet 65 0, .preempt 65 0, .resume 65 0,
    .cellarGrant 65 0, .cellarClient 65 0, .cellarRevoke 65 0, .mapC 65 0, .bind 65 0, .rebind 65 0, .unbind 65 0, .primacySet 2 0 true,
    .fabricIdSet 65 0, .keySet 65 0, .keyClear 65 0, .eventCfg 65 0, .selftest 65 0 none, .selftestSpareOk 65 0 none, .restore 65 0,
    .fwUpdate 65 0 Image.shipped, .crEpcWrite 8192 .int 0, .crEstatWrite 8192 0, .crFflagsWrite 8192 0, .tlStatRead 512, .tlStatWrite 512 0,
    .vcStatRead 512, .dsOobcntRead 512, .mcStallRead 512 0 0] : List Instr).all (fun i => !i.wellFormed) = true := by decide

theorem test_ill_formed_events_4 :
    ([.mcStallRead 0 16 0, .mcStallRead 0 0 16, .mcStallctlClr 512 0, .mcParcntRead 512, .hbStatRead 16, .ceBucketWrite 8192 0,
    .ceStatRead 64 0, .ceStatRead 0 2, .skRxerrRead 64 0, .skRxerrRead 0 2, .skBcnRead 2, .skLinkerrRead 24, .hlEventWrite 2 0,
    .pwEventWrite 2 0, .pwTcmpWrite 8192 0, .kwDbstatRead 512, .collectiveSlotDequeue 512, .bucketDequeue 2 0, .bucketWindowExpiry 2 0,
    .closeWindowExpiry 2 0, .postWindowExpiry 2 0, .gatherWindowExpiry 2 0, .publishProceed 2 0, .snapshotStart 64 0, .captureComplete 64,
    .drainComplete 64, .bindingStop 0x9000, .rollbackNoticeReceive 24, .repairComplete 0x9000 .nothing, .lstepAgreement 64 [],
    .restoreComplete 64, .halfResetRelease 2, .deferredSelftestResult 0x9000 none] : List Instr).all (fun i => !i.wellFormed) = true := by decide

/-! ### Scalar instructions: results the rules give -/

/-- Destination, value and distance of what `w` queues on thread 0 at M, slot 0. -/
def res (w : Word) (regs : FMap TReg) : List (Nat × TReg × Nat) :=
  match ans (exec (instrOf (opOf w) 0 w) (cpu w 3 regs)) with
  | some s => (s.thread 0).fixed.map (fun r => (r.dst, r.val, r.due))
  | none => []

/-- The cause and the value of the trap that `w` recognises on thread 0. -/
def trapOf (w : Word) (lvl : BitVec 2) (regs : FMap TReg) : Option (Nat × Word) :=
  match ans (exec (instrOf (opOf w) 0 w) (cpu w lvl regs)) with
  | some s => (s.thread 0).trap.map (fun t => (t.cause, t.etval))
  | none => none

/-- A three-register operation `s3` from `s1`, `s2` on integers. -/
def int2 (op : Nat) (a b : Word) : List (Nat × TReg × Nat) := res (lr op 3 1 2 0 0 0 0) [(1, ⟨.int, a⟩), (2, ⟨.int, b⟩)]
def fp2 (op fn : Nat) (a b : Word) : List (Nat × TReg × Nat) := res (lr op 3 1 2 0 0 fn 0) [(1, ⟨.fp64, a⟩), (2, ⟨.fp64, b⟩)]

theorem test_arithmetic_and_logic :
    int2 3 5 7 = [(3, ⟨.int, 12⟩, 1)] ∧ int2 3 (-1) 1 = [(3, ⟨.int, 0⟩, 1)] ∧ int2 4 5 7 = [(3, ⟨.int, -2⟩, 1)] ∧
    int2 5 12 10 = [(3, ⟨.int, 8⟩, 1)] ∧ int2 6 12 10 = [(3, ⟨.int, 14⟩, 1)] ∧ int2 7 12 10 = [(3, ⟨.int, 6⟩, 1)] := by decide +kernel

theorem test_shifts_and_extrema :
    int2 8 1 65 = [(3, ⟨.int, 2⟩, 1)] ∧ int2 9 (-1) 63 = [(3, ⟨.int, 1⟩, 1)] ∧ int2 10 (-8) 2 = [(3, ⟨.int, -2⟩, 1)] ∧
    int2 11 (-1) 1 = [(3, ⟨.int, -1⟩, 1)] ∧ int2 12 (-1) 1 = [(3, ⟨.int, 1⟩, 1)] := by decide +kernel

theorem test_pointers_and_immediates :
    res (lr 3 3 1 2 0 0 0 0) [(1, ⟨.ptr, 64⟩), (2, ⟨.int, 8⟩)] = [(3, ⟨.ptr, 72⟩, 1)] ∧
    res (lr 4 3 1 2 0 0 0 0) [(1, ⟨.ptr, 64⟩), (2, ⟨.ptr, 8⟩)] = [(3, ⟨.int, 56⟩, 1)] ∧
    res wSubI [(1, ⟨.int, 3⟩)] = [(3, ⟨.int, -2⟩, 1)] ∧ res wLi [] = [(7, ⟨.int, -1⟩, 1)] ∧
    trapOf (lr 6 3 1 2 0 0 0 0) 3 [(1, ⟨.ptr, 64⟩), (2, ⟨.int, 8⟩)] = some (0x02, 0x201) := by decide +kernel

theorem test_multiply :
    int2 16 (-2) 3 = [(3, ⟨.int, -6⟩, 2)] ∧ int2 17 (-2) 3 = [(3, ⟨.int, -1⟩, 2)] ∧ int2 18 (-2) 3 = [(3, ⟨.int, 2⟩, 2)] := by decide +kernel

/-- What a ticketed calculation will give. -/
def calcOf (w : Word) (regs : FMap TReg) : Option TReg :=
  match ans (exec (instrOf (opOf w) 0 w) (cpu w 3 regs)) with
  | some s => match ((s.thread 0).ticket 5).ops with
    | [⟨.calc v _, _, _⟩] => some v
    | _ => none
  | none => none
def divs (op : Nat) (a b : Word) : Option TReg := calcOf (lr op 3 1 2 0 5 0 0) [(1, ⟨.int, a⟩), (2, ⟨.int, b⟩)]

theorem test_division :
    divs 19 (-7) 2 = some ⟨.int, -3⟩ ∧ divs 20 (-1) 2 = some ⟨.int, 0x7FFF_FFFF_FFFF_FFFF⟩ ∧ divs 21 (-7) 2 = some ⟨.int, -1⟩ ∧
    divs 22 7 4 = some ⟨.int, 3⟩ ∧ divs 19 7 0 = some ⟨.int, -1⟩ ∧ divs 20 7 0 = some ⟨.int, -1⟩ ∧ divs 21 7 0 = some ⟨.int, 7⟩ ∧
    divs 22 7 0 = some ⟨.int, 7⟩ := by decide +kernel

theorem test_moves :
    res (lr 13 3 1 2 4 0 0 0) [(1, ⟨.pred, 1⟩), (2, ⟨.int, 7⟩), (4, ⟨.int, 9⟩)] = [(3, ⟨.int, 7⟩, 1)] ∧
    res (lr 14 3 1 0 0 0 0 0) [(1, ⟨.ptr, 7⟩)] = [(3, ⟨.ptr, 7⟩, 1)] ∧
    res (lr 15 3 1 0 0 0 0 0) [] = [(3, ⟨.int, 14⟩, 1)] ∧
    res (lr 37 3 1 0 0 0 0 0) [(1, ⟨.int, 7⟩)] = [(3, ⟨.ptr, 7⟩, 1)] ∧ res (lr 38 3 1 0 0 0 0 0) [(1, ⟨.ptr, 7⟩)] = [(3, ⟨.int, 7⟩, 1)] ∧
    res (lr 39 3 1 0 0 0 0 0) [(1, ⟨.fp64, 7⟩)] = [(3, ⟨.int, 7⟩, 1)] ∧ res (lr 40 3 1 0 0 0 0 0) [(1, ⟨.int, 7⟩)] = [(3, ⟨.fp64, 7⟩, 1)] := by
  decide +kernel

/-- 1.0 is 0x3FF0…, 1.5 0x3FF8…, 2.0 0x4000…, 3.0 0x4008… (IEEE 754). -/
theorem test_scalar_float :
    fp2 24 0 0x3FF0000000000000 0x4000000000000000 = [(3, ⟨.fp64, 0x4008000000000000⟩, 4)] ∧
    fp2 25 0 0x4008000000000000 0x4000000000000000 = [(3, ⟨.fp64, 0x3FF0000000000000⟩, 4)] ∧
    fp2 26 0 0x3FF8000000000000 0x4000000000000000 = [(3, ⟨.fp64, 0x4008000000000000⟩, 4)] ∧
    fp2 28 0 0x3FF0000000000000 0x4000000000000000 = [(3, ⟨.fp64, 0x3FF0000000000000⟩, 4)] ∧
    fp2 29 0 0x3FF0000000000000 0x4000000000000000 = [(3, ⟨.fp64, 0x4000000000000000⟩, 4)] ∧
    calcOf (lr 30 3 1 2 0 5 0 0) [(1, ⟨.fp64, 0x4008000000000000⟩), (2, ⟨.fp64, 0x4000000000000000⟩)] = some ⟨.fp64, 0x3FF8000000000000⟩ ∧
    calcOf (lr 31 3 1 0 0 5 0 0) [(1, ⟨.fp64, 0x4010000000000000⟩)] = some ⟨.fp64, 0x4000000000000000⟩ ∧
    res (lr 41 3 1 0 0 0 0 0) [(1, ⟨.int, 3⟩)] = [(3, ⟨.fp64, 0x4008000000000000⟩, 4)] ∧
    res (lr 42 3 1 0 0 0 0 0) [(1, ⟨.fp64, 0x4008000000000000⟩)] = [(3, ⟨.int, 3⟩, 4)] ∧
    res (lr 27 3 1 2 4 0 0 0) [(1, ⟨.fp64, 0x3FF8000000000000⟩), (2, ⟨.fp64, 0x4000000000000000⟩), (4, ⟨.fp64, 0xC000000000000000⟩)] =
      [(3, ⟨.fp64, 0x3FF0000000000000⟩, 4)] := by decide +kernel

theorem test_compares :
    res (lr 32 3 1 2 0 0 2 0) [(1, ⟨.int, -1⟩), (2, ⟨.int, 1⟩)] = [(3, ⟨.pred, 1⟩, 1)] ∧
    res (lr 32 3 1 2 0 0 4 0) [(1, ⟨.int, -1⟩), (2, ⟨.int, 1⟩)] = [(3, ⟨.pred, 0⟩, 1)] ∧
    fp2 33 1 0x3FF0000000000000 0x4000000000000000 = [(3, ⟨.pred, 1⟩, 1)] ∧ fp2 33 3 0x7FF8000000000000 0 = [(3, ⟨.pred, 1⟩, 1)] ∧
    res (lr 34 3 1 2 0 0 0 0) [(1, ⟨.pred, 1⟩), (2, ⟨.pred, 0⟩)] = [(3, ⟨.pred, 0⟩, 1)] ∧
    res (lr 35 3 1 2 0 0 0 0) [(1, ⟨.pred, 1⟩), (2, ⟨.pred, 0⟩)] = [(3, ⟨.pred, 1⟩, 1)] ∧
    res (lr 36 3 1 0 0 0 0 0) [(1, ⟨.pred, 1⟩)] = [(3, ⟨.pred, 0⟩, 1)] := by decide +kernel

/-- A branch target by its word, where the branch is taken. -/
def target (w : Word) (regs : FMap TReg) : Option (Word × Bool) :=
  match ans (exec (instrOf (opOf w) 0 w) (cpu w 3 regs)) with
  | some s => (s.thread 0).delay.map (fun d => (d.target, d.taken))
  | none => none

theorem test_branches :
    target (lb 48 0 0 3) [] = some (24, true) ∧ target wBt [(4, ⟨.pred, 1⟩)] = some (-16, true) ∧
    target (lb 50 4 0 3) [(4, ⟨.pred, 1⟩)] = some (24, false) ∧ target (lb 51 0 0 3) [] = some (24, true) ∧
    res (lb 51 0 0 3) [] = [(0x20, ⟨.ret, 16⟩, 1)] ∧ target (lb 52 4 0 0) [(4, ⟨.ptr, 0x100⟩)] = some (0x100, true) ∧
    target (lb 53 4 0 0) [(4, ⟨.ptr, 0x100⟩)] = some (0x100, true) ∧
    (trapOf (lb 54 0 0 0) 3 []) = some (0x0F, 8 + 256 * 14) := by decide +kernel

theorem test_system :
    trapOf (lr 124 0 0 0 0 0 0 0) 0 [] = some (0x12, 0) ∧ trapOf (lr 124 0 0 0 0 0 0 0) 1 [] = some (0x13, 0) ∧
    trapOf (lr 125 0 0 0 0 0 0 0x77) 0 [] = some (0x14, 0x77) ∧ res wTkpoll [] = [(3, ⟨.int, 0x8001⟩, 1)] ∧
    trapOf (lr 126 0 0 0 0 0 0 0) 0 [] ≠ none ∧ trapOf (lr 0 0 0 0 0 0 0 0) 3 [] = some (0x01, 0) := by decide +kernel

/-! ### Witnesses: hypotheses of the statements about instructions -/

/-- `w` may issue on thread 0 of `s`, as `Issues` asks, and its register `rd` and ticket are free. -/
def free (s : State) (w : Word) : Bool :=
  issuable s 0 w (opOf w) && !(s.now 0).isPend (longFields w).rd && decide ((s.now 0).ticket (longFields w).tk = Ticket.free)

def tagsAre (s : State) (w : Word) (l : List Tag) : Bool :=
  let f := longFields w
  decide (([f.rs1, f.rs2, f.rs3].map (fun r => ((s.now 0).reg r).tag)).take l.length = l)

theorem witness_IntegerAlu :
    let s := cpu wAdd 3 [(1, ⟨.int, 5⟩), (2, ⟨.int, 7⟩)]
    let u := cpu (lr 4 3 1 2 0 0 0 0) 3 [(1, ⟨.ptr, 64⟩), (2, ⟨.ptr, 8⟩)]
    free s wAdd = true ∧ tagsAre s wAdd [.int, .int] = true ∧ (src2Of (longFields wAdd) (s.now 0)).tag = .int ∧
    free u (lr 4 3 1 2 0 0 0 0) = true ∧ tagsAre u (lr 4 3 1 2 0 0 0 0) [.ptr, .ptr] = true := by decide +kernel

theorem witness_MovesAndRetagging :
    let sel := lr 13 3 1 2 4 0 0 0
    let s := cpu sel 3 [(1, ⟨.pred, 1⟩), (2, ⟨.int, 7⟩), (4, ⟨.int, 9⟩)]
    let mv := lr 14 0 1 0 0 0 0x40 0
    let u := cpu mv 3 [(1, ⟨.ret, 8⟩)]
    let smv := lr 43 3 2 0 0 0 0x81 0
    let v := (cpu smv 3 []).setThread 0 { th smv 3 [] with sm := [(2, ⟨.smry, 5⟩)] }
    free s sel = true ∧ tagsAre s sel [.pred, .int, .int] = true ∧
    issuable u 0 mv .mov = true ∧ (u.now 0).isPend codeLnk = false ∧ tagsAre u mv [.ret] = true ∧
    free v smv = true ∧ ((v.now 0).reg (codeSm 2)).tag = .smry ∧
    free (cpu (lr 37 3 1 0 0 0 0 0) 3 [(1, ⟨.int, 1⟩)]) (lr 37 3 1 0 0 0 0 0) = true := by decide +kernel

theorem witness_MultiplyAndDivide :
    let d := lr 19 3 1 2 0 15 0 0
    let s := cpu d 3 [(1, ⟨.int, 5⟩), (2, ⟨.int, 0⟩)]
    free s d = true ∧ tagsAre s d [.int, .int] = true ∧ free (cpu (lr 16 3 1 2 0 0 0 0) 0 [(1, ⟨.int, 5⟩), (2, ⟨.int, 0⟩)]) (lr 16 3 1 2 0 0 0 0) = true := by
  decide +kernel

theorem witness_ScalarFloat :
    let w := lr 27 3 1 2 4 0 0 0
    let s := cpu w 3 [(1, ⟨.fp64, 0⟩), (2, ⟨.fp64, 0⟩), (4, ⟨.fp64, 0⟩)]
    let q := lr 31 3 1 0 0 7 0 0
    let u := cpu q 3 [(1, ⟨.fp64, 0⟩)]
    let c := lr 41 3 1 0 0 0 0 0
    free s w = true ∧ tagsAre s w [.fp64, .fp64, .fp64] = true ∧ free u q = true ∧ tagsAre u q [.fp64] = true ∧
    free (cpu c 3 [(1, ⟨.int, 1⟩)]) c = true := by decide +kernel

theorem witness_ComparesAndPredicates :
    let w := lr 32 3 1 2 0 0 5 0
    let s := cpu w 3 [(1, ⟨.int, 5⟩), (2, ⟨.int, 5⟩)]
    let x := lr 32 3 1 2 0 0 0x80 0
    let u := (cpu x 3 []).setThread 0 { th x 3 [(2, ⟨.int, 5⟩)] with sm := [(1, ⟨.smry, 5⟩)] }
    free s w = true ∧ tagsAre s w [.int, .int] = true ∧ (longFields w).fn % 128 = 5 ∧
    free u x = true ∧ ((u.now 0).reg (codeSm 1)).tag = .smry ∧
    free (cpu (lr 34 3 1 2 0 0 0 0) 3 [(1, ⟨.pred, 1⟩), (2, ⟨.pred, 0⟩)]) (lr 34 3 1 2 0 0 0 0) = true := by decide +kernel

theorem witness_PairedWordsAndFetch :
    let s := cpu wPair 3 [(2, ⟨.int, 5⟩), (4, ⟨.fp64, 0⟩), (5, ⟨.fp64, 0⟩)]
    let t := s.now 0
    let bad := wPair ||| 1
    isPair wPair = true ∧ s.mayIssue 0 wPair = true ∧ isPair bad = true ∧ (cpu bad 3 []).mayIssue 0 bad = true ∧ bitAt bad 0 = true ∧
    (fopOf (slotA wPair).op wPair (slotA wPair) t).fault = none ∧ (fopOf (slotB wPair).op wPair (slotB wPair) t).fault = none ∧
    (fopOf (slotA wPair).op wPair (slotA wPair) t).pumps = 0 ∧ (fopOf (slotB wPair).op wPair (slotB wPair) t).pumps = 0 := by decide +kernel

/-- A thread at M at 0x1008 with nothing fetched, and the same at an address that no HBM has. -/
def lost (pc : Word) : State := State.reset.setThread 0 { th 0 3 [] with fetch := none, pc := pc }

theorem witness_PairedWordsAndFetch_fetch :
    let s := lost 0x1008
    let t := s.thread 0
    t.run = .run ∧ t.trap = none ∧ t.word? = none ∧ s.xlatQuick (s.bindingOf 0) (s.core 0).tcache t.estat.prv .x t.pc = .pa 0x1008 ∧
    s.isHbm 0x1008 = true ∧ s.linkWait 0 0x1000 = false ∧ s.poisoned 0x1000 64 = false ∧
    (let u := { s with poison := [0x20] }
     u.poisoned 0x1000 64 = true) ∧
    (let u := lost 0xE0000000000
     u.isHbm 0xE0000000000 = false ∧ u.xlatQuick none [] 3 .x 0xE0000000000 = .pa 0xE0000000000) := by decide +kernel

theorem witness_BranchesAndDelaySlots :
    let r := lb 54 0 0 0
    let s := State.reset.setThread 0 { th r 3 [] with lnk := ⟨.ret, 0x100⟩ }
    let j := lb 53 4 0 0
    let u := cpu j 3 [(4, ⟨.ptr, 0x100⟩)]
    let d := lr 127 0 0 0 0 0 0 0
    let v := State.reset.setThread 0 { th d 3 [] with delay := some ⟨0, 0x40, true⟩ }
    issuable s 0 r .ret = true ∧ (s.now 0).lnk.tag = .ret ∧ (s.now 0).lnk.val.toNat % 8 = 0 ∧ issuable (cpu wBt 3 [(4, ⟨.pred, 0⟩)]) 0 wBt .bt = true ∧
    issuable u 0 j .jr = true ∧ ((u.now 0).reg 4).tag = .ptr ∧ isPair d = false ∧ v.mayIssue 0 d = true ∧ (v.now 0).delay.isSome = true ∧
    opOf d = .tend := by decide +kernel

theorem witness_MemoryAndAtomicIssue :
    let s := cpu wLd 3 [(1, ⟨.ptr, 0x1000⟩), (2, ⟨.int, 4⟩)]
    let x := lr 59 3 1 2 0 0 3 0
    let u := cpu x 1 [(1, ⟨.ptr, 0xE0000000000⟩), (2, ⟨.int, 8⟩)]
    let a := lr 62 3 1 2 4 0 0x83 0
    let v := cpu a 0 [(1, ⟨.ptr, 0x1000⟩), (2, ⟨.int, 1⟩), (4, ⟨.int, 0⟩)]
    free s wLd = true ∧ tagsAre s wLd [.ptr, .int] = true ∧ (0x1000 + 4) % 4 = 0 ∧
    free u x = true ∧ tagsAre u x [.ptr, .int] = true ∧ (u.now 0).estat.prv ≠ 0 ∧ isPress 0xE0000000008 = true ∧ inCtlRange 0xE0000000008 = false ∧
    free v a = true ∧ tagsAre v a [.ptr, .int, .int] = true := by decide +kernel

theorem witness_MemoryAndAtomicIssue_mbar :
    let w := lr 63 0 0 0 0 0 0 0x1F
    let s := State.reset.setThread 0 { th w 3 [] with fences := [⟨0, 15, false⟩] }
    issuable s 0 w .mbar = true ∧ issuable (cpu wStI 3 [(1, ⟨.ptr, 0x1000⟩), (3, ⟨.int, 1⟩)]) 0 wStI .st = true := by decide +kernel

/-- Configurations of an INT8 operand tile of 4 rows of 64 bytes, and of an INT32 accumulator of 4 rows of 16 columns (R103, R105). -/
def cfgT : BitVec 32 := 0x01040040
def cfgA : BitVec 32 := 0x40047010

/-- An INT8 descriptor of 4 rows of 64 bytes at 0x2000, minted at M. -/
def dsc : Desc := ⟨1, 0, 1, 1, 0, 0, 0, false, false, true, 0x2000, 0, 0, 2 ^ 20, [⟨64, 4, 0, 0⟩, ⟨1, 64, 0, 0⟩], 0, 0, 0, none⟩
/-- The handle that names slot 0 of thread 0 of core 0 at M (R164). -/
def hnd : Word := 0x80000

/-- A core with a tile, an accumulator and a shadow and an active bank in the issue view, and a descriptor. -/
def tcore : Core :=
  { Core.reset with
    tcfg := [(0, cfgT), (8, cfgA)], vEmpty := 0x0FFE, vBanks := [(0, ⟨1, 1, 64, 16⟩), (1, ⟨1, 1, 64, 16⟩)], descs := [(0, ⟨some dsc, 0⟩)] }
/-- Thread 0 about to issue `w` on such a core. -/
def tcpu (w : Word) (regs : FMap TReg) : State := (cpu w 3 regs).setCore 0 tcore
def tregs : FMap TReg := [(1, ⟨.desc, hnd⟩), (2, ⟨.int, 0⟩), (4, ⟨.int, 0x01100040⟩)]

theorem witness_TileIssue_loads_and_stores :
    let ld := lr 65 0 1 2 0 3 0 0
    let st := lr 67 0 1 2 0 3 0 0
    let sb := lr 68 0 1 2 4 3 0 1
    free (tcpu ld tregs) ld = true ∧ tagsAre (tcpu ld tregs) ld [.desc, .int] = true ∧ (tcpu ld tregs).handleDesc 0 3 hnd = some dsc ∧
    loadFmtOk dsc.fmt (cfgFmt cfgT) = true ∧ cfgScl cfgT = false ∧ cfgRows cfgT ≠ 0 ∧ isEmptyView tcore 0 = false ∧ dsc.ro = false ∧
    free (tcpu st tregs) st = true ∧ free (tcpu sb tregs) sb = true ∧ bankShapeOf 0x01100040 = some ⟨1, 1, 64, 16⟩ ∧
    free (tcpu (lr 66 0 1 2 0 3 0 0) tregs) (lr 66 0 1 2 0 3 0 0) = true := by decide +kernel

theorem witness_TileIssue_passes :
    let mm := lr 70 0 0 0 0 2 0 0x200
    let sh := lr 69 0 0 0 0 2 0 0x83F
    let z := lr 71 0 0 0 0 2 0 8
    let rl := lr 72 0 0 0 0 2 0 0x3FFF
    let wt := lr 73 0 0 0 0 2 0 0
    let c : Core := { tcore with tcfg := [(8, 0x80040010)] }
    let zs := lr 71 0 1 0 0 2 0 8
    free (tcpu mm []) mm = true ∧ tmmaCheck tcore 0 0 0 true 0 = none ∧
    free (tcpu sh []) sh = true ∧ isEmptyView tcore 12 = false ∧ 0x3F ≤ (tcore.shape 0).k - 1 ∧ (tcore.shape 0).fmt ≠ fmtPsi ∧
    free (tcpu z []) z = true ∧ ¬ (acfgMode cfgA = 2) ∧ free (tcpu rl []) rl = true ∧ free (tcpu wt []) wt = true ∧
    acfgMode (c.cfg 8) = 2 ∧ free ((cpu zs 3 [(1, ⟨.ptr, 0x3000⟩)]).setCore 0 c) zs = true := by decide +kernel

theorem witness_VectorIssue :
    let s := cpu wVadd 3 []
    let f := longFields wVadd
    let n := (s.now 0).vgrp
    let rd := lr 91 3 4 0 0 0 1 0
    vecLegal f = true ∧ groupCheck f n (vOperands f n) = none ∧ ((vecRegs f n).srcs ++ (vecRegs f n).dsts).all (fun r => !(s.now 0).isPend r) = true ∧
    (s.core 0).backlog = 0 ∧ issuable s 0 wVadd .vadd = true ∧ f.fn % 16 ≠ vxFormat ∧
    issuable (cpu rd 3 []) 0 rd .vred = true ∧ vecLegal (longFields rd) = true ∧ vfIsInt ((longFields rd).fn % 16) = true := by decide +kernel

theorem witness_VectorLanesAndMemory :
    let w := lr 80 4 1 2 0 6 8 0
    let s := cpu w 3 [(1, ⟨.ptr, 0x1000⟩), (2, ⟨.int, 64⟩)]
    let f := longFields w
    vecLegal f = true ∧ groupCheck f 1 (vOperands f 1) = none ∧ (s.now 0).vgrp = 1 ∧ issuable s 0 w .vld = true ∧ tagsAre s w [.ptr, .int] = true ∧
    (groupCodes f.rd 1).all (fun r => !(s.now 0).isPend r) = true ∧ (s.now 0).ticket 6 = Ticket.free ∧ inCtlRange 0x1040 = false ∧ 0x1040 % 64 = 0 := by
  decide +kernel

theorem witness_ChainIssue :
    let vc := lr 96 0 1 0 0 2 0 3
    let vf := lr 97 0 1 2 4 2 0 0x10F0012
    let s := cpu vf 3 [(1, ⟨.ptr, 0xE0000000000⟩), (2, ⟨.ptr, 0xE0000001000⟩), (4, ⟨.ptr, 0xE0000002000⟩)]
    free (cpu vc 3 [(1, ⟨.ptr, 0xE0000000000⟩)]) vc = true ∧ issuable s 0 vf .vflow = true ∧ tagsAre s vf [.ptr, .ptr, .ptr] = true ∧
    (s.now 0).ticket 2 = Ticket.free ∧ (smCodes 15).all (fun r => decide (((s.now 0).reg r).tag ≠ .pend)) = true := by decide +kernel

/-- A core of a binding with 1 MiB of press, and its thread 0 about to issue `w`. -/
def bcore : Core := { Core.reset with binding := some 0, press := 0x100000, descs := [(0, ⟨some dsc, 0⟩)] }
def bcpu (w : Word) (regs : FMap TReg) : State :=
  ((cpu w 3 regs).setCore 0 bcore).setBinding 0 { Binding.empty with live := true }

/-- `l` in consecutive words from `a`. -/
def words (s : State) (a : Nat) (l : List Word) : State := l.zipIdx.foldl (fun s w => s.writeNat 0 (a + 8 * w.2) 8 w.1.toNat) s

/-- A record of 64 INT8 elements at offset 64 (R168). -/
def recd (s : State) : State := words s 0xE0000000040 [0x10000000, 0, 0, 64, 1, 64]

theorem witness_DescriptorIssue :
    let td := lr 100 3 1 2 0 0 0 0
    let s := recd (bcpu td [(1, ⟨.ptr, 0x4000⟩), (2, ⟨.int, 64⟩)])
    let di := lr 101 3 1 0 0 0 0 0
    let g := lr 102 0 1 2 4 7 0 0
    let u := bcpu g [(1, ⟨.desc, hnd⟩), (2, ⟨.int, 0⟩), (4, ⟨.ptr, 0xE0000000000⟩)]
    issuable s 0 td .tdesc = true ∧ tagsAre s td [.ptr, .int] = true ∧ s.bindingOf 0 = some 0 ∧ 64 + 128 ≤ (s.core 0).press ∧
    (bcore.desc 1).live = none ∧ recordFault (s.readRecord 0 64) 0x4000 none 1 = none ∧ (bcore.desc 0).live.isSome = true ∧
    free (bcpu di [(1, ⟨.desc, hnd⟩)]) di = true ∧ (bcpu di []).handleDesc 0 3 hnd = some dsc ∧
    free (bcpu wRetire [(1, ⟨.desc, hnd⟩)]) wRetire = true ∧
    free u g = true ∧ tagsAre u g [.desc, .int, .ptr] = true ∧ queueDescFault u 0 dsc 0xE0000000000 1 1 false = none ∧
    queueDescFault u 0 dsc 0xE0000000000 1 1 true = none := by decide +kernel

theorem test_tdesc_mints :
    let td := lr 100 3 1 2 0 0 0 0
    (ans (exec (.tdesc 0 td) (recd (bcpu td [(1, ⟨.ptr, 0x4000⟩), (2, ⟨.int, 64⟩)])))).map (fun s =>
      ((s.thread 0).fixed.map (fun r => (r.dst, r.val)), ((s.core 0).desc 1).live.map (fun d => (d.fmt, d.base, d.rangeLen)))) =
    some ([(3, ⟨.desc, 0x80001⟩)], some (1, 0x4000, 64)) := by decide +kernel

theorem witness_CollectiveIssueAndTickets :
    let s := bcpu wClose [(1, ⟨.ptr, 0xE0000000040⟩)]
    let aw := lr 116 0 0 0 0 0 0 2
    let u := State.reset.setThread 0 { th aw 3 [] with tickets := [(1, ⟨[⟨.calc ⟨.int, 0⟩ 0, 0, [3]⟩], none⟩)] }
    free s wClose = true ∧ tagsAre s wClose [.ptr] = true ∧ s.inOwnPress 0 0xE0000000040 64 = true ∧
    issuable (cpu aw 3 []) 0 aw .await = true ∧ issuable u 0 aw .await = true ∧ ((u.now 0).ticket 1).ops ≠ [] ∧ ((u.now 0).ticket 1).fault = none ∧
    issuable (cpu wTkpoll 3 []) 0 wTkpoll .tkpoll = true := by decide +kernel

/-- A repetition of `add s3, s1, s2` with two iterations left, and one whose word is a branch. -/
def repOf (w : Word) (fresh : Bool) (regs : FMap TReg) : State :=
  State.reset.setThread 0 { th w 3 regs with rep := some ⟨0x38, lr 118 0 0 0 0 0 0 2, false, 2, fresh, true, none⟩ }

theorem witness_Repeats :
    let r := lr 118 0 0 0 0 0 0 0
    let i := lr 119 0 1 0 0 0 0 0
    let s := repOf wAdd true [(1, ⟨.int, 5⟩), (2, ⟨.int, 7⟩)]
    let u := repOf wSubI true [(1, ⟨.pred, 1⟩)]
    let ai := li 0x17 3 1 0 5
    issuable (cpu r 3 []) 0 r .rep = true ∧ ((cpu r 3 []).now 0).shadow = none ∧ issuable (cpu i 3 [(1, ⟨.int, 0⟩)]) 0 i .repi = true ∧
    s.mayRepeat 0 wAdd = true ∧ tagsAre s wAdd [.int, .int] = true ∧ (s.now 0).isPend 3 = false ∧ fieldsLegal (longFields wAdd) = true ∧
    (repOf ai true [(1, ⟨.pred, 1⟩)]).mayRepeat 0 ai = true ∧ opOf ai = .add ∧ (longFields ai).form = .li ∧ u.mayRepeat 0 wSubI = true ∧
    (repOf wBt true []).mayRepeat 0 wBt = true := by decide +kernel

theorem witness_ModesAndConfiguration :
    let m := lr 120 0 1 0 0 0 0 0
    let r := lr 121 3 0 0 0 0 0 0x0010
    let cw := lr 122 0 1 0 0 0 0 0x0011
    let t := lr 64 0 1 0 0 0 0 0
    let s := cpu t 3 [(1, ⟨.int, 0x01040040⟩)]
    issuable (cpu m 0 [(1, ⟨.int, 4⟩)]) 0 m .mset = true ∧ issuable (cpu (lr 123 0 0 0 0 0 0 0) 3 []) 0 (lr 123 0 0 0 0 0 0 0) .ifence = true ∧
    free (cpu r 0 []) r = true ∧ issuable (cpu cw 0 [(1, ⟨.int, 1⟩)]) 0 cw .csrw = true ∧ (csrInfo .t8 0x0011).map (·.1) = some 0 ∧ (csrInfo .t8 0x0010).map (·.1) = some 0 ∧
    issuable s 0 t .tcfg = true ∧ tcfgConsistent 0 0x01040040 = true ∧ shapeOf 0 ((s.core 0).cfg 0) ≠ shapeOf 0 0x01040040 ∧
    shapeOf 0 (tcore.cfg 0) = shapeOf 0 0x01040040 := by decide +kernel

theorem witness_CallsAndReturns :
    let e := lr 126 0 0 0 0 0 0 0
    let s := State.reset.setThread 0 { th e 3 [] with epc := ⟨.ptr, 0x40⟩, estat := { EStat.reset with prv := 3, sprv := 1, svi := true, msh := true, shcnt := 1 } }
    let n := lr 127 0 0 0 0 0 0 0
    issuable s 0 e .eret = true ∧ (s.now 0).epc.tag = .ptr ∧ (s.now 0).estat.svi = true ∧ (s.now 0).shadow = none ∧
    issuable (bcpu n []) 0 n .tend = true ∧ issuable (cpu (lr 124 0 0 0 0 0 0 0) 1 []) 0 (lr 124 0 0 0 0 0 0 0) .ecall = true ∧
    issuable (cpu (lr 125 0 0 0 0 0 0 9) 0 []) 0 (lr 125 0 0 0 0 0 0 9) .brk = true := by decide +kernel

/-! ### Witnesses: events of a thread, memory, engines -/

def thr (t : Thread) : State := State.reset.setThread 0 t
def run0 : Thread := { Thread.reset with run := .run }
def rstat (lvl : BitVec 2) : EStat := { EStat.reset with prv := lvl, svi := true }

theorem witness_ResultsAndReadiness :
    let t : Thread := { run0 with fixed := [⟨3, ⟨.int, 9⟩, 0, 1⟩, ⟨0x44, TReg.zero, 7, 0⟩], slot := 1 }
    let e := lr 126 0 0 0 0 0 0 0
    let r := lb 54 0 0 0
    let x := cpu e 3 []
    let o := lr 6 3 1 2 0 0 0 0
    let y := cpu o 3 [(1, ⟨.int, 1⟩), (2, ⟨.pend, 1⟩)]
    isRegCode 31 = true ∧ isRegCode codeLnk = true ∧ isRegCode 0x40 = false ∧ isVCode 0x44 = true ∧ t.fixed.all (fun q => decide (q.due ≤ t.slot)) = true ∧
    issuable (cpu r 3 []) 0 r .ret = true ∧ ((cpu r 3 []).now 0).lnk.tag = .inval ∧
    issuable x 0 e .eret = true ∧ (x.now 0).epc.tag = .inval ∧ (x.now 0).estat.svi = true ∧
    issuable y 0 o .orI = true ∧ (longFields o).form = .lr ∧ ((y.now 0).reg 2).tag = .pend := by decide +kernel

theorem test_results_commit :
    (((ans (exec (.fixedResultCommit 0) (thr { run0 with fixed := [⟨3, ⟨.int, 9⟩, 0, 1⟩, ⟨4, ⟨.int, 8⟩, 0, 2⟩], slot := 1 }))).map (fun s =>
      ((s.thread 0).reg 3, (s.thread 0).reg 4, (s.thread 0).fixed.length))) = some (⟨.int, 9⟩, TReg.reset, 1)) := by decide +kernel

/-- A thread whose ticket 1 holds one operation with destination `s3`. -/
def ticketed (k : TKind) (r : RunState) : State := thr { run0 with run := r, tickets := [(1, ⟨[⟨k, 0x10, [3]⟩], none⟩)] }

theorem witness_TicketEndsAndFaults :
    let s := ticketed (.calc ⟨.int, 5⟩ 0) .run
    let f := ticketed (.acc ⟨.load 8 false .int, 0x40, 0, 0, .failed 0x06 0x40⟩) (.park 2)
    let t := f.thread 0
    let aw := lr 116 0 0 0 0 0 0 2
    let u := thr { th aw 3 [] with tickets := [(1, ⟨[], some ⟨0x06, 0x40, 0x10, [3], false⟩⟩)] }
    (s.thread 0).repeating 1 = false ∧ ((s.thread 0).ticket 1).ops.length = 1 ∧ t.run = .park 2 ∧ t.trap = none ∧ (2 : BitVec 16).getLsbD 1 = true ∧
    issuable u 0 aw .await = true ∧ ((u.now 0).ticket 1).fault.isSome = true ∧ (u.now 0).rep = none ∧ (u.now 0).delay = none := by decide +kernel

theorem test_ticket_completes :
    (ans (exec (.ticketComplete 0 1) (ticketed (.calc ⟨.int, 5⟩ 0) (.park 0)))).map (fun s =>
      ((s.thread 0).reg 3, (s.thread 0).ticket 1, (s.thread 0).run)) = some (⟨.int, 5⟩, Ticket.free, .run) ∧
    (ans (exec (.ticketFault 0 1) (ticketed (.acc ⟨.load 8 false .int, 0x40, 0, 0, .failed 0x06 0x40⟩) .run))).map (fun s =>
      ((s.thread 0).ticket 1)) = some ⟨[], some ⟨0x06, 0x40, 0x10, [3], false⟩⟩ ∧
    (ans (exec (.tendComplete 0) (thr { run0 with ending := true }))).map (fun s => (s.thread 0).run) = some .idle := by decide +kernel

/-- Interrupt 0x20 is pending, enabled and the highest: TIME has passed PW_TCMP. -/
def timerSet : State := thr { run0 with tcmpEn := true, tcmp := 0, estat := { rstat 1 with imask := 1, ie := true } }

theorem witness_TrapAndInterruptRecognition :
    let s := timerSet
    let t := s.thread 0
    let u := { (thr { run0 with tcmpEn := true, tcmp := 5 }) with half0 := { Half.reset with stage := .ready } }
    (s.ipend 0).getLsbD 0 = true ∧ (s.ipend 0) = 1 ∧ t.estat.imask.getLsbD 0 = true ∧ t.estat.ie = true ∧ t.estat.exl = false ∧ t.run ≠ .idle ∧
    t.trap = none ∧ t.delay = none ∧ t.shadow = none ∧ (s.core 0).suspended = false ∧ (u.half 0).stage ≠ .off ∧ (u.half 0).time.toNat < 5 := by
  decide +kernel

theorem test_interrupt_is_taken :
    (ans (exec (.interruptTaken 0) timerSet)).map (fun s => (s.thread 0).trap.map (fun r => (r.cause, r.sync))) = some (some (0x20, false)) := by
  decide +kernel

/-- A recognised trap. -/
def trp (cause : Nat) : Trap := ⟨cause, 0x77, 0x1000, false, false, false, false, true, false⟩

/-- The address table of core 0 at the start of its press, with handler 0x8000 for cause 0x14 and a stack slot. -/
def tabled (lvl : BitVec 2) : State :=
  let s := ((thr { run0 with trap := some (trp 0x14), estat := rstat lvl }).setCore 0 { bcore with tvbase := 0xE0000000001 }).setBinding 0
    { Binding.empty with live := true }
  ((words (words s 0xE00000000A0 [0x8000]) 0xE0000000200 [0xE0000010000]).setTags 0xE00000000A0 8 2).setTags 0xE0000000200 8 2

theorem witness_TrapEntry :
    let s := tabled 1
    let u := tabled 0
    let sp : Word := 0xE000000FFF0
    s.tableBase 0 = some 0xE0000000000 ∧ s.poisoned 0xE00000000A0 8 = false ∧ s.tagAt 0xE00000000A0 = 2 ∧ (s.readWord 0xE00000000A0).toNat % 8 = 0 ∧
    (s.thread 0).regTickets = false ∧ (s.core 0).suspended = false ∧ (s.thread 0).shadow = none ∧ (s.thread 0).estat.exl = false ∧
    u.tagAt 0xE0000000200 = 2 ∧ u.readWord 0xE0000000200 - 16 = sp ∧ u.xlatQuick (u.bindingOf 0) (u.core 0).tcache 1 .wr sp = .pa 0xE000000FFF0 ∧
    physKind u 0xE000000FFF0 = .press 0 0xFFF0 := by decide +kernel

/-- An entry of the descriptor table at address 0 of HBM for cause 2, and the lantern entry. -/
def mtabled : State :=
  words (words (thr { run0 with trap := some (trp 2), estat := rstat 3 }) 0 [0x9000, 2]) 64 [0x8000, 2, 0, 0x803]

theorem witness_TrapEntry_at_M :
    let s := mtabled
    s.isHbm 64 = true ∧ s.poisoned 64 32 = false ∧ s.readNat 72 8 = 2 ∧ (s.readWord 64).toNat % 8 = 0 ∧ s.readWord 88 = BitVec.ofNat 64 (8 * 256 + 3) ∧
    (s.core 0).mtvdesc.toNat * 2 ^ 11 + 32 * 2 = 64 := by decide +kernel

theorem test_trap_entries :
    (ans (exec (.trapEntry 0 .ok) (tabled 1))).map (fun s => ((s.thread 0).pc, (s.thread 0).ecause.cause, (s.thread 0).etval, (s.thread 0).epc, (s.thread 0).estat.exl)) =
      some (0x8000, 0x14, 0x77, ⟨.ptr, 0x1000⟩, true) ∧
    (ans (exec (.trapEntry 0 .ok) (tabled 0))).map (fun s => ((s.thread 0).reg 30, (s.thread 0).estat.prv, (s.thread 0).estat.sprv, s.tagAt 0xE000000FFF0)) =
      some (⟨.ptr, 0xE000000FFF0⟩, 1, 0, 14) ∧
    (ans (exec (.trapEntry 0 .ok) mtabled)).map (fun s => ((s.thread 0).pc, (s.thread 0).estat.prv)) = some (0x8000, 3) := by decide +kernel

/-- The entry's handler is no PTR. -/
def lantern (lnta : Bool) : State :=
  (words (words (thr { run0 with trap := some (trp 2), estat := { rstat 3 with lnta := lnta } }) 0 [0x9000, 2]) 64 [0x8000, 0]).setCore 0
    { Core.reset with lanternSp := 0x1000 }

theorem witness_Lantern :
    let s := lantern false
    s.isHbm 64 = true ∧ s.readNat 72 8 ≠ 2 ∧ s.isHbm 0 = true ∧ s.readNat 8 8 = 2 ∧ (s.readWord 0).toNat % 8 = 0 ∧ s.isHbm 0xFFF0 = true ∧
    (s.thread 0).regTickets = false ∧ ((lantern true).thread 0).estat.lnta = true ∧ ((lantern true).thread 0).launch = none := by decide +kernel

/-- A load or store of ticket 1 in this phase. -/
def access (o : AccOp) (p : XPhase) : State := ticketed (.acc ⟨o, 0x1000, 0, 0, p⟩) .run

theorem witness_TableWalk :
    let s := words (access (.load 8 false .int) (.walk 0 0x8000)) 0x8008 [0xC000_0000_0000_5024]
    let ea := 0x8000 + 8 * (0x1000 / 2 ^ 12 % 512)
    let e := s.readWord ea
    ea = 0x8008 ∧ s.linkWait 0 ea = false ∧ s.poisoned ea 8 = false ∧ bitAt e 63 = true ∧ bitAt e 62 = true ∧ bitAt e 5 = true ∧ bitAt e 2 = true ∧
    fld e 44 18 = 0 ∧ fld e 6 6 = 0 ∧ fld e 0 2 = 0 ∧ s.isHbm (fld e 12 32 * 4096) = true := by decide +kernel

theorem test_walk_ends_at_a_leaf :
    (ans (exec (.translationWalkRead 0 1 .ok) (words (access (.load 8 false .int) (.walk 0 0x8000)) 0x8008 [0xC000_0000_0000_5024]))).map (fun s =>
      ((s.thread 0).ticket 1).ops.map (·.kind)) = some [.acc ⟨.load 8 false .int, 0x1000, 0, 0, .ready 0x5000⟩] := by decide +kernel

theorem witness_AccessesPerformed :
    let s := access (.load 4 true .int) (.ready 0x2000)
    let p := access .loadT (.ready 0xE0000000010)
    s.blocked 0 (s.thread 0) ⟨.load 4 true .int, 0x1000, 0, 0, .ready 0x2000⟩ 0x2000 = false ∧ s.linkWait 0 0x2000 = false ∧ s.isHbm 0x2000 = true ∧
    s.poisoned 0x2000 4 = false ∧ ({ s with poison := [0x40] } : State).poisoned 0x2000 4 = true ∧
    physKind p 0xE0000000010 = .press 0 0x10 ∧ p.poisoned 0xE0000000010 8 = false ∧ tagOfCode (p.tagAt 0xE0000000010).toNat = some .int := by decide +kernel

theorem test_loads_stores_and_amo :
    (ans (exec (.memAccessPerformed 0 1 .ok) (words (access (.load 4 true .int) (.ready 0x2000)) 0x2000 [0x8000_0001]))).map (fun s =>
      ((s.thread 0).ticket 1).ops.map (·.kind)) =
      some [.acc ⟨.load 4 true .int, 0x1000, 0, 0, .performed [⟨.int, 0xFFFF_FFFF_8000_0001⟩] []⟩] ∧
    (ans (exec (.memAccessPerformed 0 1 .ok) (access (.store 2 0x1234) (.ready 0x2000)))).map (fun s => s.mem) = some [(0x2000, 0x34), (0x2001, 0x12)] ∧
    (ans (exec (.memAccessPerformed 0 1 .ok) (words (access (.amo 8 0 false 5 0) (.ready 0x2000)) 0x2000 [7]))).map (fun s => s.mem) = some [(0x2000, 12)] := by
  decide +kernel

/-- A walk of an address that has waited at a half link that is not UP; a read of the other half's HBM. -/
theorem witness_CachesTransportAndHbm :
    let a := 384 * 2 ^ 30
    let s := access (.load 8 false .int) (.ready a)
    let h : Half := { Half.reset with hbms := [(0, { Stack.reset with lanes := [(3, List.replicate 15 0)] })] }
    s.isHbm 0 = true ∧ corePresent s.build 0 = true ∧ homeHalf s 0 = 0 ∧ homeHalf s a = 1 ∧ halfOfCore 0 = 0 ∧ (s.half 0).link ≠ .up ∧
    stackPresent s.build 0 = true ∧ stackOfGranule 0 = 0 ∧ (FMap.get [] (h.hbm 0).lanes 3).length = 15 ∧ 3 ∉ (h.hbm 0).marked := by decide +kernel

/-- A tile queue with one entry of ticket 1. -/
def tileQ (o : TileOp) (begun : Bool) (c : Core) : State :=
  (ticketed (.tile .waiting) .run).setCore 0 { c with tileQ := [⟨0, 1, 3, o, begun, []⟩] }

def heldT : Tile := ⟨true, [(0, 3)], [], [], none⟩
def heldB : Bank := ⟨true, 1, 1, 64, 16, [(0, 5)], []⟩
/-- A core that holds a tile with 3 in its first byte and a bank with 5 in its first cell. -/
def mcore : Core := { tcore with tiles := [(0, heldT)], banks := [(0, heldB)] }

theorem witness_TileQueueAndPasses :
    let s := thr { run0 with tickets := [(1, ⟨[⟨.tile .waiting, 0x10, []⟩], none⟩)] }
    let u := s.setCore 0 { mcore with tileQ := [⟨0, 1, 3, .store 0 cfgT { dsc with base := 0xC0000000000 } 0, false, []⟩] }
    ((s.thread 0).ticket 1).ops = [⟨.tile .waiting, 0x10, []⟩] ∧ (mcore.bank 0).hold = true ∧ (mcore.tile 0).hold = true ∧
    (match tileCheck u 0 ⟨0, 1, 3, .store 0 cfgT { dsc with base := 0xC0000000000 } 0, false, []⟩ with
      | .error (.code 0x0B _) => true
      | _ => false) = true ∧
    acfgMode cfgA = 1 ∧ cfgFmt cfgT = 1 ∧ heldB.k ≤ cfgRbytes cfgT ∧ heldB.n ≤ 128 ∧ 0 < cfgRows cfgT := by decide +kernel

theorem test_pass_adds_products :
    (ans (exec (.tileInstructionComplete 0) (tileQ (.mma 0 0 0 false true 7 cfgT cfgA heldB.shape) true mcore))).map (fun s =>
      (((s.core 0).tile 8).hold, ((s.core 0).tile 8).lanes, (s.core 0).tileQ.length)) = some (true, [(0, 15)], 0) := by decide +kernel

/-- A chain descriptor at 0xE0000000100: FP32 rows of 4 elements, one PACK stage to FP32 (R154-R156). -/
def chained (o : ChainOp) (begun : Bool) : State :=
  let s := (thr { run0 with tickets := [(1, ⟨[⟨.chain .waiting, 0x10, []⟩], none⟩)] }).setBinding 0 { Binding.empty with live := true }
  let s := words (words (s.setCore 0 bcore) 0xE0000000100 [0x4_6000_0001, 0, 0, 0, 0x7006_0000_0000_0000]) 0xE0000001000 [0x3F800000, 0x40000000]
  s.setCore 0 { bcore with chainQ := [⟨0, 1, 3, o, begun, s.mem⟩],
                           slots := [(1, ⟨true, 0x4_6000_0001, [⟨0x7006_0000_0000_0000, 0, 0, 0⟩], []⟩)] }

def flow1 : ChainOp := .flow 1 0xE0000001000 ⟨.ptr, 0xE0000002000⟩ none none 1 0 false

theorem witness_ChainQueue :
    let s := chained (.chain 0 0xE0000000100) true
    let u := chained flow1 true
    (match validateChain s 0 0xE0000000100 with
      | .ok v => v.valid && decide (v.hdr = 0x4_6000_0001) && decide (v.stages.length = 1)
      | _ => false) = true ∧
    s.inOwnPress 0 0xE0000000100 256 = true ∧ (FMap.get ChainSlot.empty (s.core 0).slots 0).valid = false ∧
    (match flowPlan u u 0 ⟨0, 1, 3, flow1, true, []⟩ 1 0xE0000001000 ⟨.ptr, 0xE0000002000⟩ none none 1 0 with
      | .ok p => p.desc.isNone && p.rows.all (fun w => w.notes.isEmpty)
      | _ => false) = true := by decide +kernel

theorem test_flow_writes_its_row :
    (ans (exec (.vflowComplete 0) (chained flow1 true))).map (fun s => (s.readWord 0xE0000002000, s.readWord 0xE0000002008)) =
      some (0x3F800000, 0x40000000) := by decide +kernel

/-- A gather of one row of `dsc` into the press. -/
def gath (ga : Bool) (d : Desc) : State :=
  words (((thr { run0 with tickets := [(1, ⟨[⟨.desc .waiting, 0x10, []⟩], none⟩)] }).setCore 0
    { bcore with descQ := [⟨0, 1, 3, ga, d, 0, 0xE0000003000, 1, 1⟩] }).setBinding 0 { Binding.empty with live := true })
    0x2000 [0x0807060504030201]

def smallD : Desc := { dsc with cd1 := 0, rk1 := 0, dims := [⟨1, 8, 0, 0⟩], free := true }

theorem witness_GathersAndScatters :
    let s := gath true smallD
    let e : DescEntry := ⟨0, 1, 3, true, smallD, 0, 0xE0000003000, 1, 1⟩
    let isOk := match gatherData s 0 e with
      | .ok (b, n, _) => decide (b = [1, 2, 3, 4, 5, 6, 7, 8] ∧ n = 0)
      | _ => false
    let sc := match scatterPlan (gath false smallD) 0 { e with gather := false } with
      | .ok (ws, sc, n) => decide (ws.length = 8 ∧ sc = [] ∧ n = 0)
      | _ => false
    let far := match gatherData s 0 { e with d := { smallD with base := 0xC0000000000 } } with
      | .error (.xlat _) => true
      | _ => false
    isOk = true ∧ sc = true ∧ far = true ∧ (s.core 0).suspended = false := by decide +kernel

theorem test_gather_fills_its_buffer :
    (ans (exec (.descriptorQueueExecute 0 .ok) (gath true smallD))).map (fun s => s.readWord 0xE0000003000) = some 0x0807060504030201 := by
  decide +kernel

/-! ### Witnesses: fabric, halves, power -/

/-- A half that runs, with its stacks trained. -/
def halfUp : Half :=
  { Half.reset with stage := .ready, pwrEn := true, pgood := true, link := .up, hbms := (List.range 8).map (fun i => (i, { Stack.reset with state := 1 })) }
def mod : State := { State.reset with half0 := halfUp, half1 := halfUp, devid := 5, devValid := true, vin := 48000 }
def portUp : Port := { Port.reset with state := .up, lmask := 0b01111, spare := 4, credits := [(0, 66), (1, 66), (2, 66), (3, 66)] }
def flit (good : Bool) (seq ack : BitVec 12) (l : List Byte) : Flit := ⟨seq, ack, false, 1, 2, good, 2, l⟩
/-- The packets of a flit. -/
def carried (f : Flit) : List Packet := (takePackets 30 f.content).1
/-- A packet of this type from device 9 binding 3 to device 5 binding 1. -/
def pkt (t : PType) (body : Payload) : Packet :=
  Packet.sealed { ddev := 5, sdev := 9, dbind := 1, sbind := 3, ptype := t, hidx := 1, path := 0, cong := false, hops := [8], rw2 := 0, psn := 0,
                  xtag := 0, ecrc := 0, body := body }
def onPort (x : Port) : State := mod.setPort 9 x
def arrived (k : Packet) : State := onPort { portUp with rxQ := [k] }

theorem witness_FlitProtocol :
    let x := { portUp with laneErr := [(2, List.replicate 15 0)], replayBuf := [flit true 4 0 [], flit true 5 0 []] }
    let s := onPort x
    (s.port 9).state = .up ∧ (s.port 9).retraining = false ∧ (s.port 9).outQ = [] ∧ (FMap.get [] x.laneErr 2).length = 15 ∧ (flit false 0 5 []).lane < 5 ∧
    x.laneErr.all (fun e => e.2.all (fun t => decide ((s.half 0).time.toNat < t + 25000000))) = true ∧ (flit true 0 5 []).seq = x.rxSeq ∧
    (flit true 1 5 []).seq ≠ x.rxSeq ∧ x.spare.toNat = 4 ∧ x.nextLane = 0 ∧ x.lmask.getLsbD 0 = true := by decide +kernel

theorem test_flits :
    (ans (exec (.fabricFlitReceive 9 (flit true 0 5 (pkt .data (.bytes [7])).bytes)) (onPort { portUp with replayBuf := [flit true 4 0 [], flit true 5 0 [], flit true 6 0 []] }))).map
      (fun s => ((s.port 9).rxSeq, (s.port 9).rxQ, (s.port 9).replayBuf.map (·.seq), FMap.get 0 (s.port 9).credits 1)) = some (1, [pkt .data (.bytes [7])], [6, 0], 68) ∧
    (ans (exec (.fabricFlitReceive 9 (flit false 0 5 [])) (onPort portUp))).map (fun s => ((s.port 9).wire.map (·.nak), (s.port 9).rxSeq)) = some ([true], 0) := by
  decide +kernel

def hel (d : BitVec 20) (v : Bool) (p : BitVec 5) : Hello := ⟨d, v, p, 0, 0, 7, 0⟩

theorem witness_PortStates :
    let s := onPort { Port.reset with state := .training }
    let u := arrived (pkt .link (.hello (hel 4 true 9)))
    (s.port 9).state = .training ∧ (s.half 0).linkable = true ∧ s.hbmTrained 0 = true ∧ (s.port 9).outQ = [] ∧
    ((List.range 5).filter (fun l => (0b11101 : BitVec 5).getLsbD l)).length = 4 ∧ (u.port 9).rxQ.length = 1 ∧ u.devValid = true ∧
    fld (4 : BitVec 20) 2 18 = fld u.devid 2 18 ∧ fld (4 : BitVec 20) 0 2 = fld u.devid 0 2 ^^^ (9 - 8) ∧ (9 : BitVec 5).toNat = 8 + (9 - 8) ∧
    (onPort { portUp with outQ := [pkt .data .none] }).half 0 = halfUp := by decide +kernel

theorem test_quad_check :
    (ans (exec (.helloReceive 9) (arrived (pkt .link (.hello (hel 4 true 9)))))).map (fun s => ((s.port 9).state, (s.port 9).ndev)) = some (.up, 4) ∧
    (ans (exec (.helloReceive 9) (arrived (pkt .link (.hello (hel 6 true 9)))))).map (fun s => (s.port 9).state) = some .miswired ∧
    (ans (exec (.portTrainingComplete 9 0b11101) (onPort { Port.reset with state := .training }))).map (fun s => ((s.port 9).state, (s.port 9).lmask, (s.port 9).spare)) =
      some (.linkOnly, 0b11101, 7) := by decide +kernel

/-- A partner entry of binding 1 for device 9 binding 3, with two paths. -/
def prt : Partner := ⟨true, 1, 3, 9, 1, false, 2, [[9, 8], [10, 8]]⟩
def withPartner (s : State) : State :=
  (({ s with half0 := { s.half0 with partners0 := [(0, prt)] }, half1 := { s.half1 with partners0 := [(0, prt)] } }).setBinding 1
    { Binding.empty with live := true, ranges := [(0, 1)] })
def outMsg : OutMsg := ⟨1, 0, .data, 0, 0, .none⟩

theorem witness_PathsAndPackets :
    let s := withPartner ((onPort portUp).setHalf 0 { halfUp with eng := { Engine.reset with outbox := [outMsg] } })
    let x := s.partner 0 1 0
    let k := { pkt .data .none with hops := [9, 10, 8] }
    let u := (arrived k).setPort 10 portUp
    let key : FlowKey := ⟨1, 9, 3, .dataGreq⟩
    let v := { mod with flows := [{ (mod.flow key) with unacked := [(pkt .data .none, 3)] }] }
    x = prt ∧ s.choosePath 0 x (s.flow key) = some (0, [9, 8]) ∧ s.pathUsable 9 [10, 8] = false ∧ (s.flow key).unacked.length < 256 ∧ s.hopHeld 0 [9, 8] = false ∧
    k.hops[k.hidx]? = some 10 ∧ portHalf 10 = portHalf 9 ∧ (u.port 10).outQ = [] ∧
    (v.flow key).unacked.find? (fun e => decide (e.1.psn.toNat = 0)) = some (pkt .data .none, 3) := by decide +kernel

/-- The request of a gather that this device waits for, sent three times. -/
theorem witness_PathsAndPackets_given_up :
    let q := pkt .greq (.greq (.gather 5 0 1 false 7))
    let m : CollCmd := ⟨.gather, 0, 1, 1, 0xE0000000040, 3, []⟩
    let ga : Gather := ⟨m, 7, true, 5, 1, none, 0, 0, 0, []⟩
    let key : FlowKey := ⟨1, 9, 3, .dataGreq⟩
    let v := { mod with half0 := { halfUp with eng := { Engine.reset with gathers := [ga] } }, flows := [{ (mod.flow key) with unacked := [(q, 3)] }] }
    idHalf 7 = 0 ∧ ((v.flow key).unacked.find? (fun e => decide (e.1.psn.toNat = 0))).map (fun e => (e.1.ptype, e.1.body, e.2)) = some (.greq, q.body, 3) ∧
    (v.engine 0).gathers.find? (fun y => y.id == 7 && decide (y.cmd.b = key.local') && y.live) = some ga := by decide +kernel

theorem test_injection :
    (ans (exec (.packetInject 0 0) (withPartner ((onPort portUp).setHalf 0 { halfUp with eng := { Engine.reset with outbox := [outMsg] } })))).map (fun s =>
      ((s.flow ⟨1, 9, 3, .dataGreq⟩).nextPsn, (s.half 0).eng.outbox.length, (s.port 9).replayBuf.map (fun f => (carried f).map (·.hidx)))) =
      some (1, 0, [[1]]) := by decide +kernel

theorem witness_FlowDelivery :
    let s := withPartner (arrived (pkt .data .none))
    let key : FlowKey := ⟨1, 9, 3, .dataGreq⟩
    let f := s.flow key
    (s.partnerNo 0 1 9 3).isSome = true ∧ (pkt .data .none).hops.length ≤ 1 ∧ f.expPsn = 0 ∧ f.held = [] ∧ (255 - f.expPsn : BitVec 16).toNat < 256 ∧
    (256 - f.expPsn : BitVec 16).toNat = 256 ∧ ((withPartner (arrived (pkt .data .none))).partnerNo 0 1 9 4).isSome = false ∧
    (let g := s.setBinding 1 { s.binding 1 with grants := [(0, [2])] }
     (g.grantOf 0 1 9 3).any (fun x => decide (x * 2 ^ 30 ≤ 2 ^ 31) && decide (2 ^ 31 + 8 ≤ (x + 1) * 2 ^ 30)) = true) ∧
    (let u := { s with flows := [{ f with sinceAck := 1 }], cores := [] }
     (u.flow key).sinceAck ≠ 0 ∧ u.choosePath 0 (u.partner 0 1 0) (u.flow key) = some (0, [9, 8])) := by decide +kernel

def bkey : BeaconKey := ⟨9, 3, 1, 1, 1⟩
def bcn : Packet := Packet.sealed { pkt .beacon (.beacon 1 9 1) with rw2 := BitVec.ofNat 64 (9 * 2 ^ 44 + 3 * 2 ^ 28), hops := [], hidx := 14 }

theorem witness_Beacons :
    let s := (arrived bcn).setPort 10 portUp
    let u := { s with half0 := { halfUp with keyTable := [bkey] } }
    let r : Ring := { Ring.reset with evqEn := true }
    let v := { mod with half0 := { halfUp with keyTable := [bkey], rings := [(0, r)] } }
    (s.half 0).keyTable.length < 1024 ∧ (s.port 10).state = .up ∧ bcn.hidx < 15 ∧ BitVec.ofNat 20 (fld bcn.rw2 44 20) = bkey.odev ∧
    BitVec.ofNat 16 (fld bcn.rw2 28 16) = bkey.unit ∧ (u.half 0).keyTable = [bkey] ∧ v.evqOn = true ∧ (v.half 0).keyTable[0]? = some bkey := by
  decide +kernel

theorem test_beacon_is_forwarded :
    (ans (exec (.beaconReceive 9) ((arrived bcn).setPort 10 portUp))).map (fun s =>
      ((s.half 0).keyTable, (s.port 10).replayBuf.map (fun f => (carried f).map (·.hidx)))) = some ([bkey], [[15]]) := by decide +kernel

def beat (e : Word) (p : PState) (senior : Bool) : Heartbeat := ⟨e, p, false, senior, 1, 4, 0⟩
def heard (mine : PState) (b : Heartbeat) : State := mod.setHalf 1 { halfUp with pstate := mine, epoch := 3, hbIn := [b] }

theorem witness_Primacy :
    let s := heard .split (beat 4 .split false)
    s.linkUp = true ∧ (s.half 1).ready = true ∧ (s.half 1).lastHseq.getD 0 < 4 ∧ (s.half 1).leftReset = false ∧ (s.half 0).leftReset = false ∧
    (s.half 1).flash.image.version % 2 ^ 32 = 1 ∧ (s.half 1).epoch.toNat < 4 ∧ (s.half 1).solo = false ∧
    ((heard .follower (beat 4 .split false)).half 1).pstate ≠ .split := by decide +kernel

theorem test_primacy :
    (ans (exec (.heartbeatReceive 1 true) (heard .split (beat 4 .split false)))).map (fun s => (s.half 1).pstate) = some .follower ∧
    (ans (exec (.heartbeatReceive 1 true) (heard .split (beat 3 .split false)))).map (fun s => ((s.half 1).pstate, (s.half 1).epoch)) = some (.primary, 4) ∧
    (ans (exec (.heartbeatReceive 1 true) (heard .split (beat 3 .split true)))).map (fun s => (s.half 1).pstate) = some .follower ∧
    (ans (exec (.heartbeatTimeout 1) (heard .primary (beat 3 .split true)))).map (fun s => ((s.half 1).pstate, (s.half 1).event)) = some (.split, 9) := by
  decide +kernel

theorem witness_HalfLink :
    let t := { mod with half0 := { halfUp with link := .training }, half1 := { halfUp with link := .training } }
    mod.linkUp = true ∧ (mod.half 0).linkTries < 3 ∧ 3 ≤ ({ halfUp with linkTries := 3 } : Half).linkTries ∧ corePresent mod.build 511 = true ∧
    t.half0.link = .training ∧ t.linkUp = false ∧ t.half0.linkable = true ∧ t.half1.linkable = true ∧ t.hbmTrained 0 = true ∧ t.hbmTrained 1 = true := by
  decide +kernel

/-- A command of function `f` with opcode `opc` and bytes 40 on of its entry. -/
def cmdOf (f opc : Nat) (p : CmdPhase) (args buf : List Byte) : Cmd :=
  { func := f, seq := 0, jseq := 0, opc := opc, entry := List.replicate 40 0 ++ args, buf := buf, phase := p, solo := false, half := 0, status := 0,
    unit := 0, detail := 0, result := [] }
def cqOn : Ring := { Ring.reset with sqEn := true, cqEn := true, tail := 1 }
/-- A module with this command, its rings enabled, half 0 PRIMARY. -/
def commanded (c : Cmd) : State :=
  { mod with half0 := { halfUp with pstate := .primary, rings := [(c.func, cqOn)] }, half1 := { halfUp with pstate := .follower }, cmds := [c] }

theorem witness_Mirror :
    let c := cmdOf 1 1 .journalled [] []
    let s := commanded c
    let u := (s.setHalf 0 { s.half0 with ackIn := [0], journal := [0] }).setHalf 1 { s.half1 with journal := [0] }
    let v := s.setHalf 1 { s.half1 with journalIn := [0] }
    let w := (commanded { c with phase := .running }).setHalf 0 { s.half0 with compIn := [(1, 0)] }
    u.linkUp = true ∧ (u.half 0).ready = true ∧ u.cmds.find? (fun c => decide (c.jseq = 0)) = some c ∧ c.auth = false ∧ ((u.half 0).ring 1).cqEn = true ∧ u.cmds = [c] ∧ 0 ∈ u.half0.journal ∧ 0 ∈ u.half1.journal ∧
    (v.half 1).journalIn = [0] ∧ 0 ∉ (v.half 1).journal ∧ (w.half 0).compIn = [(1, 0)] ∧ (w.cmd 1 0).isSome = true := by decide +kernel

theorem test_mirror_accepts :
    (let s := commanded (cmdOf 1 1 .journalled [] [])
     (ans (exec (.journalAckReceive 0) ((s.setHalf 0 { s.half0 with ackIn := [0], journal := [0] }).setHalf 1 { s.half1 with journal := [0] }))).map (fun s =>
      (s.cq.map (fun r => (r.kind, r.func, r.seq, r.slot)), s.cmds.map (·.phase), (s.binding 0).mirror))) =
      some ([(.accept, 1, 0, 0)], [.accepted], some 0) := by decide +kernel

/-- A `NOP` entry of SEQ 0 with a final record wanted nowhere: all bytes zero but the opcode. -/
def nopEntry : List Byte := List.replicate 7 0 ++ [1] ++ List.replicate 120 0

theorem witness_Rings :
    let s := ({ (commanded (cmdOf 1 1 .final [] [])) with cmds := [] }).setBinding 0 { Binding.empty with live := true }
    (s.half 0).ready = true ∧ ((s.half 0).ring 1).sqEn = true ∧ ((s.half 0).ring 1).head < ((s.half 0).ring 1).tail ∧ (s.half 0).pstate = .primary ∧
    s.validate 0 1 nopEntry [] = none ∧ (s.half 0).solo = false ∧ bitAt (BitVec.ofNat 64 (bytesAt nopEntry 0 8)) 55 = false ∧
    (mod.half 0).ready = true ∧ ((mod.half 0).ring 64).sqEn = false ∧ ((mod.half 1).ring 64).evqEn = false := by decide +kernel

theorem witness_PowerLoops :
    let s := mod.setHalf 0 (halfUp.setDie 0 { Die.reset with tripped := true, trips := List.replicate 63 0 })
    diePresent s.build 0 = true ∧ (s.half 0).stage ≠ .off ∧ ((s.half 0).die 0).tripped = true ∧ ((mod.half 0).die 0).tripped = false ∧
    (((s.half 0).die 0).trips.filter (fun t => decide ((s.half 0).time.toNat < t + 25000))).length + 1 = 64 := by decide +kernel

theorem test_loops :
    (ans (exec (.coreFrequencyLoop 0 ⟨1500, 1412, 1600, 1600, 800, 70⟩) mod)).map (fun s => (((s.half 0).die 0).freq, ((s.half 0).die 0).lim)) = some (1400, 8) ∧
    (ans (exec (.thermalLoop 0 106) mod)).map (fun s => (((s.half 0).die 0).freq, (s.half 0).pwEvent)) = some (1175, 4) ∧
    (ans (exec (.thermalTrip 0) mod)).map (fun s => (((s.half 0).die 0).freq, ((s.half 0).die 0).tripped, (s.half 0).pwEvent)) = some (600, true, 8) ∧
    (ans (exec (.vinWarning 41999) mod)).map (fun s => ((s.half 0).pwEvent, (s.half 1).pwEvent)) = some (16, 16) ∧
    (ans (exec (.vinLossTimeout 40000) mod)) = some mod := by decide +kernel

/-- A half that boots with PWR_EN, and one that trains. -/
def booting : State := { State.reset with half0 := { Half.reset with stage := .boot, pwrEn := true }, half1 := { halfUp with stage := .train } }

theorem witness_PowerUp :
    let s := booting
    let good : Bool := decide (Config.keyRevoked 0 = false)
    let bad : Flash := { Flash.shipped with bankA := { Image.shipped with sigOk := false }, bankB := { Image.shipped with key := 9 } }
    State.reset.half0.stage = .off ∧ State.reset.half1.stage = .off ∧ (s.half 0).inReset = false ∧ (s.half 0).keeper0 ≠ .out ∧
    (good = true → imageOk Flash.shipped Image.shipped = true) ∧ imageOk bad bad.bankA = false ∧ imageOk bad bad.bankB = false ∧
    stackPresent s.build 0 = true ∧ (({ s with half0 := { halfUp with hbms := [] } } : State).half 0).linkable = true ∧ (Stack.reset).state = 0 ∧
    (s.half 1).stage = .train ∧ s.hbmTrained 1 = true ∧ halfUp.pgood = true ∧ halfUp.pwrEn = true := by
  refine ⟨rfl, rfl, rfl, by decide, fun h => ?_, rfl, rfl, rfl, rfl, rfl, rfl, by decide, rfl, rfl⟩
  have := of_decide_eq_true h
  simp [imageOk, Flash.shipped, Image.shipped, this]

theorem test_power_up :
    (ans (exec (.powerUp 48000) State.reset)).map (fun s => ((s.half 0).stage, s.vin, (s.half 0).pstate)) = some (.waitEn, 48000, .split) ∧
    (ans (exec (.pwrEnHigh 0) { State.reset with vin := 48000, half0 := { Half.reset with stage := .waitEn } })).map (fun s => (s.half 0).stage) = some .boot ∧
    (ans (exec (.kuwickReady 1) booting)).map (fun s => (s.half 1).stage) = some .ready := by decide +kernel

theorem witness_Resets :
    let s := mod
    let p := mod.setHalf 0 { halfUp with pin := true, inReset := true }
    let k := mod.setHalf 0 { halfUp with keeper0 := .booting, keeper1 := .active }
    let n := mod.setHalf 0 { halfUp with keeper0 := .out, keeper1 := .booting }
    let m := { mod with half0 := { halfUp with inReset := true, promote := true }, half1 := { halfUp with inReset := true, promote := true } }
    (s.half 0).stage = .ready ∧ (s.half 0).keeper0 = .active ∧ (s.half 0).keeper1 = .standby ∧ (p.half 0).pin = true ∧ (k.half 0).keeper1 = .active ∧
    (n.half 0).keeper0 ≠ .active ∧ m.half1.promote = true ∧ s.cmds.all (fun c => decide (c.func ≠ 64)) = true ∧
    KeySlot.mk (some []) 0 0 0 ≠ KeySlot.empty := by decide +kernel

theorem test_half_reset :
    (ans (exec (.halfReset 0 1000) (mod.setHalf 0 { halfUp with time := 77, epoch := 9, event := 3 }))).map (fun s =>
      ((s.half 0).time, (s.half 0).epoch, (s.half 0).event, (s.half 0).pin, (s.half 1).stage)) = some (77, 9, 0, true, .ready) ∧
    (ans (exec (.halfReset 0 499) mod)) = some mod := by decide +kernel

theorem witness_Management :
    let r := mod.setHalf 0 { halfUp with stage := .recovery }
    let k := mod.setHalf 0 { halfUp with keys := [(0, ⟨some [], 0, 0, 0⟩)] }
    (mod.half 0).stage ≠ .off ∧ (mod.half 0).stage ≠ .recovery ∧ (r.half 0).stage = .recovery ∧ ((k.half 0).key 0).key.isSome = true ∧
    ((mod.half 0).key 0).key = none ∧ (mod.half 0).pin = false ∧ ((mod.setHalf 0 { halfUp with pin := true }).half 0).pin = true := by decide +kernel

/-! ### Witnesses: collectives -/

/-- A command record with these bytes; the rest is zero. -/
def recBytes (l : List (Nat × Byte)) : List Byte := (List.range 64).map (fun i => FMap.get 0#8 l i)
def coll (o : CollOp) (l : List (Nat × Byte)) : CollCmd := ⟨o, 0, 1, 1, 0xE0000000040, 3, recBytes ((0, 5) :: (16, 7) :: l)⟩
/-- A group of two members, this one the owner and member 0, with step 7 open. -/
def grp : Group := ⟨1, 250, 16, 1, 0, [⟨1, 1, 0⟩, ⟨1, 1, 0⟩], [⟨64, 0⟩, ⟨64, 1⟩], some (7, 0), true⟩
/-- A BUCKET of 64 FP32 elements summed with ALL into FP32 (R247). -/
def bkt : CollCmd := coll .bucket [(25, 0x20), (41, 0x30), (48, 64), (52, 0x66), (53, 8)]
def engineOf (e : Engine) (k : Core) : State :=
  withPartner (({ mod with half0 := { halfUp with eng := e } }).setCore 0 { k with binding := some 1 })
def grouped (g : Group) (c : CollCmd) : State :=
  (engineOf { Engine.reset with groups := [(5, some g)] } { Core.reset with collQ := [c] }).setThread 0
    { run0 with tickets := [(1, ⟨[⟨.coll .waiting, 0x10, []⟩], none⟩)] }

theorem witness_OpeningAnEpoch :
    let m := coll .openE []
    let s := grouped { grp with epoch := some (6, 255), opened := false } m
    (s.core 0).collQ = [m] ∧ (s.engine 0).inFlight < 4096 ∧ m.step = 7 ∧ m.attempt = 0 ∧ m.gid = 5 ∧ (s.group 0 1 5).isSome = true ∧ grp.me.role ≠ 2 := by
  decide +kernel

theorem test_opening :
    (ans (exec (.collectiveSlotDequeue 0) (grouped { grp with epoch := some (6, 255) } (coll .openE [])))).map (fun s =>
      (s.readNat 0xE0000000048 8, (s.group 0 1 5).map (fun g => (g.epoch, g.opened)))) = some (1, some (some (7, 0), true)) ∧
    (ans (exec (.collectiveSlotDequeue 0) (grouped grp (coll .openE [])))).map (fun s => s.readNat 0xE0000000048 8) = some 6 := by decide +kernel

theorem witness_CollectiveCommands :
    let s := grouped grp bkt
    let r := bucketReq grp bkt
    let pub := coll .publish [(28, 1)]
    let gat := coll .gather [(24, 1), (37, 0xE), (33, 0x10), (45, 0xE), (41, 0x20)]
    let pst := coll .recv [(24, 1), (28, 3), (40, 8)]
    (s.core 0).collQ = [bkt] ∧ r.ok = true ∧ r.all = true ∧ s.endedStatus 5 7 0 r.bseq = none ∧ s.findBucket 5 7 0 r.bseq = none ∧
    publishOk grp pub = true ∧ (grp.parts.getD pub.shard ⟨0, 0⟩).owner = grp.self ∧ s.publishedOf 1 5 0 = none ∧
    gat.shard = 1 ∧ gat.dst % 64 = 0 ∧ gat.std % 16 = 0 ∧ pst.peer = 1 ∧ pst.tag < 2 ^ 16 ∧ pst.nbytes = 8 ∧
    (grp.parts.getD 1 ⟨0, 0⟩).owner ≠ grp.self := by decide +kernel

theorem witness_CollectiveCommands_close_and_gather :
    let g := { grp with self := 1 }
    let gat := coll .gather [(24, 0), (37, 0xE), (33, 0x10), (45, 0xE), (41, 0x20)]
    let b : Bucket := { Bucket.placeholder 5 7 0 0 with cmd := some bkt }
    let s := engineOf { Engine.reset with groups := [(5, some g)], buckets := [b] } { Core.reset with collQ := [coll .close []] }
    let u := (grouped g gat).setCore 0 { ((grouped g gat).core 0) with press := 0x100000 }
    g.me.role = 1 ∧ g.self < g.members.length ∧ (s.core 0).collQ = [coll .close []] ∧ (s.engine 0).buckets.all (fun b => b.cmd.isSome) = true ∧
    (s.engine 0).closes = [] ∧ u.inOwnPress 0 gat.std 16 = true ∧ u.inOwnPress 0 gat.dst 0 = true ∧ gat.field 28 4 = 0 := by decide +kernel

def run1 (b : Bucket) (g : Group) : State := engineOf { Engine.reset with groups := [(5, some g)], buckets := [b] } Core.reset
def queued : Bucket := { Bucket.placeholder 5 7 0 0 with cmd := some bkt }

theorem witness_CollectiveEvents :
    let s := run1 queued grp
    let x := s.liveRun 0 0
    let e := s.engine 0
    let post : Post := ⟨coll .recv [(24, 1), (28, 3), (40, 8)], 7, 0, 5, 1, 3, 0, 8, none, 0, []⟩
    let u := { s with half0 := { s.half0 with eng := { e with closes := [⟨some (coll .close []), 5, 7, 0, true, [], []⟩], posts := [post],
                                                              gathers := [⟨coll .gather [], 3, true, 5, 1, none, 0, 0, 0, []⟩], publishes := [coll .publish [(28, 1)]], closed := [(5, 7)] } } }
    (x.map (fun r => (r.k.phase, r.mismatch, r.r.rop, r.r.nblk, r.ownBlocks))) = some (.queued, false, 0, 1, [0]) ∧
    (match x with
      | some r => (match (r.contribs s).1 with
        | .ok _ => true
        | _ => false)
      | none => false) = true ∧
    (u.engine 0).closes.length = 1 ∧ (u.group 0 1 5).isSome = true ∧ post.peer ≠ grp.self ∧ (u.engine 0).gathers.length = 1 ∧ u.publishedOf 1 5 0 = none := by
  decide +kernel

/-- The owner of a bucket enters its own exponents and waits for the other member's. -/
theorem test_bucket_dequeue :
    (ans (exec (.bucketDequeue 0 0) (run1 queued grp))).map (fun s => (s.engine 0).buckets.map (fun b => (b.phase, (b.expOf 0).2, b.agreedAt 0))) =
      some [(.exponent, 1, none)] := by decide +kernel

theorem test_window_expires :
    (ans (exec (.bucketWindowExpiry 0 0) (run1 { queued with phase := .exponent, heard := [1] } grp))).map (fun s =>
      (s.readNat 0xE0000000048 8, (s.engine 0).buckets.length, (s.engine 0).outbox.map (·.body))) = some (4, 0, [.verdict 5 0 (.bucket 4)]) := by decide +kernel

def subh (owner : Nat) : SubHdr := ⟨5, 0, 0, 1, 1, owner⟩
def received (k : Packet) (e : Engine) : State :=
  (engineOf { e with groups := [(5, some grp)] } Core.reset).setPort 9 { portUp with rxQ := [Packet.sealed { k with rw2 := 7 }] }

theorem witness_CollectiveReceives :
    let s := received (pkt .exp (.exps (subh 0) 0 64 0 [3])) Engine.reset
    (s.port 9).rxQ.length = 1 ∧ s.group 0 1 5 = some grp ∧ (subh 0).owner = grp.self ∧ (subh 1).owner ≠ grp.self ∧ s.endedStatus 5 7 0 0 = none ∧
    (s.engine 0).buckets = [] ∧ (s.engine 1).buckets = [] ∧ s.memberOf 0 1 grp 9 3 = some 1 ∧ (s.flow ⟨1, 9, 3, .verdict⟩).expPsn = 0 ∧
    s.partnerNo 0 1 9 3 = some 0 ∧ (s.binding 1).stop = false ∧ (s.engine 0).posts = [] := by decide +kernel

theorem test_exponents_and_verdicts :
    (ans (exec (.expReceive 9) (received (pkt .exp (.exps (subh 0) 0 64 0 [3])) Engine.reset))).map (fun s =>
      (s.engine 0).buckets.map (fun b => (b.expOf 0, b.heard))) = some [((3, 1), [1])] ∧
    (ans (exec (.verdictReceive 9) (received (pkt .verdict (.verdict 5 0 (.bucket 3))) Engine.reset))).map (fun s => s.endedStatus 5 7 0 0) = some (some 3) ∧
    (ans (exec (.rollbackNoticeReceive 9) (received (pkt .verdict (.verdict 5 0 (.rollback 1))) Engine.reset))).map (fun s => (s.binding 1).stop) = some true := by
  decide +kernel

/-! ### Witnesses: commands, registers, recovery -/

def started (f opc : Nat) (args buf : List Byte) : State :=
  (commanded (cmdOf f opc .accepted args buf)).setBinding 0 { Binding.empty with live := true, groups := 2, ranges := [(0, 4)] }
def mayStart (f opc : Nat) (args buf : List Byte) : Bool := ((started f opc args buf).toStart f 0 opc).isSome

theorem witness_BindingCommands :
    let l := cmdOf 1 3 .accepted (List.replicate 8 0 ++ (List.replicate 8 0 ++ (List.replicate 8 0 ++ [1, 0, 1, 12]))) [1]
    let s := started 1 3 (l.entry.drop 40) l.buf
    let r := (commanded { l with phase := .running }).setBinding 0 { Binding.empty with live := true }
    let q := { (started 1 4 [] []) with cmds := [cmdOf 1 3 .accepted [] [], { (cmdOf 1 4 .accepted [0] []) with seq := 1, jseq := 1 }] }
    let e := commanded (cmdOf 1 1 .ended [] [])
    mayStart 1 1 [] [] = true ∧ mayStart 1 2 [2] [] = true ∧ (s.toStart 1 0 3).isSome = true ∧ l.launchList = [0] ∧
    (r.cmd 1 0).isSome = true ∧ r.launchHalf l = r.posterOf l ∧ (r.thread 0).run = .idle ∧
    (q.cmd 1 0).map (·.seq) = some 0 ∧ (e.half (e.posterOf (cmdOf 1 1 .ended [] []))).ready = true ∧ ((e.half 0).ring 1).cqEn = true ∧ (e.binding 0).stop = false := by
  decide +kernel

theorem test_launch :
    (let l := List.replicate 8 0x40 ++ (List.replicate 5 0 ++ ([0xE, 0, 0] ++ (List.replicate 5 0 ++ ([0xE, 0, 0] ++ [1, 0, 1, 12]))));
     (ans (exec (.launch 1 0) (started 1 3 l [1]))).map (fun s =>
      ((s.thread 0).run, (s.thread 0).pc, (s.thread 0).estat.prv, (s.thread 0).reg 3, s.cmds.map (·.phase)))) =
      some (.run, 0x4040404040404040, 1, ⟨.int, 1⟩, [.running]) := by decide +kernel

theorem test_final_record :
    (ans (exec (.commandFinal 1 0) (commanded { (cmdOf 1 1 .ended [] []) with status := 1 }))).map (fun s =>
      (s.cq.map (fun r => (r.slot, r.kind, r.status, r.phase)), s.cmds.map (·.phase))) = some ([(1, .final, 1, true)], [.final]) := by decide +kernel

theorem witness_InterruptThread :
    mayStart 1 5 [15] [] = true ∧ ((started 1 5 [15] []).setCore 0 { Core.reset with binding := some 0 }).bindingOf (coreOf 0) = some 0 := by decide +kernel

theorem test_irq_set : (ans (exec (.irqSet 1 0) (started 1 5 [15] []))).map (fun s => (s.binding 0).irqThread) = some 15 := by decide +kernel

/-- A group record of one member, GID 5, no shard (R237). -/
def grpBuf : List Byte := [5, 0x10, 0, 0, 0, 16, 250, 0, 0, 0, 0, 0, 0, 0, 0, 0, 0, 0, 0, 0, 0, 0, 0, 0]

theorem witness_PartnersAndGroups :
    let c := cmdOf 1 7 .accepted [0, 0, 0, 0, 1] (List.replicate 32 0)
    mayStart 1 6 [] [] = true ∧ mayStart 1 7 [0, 0, 0, 0, 1] (List.replicate 32 0) = true ∧ (partRecs c).length = 1 ∧ mayStart 1 8 [] grpBuf = true ∧
    grpGid grpBuf = 5 ∧ grpNmem grpBuf = 1 ∧ (started 1 8 [] grpBuf).groupCount 0 0 5 = 0 ∧
    (let g := groupRec 0 grpBuf
     grpFieldsOk grpBuf g = true ∧ g.ok = true) := by decide +kernel

theorem test_rack_and_group_set :
    (ans (exec (.rack 1 0) (started 1 6 [] []))).map (fun s => ((s.binding 0).ptAct, (s.binding 0).flips)) = some (true, 1) ∧
    (ans (exec (.groupSet 1 0) (started 1 8 [] grpBuf))).map (fun s => ((s.group 1 0 5).isSome, s.cmds.map (·.status))) = some (true, [1]) := by decide +kernel

theorem witness_PreemptionGrantsAndMaps :
    let s := (started 0 9 (List.replicate 8 0 ++ [0]) [1])
    let u := { s with owner := [(0, some 0)] }
    let v := { (started 0 10 (List.replicate 8 0 ++ [0]) []) with saved := [(0, some ⟨0, [(0, Core.reset)], []⟩)] }
    (s.toStart 0 0 9).isSome = true ∧ s.ownHbm 0 0 = false ∧ u.ownHbm 0 0 = true ∧ (u.core 0).addingStore = false ∧ (u.toStart 0 0 9).isSome = true ∧
    (v.toStart 0 0 10).isSome = true ∧ FMap.get none v.saved 0 = some ⟨0, [(0, Core.reset)], []⟩ ∧
    mayStart 1 11 [1] [1] = true ∧ mayStart 1 11 [2] [] = true ∧ mayStart 1 11 [3] [] = true ∧ mayStart 1 12 [1] (List.replicate 16 0) = true ∧
    (started 1 11 [1] [1]).grantedCount + 1 ≤ (started 1 11 [1] [1]).build.grantLimit ∧ u.granOwner 0 = some 0 := by decide +kernel

/-- A resource list of core 1 and granule 1 (R332). -/
def resBuf : List Byte := [2, 0] ++ (List.replicate 62 0 ++ ([0, 0, 1, 0] ++ (List.replicate 4 0 ++ ([2] ++ List.replicate 119 0))))

theorem witness_BindingsMadeAndMoved :
    let s := started 0 16 [3] resBuf
    (s.toStart 0 0 16).isSome = true ∧ (s.binding 3).live = false ∧ s.unbound (resList resBuf) = true ∧ (resList resBuf).cores = [1] ∧
    (resList resBuf).granules = [1] ∧ ((started 0 16 [0] resBuf).binding 0).live = true ∧ mayStart 0 17 [0, 1] resBuf = true ∧
    (let u := { (started 0 17 [0, 1] resBuf) with owner := [(1, some 0)], cores := [(1, { Core.reset with binding := some 0 })] }
     u.movable 0 0 (resList resBuf) = true ∧ rangesLess [(0, 4)] 1 2 = [(0, 1), (3, 1)] ∧ rangesMore [(0, 1)] 1 2 = [(0, 1), (1, 2)] ∧
     (u.binding 1).live = false) ∧
    mayStart 0 18 [0] [] = true ∧ mayStart 0 24 [0] [] = true ∧ ((started 0 24 [9] []).binding 9).live = false := by decide +kernel

theorem test_bind :
    (ans (exec (.bind 0 0) (started 0 16 [3] resBuf))).map (fun s =>
      (s.bindingOf 1, s.granOwner 1, (s.binding 3).live, (s.core 1).press, s.cmds.map (·.status))) = some (some 3, some 3, true, 0x10000, [1]) ∧
    (ans (exec (.unbind 0 0) ({ (started 0 18 [0] []) with owner := [(1, some 0)] }))).map (fun s => ((s.binding 0).live, s.granOwner 1)) = some (false, none) := by
  decide +kernel

theorem witness_DeviceCommands :
    let c := cmdOf 0 19 .accepted [0] []
    let d := { (commanded c) with half0 := { (commanded c).half0 with link := .down, pstate := .split }, half1 := { halfUp with link := .down } }
    let n := (commanded (cmdOf 0 20 .accepted [7] []))
    (d.cmd 0 0).isSome = true ∧ (d.half 0).ready = true ∧ d.linkUp = false ∧ (d.half 1).hold = false ∧ (d.half 0).pstate ≠ .primary ∧
    (n.toStart 0 0 20).isSome = true ∧ (started 0 20 [7] []).binding 0 ≠ Binding.empty ∧ mayStart 0 21 [1, 1] [] = true ∧ mayStart 0 21 [1, 0] [] = true ∧
    mayStart 0 22 [7] [] = true ∧ mayStart 0 23 [0, 0, 0] [] = true ∧ mayStart 0 25 [] [] = true ∧ unitClass 0x2000 = 2 ∧
    imageOk Flash.shipped ⟨1, false, 0, 0⟩ = false ∧ (started 0 23 [0] []).unitBound 0 = false := by decide +kernel

theorem test_device_commands :
    (ans (exec (.fabricIdSet 0 0) (commanded (cmdOf 0 20 .accepted [7] [])))).map (fun s => (s.devid, s.devValid)) = some (7, true) ∧
    (ans (exec (.fabricIdSet 0 0) (started 0 20 [7] []))).map (fun s => s.cmds.map (fun c => (c.status, c.detail))) = some [(11, 269)] ∧
    (ans (exec (.eventCfg 0 0) (started 0 22 [5] []))).map (fun s => s.half1.evx) = some 5 := by decide +kernel

theorem witness_RegisterReads :
    corePresent mod.build 0 = true ∧ corePresent .t2 64 = false ∧ stackPresent .t2 2 = false ∧ stackPresent mod.build 15 = true ∧
    (mod.half 0).keyTable.length ≤ 1024 := by decide +kernel

theorem test_register_reads :
    (ans (exec (.tlStatRead 0) (State.reset.setCore 0 { Core.reset with redir := 3 }))).map (fun s => (s.readPort, (s.core 0).redir)) =
      some ([0x0003_0000_0000_3FFF], 0) ∧
    (ans (exec (.mcParcntRead 0) (State.reset.setCore 0 { Core.reset with parcnt := 9 }))).map (fun s => (s.readPort, (s.core 0).parcnt)) = some ([9], 0) := by
  decide +kernel

theorem witness_RegisterWrites :
    let s := mod.setHalf 0 { halfUp with event := 15, pwEvent := 63, time := 5 }
    threadPresent s.build 0 = true ∧ corePresent s.build 0 = true ∧ halfOfCore (coreOf 0) = 0 ∧ ((s.half 0).ring 64).sqEn = false ∧
    (s.half 0).time.toNat % 2 ^ 63 < 6 ∧ ¬ 4 % 8 = 0 := by decide +kernel

theorem test_register_writes :
    (ans (exec (.crFflagsWrite 0 0b00101) (thr { run0 with fflags := 0b00111 }))).map (fun s => (s.thread 0).fflags) = some 0b00010 ∧
    (ans (exec (.hlEventWrite 0 0b0011) (mod.setHalf 0 { halfUp with event := 0b0110 }))).map (fun s => (s.half 0).event) = some 0b0100 ∧
    (ans (exec (.pwTcmpWrite 0 0x8000_0000_0000_0009) State.reset)).map (fun s => ((s.thread 0).tcmpEn, (s.thread 0).tcmp)) = some (true, 9) := by decide +kernel

def cellar : CellarCfg := ⟨0, 1, 5, true, 25, 0, 0, []⟩
def snapOf (st : Nat) : SnapSlot := ⟨st, 7, [], [], [], false, [], [], []⟩
def client (x : Binding) : State := engineOf { Engine.reset with groups := [(5, some grp)], closed := [(5, 7)] } Core.reset |>.setBinding 1
  { x with live := true, cfg := some cellar }

/-- A client whose reserve is granule 2, granted by binding 2 of the same device, which holds the header of its slot 0. -/
def reserved (x : Binding) : State :=
  let s := ((client x).setBinding 2 { Binding.empty with live := true, grants := [(1, [2])] }).setHalf 0 { halfUp with
    partners0 := [(0, { prt with ddev := 5, dbind := 2 }), (1, { prt with bind := 2, ddev := 5, dbind := 1 })] }
  { s with granted := [(2, some 1)] }.writeBytes 512 (2 ^ 31) (((snapOf 2).header 1 5).take 24)

theorem witness_SnapshotsAndRestore :
    let s := client { Binding.empty with phase := .idle }
    let u := client { Binding.empty with phase := .capture, snap := some (snapOf 1) }
    let v := reserved { Binding.empty with phase := .restore, stop := true, agreed := some 7, lvalid := true, lstep := 7, slot0 := some (snapOf 2) }
    s.closedStep 5 7 = true ∧ s.closedStep 5 8 = false ∧ 7 % cellar.k = 0 ∧ (u.engine 0).closes = [] ∧ u.drained 1 = true ∧ (u.binding 1).snap.isSome = true ∧
    (v.restoreSlot 1).isSome = true ∧ (v.binding 1).phase = .restore ∧ (v.binding 1).live = true ∧
    (s.binding 1).captured = none ∧ reached (some 7) 7 = true ∧ (client { Binding.empty with phase := .drain, snap := some (snapOf 1) }).drained 1 = true := by decide +kernel

theorem test_snapshot :
    (ans (exec (.snapshotStart 1 7) (client { Binding.empty with phase := .idle }))).map (fun s => ((s.binding 1).phase, (s.binding 1).snap.map (·.step))) =
      some (.capture, some 7) ∧
    (ans (exec (.drainComplete 1) (client { Binding.empty with phase := .drain, snap := some (snapOf 1) }))).map (fun s =>
      ((s.binding 1).phase, (s.binding 1).lstep, (s.binding 1).lvalid, (s.binding 1).slot0.map (·.state))) = some (.idle, 7, true, some 2) := by decide +kernel

theorem witness_LstepAgreement :
    let s := client { Binding.empty with stop := true, lvalid := true, lstep := 9, phase := .stopped }
    (s.binding 1).stop = true ∧ (s.binding 1).lvalid = true ∧ (s.binding 1).phase = .stopped ∧ (s.binding 1).cfg.map (·.auto) = some true := by decide +kernel

theorem test_lstep_agreement :
    (ans (exec (.lstepAgreement 1 [8, 12]) (client { Binding.empty with stop := true, lvalid := true, lstep := 9, phase := .stopped }))).map (fun s =>
      ((s.binding 1).phase, (s.binding 1).agreed)) = some (.restore, some 8) := by decide +kernel

theorem witness_Repairs :
    let s := mod.setCore 0 { Core.reset with binding := some 0 } |>.setBinding 0 { Binding.empty with live := true }
    let d := mod.setHalf 0 (halfUp.setDie 0 { Die.reset with cleft := 0 })
    let e := { mod with half0 := { halfUp with rings := [(0, { Ring.reset with evqEn := true })] }, deferredTests := [0x1000] }
    unitClass 0 = 0 ∧ unitIdx 0 = 0 ∧ corePresent s.build 0 = true ∧ s.bindingOf 0 = some 0 ∧ ((mod.half 0).die 0).cleft ≠ 0 ∧ ((d.half 0).die 0).cleft = 0 ∧
    unitClass 0x1000 = 1 ∧ stackPresent s.build 0 = true ∧ ((mod.half 0).hbm 0).spleft ≠ 0 ∧ unitClass 0x2009 = 2 ∧ unitIdx 0x2009 = 9 ∧
    ((onPort portUp).port 9).spare.toNat < 5 ∧ e.evqOn = true ∧ e.unitBound 0x1000 = false := by decide +kernel

theorem test_repairs :
    (ans (exec (.bindingStop 0) (mod.setCore 0 { Core.reset with binding := some 0 } |>.setBinding 0 { Binding.empty with live := true }))).map (fun s =>
      ((s.binding 0).stop, (s.binding 0).phase)) = some (true, .repair) ∧
    (ans (exec (.repairComplete 0x2009 (.fabricLane 1)) (onPort portUp))).map (fun s => ((s.port 9).lmask, (s.port 9).spare, (s.port 9).dead)) =
      some (0b11101, 7, [1]) := by decide +kernel

theorem witness_EveryStepKeepsMemoryCanonical : State.reset.canonical = true ∧ (words State.reset 0x1000 [5]).canonical = true := by decide +kernel

theorem test_step_takes_the_front : (ans (step { State.reset with pending := [.vinWarning 40000, .vinWarning 1] })).map (fun s => (s.vin, s.pending)) =
    some (40000, [.vinWarning 1]) := by decide +kernel

theorem test_decodeTableWord : decodeTableWord 64 0 = none := rfl

/-! ### Witnesses: further clauses -/

theorem witness_PairedWordsAndFetch_slot_b :
    let w : Word := 0b1_001100_00001_00010_00000_0000000000_100001_00011_00100_00101_0000000000_0#64
    let s := cpu w 3 [(2, ⟨.int, 5⟩)]
    let t := s.now 0
    isPair w = true ∧ s.mayIssue 0 w = true ∧ bitAt w 0 = false ∧ fieldsLegal (slotA w) = true ∧ fieldsLegal (slotB w) = false ∧
    pairConflict (pairRegs (slotA w) t) (pairRegs (slotB w) t) = false ∧ (fopOf (slotA w).op w (slotA w) t).pumps = 0 ∧
    (fopOf (slotB w).op w (slotB w) t).pumps = 0 := by decide +kernel

/-- A fetch from the other half's HBM while the half link is not UP. -/
theorem witness_PairedWordsAndFetch_link :
    let u := lost 0x6000000000
    let t := u.thread 0
    u.isHbm 0x6000000000 = true ∧ u.linkWait 0 0x6000000000 = true ∧ t.ending = false ∧ threadPresent u.build 0 = true ∧
    (u.core 0).suspended = false ∧ u.xlatQuick (u.bindingOf 0) (u.core 0).tcache t.estat.prv .x t.pc = .pa 0x6000000000 := by decide +kernel

theorem witness_MemoryAndAtomicIssue_held :
    let x := lr 59 3 1 2 0 0 3 0
    let u := ((cpu x 0 [(1, ⟨.ptr, 0xE00000FFFF8⟩), (2, ⟨.int, 0⟩)]).setCore 0 { Core.reset with binding := some 0, press := 0x100000 }).setBinding 0
      { Binding.empty with live := true }
    let b := lr 63 0 0 0 0 0 0 0x1F
    let v := State.reset.setThread 0 { th b 3 [] with
      fences := [⟨1, 15, false⟩], memOrd := 2, tickets := [(1, ⟨[⟨.acc ⟨.load 8 false .int, 0x40, 0, 0, .ready 0x40⟩, 0, [3]⟩], none⟩)] }
    free u x = true ∧ tagsAre u x [.ptr, .int] = true ∧ (u.now 0).estat.prv = 0 ∧ isPress 0xE00000FFFF8 = true ∧
    u.pressHeld (u.bindingOf 0) 0xE00000FFFF8 = true ∧ ctlHit 0xE00000FFFF8 8 = none ∧
    issuable v 0 b .mbar = true ∧ (v.now 0).accesses.any (fun e => decide (e.ord < 1) && !e.phase.isOver) = true := by decide +kernel

theorem witness_TileIssue_accumulators :
    let ld := lr 65 0 1 2 0 3 0 8
    let st := lr 67 0 1 2 0 3 0 8
    let d : Desc := { dsc with fmt := rawForm 1 }
    let c : Core := { tcore with vEmpty := 0x0EFE, descs := [(0, ⟨some d, 0⟩)] }
    let s := fun (w : Word) (d : Desc) => (cpu w 3 tregs).setCore 0 { c with descs := [(0, ⟨some d, 0⟩)] }
    free (s ld d) ld = true ∧ tagsAre (s ld d) ld [.desc, .int] = true ∧ cfgRows cfgA ≠ 0 ∧ acfgMode cfgA = 1 ∧ (s ld d).handleDesc 0 3 hnd = some d ∧
    free (s st { dsc with fmt := acfgOfmt cfgA }) st = true ∧ isEmptyView c 8 = false ∧ acfgOfmt cfgA ≠ 0 ∧
    tmmaCheck { tcore with vBanks := [(0, ⟨1, 1, 64, 16⟩), (1, ⟨1, 1, 64, 16⟩)] } 0 0 1 true 0 = none := by decide +kernel

theorem witness_VectorIssue_forms :
    let ok := fun (w : Word) (regs : FMap TReg) (mode : BitVec 8) =>
      let s := State.reset.setThread 0 { th w 3 regs with mode := mode }
      let f := longFields w
      let n := (s.now 0).vgrp
      vecLegal f && decide (groupCheck f n (vOperands f n) = none) && issuable s 0 w (opOf w)
        && ((vecRegs f n).srcs ++ (vecRegs f n).dsts).all (fun r => !(s.now 0).isPend r)
    ok (lr 84 4 8 12 0 0 vxFormat 0) [] 0x80 = true ∧ ok (lr 82 4 8 0 0 0 8 0) [] 0 = true ∧ ok (lr 83 4 1 0 0 0 1 0) [(1, ⟨.int, 5⟩)] 0 = true ∧
    ok (lr 83 4 1 0 0 0 8 0) [(1, ⟨.fp64, 0⟩)] 0 = true ∧ ok (lr 88 4 8 12 0 0 1 0) [] 0 = true ∧ ok (lr 89 4 8 12 0 0 0x10 0) [] 0 = true ∧ ok (lr 89 4 8 12 0 0 6 0) [] 0 = true ∧ ok (lr 88 4 8 12 0 0 8 0) [] 0 = true ∧
    ok (lr 90 4 8 0 0 0 8 9) [] 0 = true ∧ ok (lr 91 3 8 0 0 0 8 0) [] 0 = true ∧ ok (lr 87 4 8 12 0 0 8 0) [] 0 = true := by decide +kernel

theorem witness_ChainIssue_layout :
    let vf := lr 97 0 1 2 0 2 0 0x10
    let s := tcpu vf [(1, ⟨.ptr, 0xE0000000000⟩), (2, ⟨.desc, hnd⟩)]
    free s vf = true ∧ s.handleDesc 0 3 hnd = some dsc ∧ dsc.ro = false ∧ flowIssueFault (s.core 0) 0 dsc = none := by decide +kernel

theorem witness_Repeats_resumed :
    let r := lr 118 0 0 0 0 0 0 0
    let s := State.reset.setThread 0 { th r 3 [] with rptResume := true, loopcnt := 5 }
    issuable s 0 r .rep = true ∧ (s.now 0).rptResume = true ∧ (s.now 0).shadow = none := by decide +kernel

theorem witness_ModesAndConfiguration_stops :
    let r := lr 121 3 0 0 0 0 0 0x0032
    let n := lr 121 3 0 0 0 0 0 0x7FFF
    let cw := lr 122 0 1 0 0 0 0 0x1000
    let t := lr 64 0 1 0 0 0 0 0
    free (cpu r 0 []) r = true ∧ (csrInfo .t8 0x0032).any (fun e => decide (0 < e.1)) = true ∧ free (cpu n 3 []) n = true ∧ csrInfo .t8 0x7FFF = none ∧
    issuable (cpu cw 3 [(1, ⟨.int, 0x01040040⟩)]) 0 cw .csrw = true ∧
    (match tcfgDo Core.reset 0 0x01040040 with
      | .ok _ => true
      | .error _ => false) = true ∧
    (let q : Core := { tcore with tileQ := [⟨0, 1, 3, .rel 1, false, []⟩] }
     issuable ((cpu t 3 [(1, ⟨.int, 0x01030040⟩)]).setCore 0 q) 0 t .tcfg = true ∧ tcfgConsistent 0 0x01030040 = true ∧
     shapeOf 0 (q.cfg 0) ≠ shapeOf 0 0x01030040 ∧ 0 ∈ (TileOp.rel 1).names) ∧ tcfgConsistent 8 0x40000010 = false := by decide +kernel

theorem witness_TrapEntry_clear :
    let s := tabled 0
    let m := mtabled
    s.linkWait 0 0xE000000FFF0 = false ∧ inCtlRange 0xE000000FFF0 = false ∧ 0xE000000FFF0 % 16 = 0 ∧ s.poisoned (0xE0000000000 + 512) 8 = false ∧
    m.linkWait 0 64 = false ∧ (m.thread 0).estat.prv = 3 ∧ (m.thread 0).estat.exl = false ∧
    (lantern false).linkWait 0 64 = false ∧ (lantern false).linkWait 0 0 = false ∧ (lantern false).linkWait 0 0xFF0 = false := by decide +kernel

/-- An entry that names a table, one that is a leaf of level 1, one that is not valid, and a load that its leaf forbids. -/
theorem witness_TableWalk_entries :
    let s := fun (e : Word) => words (access (.load 8 false .int) (.walk 3 0x8000)) 0x8000 [e]
    let u := words (access (.store 8 5) (.walk 0 0x8000)) 0x8008 [0xC000_0000_0000_5024]
    let tab : Word := 0x8000_0000_0000_9000
    (s tab).readWord 0x8000 = tab ∧ bitAt tab 62 = false ∧ fld tab 44 18 = 0 ∧ fld tab 6 6 = 0 ∧ fld tab 0 2 = 0 ∧ (s tab).poisoned 0x8000 8 = false ∧
    bitAt ((s 0).readWord 0x8000) 63 = false ∧ bitAt (u.readWord 0x8008) 3 = false ∧ (AccOp.store 8 5).isLoad = false ∧ (AccOp.store 8 5).isStore = true := by
  decide +kernel

theorem witness_AccessesPerformed_holds :
    let s := access (.load 4 true .int) (.ready 0x2000)
    let p := access .loadT (.ready 0xE0000000010)
    s.linkHolds 0 ⟨.load 4 true .int, 0x1000, 0, 0, .ready 0x2000⟩ 0x2000 = none ∧ p.tagAt 0xE0000000010 ≠ 3 ∧ p.tagAt 0xE0000000010 ≠ 6 ∧
    p.linkHolds 0 ⟨.loadT, 0x1000, 0, 0, .ready 0xE0000000010⟩ 0xE0000000010 = none ∧ (2 : Nat) < 2 ^ (8 * 4) := by decide +kernel

/-- A line that a core has asked for, and three replays of a flit. -/
theorem witness_CachesTransportAndHbm_requests :
    let k : Core := { Core.reset with reqs := [(5, true)], meshTries := 3 }
    let a := 384 * 2 ^ 30
    let s := access (.load 8 false .int) (.ready a)
    k.requested 5 = true ∧ k.requested 69 = false ∧ k.l1 = [] ∧ 3 ≤ k.meshTries ∧ homeHalf s a ≠ halfOfCore 0 ∧ (s.half 0).link ≠ .up ∧
    ((s.thread 0).ticket 1).ops.length = 1 := by decide +kernel

theorem witness_TileQueueAndPasses_completions :
    let e : TileEntry := ⟨0, 1, 3, .zero 8 cfgA none, true, []⟩
    let s := tileQ (.zero 8 cfgA none) true mcore
    let ld : TileEntry := ⟨0, 1, 3, .load 0 false cfgT dsc 0, true, []⟩
    e.seen = s.mem ∧ (s.core 0).tileQ = [e] ∧ (s.core 0).suspended = false ∧
    (match loadTile (tileQ ld.op true mcore) ld 0 0 false cfgT dsc 0 (mcore.tile 0) with
      | .ok _ => true
      | .error _ => false) = true ∧ (mcore.bank 0).shape = ⟨1, 1, 64, 16⟩ ∧ acfgMode cfgA = 1 ∧
    heldB.fmt = 1 ∧ cfgFmt cfgT = 1 ∧ heldB.k ≤ cfgRbytes cfgT ∧ cfgFmt 0x06040040 = 6 ∧ 4 * 16 ≤ cfgRbytes 0x06040040 := by decide +kernel

theorem witness_ChainQueue_stops :
    let s := chained (.chain 0 0xE0000000108) true
    let u := chained flow1 false
    let z := u.setCore 0 { u.core 0 with slots := [] }
    (0xE0000000108 : Nat) % 256 ≠ 0 ∧ ((s.core 0).chainQ.map (·.begun)) = [true] ∧ (FMap.get ChainSlot.empty (z.core 0).slots 1).valid = false ∧
    ((chained flow1 true).core 0).chainQ.map (·.seen) = [(chained flow1 true).mem] := by decide +kernel

theorem witness_FlitProtocol_answers :
    let x := { portUp with awaiting := true, rxSeq := 3 }
    let k := pkt .data (.bytes [7])
    let b : List Byte := k.bytes ++ List.replicate (240 - k.bytes.length) 0
    let y := { portUp with replayBuf := [flit true 4 0 []], tries := 8 }
    (flit true 0 5 []).seq ≠ x.rxSeq ∧ x.trained = true ∧ portUp.trained = true ∧ portUp.awaiting = false ∧
    ((portUp.arrive (flit true 0 5 b)).1.map (·.ptype)) = [.data] ∧ (portUp.arrive (flit true 0 5 b)).2 = [] ∧ y.replayBuf ≠ [] ∧ 8 ≤ y.tries ∧
    portUp.spare.toNat ≠ 0 := by decide +kernel

theorem witness_PortStates_more :
    let x := { portUp with outQ := [pkt .data .none] }
    let far := arrived (pkt .link (.hello (hel 4 false 9)))
    let d := { (onPort { portUp with state := .drained, resume := .linkOnly }) with devid := 5 }
    0 < FMap.get 0 portUp.credits 0 ∧ portUp.replayBuf.length < 512 ∧ x.outQ.length = 1 ∧ x.state = .up ∧ (pkt .link (.hello (hel 4 false 9))).crcOk = true ∧
    (far.port 9).rxQ.length = 1 ∧ (d.port 9).state = .drained ∧ ((onPort { Port.reset with state := .down }).port 9).state = .down ∧
    fld (6 : BitVec 20) 2 18 = fld mod.devid 2 18 ∧ fld (6 : BitVec 20) 0 2 ≠ fld mod.devid 0 2 ^^^ 1 ∧ mod.build.code = 0 := by decide +kernel

theorem witness_FlowDelivery_cellar_and_ackf :
    let k := Packet.sealed { pkt .cellar (.bytes [1, 2]) with rw2 := 0x7FFFFFFF }
    let bad := { pkt .data .none with ecrc := 0 }
    let s := ((withPartner (arrived k)).setBinding 1 { Binding.empty with live := true, ranges := [(0, 1)], grants := [(0, [1, 2])] })
    let a := Packet.sealed { pkt .ackf .none with xtag := 1 }
    k.crcOk = true ∧ bad.crcOk = false ∧ bitAt k.rw2 63 = false ∧ fld k.rw2 0 44 / 2 ^ 30 = 1 ∧ (fld k.rw2 0 44 + 2 - 1) / 2 ^ 30 = 2 ∧
    1 ∈ s.grantOf 0 1 9 3 ∧ 2 ∈ s.grantOf 0 1 9 3 ∧ (s.flow ⟨1, 9, 3, .cellar⟩).expPsn = 0 ∧ a.crcOk = true ∧ a.xtag.toNat < 8 ∧ bitAt a.xtag 2 = false ∧
    s.homeOf 1 = 0 ∧ s.hopHeld 0 [9, 8] = false := by decide +kernel

theorem witness_Beacons_more :
    let s := (arrived bcn).setPort 10 portUp
    let far := { s with half1 := { halfUp with keyTable := [bkey] } }
    let full := { s with half0 := { halfUp with keyTable := List.replicate 1024 { bkey with odev := 7 } } }
    let r : Ring := { Ring.reset with evqEn := true }
    let v := { mod with half0 := { halfUp with keyTable := [bkey], rings := [(0, r)] } }
    bcn.crcOk = true ∧ (s.half 0).keyTable = [] ∧ (s.half 1).keyTable = [] ∧ (s.port 10).outQ = [] ∧ 0 < FMap.get 0 (s.port 10).credits 3 ∧
    (s.port 10).retraining = false ∧ (far.half 1).keyTable.length = 1 ∧ (far.half 0).link = .up ∧ (full.half 0).keyTable.length = 1024 ∧
    v.evWait = [] ∧ v.evNext < v.evqSize ∧ bkey.odev ≠ 7 := by decide +kernel

theorem witness_Primacy_more :
    let s := (heard .follower (beat 4 .primary false)).setHalf 1 { ((heard .follower (beat 4 .primary false)).half 1) with lastHseq := some 1 }
    let d := heard .follower { (beat 4 .split false) with imgv := 9 }
    (s.half 1).pstate ≠ .split ∧ (s.half 1).lastHseq ≠ none ∧ (d.half 1).flash.image.version % 2 ^ 32 ≠ 9 ∧ (d.half 1).pstate ≠ .split ∧
    (d.half 1).solo = false ∧ (beat 4 .split false).hseq = 4 ∧ s.linkUp = true ∧ (s.half 1).ready = true := by decide +kernel

theorem witness_Mirror_completion :
    let c := cmdOf 1 1 .running [] []
    let w := (commanded c).setHalf 0 { (commanded c).half0 with compIn := [(1, 0)] }
    w.linkUp = true ∧ (w.half 0).ready = true ∧ (w.half 0).compIn = [(1, 0)] ∧ w.cmd 1 0 = some c ∧ c.phase = .running ∧ [c].Nodup := by decide +kernel

theorem witness_Rings_more :
    let s := commanded (cmdOf 1 1 .final [] [])
    let off := s.setHalf 0 { s.half0 with rings := [] } |>.setHalf 1 { s.half1 with rings := [] }
    let on := off.setHalf 0 { s.half0 with rings := [(1, cqOn)] } |>.setHalf 1 { s.half1 with rings := [(1, cqOn)] }
    ((off.half 0).ring 1).sqEn = false ∧ ((off.half 1).ring 1).sqEn = false ∧ (off.half 0).ready = true ∧ ((on.half 0).ring 1).cqEn = true ∧
    ((on.half 1).ring 1).cqEn = true ∧ on.cmds.all (fun c => c.phase == .final) = true ∧ cqOn.sqClosing = false ∧ cqOn.cqClosing = false ∧
    cqOn.evqClosing = false ∧ bytesAt nopEntry 8 8 = cqOn.head ∧ bytesAt (nopEntry.set 8 9) 8 8 ≠ cqOn.head ∧ nopEntry.length = 128 := by decide +kernel

theorem witness_SupplyFaults_and_trips :
    let s := mod.setHalf 0 (halfUp.setDie 0 { Die.reset with tripped := true })
    (41999 : Nat) < 42000 ∧ (58000 : Nat) ≤ 58000 ∧ (39999 : Nat) < 40000 ∧ diePresent s.build 7 = true ∧ ((s.half 0).die 0).tripped = true ∧
    Rail.vhbm ≠ .vcore := by decide +kernel

/-- Both banks of a half refuse: no image verifies. -/
def noImage : Flash := { Flash.shipped with bankA := { Image.shipped with sigOk := false }, bankB := { Image.shipped with sigOk := false } }

theorem witness_Resets_keepers :
    let k := mod.setHalf 0 { halfUp with keeper0 := .booting, keeper1 := .active, flash := noImage }
    let r := mod.setHalf 0 { halfUp with keeper0 := .out, keeper1 := .booting }
    let b := { (mod) with cmds := [cmdOf 1 1 .journalled [] []] }
    (k.half 0).keeper0 = .booting ∧ (k.half 0).flash.bankA.sigOk = false ∧ (k.half 0).flash.bankB.sigOk = false ∧ (r.half 0).stage = .ready ∧
    (r.half 0).keeper1 ≠ .active ∧ b.cmds.all (fun c => c.phase == .journalled) = true ∧ (Image.shipped).size ≤ 64 * 2 ^ 20 ∧ Image.shipped.key < 4 ∧
    Flash.shipped.fuseMin ≤ Image.shipped.version ∧ Image.shipped.sigOk = true := by decide +kernel

/-- A core's queue holds `m`, and nothing holds its start back. -/
def starts (g : Group) (m : CollCmd) : Bool :=
  let s := grouped g m
  decide ((s.core 0).collQ = [m]) && decide ((s.engine 0).inFlight < 4096) && (s.freeId 0).isSome && decide (s.startWaits 0 m = none)
    && decide ((s.engine 0).unmatched < 4096) && !s.cutOff m.b

/-- A bucket whose split stands at address 0. -/
def bktSplit : CollCmd := coll .bucket [(25, 0x20), (41, 0x30), (48, 64), (52, 0x66)]

theorem witness_CollectiveCommands_start :
    let pub := coll .publish [(28, 0)]
    let own := coll .gather [(24, 0), (37, 0xE), (33, 0x10), (45, 0xE), (41, 0x20)]
    let far := coll .gather [(24, 1), (37, 0xE), (33, 0x10), (45, 0xE), (41, 0x20)]
    let self := coll .recv [(24, 0), (28, 3), (40, 8)]
    starts grp bkt = true ∧ starts grp (coll .close []) = true ∧ starts grp pub = true ∧ starts grp own = true ∧ starts grp far = true ∧
    ((words (grouped grp bktSplit) 0 [64]).collRead bktSplit (bucketReq grp bktSplit).splitAt 8).1 = .ok [64, 0, 0, 0, 0, 0, 0, 0] ∧
    starts grp self = true ∧ starts grp (coll .send [(24, 1), (28, 3), (40, 8)]) = true ∧ starts grp bktSplit = true ∧ (bucketReq grp bktSplit).all = false ∧
    (grp.parts.getD own.shard ⟨0, 0⟩).owner = grp.self ∧ (grp.parts.getD far.shard ⟨0, 0⟩).owner ≠ grp.self ∧ self.peer = grp.self ∧
    grp.opened = true ∧ grp.epoch = some (7, 0) ∧ (bucketReq grp bkt).ok = true ∧
    (grouped grp bkt).closedStep 5 7 = false ∧ (∀ p, grp.epoch = some p → p.1 ≤ 7) := by
  refine ⟨by decide +kernel, by decide +kernel, by decide +kernel, by decide +kernel, by decide +kernel, by decide +kernel, by decide +kernel,
    by decide +kernel, by decide +kernel, by decide +kernel, by decide +kernel, by decide +kernel, by decide +kernel, rfl, rfl, by decide +kernel, by decide +kernel, ?_⟩
  intro p h
  cases h
  decide

theorem witness_CollectiveEvents_windows :
    let post : Post := ⟨coll .recv [(24, 1), (28, 3), (40, 8)], 7, 0, 5, 1, 3, 0, 8, none, 0, []⟩
    let ga : Gather := ⟨coll .gather [], 3, true, 5, 1, none, 0, 0, 0, []⟩
    let e := { Engine.reset with groups := [(5, some grp)], buckets := [Bucket.placeholder 5 7 0 0], posts := [post, { post with matched := some 4 }],
                                 gathers := [ga, { ga with live := false }], publishes := [coll .publish [(28, 0)]], closed := [(5, 7)],
                                 closes := [⟨some (coll .close []), 5, 7, 0, true, [], []⟩] }
    let s := engineOf e Core.reset
    let l := run1 { queued with cmd := some bktSplit, split := [64, 0], phase := .exponent, heard := [1] } { grp with self := 1 }
    s.liveRun 0 0 = none ∧ (s.engine 0).buckets.length = 1 ∧ post.matched = none ∧ post.peer ≠ grp.self ∧ ga.live = true ∧
    (s.group 0 1 5).isSome = true ∧ s.publishedOf 1 5 0 = none ∧ (5, 7) ∈ (s.engine 0).closed ∧
    (l.liveRun 0 0).map (fun r => (r.ownBlocks, r.g.me.ccnt, r.r.rop)) = some ([], 1, 0) := by decide +kernel

theorem witness_DeviceCommands_more :
    let c := { (cmdOf 0 19 .accepted [1, 0] []) with jseq := 4 }
    let s := commanded c
    let p := (s.setHalf 0 { s.half0 with journal := [4], hold := true }).setHalf 1 { s.half1 with journal := [4] }
    let r := { p with cmds := [{ c with phase := .running }] }
    let t := (started 0 23 [9, 0x20, 0] []).setPort 9 { portUp with tested := some false }
    (p.cmd 0 0).isSome = true ∧ c.jseq ∈ (p.half 1).journal ∧ (p.half 1).pstate ≠ .primary ∧ p.linkUp = true ∧ c.arg 40 1 = 1 ∧
    p.half0.flash.image.version = p.half1.flash.image.version ∧ (r.cmd 0 0).map (·.phase) = some .running ∧ (r.half 0).hold = true ∧
    (t.toStart 0 0 23).isSome = true ∧ unitClass 0x2009 = 2 ∧ (t.port 9).tested = some false ∧ mayStart 0 23 [0, 0, 1] [] = true ∧
    (started 0 23 [0, 0, 1] []).spareLeft 0 = true ∧ (started 0 23 [0, 0x40, 1] []).spareLeft 0x4000 = false ∧ (started 0 25 [] []).linkUp = true ∧
    imageOk Flash.shipped { Image.shipped with sigOk := false } = false := by decide +kernel

/-- A binding with a core in each half. -/
theorem witness_PartnersAndGroups_spans :
    let s := ((started 1 6 [] []).setCore 0 { Core.reset with binding := some 0 }).setCore 256 { Core.reset with binding := some 0 }
    let d := { s with half0 := { s.half0 with link := .down }, half1 := { s.half1 with link := .down } }
    (d.toStart 1 0 6).isSome = true ∧ d.spans 0 = true ∧ d.linkUp = false ∧ s.linkUp = true ∧ (started 1 6 [] []).spans 0 = false := by decide +kernel

/-- A core that has been scrubbed since it was saved. -/
theorem witness_PreemptionGrantsAndMaps_saved :
    let v := { (started 0 10 (List.replicate 8 0 ++ [0]) []) with saved := [(0, some ⟨0, [(0, { Core.reset with redir := 3 })], [(0, run0)]⟩)] }
    let u := v.setCore 0 { Core.reset with binding := some 0 }
    (u.toStart 0 0 10).isSome = true ∧ u.bindingOf 0 = some 0 ∧ (u.core 0).suspended = false ∧ (([0] : List Nat)).Nodup ∧
    u.leavesOf 0 = [] ∧ (started 1 12 [1] (List.replicate 16 0)).mapPlan 0 (mapRecs (List.replicate 16 0) 1) = none := by decide +kernel

theorem witness_LstepAgreement_stranded :
    let s := client { Binding.empty with stop := true, lvalid := true, lstep := 9, phase := .stopped, stranded := true }
    (s.binding 1).stranded = true ∧ (s.binding 1).stop = true ∧ (s.binding 1).lvalid = true ∧ (s.binding 1).phase = .stopped := by decide +kernel

theorem witness_Repairs_more :
    let e := { mod with half0 := { halfUp with rings := [(0, { Ring.reset with evqEn := true })] }, deferredTests := [0x1000] }
    ((onPort { portUp with spare := 7 }).port 9).spare.toNat ≥ 5 ∧ mod.half0.linkSpares ≠ 0 ∧ mod.half1.linkSpares ≠ 0 ∧ unitClass 0x3000 = 3 ∧
    unitIdx 0x3000 = 0 ∧ unitClass 0x6001 = 6 ∧ diePresent mod.build 1 = true ∧ ((mod.half 0).die 1).l2left ≠ 0 ∧ unitClass 0x5000 = 5 ∧
    unitPresent mod.build 0x5000 = true ∧ (mod.binding 3).byReset = false ∧ e.evWait = [] ∧ e.evNext < e.evqSize ∧ 0x1000 ∈ e.deferredTests ∧
    (0x2009 : BitVec 16) ∉ e.deferredTests ∧ ((mod.half 0).hbm 0).spleft ≠ 0 := by decide +kernel

end Sys2Proof.Tests
end

section
/-! SUPPORT. The images of registers: what a field and a bit of a word read, of a word of fields, of a mask of flags, and of
kept bits. -/

namespace Sys2Proof.Machine

/-! ### Fields and bits -/

theorem fld_lt {n : Nat} (v : BitVec n) (lo len : Nat) : fld v lo len < 2 ^ len := Nat.mod_lt _ (Nat.two_pow_pos _)

theorem testBit_fld {n : Nat} (v : BitVec n) (lo len i : Nat) : (fld v lo len).testBit i = (decide (i < len) && bitAt v (lo + i)) := by
  rw [fld, Nat.testBit_mod_two_pow, Nat.testBit_shiftRight]; rfl

theorem bitAt_eq_testBit_fld {n : Nat} (v : BitVec n) {lo len i : Nat} (hi : i < len) : bitAt v (lo + i) = (fld v lo len).testBit i := by
  simp [testBit_fld, hi]

@[simp] theorem toNat_ofNat_fld {n : Nat} (v : BitVec n) (lo len : Nat) : (BitVec.ofNat len (fld v lo len)).toNat = fld v lo len := by
  rw [BitVec.toNat_ofNat, Nat.mod_eq_of_lt (fld_lt v lo len)]

theorem getLsbD_ofNat_fld {n : Nat} (v : BitVec n) (lo : Nat) {len i : Nat} (hi : i < len) :
    (BitVec.ofNat len (fld v lo len)).getLsbD i = bitAt v (lo + i) := by
  rw [BitVec.getLsbD_ofNat, testBit_fld, decide_eq_true hi, Bool.true_and, Bool.true_and]

theorem b2n_lt (b : Bool) : b2n b < 2 := by cases b <;> decide

theorem testBit_b2n_zero (b : Bool) : (b2n b).testBit 0 = b := by cases b <;> rfl

/-! ### Words of fields -/

/-- The sum of fields, each at its low bit, as `wordFields` forms it. -/
def fieldSum : List (Nat × Nat) → Nat
  | [] => 0
  | (v, lo) :: t => v * 2 ^ lo + fieldSum t

theorem fieldSum_nil : fieldSum [] = 0 := rfl
theorem fieldSum_cons (v lo : Nat) (t : List (Nat × Nat)) : fieldSum ((v, lo) :: t) = v * 2 ^ lo + fieldSum t := rfl

theorem wordFields_eq (l : List (Nat × Nat)) : wordFields l = BitVec.ofNat 64 (fieldSum l) := by
  suffices ∀ (l : List (Nat × Nat)) (a : Nat), l.foldl (fun a e => a + e.1 * 2 ^ e.2) a = a + fieldSum l by
    rw [wordFields, this, Nat.zero_add]
  intro l
  induction l with
  | nil => intro a; rfl
  | cons e t ih =>
    obtain ⟨v, lo⟩ := e
    intro a
    rw [List.foldl_cons, ih, fieldSum_cons, Nat.add_assoc]

theorem wordFields_toNat (l : List (Nat × Nat)) : (wordFields l).toNat = fieldSum l % 2 ^ 64 := by
  rw [wordFields_eq, BitVec.toNat_ofNat]

theorem fld_wordFields (l : List (Nat × Nat)) (lo len : Nat) : fld (wordFields l) lo len = fieldSum l % 2 ^ 64 / 2 ^ lo % 2 ^ len := by
  rw [fld, wordFields_toNat, Nat.shiftRight_eq_div_pow]

/-! ### Masks -/

theorem maskOf_succ (p : Nat → Bool) (n : Nat) : maskOf p (n + 1) = 2 ^ n * b2n (p n) + maskOf p n := by
  simp only [maskOf, List.range_succ, List.foldl_append, List.foldl_cons, List.foldl_nil]
  cases p n <;> simp [b2n, Nat.add_comm]

theorem maskOf_lt (p : Nat → Bool) (n : Nat) : maskOf p n < 2 ^ n := by
  induction n with
  | zero => simp [maskOf]
  | succ n ih =>
    rw [maskOf_succ, Nat.pow_succ]
    cases p n <;> simp [b2n] <;> omega

/-- Bit `i` of a mask is the flag of `i`. -/
theorem testBit_maskOf (p : Nat → Bool) (n i : Nat) : (maskOf p n).testBit i = (decide (i < n) && p i) := by
  induction n with
  | zero => simp [maskOf]
  | succ n ih =>
    rw [maskOf_succ, Nat.testBit_two_pow_mul_add _ (maskOf_lt p n), ih]
    obtain h | rfl | h := Nat.lt_trichotomy i n
    · simp [h, Nat.lt_succ_of_lt h]
    · rw [if_neg (Nat.lt_irrefl i), Nat.sub_self, testBit_b2n_zero]; simp
    · have hbit : (b2n (p n)).testBit (i - n) = false :=
        Nat.testBit_lt_two_pow (Nat.lt_of_lt_of_le (b2n_lt _) (Nat.le_self_pow (by omega) 2))
      simp [hbit, show ¬ i < n by omega, show ¬ i < n + 1 by omega]

/-! ### Kept and cleared bits -/

/-- `maskBits` keeps bits `lo` to `hi` and no other. -/
theorem getLsbD_maskBits (v : Word) {lo hi : Nat} (h : hi < 64) (i : Nat) :
    (maskBits v lo hi).getLsbD i = (decide (lo ≤ i ∧ i ≤ hi) && v.getLsbD i) := by
  rw [maskBits, BitVec.getLsbD_ofNat, Nat.mul_comm, Nat.testBit_two_pow_mul, testBit_fld]
  by_cases hlo : lo ≤ i
  · by_cases hhi : i ≤ hi
    · simp [hlo, hhi, bitAt, show i < 64 by omega, show i - lo < hi + 1 - lo by omega]
    · simp [hlo, hhi, show ¬ i - lo < hi + 1 - lo by omega]
  · simp [hlo]

/-- A write of ones clears the bits written as 1 (R4) and leaves the others. -/
theorem getLsbD_clearOnes {w : Nat} (a : BitVec w) (v : Word) {i : Nat} (hi : i < w) :
    (a &&& ~~~(BitVec.ofNat w v.toNat)).getLsbD i = (a.getLsbD i && !bitAt v i) := by
  simp [hi, bitAt]

/-- A register whose every set bit is written as 1 is cleared. -/
theorem clearOnes_eq_zero {w : Nat} (a : BitVec w) (v : Word) (h : ∀ i, i < w → a.getLsbD i = true → bitAt v i = true) :
    a &&& ~~~(BitVec.ofNat w v.toNat) = 0 := by
  apply BitVec.eq_of_getLsbD_eq
  intro i hi
  rw [getLsbD_clearOnes a v hi]
  cases ha : a.getLsbD i with
  | false => simp
  | true => simp [h i hi ha]

end Sys2Proof.Machine
end

section
/-! The module right after reset (O59). -/

namespace Sys2Proof.Machine

/-- Settles O59: no register is listed, so each reads its Reset value. -/
theorem resetState : Obligations.ResetState := by
  unfold Obligations.ResetState
  have hhalf : ∀ h, State.reset.half h = Half.reset := fun h => by unfold State.half; split <;> rfl
  refine ⟨State.canonical_reset, rfl, rfl, rfl, rfl, rfl, rfl, rfl, ?_, ?_, ?_, ?_⟩
  · intro g
    exact ⟨rfl, rfl, rfl, rfl, rfl, rfl, rfl, rfl, rfl, rfl⟩
  · intro c
    have hcore : State.reset.core c = Core.reset := rfl
    rw [hcore]
    exact ⟨by decide, by decide, rfl, rfl, rfl⟩
  · intro p
    exact ⟨rfl, rfl, rfl, rfl, rfl⟩
  · intro h _
    rw [hhalf]
    exact ⟨rfl, rfl, rfl, rfl, rfl, rfl⟩

end Sys2Proof.Machine
end

section
/-! Reads of registers that clear a field (O53): the fields of each image, and what a read that exists answers and leaves. -/

namespace Sys2Proof.Machine

/-! ### The fields of the images -/

theorem emptyMask_lt (k : Core) : k.emptyMask < 2 ^ 14 := maskOf_lt _ _

theorem fld_tlStat (k : Core) : fld (tlStat k) 0 14 = k.emptyMask ∧ fld (tlStat k) 16 1 = b2n k.act ∧ fld (tlStat k) 32 1 = b2n k.sxovf ∧
    fld (tlStat k) 48 16 = k.redir.toNat := by
  have := emptyMask_lt k
  have := b2n_lt k.act
  have := b2n_lt k.sxovf
  simp only [tlStat, fld_wordFields, fieldSum_cons, fieldSum_nil]
  refine ⟨?_, ?_, ?_, ?_⟩ <;> omega

/-- EMPTY of TL_STAT has a bit for each tile and, from bit 12, for each bank (R126). -/
theorem bitAt_tlStat_empty (k : Core) {i : Nat} (hi : i < 14) :
    bitAt (tlStat k) i = if i < 12 then !(k.tile i).hold else !(k.bank (i - 12)).hold := by
  obtain ⟨hempty, -, -, -⟩ := fld_tlStat k
  have h := bitAt_eq_testBit_fld (tlStat k) (lo := 0) hi
  rw [Nat.zero_add, hempty, Core.emptyMask, testBit_maskOf] at h
  rw [h, decide_eq_true hi, Bool.true_and]
  rfl

theorem bitAt_tlStat_act (k : Core) : bitAt (tlStat k) 16 = k.act := by
  obtain ⟨-, hact, -, -⟩ := fld_tlStat k
  have h := bitAt_eq_testBit_fld (tlStat k) (lo := 16) Nat.zero_lt_one
  rwa [hact, testBit_b2n_zero] at h

theorem bitAt_tlStat_sxovf (k : Core) : bitAt (tlStat k) 32 = k.sxovf := by
  obtain ⟨-, -, hsxovf, -⟩ := fld_tlStat k
  have h := bitAt_eq_testBit_fld (tlStat k) (lo := 32) Nat.zero_lt_one
  rwa [hsxovf, testBit_b2n_zero] at h

theorem fld_vcStat (k : Core) : fld (vcStat k) 48 16 = k.hold.toNat ∧ fld (vcStat k) 16 8 = min k.backlog 255 ∧
    fld (vcStat k) 0 9 = min k.chainQ.length 256 := by
  simp only [vcStat, fld_wordFields, fieldSum_cons, fieldSum_nil]
  refine ⟨?_, ?_, ?_⟩ <;> omega

theorem fld_stackStat (x : Stack) : fld (stackStat x) 48 16 = x.ce.toNat ∧ fld (stackStat x) 40 8 = x.ue.toNat ∧
    fld (stackStat x) 32 8 = x.spused.toNat ∧ fld (stackStat x) 24 8 = x.spleft.toNat ∧ fld (stackStat x) 0 2 = x.state.toNat := by
  simp only [stackStat, fld_wordFields, fieldSum_cons, fieldSum_nil]
  refine ⟨?_, ?_, ?_, ?_, ?_⟩ <;> omega

theorem fld_skBcn (x : Half) (hx : x.keyTable.length ≤ 1024) : fld (skBcn x) 32 32 = x.bcnAbs.toNat ∧ fld (skBcn x) 16 16 = x.bcnOvf.toNat ∧
    fld (skBcn x) 0 11 = x.keyTable.length := by
  simp only [skBcn, fld_wordFields, fieldSum_cons, fieldSum_nil]
  refine ⟨?_, ?_, ?_⟩ <;> omega

theorem fld_skLinkerr (p : Port) : fld (skLinkerr p) 48 16 = p.retrain.toNat ∧ fld (skLinkerr p) 32 16 = p.lfail.toNat ∧
    fld (skLinkerr p) 0 32 = p.replay.toNat := by
  simp only [skLinkerr, fld_wordFields, fieldSum_cons, fieldSum_nil]
  refine ⟨?_, ?_, ?_⟩ <;> omega

/-- Two counters of 32 bits, as DS_OOBCNT and SK_RXERR lay them out (R189, R287). -/
theorem fld_twoCounters (a b : BitVec 32) :
    fld (wordFields [(a.toNat, 0), (b.toNat, 32)]) 32 32 = b.toNat ∧ fld (wordFields [(a.toNat, 0), (b.toNat, 32)]) 0 32 = a.toNat := by
  simp only [fld_wordFields, fieldSum_cons, fieldSum_nil]
  refine ⟨?_, ?_⟩ <;> omega

/-- The counters of CE_STAT (R263). -/
theorem fld_ceStat (drop : BitVec 32) (late bad : BitVec 16) :
    let v := wordFields [(drop.toNat, 0), (late.toNat, 32), (bad.toNat, 48)]
    fld v 48 16 = bad.toNat ∧ fld v 32 16 = late.toNat ∧ fld v 0 32 = drop.toNat := by
  simp only [fld_wordFields, fieldSum_cons, fieldSum_nil]
  refine ⟨?_, ?_, ?_⟩ <;> omega

/-- A word of one counter is the counter. -/
theorem wordFields_counter_toNat {w : Nat} (hw : w ≤ 64) (a : BitVec w) : (wordFields [(a.toNat, 0)]).toNat = a.toNat := by
  have := Nat.lt_of_lt_of_le a.isLt (Nat.pow_le_pow_right Nat.two_pos hw)
  rw [wordFields_toNat, fieldSum_cons, fieldSum_nil, Nat.pow_zero, Nat.mul_one, Nat.add_zero, Nat.mod_eq_of_lt this]

/-! ### The reads -/

/-- A read of a register that exists answers its image and leaves what the read changes. -/
theorem read_of_present {i : Instr} {s t : State} {ok : Bool} {v : Word} {good : Word → Prop}
    (hexec : exec i s = .next (readAnswer ok (v, t) s)) (hok : ok = true) (hgood : good v) :
    ∃ v : Word, exec i s = .next { t with readPort := [v] } ∧ good v :=
  ⟨v, by rw [hexec, hok]; rfl, hgood⟩

/-- A read of a register that this build does not have changes nothing (R3, R49). -/
theorem read_of_absent {i : Instr} {s : State} {ok : Bool} {r : Word × State}
    (hexec : exec i s = .next (readAnswer ok r s)) (hok : ok = false) : exec i s = .next s := by
  rw [hexec, hok]; rfl

/-- Settles O53: each register by the fields of its image. -/
theorem registerReads : Obligations.RegisterReads := by
  unfold Obligations.RegisterReads
  intro s c n h b p eng cause k x y e reads
  refine ⟨fun hc => ⟨?_, ?_, ?_, ?_, ?_, ?_⟩, ?_, fun hb hh => ⟨?_, ?_⟩, ?_, ?_, ?_, ?_⟩
  · obtain ⟨-, -, -, hredir⟩ := fld_tlStat k
    refine read_of_present rfl hc ⟨hredir, bitAt_tlStat_sxovf k, bitAt_tlStat_act k, fun i hi => ?_, fun i hi => ?_⟩
    · rw [bitAt_tlStat_empty k (by omega), if_pos hi]
    · rw [bitAt_tlStat_empty k (by omega), if_neg (by omega), Nat.add_sub_cancel_left]
  · exact read_of_present rfl hc (fld_vcStat k)
  · exact read_of_present rfl hc (fld_twoCounters k.oobRd k.oobWr)
  · exact read_of_present rfl hc (wordFields_counter_toNat (by decide) k.parcnt)
  · exact read_of_present rfl hc (wordFields_counter_toNat (by decide) k.dbstat)
  · intro heng hcause
    exact read_of_present rfl (by simp [hc, heng, hcause]) rfl
  · exact fun hn => read_of_present rfl hn (fld_stackStat (x.hbm n))
  · exact read_of_present rfl (by simp [hb, hh]) (fld_ceStat _ _ _)
  · exact read_of_present rfl (by simp [hb, hh]) (fld_twoCounters _ _)
  · exact fun hh hlen => read_of_present rfl (by simp [hh]) (fld_skBcn _ hlen)
  · exact fun hp => read_of_present rfl (by simp [hp]) (fld_skLinkerr _)
  · intro hc
    simp only [List.mem_cons, List.not_mem_nil, or_false, forall_eq_or_imp, forall_eq]
    exact ⟨read_of_absent rfl hc, read_of_absent rfl hc, read_of_absent rfl hc, read_of_absent rfl hc, read_of_absent rfl hc,
      read_of_absent rfl (by simp [hc])⟩
  · exact fun hn => read_of_absent rfl hn

end Sys2Proof.Machine
end

section
/-! Writes of registers (O54): the images that a write leaves, the registers that an address of the control range names, and
the interrupts that a write ends. -/

namespace Sys2Proof.Machine

/-! ### CR_ESTAT (R63) -/

/-- IMASK after a write at M: all six bits. -/
theorem EStat.getLsbD_imask_write_machine (e : EStat) (v : Word) {i : Nat} (hi : i < 6) : (e.write v 3).imask.getLsbD i = bitAt v (8 + i) :=
  getLsbD_ofNat_fld v 8 hi

/-- IMASK after a write below M: the low four bits, IMASK[13:12] as before. -/
theorem EStat.getLsbD_imask_write (e : EStat) (v : Word) {prv : Nat} (hp : prv ≠ 3) {i : Nat} (hi : i < 6) :
    (e.write v prv).imask.getLsbD i = if i < 4 then bitAt v (8 + i) else e.imask.getLsbD i := by
  have himask : (e.write v prv).imask = BitVec.ofNat 6 (2 ^ 4 * fld e.imask 4 2 + fld v 8 4) := by
    simp [EStat.write, hp, Nat.add_comm]
  rw [himask, BitVec.getLsbD_ofNat, decide_eq_true hi, Bool.true_and, Nat.testBit_two_pow_mul_add _ (fld_lt v 8 4)]
  split
  · rw [testBit_fld]; simp [*]
  · rw [testBit_fld, decide_eq_true (by omega), Bool.true_and, bitAt, Nat.add_sub_cancel' (by omega)]

theorem EStat.write_fields (e : EStat) (v : Word) :
    let w := e.write v e.prv.toNat
    w.pmode.toNat = fld v 48 8 ∧ w.omode.toNat = fld v 40 8 ∧ w.shcnt.toNat = fld v 38 2 ∧ w.msh = bitAt v 37 ∧ w.rpt = bitAt v 36 ∧
    w.eds = bitAt v 35 ∧ w.slotb = bitAt v 34 ∧ w.ie = bitAt v 5 ∧ w.exl = bitAt v 4 ∧ w.sprv.toNat = fld v 2 2 ∧ w.prv = e.prv ∧ w.lnta = e.lnta ∧
    (∀ i, i < 4 → w.imask.getLsbD i = bitAt v (8 + i)) ∧
    (e.prv = 3 → w.nst = bitAt v 33 ∧ w.svi = bitAt v 32 ∧ ∀ i, i < 6 → w.imask.getLsbD i = bitAt v (8 + i)) ∧
    (e.prv ≠ 3 → w.nst = e.nst ∧ w.svi = e.svi ∧ ∀ i, 4 ≤ i → i < 6 → w.imask.getLsbD i = e.imask.getLsbD i) := by
  refine ⟨toNat_ofNat_fld v 48 8, toNat_ofNat_fld v 40 8, toNat_ofNat_fld v 38 2, rfl, rfl, rfl, rfl, rfl, rfl, toNat_ofNat_fld v 2 2, rfl, rfl,
    fun i hi => ?_, fun hp => ?_, fun hp => ?_⟩
  · by_cases hp : e.prv.toNat = 3
    · rw [hp, EStat.getLsbD_imask_write_machine e v (by omega)]
    · rw [EStat.getLsbD_imask_write e v hp (by omega), if_pos hi]
  · rw [hp]
    exact ⟨rfl, rfl, fun i hi => EStat.getLsbD_imask_write_machine e v hi⟩
  · have hp' : e.prv.toNat ≠ 3 := fun h => hp (BitVec.eq_of_toNat_eq h)
    refine ⟨by simp [EStat.write, hp'], by simp [EStat.write, hp'], fun i hlo hhi => ?_⟩
    rw [EStat.getLsbD_imask_write e v hp' hhi, if_neg (by omega)]

/-! ### CR_TVBASE (R64) -/

theorem getLsbD_tvbase (v : Word) (i : Nat) :
    (maskBits v 10 47 ||| maskBits v 0 0).getLsbD i = (decide (i = 0 ∨ (10 ≤ i ∧ i ≤ 47)) && v.getLsbD i) := by
  rw [BitVec.getLsbD_or, getLsbD_maskBits v (by decide), getLsbD_maskBits v (by decide), ← Bool.and_or_distrib_right, ← Bool.decide_or]
  congr 2
  simp only [Nat.zero_le, true_and, Nat.le_zero, eq_iff_iff]
  tauto

/-! ### IPEND (R63, R73) -/

/-- IPEND has an interrupt source at each of its bits. -/
theorem getLsbD_sources (b₀ b₁ b₂ b₃ b₄ b₅ : Bool) :
    let w := BitVec.ofNat 6 (b2n b₀ + 2 * b2n b₁ + 4 * b2n b₂ + 8 * b2n b₃ + 16 * b2n b₄ + 32 * b2n b₅)
    w.getLsbD 0 = b₀ ∧ w.getLsbD 1 = b₁ ∧ w.getLsbD 2 = b₂ ∧ w.getLsbD 3 = b₃ ∧ w.getLsbD 4 = b₄ ∧ w.getLsbD 5 = b₅ := by
  revert b₀ b₁ b₂ b₃ b₄ b₅; decide

theorem State.ipend_timer (s : State) (g : Nat) : (s.ipend g).getLsbD 0 =
    ((s.thread g).tcmpEn && decide ((s.thread g).tcmp.toNat ≤ (s.half (halfOfCore (coreOf g))).time.toNat % 2 ^ 63)) :=
  (getLsbD_sources _ _ _ _ _ _).1

theorem State.ipend_doorbell (s : State) (g : Nat) :
    (s.ipend g).getLsbD 1 = (s.isIrqThread g && decide ((s.core (coreOf g)).dbstat ≠ 0)) := by
  obtain ⟨-, h, -, -, -, -⟩ := getLsbD_sources _ _ _ _ _ _
  exact h

theorem State.ipend_collective (s : State) (g : Nat) : (s.ipend g).getLsbD 2 = (s.thread g).cirq := by
  obtain ⟨-, -, h, -, -, -⟩ := getLsbD_sources _ _ _ _ _ _
  exact h

theorem State.ipend_halfLink (s : State) (g : Nat) :
    (s.ipend g).getLsbD 4 = (s.isIrqThread g && decide ((s.half (halfOfCore (coreOf g))).event ≠ 0)) := by
  obtain ⟨-, -, -, -, h, -⟩ := getLsbD_sources _ _ _ _ _ _
  exact h

theorem State.ipend_power (s : State) (g : Nat) :
    (s.ipend g).getLsbD 5 = (s.isIrqThread g && decide ((s.half (halfOfCore (coreOf g))).pwEvent ≠ 0)) := by
  obtain ⟨-, -, -, -, -, h⟩ := getLsbD_sources _ _ _ _ _ _
  exact h

/-! ### The control and status range (R211) -/

theorem coreOf_lt {s : State} {g : Nat} (hg : threadPresent s.build g = true) : coreOf g < 512 := by
  simp only [threadPresent, corePresent, Bool.and_eq_true, decide_eq_true_eq] at hg
  exact hg.1

theorem core_lt {s : State} {c : Nat} (hc : corePresent s.build c = true) : c < 512 := by
  simp only [corePresent, Bool.and_eq_true, decide_eq_true_eq] at hc
  exact hc.1

/-- The address of a thread's register names that thread's copy. -/
theorem ctlDecode_thread {s : State} {g n lvl : Nat} (hg : threadPresent s.build g = true) (hn : n < 2 ^ 16)
    (hinfo : csrInfo s.build n = some (lvl, .thread)) : ctlDecode s (coreOf g * 2 ^ 23 + tidOf g * 2 ^ 19 + 8 * n) = some (n, s.csrOf g) := by
  have hc := coreOf_lt hg
  have ht : tidOf g < 16 := Nat.mod_lt _ (by decide)
  have hoff : (coreOf g * 2 ^ 23 + tidOf g * 2 ^ 19 + 8 * n) % 8 = 0 := by omega
  have hscope : (coreOf g * 2 ^ 23 + tidOf g * 2 ^ 19 + 8 * n) / 2 ^ 33 = 0 := by omega
  have hi1 : (coreOf g * 2 ^ 23 + tidOf g * 2 ^ 19 + 8 * n) / 2 ^ 23 % 1024 = coreOf g := by omega
  have hi2 : (coreOf g * 2 ^ 23 + tidOf g * 2 ^ 19 + 8 * n) / 2 ^ 19 % 16 = tidOf g := by omega
  have hreg : (coreOf g * 2 ^ 23 + tidOf g * 2 ^ 19 + 8 * n) / 8 % 2 ^ 16 = n := by omega
  have hself : coreOf g * 16 + tidOf g = g := by unfold coreOf tidOf; omega
  have hpresent : corePresent s.build (coreOf g) = true := hg
  simp only [ctlDecode, hoff, hscope, hi1, hi2, hreg, hinfo, hpresent, hself]
  simp

/-- The address of a core's register names that core's copy. -/
theorem ctlDecode_core {s : State} {c n lvl : Nat} (hc : corePresent s.build c = true) (hn : n < 2 ^ 16)
    (hinfo : csrInfo s.build n = some (lvl, .core)) : ctlDecode s (2 ^ 33 + c * 2 ^ 23 + 8 * n) = some (n, ⟨c * 16, c, (s.core c).binding.getD 0, halfOfCore c⟩) := by
  have hlt := core_lt hc
  have hoff : (2 ^ 33 + c * 2 ^ 23 + 8 * n) % 8 = 0 := by omega
  have hscope : (2 ^ 33 + c * 2 ^ 23 + 8 * n) / 2 ^ 33 = 1 := by omega
  have hi1 : (2 ^ 33 + c * 2 ^ 23 + 8 * n) / 2 ^ 23 % 1024 = c := by omega
  have hi2 : (2 ^ 33 + c * 2 ^ 23 + 8 * n) / 2 ^ 19 % 16 = 0 := by omega
  have hreg : (2 ^ 33 + c * 2 ^ 23 + 8 * n) / 8 % 2 ^ 16 = n := by omega
  have hcopy : s.csrOf (c * 16) = ⟨c * 16, c, (s.core c).binding.getD 0, halfOfCore c⟩ := by
    rw [State.csrOf, show coreOf (c * 16) = c from Nat.mul_div_cancel c (by decide)]
  simp only [ctlDecode, hoff, hscope, hi1, hi2, hreg, hinfo, hc, Nat.add_zero, hcopy]
  simp

/-- The address of a half's register names that half's copy. -/
theorem ctlDecode_half {s : State} {h n lvl : Nat} (hh : h < 2) (hn : n < 2 ^ 16)
    (hinfo : csrInfo s.build n = some (lvl, .half)) : ctlDecode s (3 * 2 ^ 33 + h * 2 ^ 19 + 8 * n) = some (n, ⟨0, 0, 0, h⟩) := by
  have hoff : (3 * 2 ^ 33 + h * 2 ^ 19 + 8 * n) % 8 = 0 := by omega
  have hscope : (3 * 2 ^ 33 + h * 2 ^ 19 + 8 * n) / 2 ^ 33 = 3 := by omega
  have hi1 : (3 * 2 ^ 33 + h * 2 ^ 19 + 8 * n) / 2 ^ 23 % 1024 = 0 := by omega
  have hi2 : (3 * 2 ^ 33 + h * 2 ^ 19 + 8 * n) / 2 ^ 19 % 16 = h := by omega
  have hreg : (3 * 2 ^ 33 + h * 2 ^ 19 + 8 * n) / 8 % 2 ^ 16 = n := by omega
  simp only [ctlDecode, hoff, hscope, hi1, hi2, hreg, hinfo]
  simp [hh]

theorem ctlDecode_unaligned (s : State) {off : Nat} (h : off % 8 ≠ 0) : ctlDecode s off = none := by
  simp [ctlDecode, h]

/-- A store to an address that names a register writes it as at M, with tag INT. -/
theorem exec_registerWrite_ctl {s : State} {off n : Nat} {x : CsrAt} (h : ctlDecode s off = some (n, x)) (v : Word) :
    exec (.registerWrite (.ctl off) v) s = .next (csrWrite s x n .int v 3) := by
  show Host.Outcome.next (doRegisterWrite s (.ctl off) v) = _
  rw [doRegisterWrite, h]

theorem exec_registerWrite_unassigned {s : State} {off : Nat} (h : ctlDecode s off = none) (v : Word) :
    exec (.registerWrite (.ctl off) v) s = .next s := by
  show Host.Outcome.next (doRegisterWrite s (.ctl off) v) = _
  rw [doRegisterWrite, h]

/-- Five rounding modes are defined (R43). -/
theorem RMode.ofBits_reserved {n : Nat} (h : 5 ≤ n) : RMode.ofBits n = none := by
  obtain ⟨m, rfl⟩ := Nat.exists_eq_add_of_le' h
  rfl

/-- A write of CR_MODE that names no rounding mode would fault as a `csrw`, and a store of it changes nothing (R43; log 79). -/
theorem csrWrite_mode_reserved (s : State) (x : CsrAt) (tag : Tag) (v : Word) (prv : Nat) (h : 5 ≤ fld v 0 3) :
    csrWrite s x 0x0010 tag v prv = s := by
  simp [csrWrite, RMode.ofBits_reserved h]

/-! ### A write that exists -/

theorem write_of_present {i : Instr} {s r : State} {ok : Bool} (hexec : exec i s = .next (writeWhere ok r s)) (hok : ok = true) :
    exec i s = .next r := by
  rw [hexec, hok]; rfl

/-! ### The interrupts that a write ends (R73) -/

theorem getLsbD_ofNat_toNat {w : Nat} (a : BitVec w) {i : Nat} (hi : i < 64) : (BitVec.ofNat 64 a.toNat).getLsbD i = a.getLsbD i := by
  rw [BitVec.getLsbD_ofNat, decide_eq_true hi, Bool.true_and, BitVec.testBit_toNat]

/-- Every set bit is written as 1: said of the register's image as a word, it holds of the register. -/
theorem ones_of_cleared {w : Nat} (hw : w ≤ 64) {a : BitVec w} {v : Word}
    (h : ∀ i, i < w → (BitVec.ofNat 64 a.toNat).getLsbD i = true → bitAt v (0 + i) = true) :
    ∀ i, i < w → a.getLsbD i = true → bitAt v i = true := fun i hi ha => by
  have := h i hi
  rw [getLsbD_ofNat_toNat a (by omega), Nat.zero_add] at this
  exact this ha

/-- HL_EVENT with every set bit written as 1 ends interrupt 0x24 of the half's threads. -/
theorem ipend_writeHlEvent (s : State) (g : Nat) (v : Word)
    (h : ∀ i, i < 4 → (BitVec.ofNat 64 (s.half (halfOfCore (coreOf g))).event.toNat).getLsbD i = true → bitAt v (0 + i) = true) :
    ((writeHlEvent s (halfOfCore (coreOf g)) v).ipend g).getLsbD 4 = false := by
  rw [State.ipend_halfLink, writeHlEvent, State.half_setHalf_same, clearOnes_eq_zero _ v (ones_of_cleared (by decide) h)]
  simp

/-- PW_EVENT with every set bit written as 1 ends interrupt 0x25 of the half's threads. -/
theorem ipend_writePwEvent (s : State) (g : Nat) (v : Word)
    (h : ∀ i, i < 6 → (BitVec.ofNat 64 (s.half (halfOfCore (coreOf g))).pwEvent.toNat).getLsbD i = true → bitAt v (0 + i) = true) :
    ((writePwEvent s (halfOfCore (coreOf g)) v).ipend g).getLsbD 5 = false := by
  rw [State.ipend_power, writePwEvent, State.half_setHalf_same, clearOnes_eq_zero _ v (ones_of_cleared (by decide) h)]
  simp

theorem ipend_writeCeBucket (s : State) (g : Nat) (v : Word) (h : bitAt v 0 = true) : ((writeCeBucket s g v).ipend g).getLsbD 2 = false := by
  rw [State.ipend_collective, writeCeBucket, State.thread_setThread_same, h]
  simp

/-- The timer is pending while it is armed and PW_TIME has reached its compare value (R307). -/
theorem ipend_writeTcmp (s : State) (g : Nat) (v : Word)
    (h : bitAt v 63 = false ∨ (s.half (halfOfCore (coreOf g))).time.toNat % 2 ^ 63 < v.toNat % 2 ^ 63) :
    ((writeTcmp s g v).ipend g).getLsbD 0 = false := by
  rw [State.ipend_timer, writeTcmp, State.thread_setThread_same, BitVec.toNat_ofNat]
  obtain hoff | hlater := h
  · simp [hoff]
  · exact Bool.and_eq_false_imp.mpr fun _ => decide_eq_false (Nat.not_le.mpr hlater)

theorem exec_kwDbstatRead {s : State} {c : Nat} (hc : corePresent s.build c = true) :
    exec (.kwDbstatRead c) s = .next ((readDbstat s c).2.answer [(readDbstat s c).1]) := by
  show Host.Outcome.next (readAnswer _ _ _) = _
  rw [hc, readAnswer_true]

theorem ipend_readDbstat (s : State) (g : Nat) : (((readDbstat s (coreOf g)).2.answer [(readDbstat s (coreOf g)).1]).ipend g).getLsbD 1 = false := by
  rw [State.ipend_doorbell, State.core_answer, readDbstat, State.core_setCore_same]
  simp

/-! ### KW_RING_CFG (R311) -/

@[simp] theorem Half.ring_setRing_same (x : Half) (f : Nat) (r : Ring) : (x.setRing f r).ring f = r := FMap.get_set_same _ _ _ _

theorem Half.ring_setRing_other (x : Half) {f i : Nat} (r : Ring) (h : i ≠ f) : (x.setRing f r).ring i = x.ring i :=
  FMap.get_set_other _ _ _ _ _ h

theorem State.half_setHalf_other (s : State) {h j : Nat} (x : Half) (hh : h < 2) (hj : j < 2) (hne : j ≠ h) : (s.setHalf h x).half j = s.half j := by
  rw [State.half_setHalf s h j x hh hj, if_neg hne]

/-- A register write through an endpoint changes the endpoint's copy. -/
theorem State.half_ringWrite_same (s : State) {ep : Nat} (hep : ep < 2) (f : Nat) (go : Ring → Ring) :
    (s.ringWrite ep f go).half ep = (s.half ep).setRing f (go ((s.half ep).ring f)) := by
  unfold State.ringWrite
  split
  · rw [State.half_setHalf_other _ _ (by omega) hep (by omega), State.half_setHalf_same]
  · rw [State.half_setHalf_same]

/-- The write reaches the other half's copy while the link is UP, and leaves that half as it was otherwise. -/
theorem State.half_ringWrite_far (s : State) {ep : Nat} (hep : ep < 2) (f : Nat) (go : Ring → Ring) :
    (s.ringWrite ep f go).half (1 - ep) =
      if s.linkUp then (s.half (1 - ep)).setRing f (go ((s.half (1 - ep)).ring f)) else s.half (1 - ep) := by
  unfold State.ringWrite
  split
  · rw [State.half_setHalf_same, State.half_setHalf_other _ _ hep (by omega) (by omega)]
  · rw [State.half_setHalf_other _ _ hep (by omega) (by omega)]

/-- The write of KW_RING_CFG: LOGN of 6 to 16 while no ring is enabled. -/
theorem doBarWrite_ringCfg (s : State) {ep f : Nat} (hep : ep < 2) (hf : f ≤ 64) (v : Word) :
    doBarWrite s ep f 0x20 v = s.ringWrite ep f (fun r =>
      if r.sqEn || r.cqEn || r.evqEn then r
      else if 6 ≤ fld v 0 5 ∧ fld v 0 5 ≤ 16 then { r with logn := BitVec.ofNat 5 (fld v 0 5) } else r) := by
  simp [doBarWrite, funcOk, hep, hf]

/-- Settles O54: each write by what its register holds, and by the interrupt source that the write clears. -/
theorem registerWrites : Obligations.RegisterWrites := by
  unfold Obligations.RegisterWrites
  intro s g c h ep f v tag t k x sets cleared ofThread ofCore
  have threadReg : ∀ {n lvl : Nat}, threadPresent s.build g = true → n < 2 ^ 16 → csrInfo s.build n = some (lvl, .thread) →
      exec (ofThread n) s = .next (csrWrite s (s.csrOf g) n .int v 3) :=
    fun hg hn hinfo => exec_registerWrite_ctl (ctlDecode_thread hg hn hinfo) v
  have coreReg : ∀ {n lvl : Nat}, corePresent s.build c = true → n < 2 ^ 16 → csrInfo s.build n = some (lvl, .core) →
      exec (ofCore n) s = .next (csrWrite s ⟨c * 16, c, k.binding.getD 0, halfOfCore c⟩ n .int v 3) :=
    fun hc hn hinfo => exec_registerWrite_ctl (ctlDecode_core hc hn hinfo) v
  refine ⟨fun hg => ⟨?_, ?_, ?_, ?_, ?_, ?_, ?_, ?_, ?_, ?_, ?_, ?_⟩, fun hc => ⟨?_, ?_, ?_, ?_, ?_, ?_, ?_⟩, fun hh => ⟨?_, ?_, ?_, ?_⟩,
    fun hg => ⟨?_, ?_, ?_⟩, ?_, ?_⟩
  -- the registers of a thread
  · exact ⟨maskBits v 3 47, write_of_present rfl hg, fun i _ => getLsbD_maskBits v (by decide) i⟩
  · exact ⟨_, write_of_present rfl hg, EStat.write_fields t.estat v⟩
  · exact ⟨_, write_of_present rfl hg, fun i hi => getLsbD_clearOnes t.fflags v hi⟩
  · exact write_of_present rfl hg
  · exact write_of_present rfl hg
  · exact threadReg hg (by decide) rfl
  · exact threadReg hg (by decide) rfl
  · exact threadReg hg (by decide) rfl
  · intro hmode
    exact (threadReg hg (by decide) rfl).trans (congrArg Host.Outcome.next (csrWrite_mode_reserved s _ .int v 3 hmode))
  · exact threadReg hg (by decide) rfl
  · exact threadReg hg (by decide) rfl
  · exact threadReg hg (by decide) rfl
  -- the registers of a core
  · exact write_of_present rfl hc
  · exact write_of_present rfl hc
  · exact ⟨_, coreReg hc (by decide) rfl, fun i _ => getLsbD_tvbase v i⟩
  · exact coreReg hc (by decide) rfl
  · exact coreReg hc (by decide) rfl
  · exact coreReg hc (by decide) rfl
  · exact coreReg hc (by decide) rfl
  -- the registers of a half
  · exact ⟨_, write_of_present rfl (decide_eq_true hh), fun i hi => getLsbD_clearOnes x.event v hi⟩
  · exact ⟨_, write_of_present rfl (decide_eq_true hh), fun i hi => getLsbD_clearOnes x.pwEvent v hi⟩
  · exact exec_registerWrite_ctl (ctlDecode_half hh (by decide) rfl) v
  · intro hcore
    subst hcore
    exact ⟨fun hone => ⟨_, write_of_present rfl (decide_eq_true hh), ipend_writeHlEvent s g v hone⟩,
      fun hone => ⟨_, write_of_present rfl (decide_eq_true hh), ipend_writePwEvent s g v hone⟩⟩
  -- the interrupts of a thread
  · exact fun hv => ⟨_, write_of_present rfl hg, ipend_writeCeBucket s g v hv⟩
  · exact fun hv => ⟨_, write_of_present rfl hg, ipend_writeTcmp s g v hv⟩
  · exact ⟨_, exec_kwDbstatRead hg, ipend_readDbstat s g⟩
  -- an address of no register, and KW_RING_CFG
  · exact fun off hoff => exec_registerWrite_unassigned (ctlDecode_unaligned s hoff) v
  · intro hep hf hsq hcq hevq hlo hhi
    refine ⟨_, congrArg Host.Outcome.next (doBarWrite_ringCfg s hep hf v), ?_, fun hdown => ?_⟩
    · rw [State.half_ringWrite_same s hep, Half.ring_setRing_same]
      simp [hsq, hcq, hevq, hlo, hhi]
    · rw [State.half_ringWrite_far s hep, if_neg (by simp [hdown])]

end Sys2Proof.Machine
end

section
/-! Rings (O37): the registers of BAR 0, their writes through an endpoint, and the reading of an entry. -/

namespace Sys2Proof.Machine

/-! ### Reads of BAR 0 (R311) -/

/-- KW_INFO. -/
theorem fld_barRead_info (s : State) {ep f : Nat} (hep : ep < 2) (hf : f ≤ 64) :
    fld (s.barRead ep f 0) 16 8 = f ∧ fld (s.barRead ep f 0) 8 8 = 0 ∧ fld (s.barRead ep f 0) 4 2 = s.build.code ∧ fld (s.barRead ep f 0) 0 1 = ep := by
  have hcode : s.build.code < 3 := by cases s.build <;> decide
  simp only [State.barRead, fld_wordFields, fieldSum_cons, fieldSum_nil]
  refine ⟨?_, ?_, ?_, ?_⟩ <;> omega

/-- A ring base register: ADDR from bit 12, EN at bit 0, and zeros between. -/
theorem extract_ringBase (a : BitVec 52) (en : Bool) :
    let v := wordFields [(a.toNat, 12), (b2n en, 0)]
    v.extractLsb' 12 52 = a ∧ v.getLsbD 0 = en ∧ v.extractLsb' 1 11 = 0 := by
  intro v
  have hv : v.toNat = a.toNat * 2 ^ 12 + b2n en := by
    have := b2n_lt en
    simp only [v, wordFields_toNat, fieldSum_cons, fieldSum_nil]
    omega
  have hen := b2n_lt en
  refine ⟨?_, ?_, ?_⟩
  · apply BitVec.eq_of_toNat_eq
    rw [BitVec.extractLsb'_toNat, hv, Nat.shiftRight_eq_div_pow]
    omega
  · show v.toNat.testBit 0 = en
    rw [hv, Nat.testBit_zero]
    cases en <;> simp [b2n] <;> omega
  · apply BitVec.eq_of_toNat_eq
    rw [BitVec.extractLsb'_toNat, hv, Nat.shiftRight_eq_div_pow]
    show _ = 0
    omega

/-! ### What a write through an endpoint leaves (R309) -/

theorem Half.setRing_journal (x : Half) (f : Nat) (r : Ring) : (x.setRing f r).journal = x.journal := rfl

@[simp] theorem State.ringWrite_cmds (s : State) (ep f : Nat) (go : Ring → Ring) : (s.ringWrite ep f go).cmds = s.cmds := by
  unfold State.ringWrite; split <;> simp
@[simp] theorem State.ringWrite_cq (s : State) (ep f : Nat) (go : Ring → Ring) : (s.ringWrite ep f go).cq = s.cq := by
  unfold State.ringWrite; split <;> simp

theorem State.linkUp_setHalf (s : State) (h : Nat) (x : Half) (hx : x.link = (s.half h).link) : (s.setHalf h x).linkUp = s.linkUp := by
  unfold State.setHalf
  split
  · next h0 =>
    subst h0
    show decide (x.link = .up) = _
    rw [hx]
    rfl
  · rfl

@[simp] theorem State.ringWrite_linkUp (s : State) (ep f : Nat) (go : Ring → Ring) : (s.ringWrite ep f go).linkUp = s.linkUp := by
  unfold State.ringWrite
  split
  · exact (State.linkUp_setHalf _ _ _ (by rfl)).trans (State.linkUp_setHalf _ _ _ (by rfl))
  · exact State.linkUp_setHalf _ _ _ (by rfl)

theorem State.linkUp_congr {s t : State} (h : t.half 0 = s.half 0) : t.linkUp = s.linkUp := by
  show decide ((t.half 0).link = .up) = decide ((s.half 0).link = .up)
  rw [h]

/-- Both copies of a function's ring registers, and those of every other function, once a write through an endpoint has changed
the halves of `s`. -/
theorem rings_of_ringWrite {s t s' : State} {c : Instr} {ep f : Nat} {go : Ring → Ring} {a b : Ring} (hep : ep < 2)
    (hexec : exec c s = .next s') (hs' : ∀ h, s'.half h = (t.ringWrite ep f go).half h) (ht : ∀ h, t.half h = s.half h)
    (ha : go ((s.half ep).ring f) = a) (hb : go ((s.half (1 - ep)).ring f) = b) :
    ∃ s', exec c s = .next s' ∧ (s'.half ep).ring f = a ∧ (s'.half (1 - ep)).ring f = (if s.linkUp then b else (s.half (1 - ep)).ring f) ∧
      (∀ i, i ≠ f → (s'.half ep).ring i = (s.half ep).ring i ∧ (s'.half (1 - ep)).ring i = (s.half (1 - ep)).ring i) := by
  have hown : s'.half ep = (s.half ep).setRing f a := by rw [hs', State.half_ringWrite_same t hep, ht, ha]
  have hfar : s'.half (1 - ep) = if s.linkUp then (s.half (1 - ep)).setRing f b else s.half (1 - ep) := by
    rw [hs', State.half_ringWrite_far t hep, State.linkUp_congr (ht 0), ht, hb]
  refine ⟨s', hexec, ?_, ?_, fun i hi => ⟨?_, ?_⟩⟩
  · rw [hown, Half.ring_setRing_same]
  · rw [hfar]
    split
    · rw [Half.ring_setRing_same]
    · rfl
  · rw [hown, Half.ring_setRing_other _ _ hi]
  · rw [hfar]
    split
    · rw [Half.ring_setRing_other _ _ hi]
    · rfl

/-! ### Doorbells (R311) -/

theorem Ring.raiseTail_eq_max (x : Ring) (n : Nat) : (if n > x.tail then { x with tail := n } else x) = { x with tail := max x.tail n } := by
  split
  · rw [Nat.max_eq_right (by omega)]
  · rw [Nat.max_eq_left (by omega)]

theorem exec_kwSqTailWrite {s : State} {ep f : Nat} (hep : ep < 2) (hf : f ≤ 64) (v : Word) :
    exec (.kwSqTailWrite ep f v) s = .next (s.ringWrite ep f (fun x => if v.toNat > x.tail then { x with tail := v.toNat } else x)) := by
  show Host.Outcome.next (doTailWrite s ep f v) = _
  simp [doTailWrite, funcOk, hep, hf]

/-! ### EN of a ring (R312) -/

/-- Posting the events that wait changes neither half. -/
theorem State.half_placeEvents (s : State) (l : List EvRec) (h : Nat) : (s.placeEvents l).half h = s.half h := by
  apply foldl_keeps _ _ (State.half · h)
  intro a e
  have hhold : ∀ t : State, (t.holdEvent e).half h = t.half h := fun t => by unfold State.holdEvent; split <;> rfl
  have hfull : a.evqFull.2.half h = a.half h := by unfold State.evqFull; split <;> rfl
  split
  · split
    · rw [hhold, hfull]
    · exact hfull
  · rw [hhold]

theorem State.half_flushEvents (s : State) (h : Nat) : s.flushEvents.half h = s.half h := by
  unfold State.flushEvents
  split
  · exact State.half_placeEvents _ _ h
  · rfl

/-- Setting EN is a write of the ring registers, after which events that wait are posted; what it does before leaves both
halves. -/
theorem doRingEnable_eq {s : State} {ep f : Nat} {r : RingSel} (hep : ep < 2) (hf : f ≤ 64) (hready : (s.half ep).ready = true)
    (hr : r = .evq → f = 0) :
    ∃ t : State, (∀ h, t.half h = s.half h) ∧ doRingEnable s ep f r = (t.ringWrite ep f (fun x => x.enable r)).flushEvents := by
  have hguard : (ep < 2 && funcOk f && (s.half ep).ready && (decide (r ≠ .evq) || decide (f = 0))) = true := by
    simp only [funcOk, hep, hf, hready, decide_true, Bool.true_and, Bool.or_eq_true, decide_eq_true_eq]
    exact (Decidable.em (r = .evq)).symm.imp_right hr
  unfold doRingEnable
  rw [if_pos hguard]
  exact ⟨_, fun h => by split <;> split <;> rfl, rfl⟩

theorem doRingDisable_eq {s : State} {ep f : Nat} (hep : ep < 2) (hf : f ≤ 64) (hcmds : ∀ c ∈ s.cmds, c.func = f → c.phase = .journalled ∨ c.phase = .final)
    (r : RingSel) : doRingDisable s ep f r = s.ringWrite ep f (fun x => x.disable r false) := by
  have hopen : s.openCmds f = false := by
    simp only [State.openCmds, List.any_eq_false, Bool.and_eq_true, bne_iff_ne, decide_eq_true_eq]
    rintro c hc ⟨⟨hfunc, hj⟩, hfin⟩
    exact (hcmds c hc hfunc).elim hj hfin
  simp [doRingDisable, funcOk, hep, hf, hopen]

/-! ### Reading an entry (R314-R316) -/

theorem State.mayRead_of {s : State} {h f : Nat} (hh : h < 2) (hf : f ≤ 64) (hready : (s.half h).ready = true) (hsq : ((s.half h).ring f).sqEn = true)
    (hsqc : ((s.half h).ring f).sqClosing = false) (hcqc : ((s.half h).ring f).cqClosing = false) (hevqc : ((s.half h).ring f).evqClosing = false)
    (htail : ((s.half h).ring f).head < ((s.half h).ring f).tail) : s.mayRead h f = true := by
  simp [State.mayRead, funcOk, hh, hf, hready, hsq, hsqc, hcqc, hevqc, htail]

/-- An entry of the wrong length or sequence number fails the first check of R316. -/
theorem State.validate_badSeq {s : State} {h f : Nat} {e buf : List Byte} (hbad : e.length ≠ 128 ∨ bytesAt e 8 8 ≠ ((s.half h).ring f).head) :
    s.validate h f e buf = some ⟨0x20, 0, 0⟩ := by
  unfold State.validate
  exact if_pos hbad

theorem State.seq_of_validate {s : State} {h f : Nat} {e buf : List Byte} (hv : s.validate h f e buf = none) :
    bytesAt e 8 8 = ((s.half h).ring f).head := by
  by_contra hne
  rw [State.validate_badSeq (Or.inr hne)] at hv
  cases hv

/-- A primary half that may read an entry rejects it with a record and passes it where it fails validation. -/
theorem doSqRead_reject {s : State} {h f : Nat} {e buf : List Byte} {r : Rej} (hmay : s.mayRead h f = true) (hp : (s.half h).pstate = .primary)
    (hv : s.validate h f e buf = some r) :
    doSqRead s h f e buf = (s.postRec h f ((s.half h).ring f).head .reject r.status r.unit r.detail [] false).nextEntry h f := by
  simp [doSqRead, hmay, hp, hv]

/-- A primary half that may read an entry journals it where it passes validation; a `PRIMACY_SET` is such an entry while the link
is UP. -/
theorem doSqRead_journal {s : State} {h f : Nat} {e buf : List Byte} (hmay : s.mayRead h f = true) (hp : (s.half h).pstate = .primary)
    (hv : s.validate h f e buf = none) (hboth : f ≠ 0 ∨ bytesAt e 7 1 ≠ 0x13 ∨ s.linkUp = true) :
    doSqRead s h f e buf = s.journalCmd h f e buf := by
  have halone : (decide (f = 0) && decide (bytesAt e 7 1 = 0x13) && (decide ((s.half h).pstate = .split) || !s.linkUp)) = false := by
    obtain hf | hopc | hup := hboth
    · simp [hf]
    · simp [hopc]
    · simp [hp, hup]
  simp only [doSqRead, halone]
  simp [hmay, hp, hv]

@[simp] theorem State.postRec_cmds (s : State) (h f seq : Nat) (kind : RecKind) (st : Nat) (u : BitVec 16) (d : Nat) (r : List Byte) (solo : Bool) :
    (s.postRec h f seq kind st u d r solo).cmds = s.cmds := by
  unfold State.postRec; dsimp only; split <;> rfl

theorem State.half_postRec (s : State) (h f seq : Nat) (kind : RecKind) (st : Nat) (u : BitVec 16) (d : Nat) (r : List Byte) (solo : Bool) (i : Nat) :
    (s.postRec h f seq kind st u d r solo).half i = s.half i := by
  unfold State.postRec; dsimp only; split <;> rfl

theorem State.nextEntry_head (s : State) {h : Nat} (hh : h < 2) (f : Nat) :
    (((s.nextEntry h f).half h).ring f).head = ((s.half h).ring f).head + 1 := by
  rw [State.nextEntry, State.half_ringWrite_same s hh, Half.ring_setRing_same]

/-- The command of a validated entry, as its journalling makes it. -/
def State.entryCmd (s : State) (h f : Nat) (e buf : List Byte) : Cmd :=
  { func := f, seq := bytesAt e 8 8, jseq := s.jnext, opc := bytesAt e 7 1, entry := e, buf := buf.take (bytesAt e 32 4), phase := .journalled
    solo := false, half := h, status := 0, unit := 0, detail := 0, result := [] }

/-- The state once a command stands in the journal of the half that read it and HEAD has passed its entry. -/
def State.journalled (s : State) (h : Nat) (c : Cmd) : State :=
  State.nextEntry ({ s with jnext := s.jnext + 1, cmds := s.cmds ++ [c] }.setHalf h { s.half h with journal := (s.half h).journal ++ [c.jseq] }) h c.func

@[simp] theorem State.journalled_cmds (s : State) (h : Nat) (c : Cmd) : (s.journalled h c).cmds = s.cmds ++ [c] := by
  simp [State.journalled, State.nextEntry]

@[simp] theorem State.journalled_linkUp (s : State) (h : Nat) (c : Cmd) : (s.journalled h c).linkUp = s.linkUp := by
  exact (State.ringWrite_linkUp _ _ _ _).trans (State.linkUp_setHalf _ _ _ (by rfl))

theorem State.half_journalled (s : State) {h : Nat} (hh : h < 2) (c : Cmd) : (s.journalled h c).half h =
    { s.half h with journal := (s.half h).journal ++ [c.jseq] }.setRing c.func { (s.half h).ring c.func with head := ((s.half h).ring c.func).head + 1 } := by
  rw [State.journalled, State.nextEntry, State.half_ringWrite_same _ hh, State.half_setHalf_same]
  rfl

theorem State.journalIn_journalled (s : State) {h : Nat} (hh : h < 2) (c : Cmd) :
    ((s.journalled h c).half (1 - h)).journalIn = (s.half (1 - h)).journalIn := by
  rw [State.journalled, State.nextEntry, State.half_ringWrite_far _ hh, State.half_setHalf_other _ _ hh (by omega) (by omega)]
  split <;> rfl

/-- Journalling of an entry that is not authenticated, by a half that is not SOLO: the other half is sent it while the link is
UP (R291). -/
theorem State.journalCmd_eq {s : State} {h : Nat} (hh : h < 2) (f : Nat) {e : List Byte} (buf : List Byte) (hsolo : (s.half h).solo = false)
    (hauth : bitAt (BitVec.ofNat 64 (bytesAt e 0 8)) 55 = false) :
    let c := s.entryCmd h f e buf
    let t := s.journalled h c
    s.journalCmd h f e buf =
      if s.linkUp then t.setHalf (1 - h) { t.half (1 - h) with journalIn := (t.half (1 - h)).journalIn ++ [c.jseq] } else t := by
  intro c t
  have hnoauth : c.auth = false := hauth
  have htsolo : (t.half h).solo = false := by
    rw [State.half_journalled s hh c]
    exact hsolo
  have ht : s.journalCmd h f e buf = if (t.half h).solo then t.acceptCmd h c true
      else if t.linkUp then t.setHalf (1 - h) { t.half (1 - h) with journalIn := (t.half (1 - h)).journalIn ++ [c.jseq] } else t := by
    simp only [State.journalCmd, Cmd.auth, Cmd.arg, hauth]
    rfl
  rw [ht, htsolo, State.journalled_linkUp]
  rfl

theorem exec_sqEntryRead {s : State} {h : Nat} (hh : h < 2) (f : Nat) (e buf : List Byte) :
    exec (.sqEntryRead h f e buf) s = .next (doSqRead s h f e buf) := by
  show Host.Outcome.next (onHalf h s _) = _
  rw [onHalf_of_lt hh]

/-- A record is posted on a completion ring that is enabled (R315). -/
theorem State.postRec_cq {s : State} {h f : Nat} (hcq : ((s.half h).ring f).cqEn = true) (seq : Nat) (kind : RecKind) (st : Nat) (u : BitVec 16)
    (d : Nat) (r : List Byte) (solo : Bool) : ∃ q : CqRec, (s.postRec h f seq kind st u d r solo).cq = s.cq ++ [q] ∧ q.kind = kind ∧ q.status = st ∧
      q.seq = seq ∧ q.func = f := by
  unfold State.postRec
  dsimp only
  rw [if_pos hcq]
  exact ⟨_, rfl, rfl, rfl, rfl, rfl⟩

/-- An entry of the wrong length or sequence number is rejected with status 0x20 and passed. -/
theorem sqEntryRead_rejects {s : State} {ep f : Nat} {e buf : List Byte} (hep : ep < 2) (hmay : s.mayRead ep f = true)
    (hp : (s.half ep).pstate = .primary) (hbad : e.length ≠ 128 ∨ bytesAt e 8 8 ≠ ((s.half ep).ring f).head)
    (hcq : ((s.half ep).ring f).cqEn = true) :
    ∃ s' q, exec (.sqEntryRead ep f e buf) s = .next s' ∧ s'.cq = s.cq ++ [q] ∧ q.kind = .reject ∧ q.status = 0x20 ∧
      q.seq = ((s.half ep).ring f).head ∧ q.func = f ∧ ((s'.half ep).ring f).head = ((s.half ep).ring f).head + 1 ∧ s'.cmds = s.cmds := by
  obtain ⟨q, hq, hkind, hstatus, hseq, hfunc⟩ := State.postRec_cq hcq ((s.half ep).ring f).head .reject 0x20 0 0 [] false
  refine ⟨_, q, exec_sqEntryRead hep f e buf, ?_⟩
  rw [doSqRead_reject hmay hp (State.validate_badSeq hbad), State.nextEntry_head _ hep, State.half_postRec]
  exact ⟨(State.ringWrite_cq _ _ _ _).trans hq, hkind, hstatus, hseq, hfunc, rfl, (State.ringWrite_cmds _ _ _ _).trans (State.postRec_cmds _ _ _ _ _ _ _ _ _ _)⟩

/-- An entry that passes validation, is not authenticated and is read by a half that is not SOLO is journalled and passed. -/
theorem sqEntryRead_journals {s : State} {ep f : Nat} {e buf : List Byte} (hep : ep < 2) (hmay : s.mayRead ep f = true)
    (hp : (s.half ep).pstate = .primary) (hv : s.validate ep f e buf = none) (hsolo : (s.half ep).solo = false)
    (hauth : bitAt (BitVec.ofNat 64 (bytesAt e 0 8)) 55 = false) (hboth : f ≠ 0 ∨ bytesAt e 7 1 ≠ 0x13 ∨ s.linkUp = true) :
    ∃ s' c, exec (.sqEntryRead ep f e buf) s = .next s' ∧ s'.cmds = s.cmds ++ [c] ∧ c.func = f ∧ c.seq = ((s.half ep).ring f).head ∧
      c.opc = bytesAt e 7 1 ∧ c.entry = e ∧ c.phase = .journalled ∧ c.half = ep ∧ (s'.half ep).journal = (s.half ep).journal ++ [c.jseq] ∧
      c.jseq = s.jnext ∧ ((s'.half ep).ring f).head = ((s.half ep).ring f).head + 1 ∧
      (s.linkUp = true → (s'.half (1 - ep)).journalIn = (s.half (1 - ep)).journalIn ++ [c.jseq]) := by
  let c := s.entryCmd ep f e buf
  let t := s.journalled ep c
  have hrun : doSqRead s ep f e buf =
      if s.linkUp then t.setHalf (1 - ep) { t.half (1 - ep) with journalIn := (t.half (1 - ep)).journalIn ++ [c.jseq] } else t :=
    (doSqRead_journal hmay hp hv hboth).trans (State.journalCmd_eq hep f buf hsolo hauth)
  have hcmds : (doSqRead s ep f e buf).cmds = s.cmds ++ [c] := by
    rw [hrun]; split <;> simp [t]
  have hown : (doSqRead s ep f e buf).half ep = t.half ep := by
    rw [hrun]
    split
    · exact State.half_setHalf_other _ _ (by omega) hep (by omega)
    · rfl
  refine ⟨_, c, exec_sqEntryRead hep f e buf, hcmds, rfl, State.seq_of_validate hv, rfl, rfl, rfl, rfl, ?_, rfl, ?_, fun hup => ?_⟩
  · rw [hown, State.half_journalled s hep c, Half.setRing_journal]
  · rw [hown, State.half_journalled s hep c, show f = c.func from rfl, Half.ring_setRing_same]
  · rw [hrun, if_pos hup, State.half_setHalf_same, State.journalIn_journalled s hep c]

/-- Settles O37: the registers by their images, each write as one write of the ring registers through an endpoint, and an entry
by its validation. -/
theorem rings : Obligations.Rings := by
  unfold Obligations.Rings
  intro s ep f v r e buf own far wrote set cleared base isOn hep hf
  refine ⟨?_, ?_, fun hready hr hown hfar => ?_, fun hcmds hown hfar => ?_, fun hready hsq hsqc hcqc hevqc htail hp => ?_⟩
  · obtain ⟨hfunc, hzero, hbuild, hhalf⟩ := fld_barRead_info s hep hf
    refine ⟨hfunc, hzero, hbuild, hhalf, extract_ringBase own.sqBase own.sqEn, extract_ringBase own.cqBase own.cqEn, fun h0 => ?_, fun h0 => if_neg h0,
      ?_, rfl, rfl⟩
    · have hevq : s.barRead ep f 0x18 = wordFields [(own.evqBase.toNat, 12), (b2n own.evqEn, 0)] := if_pos h0
      simp only [base, hevq]
      exact extract_ringBase own.evqBase own.evqEn
    · simp [State.barRead, wordFields_eq, fieldSum, own]
  · exact rings_of_ringWrite hep (exec_kwSqTailWrite hep hf v) (fun _ => rfl) (fun _ => rfl) (Ring.raiseTail_eq_max own v.toNat) (Ring.raiseTail_eq_max far v.toNat)
  · have hset : ∀ x, isOn x = false → x.enable r = set x := fun x hx => by
      cases r with
      | sq => exact if_neg (by simp [show x.sqEn = false from hx])
      | cq => rfl
      | evq => rfl
    obtain ⟨t, ht, hrun⟩ := doRingEnable_eq hep hf hready hr
    exact rings_of_ringWrite hep rfl (fun h => (congrArg (State.half · h) hrun).trans (State.half_flushEvents _ h)) ht (hset own hown) (hset far hfar)
  · have hcleared : ∀ x, isOn x = true → x.disable r false = cleared x := fun x hx => by
      cases r with
      | sq => exact if_neg (by simp [show x.sqEn = true from hx])
      | cq => exact if_neg (by simp [show x.cqEn = true from hx])
      | evq => exact if_neg (by simp [show x.evqEn = true from hx])
    exact rings_of_ringWrite hep (congrArg Host.Outcome.next (doRingDisable_eq hep hf hcmds r)) (fun _ => rfl) (fun _ => rfl)
      (hcleared own hown) (hcleared far hfar)
  · have hmay := State.mayRead_of hep hf hready hsq hsqc hcqc hevqc htail
    exact ⟨fun hbad hcq => sqEntryRead_rejects hep hmay hp hbad hcq,
      fun hv hsolo hauth hboth => sqEntryRead_journals hep hmay hp hv hsolo hauth hboth⟩

end Sys2Proof.Machine
end

section
/-! SUPPORT. Walks over a map's keys, both halves by number, and the posting of events (R339). -/

namespace Sys2Proof

/-! ### The keys of a map -/

theorem FMap.get_of_not_mem {α : Type} (d : α) {m : FMap α} {k : Nat} (h : k ∉ m.map (·.1)) : FMap.get d m k = d := by
  induction m with
  | nil => rfl
  | cons e t ih =>
    rw [List.map_cons, List.mem_cons, not_or] at h
    rw [FMap.get, if_neg h.1, ih h.2]

theorem FMap.mem_of_get_ne {α : Type} {d : α} {m : FMap α} {k : Nat} (h : FMap.get d m k ≠ d) : k ∈ m.map (·.1) :=
  Decidable.byContradiction fun hk => h (FMap.get_of_not_mem d hk)

/-- What a key reads after every key of a list has been written with its own value. -/
theorem FMap.get_foldl_set {α β : Type} [DecidableEq α] (d : α) (f : Nat → α) (l : List (Nat × β)) (m : FMap α) (j : Nat) :
    FMap.get d (l.foldl (fun a e => FMap.set d a e.1 (f e.1)) m) j = if j ∈ l.map (·.1) then f j else FMap.get d m j := by
  induction l generalizing m with
  | nil => rfl
  | cons e t ih =>
    rw [List.foldl_cons, ih, FMap.get_set]
    by_cases hj : j = e.1
    · subst hj; simp
    · simp only [List.map_cons, List.mem_cons, hj, false_or, if_false]

end Sys2Proof

namespace Sys2Proof.Machine

/-! ### Walks over bindings and threads -/

theorem State.mapBindings_bindings (s : State) (f : Nat → Binding → Binding) :
    (s.mapBindings f).bindings = s.bindings.foldl (fun a e => FMap.set Binding.empty a e.1 (f e.1 (s.binding e.1))) s.bindings :=
  (List.foldl_hom State.bindings fun _ _ => rfl).symm

/-- The walk changes every binding that is listed, and no other. -/
theorem State.binding_mapBindings (s : State) (f : Nat → Binding → Binding) (b : Nat) :
    (s.mapBindings f).binding b = if b ∈ s.bindings.map (·.1) then f b (s.binding b) else s.binding b := by
  rw [State.binding, State.mapBindings_bindings]
  exact FMap.get_foldl_set _ (fun k => f k (s.binding k)) _ _ _

theorem State.mapBindings_eq (s : State) (f : Nat → Binding → Binding) : ∃ m, s.mapBindings f = { s with bindings := m } := by
  refine List.foldlRecOn (motive := fun t : State => ∃ m, t = { s with bindings := m }) _ _ ⟨_, rfl⟩ ?_
  rintro _ ⟨m, rfl⟩ e -
  exact ⟨_, rfl⟩

theorem State.binding_listed {s : State} {b : Nat} (h : (s.binding b).live = true) : b ∈ s.bindings.map (·.1) :=
  FMap.mem_of_get_ne (d := Binding.empty) fun he => by rw [State.binding, he] at h; cases h

/-! ### The halves by number -/

/-- 0 names half 0, and every other number half 1. -/
theorem State.half_setHalf_iff (s : State) (h j : Nat) (x : Half) : (s.setHalf h x).half j = if (j = 0 ↔ h = 0) then x else s.half j := by
  by_cases hh : h = 0 <;> by_cases hj : j = 0 <;> simp [State.setHalf, State.half, hh, hj]

theorem State.half_setHalf_far (s : State) (h : Nat) (x : Half) : (s.setHalf h x).half (1 - h) = s.half (1 - h) := by
  rw [State.half_setHalf_iff, if_neg (by omega)]

theorem State.half_eq_of_iff (s : State) {h j : Nat} (hj : j = 0 ↔ h = 0) : s.half j = s.half h := by
  simp only [State.half, hj]

theorem State.setHalf_eq (s : State) (h : Nat) (x : Half) : ∃ a b, s.setHalf h x = { s with half0 := a, half1 := b } := by
  unfold State.setHalf
  split
  · exact ⟨_, _, rfl⟩
  · exact ⟨_, _, rfl⟩

/-! ### Posting events (R339) -/

/-- Events go to the ring, or wait in the keeper; a full ring is a free value. Nothing else changes. -/
theorem State.placeEvents_eq (s : State) (l : List EvRec) :
    ∃ ev n w m k, s.placeEvents l = { s with events := ev, evNext := n, evWait := w, msix := m, free := k } := by
  refine List.foldlRecOn (motive := fun t : State => ∃ ev n w m k, t = { s with events := ev, evNext := n, evWait := w, msix := m, free := k })
    _ _ ⟨_, _, _, _, _, rfl⟩ ?_
  rintro _ ⟨ev, n, w, m, k, rfl⟩ e -
  have hhold : ∀ t : State, ∃ w, t.holdEvent e = { t with evWait := w } := fun t => by
    unfold State.holdEvent; split <;> exact ⟨_, rfl⟩
  have hfull : ∀ t : State, ∃ k, t.evqFull.2 = { t with free := k } := fun t => by
    unfold State.evqFull; split <;> exact ⟨_, rfl⟩
  split
  · obtain ⟨k', hk'⟩ := hfull { s with events := ev, evNext := n, evWait := w, msix := m, free := k }
    rw [hk']
    split
    · obtain ⟨w', hw'⟩ := hhold { s with events := ev, evNext := n, evWait := w, msix := m, free := k' }
      exact ⟨_, _, _, _, _, hw'⟩
    · exact ⟨_, _, _, _, _, rfl⟩
  · obtain ⟨w', hw'⟩ := hhold { s with events := ev, evNext := n, evWait := w, msix := m, free := k }
    exact ⟨_, _, _, _, _, hw'⟩

theorem State.postEvent_eq (s : State) (e : EvRec) :
    ∃ ev n w m k, s.postEvent e = { s with events := ev, evNext := n, evWait := w, msix := m, free := k } := by
  have hflush : ∃ ev n w m k, s.flushEvents = { s with events := ev, evNext := n, evWait := w, msix := m, free := k } := by
    unfold State.flushEvents
    split
    · obtain ⟨ev, n, w, m, k, h⟩ := State.placeEvents_eq { s with evWait := [] } s.evWait
      exact ⟨ev, n, w, m, k, h⟩
    · exact ⟨_, _, _, _, _, rfl⟩
  obtain ⟨ev, n, w, m, k, h⟩ := hflush
  obtain ⟨ev', n', w', m', k', h'⟩ := State.placeEvents_eq s.flushEvents [e]
  exact ⟨ev', n', w', m', k', h'.trans (by rw [h])⟩

/-- An event takes the next slot of a ring that is enabled, has not been filled once, and for which none waits. -/
theorem State.postEvent_of_room {s : State} (hon : s.evqOn = true) (hwait : s.evWait = []) (hroom : s.evNext < s.evqSize) (e : EvRec) :
    s.postEvent e = s.pushEvent e := by
  have hflush : s.flushEvents = s := by
    obtain ⟨⟩ := s
    subst hwait
    exact if_pos hon
  have hfull : s.evqFull = (false, s) := if_pos hroom
  simp [State.postEvent, hflush, State.placeEvents, hon, hwait, hfull]

/-- The first turn of the ring: the slot has the number of the event, and PHASE is 1. -/
theorem State.pushEvent_firstTurn {s : State} (hroom : s.evNext < s.evqSize) (e : EvRec) :
    s.pushEvent e = { s with events := s.events ++ [⟨s.evNext, true, e⟩], evNext := s.evNext + 1, msix := s.msix ++ [(0, 1)] } := by
  simp [State.pushEvent, Nat.mod_eq_of_lt hroom, Nat.div_eq_of_lt hroom]

end Sys2Proof.Machine
end

section
/-! Beacons (O33): what a beacon may change, the keys that a half absorbs or enters, the packet that goes on, interrupt 0x23,
and the record of a fault. -/

namespace Sys2Proof.Machine

/-! ### What a beacon may change -/

/-- `t` is `s` after beacons: the key tables and counters of the halves, the ports, and the interrupt of bindings (R286). -/
structure State.Beaconed (s t : State) : Prop where
  rest : ∃ bs h0 h1 ps, t = { s with bindings := bs, half0 := h0, half1 := h1, ports := ps }
  half : ∀ j, ∃ keys absorbed dropped, t.half j = { s.half j with keyTable := keys, bcnAbs := absorbed, bcnOvf := dropped }
  binding : ∀ b, ∃ pend, t.binding b = { s.binding b with bcnPend := pend }

theorem State.Beaconed.refl (s : State) : s.Beaconed s :=
  ⟨⟨_, _, _, _, rfl⟩, fun _ => ⟨_, _, _, rfl⟩, fun _ => ⟨_, rfl⟩⟩

theorem State.Beaconed.trans {s t u : State} (hst : s.Beaconed t) (htu : t.Beaconed u) : s.Beaconed u := by
  refine ⟨?_, fun j => ?_, fun b => ?_⟩
  · obtain ⟨_, _, _, _, ht⟩ := hst.rest
    obtain ⟨_, _, _, _, hu⟩ := htu.rest
    exact ⟨_, _, _, _, hu.trans (by rw [ht])⟩
  · obtain ⟨_, _, _, ht⟩ := hst.half j
    obtain ⟨_, _, _, hu⟩ := htu.half j
    exact ⟨_, _, _, hu.trans (by rw [ht])⟩
  · obtain ⟨_, ht⟩ := hst.binding b
    obtain ⟨_, hu⟩ := htu.binding b
    exact ⟨_, hu.trans (by rw [ht])⟩

theorem State.beaconed_setHalf (s : State) (h : Nat) (keys : List BeaconKey) (absorbed : BitVec 32) (dropped : BitVec 16) :
    s.Beaconed (s.setHalf h { s.half h with keyTable := keys, bcnAbs := absorbed, bcnOvf := dropped }) := by
  obtain ⟨a, b, heq⟩ := State.setHalf_eq s h { s.half h with keyTable := keys, bcnAbs := absorbed, bcnOvf := dropped }
  refine ⟨⟨_, _, _, _, heq⟩, fun j => ?_, fun b => ⟨_, by rw [heq]; rfl⟩⟩
  rw [State.half_setHalf_iff]
  split
  · next hj =>
    rw [s.half_eq_of_iff hj]
    exact ⟨_, _, _, rfl⟩
  · exact ⟨_, _, _, rfl⟩

/-! ### Interrupt 0x23 (R286) -/

/-- Whether a beacon of a device concerns a binding. -/
def State.concerned (s : State) (odev : BitVec 20) (b : Nat) : Bool :=
  odev == s.devid || (s.half0.partners0 ++ s.half1.partners0).any (fun e => e.2.valid && e.2.bind == b && e.2.ddev == odev)

theorem State.binding_beaconIrq (s : State) (odev : BitVec 20) (b : Nat) : (s.beaconIrq odev).binding b =
    if (s.binding b).live && s.concerned odev b then { s.binding b with bcnPend := true } else s.binding b := by
  refine (State.binding_mapBindings s _ b).trans ?_
  by_cases hlive : (s.binding b).live = true
  · exact if_pos (State.binding_listed hlive)
  · rw [Bool.not_eq_true] at hlive
    simp [hlive]

theorem State.beaconIrq_eq (s : State) (odev : BitVec 20) : ∃ m, s.beaconIrq odev = { s with bindings := m } := State.mapBindings_eq _ _

theorem State.half_beaconIrq (s : State) (odev : BitVec 20) (h : Nat) : (s.beaconIrq odev).half h = s.half h := by
  obtain ⟨_, heq⟩ := s.beaconIrq_eq odev
  rw [heq]; rfl

theorem State.beaconIrq_ports (s : State) (odev : BitVec 20) : (s.beaconIrq odev).ports = s.ports := by
  obtain ⟨_, heq⟩ := s.beaconIrq_eq odev
  rw [heq]

theorem State.beaconed_beaconIrq (s : State) (odev : BitVec 20) : s.Beaconed (s.beaconIrq odev) := by
  obtain ⟨_, heq⟩ := s.beaconIrq_eq odev
  refine ⟨⟨_, _, _, _, heq⟩, fun j => ⟨_, _, _, s.half_beaconIrq odev j⟩, fun b => ?_⟩
  rw [State.binding_beaconIrq]
  split
  · exact ⟨_, rfl⟩
  · exact ⟨_, rfl⟩

/-! ### The packet that goes on (R286) -/

/-- One port's turn in `floodBeacon`. -/
def State.carryBeacon (h : Nat) (q : Packet) (fromPort : Nat) (s : State) (p : Nat) : State :=
  if p ≠ fromPort ∧ (s.port p).state = .up ∧ (halfOfPort p = h ∨ (s.half h).link = .up) then s.output p { q with hidx := q.hidx + 1 } else s

theorem State.floodBeacon_eq_foldl (s : State) (h : Nat) {q : Packet} (fromPort : Nat) (hq : q.hidx < 15) :
    s.floodBeacon h q fromPort = (List.range 24).foldl (State.carryBeacon h q fromPort) s := if_pos hq

theorem State.floodBeacon_spent (s : State) (h : Nat) {q : Packet} (fromPort : Nat) (hq : 15 ≤ q.hidx) : s.floodBeacon h q fromPort = s :=
  if_neg (by omega)

theorem State.carryBeacon_eq (h : Nat) (q : Packet) (fromPort : Nat) (s : State) (p : Nat) :
    ∃ ps, s.carryBeacon h q fromPort p = { s with ports := ps } := by
  unfold State.carryBeacon
  split
  · exact ⟨_, rfl⟩
  · exact ⟨_, rfl⟩

theorem State.port_carryBeacon_other {h : Nat} {q : Packet} {fromPort : Nat} (s : State) {p j : Nat} (hj : j ≠ p) :
    (s.carryBeacon h q fromPort p).port j = s.port j := by
  unfold State.carryBeacon
  split
  · rw [State.output, State.port_setPort, if_neg hj]
  · rfl

theorem State.port_carryBeacon_same (h : Nat) (q : Packet) (fromPort : Nat) (s : State) (p : Nat) : (s.carryBeacon h q fromPort p).port p =
    if p ≠ fromPort ∧ (s.port p).state = .up ∧ (halfOfPort p = h ∨ (s.half h).link = .up) then
      Port.pump { s.port p with outQ := (s.port p).outQ ++ [{ q with hidx := q.hidx + 1 }] }
    else s.port p := by
  unfold State.carryBeacon
  split
  · rw [State.output, State.port_setPort_same]
  · rfl

theorem State.floodBeacon_eq (s : State) (h : Nat) (q : Packet) (fromPort : Nat) : ∃ ps, s.floodBeacon h q fromPort = { s with ports := ps } := by
  obtain hq | hq := Nat.lt_or_ge q.hidx 15
  · rw [State.floodBeacon_eq_foldl s h fromPort hq]
    refine List.foldlRecOn (motive := fun t : State => ∃ ps, t = { s with ports := ps }) _ _ ⟨_, rfl⟩ ?_
    rintro _ ⟨ps, rfl⟩ p -
    obtain ⟨ps', hps'⟩ := State.carryBeacon_eq h q fromPort { s with ports := ps } p
    exact ⟨ps', hps'⟩
  · exact ⟨_, State.floodBeacon_spent s h fromPort hq⟩

theorem State.half_floodBeacon (s : State) (h : Nat) (q : Packet) (fromPort j : Nat) : (s.floodBeacon h q fromPort).half j = s.half j := by
  obtain ⟨_, heq⟩ := s.floodBeacon_eq h q fromPort
  rw [heq]; rfl

theorem State.binding_floodBeacon (s : State) (h : Nat) (q : Packet) (fromPort b : Nat) :
    (s.floodBeacon h q fromPort).binding b = s.binding b := by
  obtain ⟨_, heq⟩ := s.floodBeacon_eq h q fromPort
  rw [heq]; rfl

theorem State.floodBeacon_devid (s : State) (h : Nat) (q : Packet) (fromPort : Nat) : (s.floodBeacon h q fromPort).devid = s.devid := by
  obtain ⟨_, heq⟩ := s.floodBeacon_eq h q fromPort
  rw [heq]

theorem State.beaconed_floodBeacon (s : State) (h : Nat) (q : Packet) (fromPort : Nat) : s.Beaconed (s.floodBeacon h q fromPort) := by
  obtain ⟨_, heq⟩ := s.floodBeacon_eq h q fromPort
  exact ⟨⟨_, _, _, _, heq⟩, fun j => ⟨_, _, _, s.half_floodBeacon h q fromPort j⟩, fun b => ⟨_, s.binding_floodBeacon h q fromPort b⟩⟩

/-- A port that has had its turn is left alone by the turns of the others. -/
theorem State.port_foldl_carryBeacon {h : Nat} {q : Packet} {fromPort : Nat} {l : List Nat} (hl : l.Nodup) (s : State) {p : Nat} (hp : p ∈ l) :
    (l.foldl (State.carryBeacon h q fromPort) s).port p = (s.carryBeacon h q fromPort p).port p := by
  obtain ⟨l₁, l₂, rfl⟩ := List.append_of_mem hp
  have hl₁ : p ∉ l₁ := fun hm => List.disjoint_of_nodup_append hl hm List.mem_cons_self
  have hl₂ : p ∉ l₂ := (List.nodup_cons.mp hl.of_append_right).1
  have hkeep : ∀ (l : List Nat) (t : State), p ∉ l →
      (l.foldl (State.carryBeacon h q fromPort) t).port p = t.port p ∧ ∀ j, (l.foldl (State.carryBeacon h q fromPort) t).half j = t.half j := by
    intro l t hm
    refine List.foldlRecOn (motive := fun a : State => a.port p = t.port p ∧ ∀ j, a.half j = t.half j) _ _ ⟨rfl, fun _ => rfl⟩ ?_
    rintro a ⟨hport, hhalf⟩ x hx
    obtain ⟨_, heq⟩ := State.carryBeacon_eq h q fromPort a x
    refine ⟨(State.port_carryBeacon_other a (ne_of_mem_of_not_mem hx hm).symm).trans hport, fun j => ?_⟩
    rw [heq, ← hhalf j]; rfl
  obtain ⟨hport, hhalf⟩ := hkeep l₁ s hl₁
  rw [List.foldl_append, List.foldl_cons, (hkeep l₂ _ hl₂).1, State.port_carryBeacon_same, State.port_carryBeacon_same, hport, hhalf]

/-- Every UP port within reach but the one of arrival puts out the packet with HIDX raised. -/
theorem State.port_floodBeacon {s : State} {h : Nat} {q : Packet} {fromPort p : Nat} (hq : q.hidx < 15) (hp : p < 24) (hne : p ≠ fromPort)
    (hup : (s.port p).state = .up) (hreach : portHalf p = h ∨ (s.half h).link = .up) :
    (s.floodBeacon h q fromPort).port p = Port.pump { s.port p with outQ := (s.port p).outQ ++ [{ q with hidx := q.hidx + 1 }] } := by
  have hhalf : halfOfPort p = portHalf p := (if_pos hp).symm
  rw [State.floodBeacon_eq_foldl s h fromPort hq, State.port_foldl_carryBeacon List.nodup_range s (List.mem_range.mpr hp),
    State.port_carryBeacon_same, if_pos ⟨hne, hup, hhalf ▸ hreach⟩]

/-! ### One packet on an idle port (R266, R268, R282) -/

/-- A lone packet that goes out now leaves the queue and takes its channel's credits. -/
theorem Port.choose_lone {x : Port} {k : Packet} (hout : x.outQ = [k]) (hsends : Port.sendsNow { x with outQ := [] } [] k = true) :
    x.choose = ({ x with outQ := [], credits := FMap.set 0 x.credits (packetVc k) (x.credit (packetVc k) - packetUnits k) }, [k]) := by
  rw [Port.choose, hout, List.foldl_cons, List.foldl_nil, if_pos hsends]
  rfl

/-- A lone packet of one flit's content goes out in one flit. -/
theorem Port.replayBuf_pump_lone {x : Port} {k : Packet} (hout : x.outQ = [k]) (hsends : Port.sendsNow { x with outQ := [] } [] k = true)
    (hone : cdiv (packetContent k) 240 = 1) (hfit : k.bytes.length ≤ 240) :
    ∃ f : Flit, x.pump.replayBuf = x.replayBuf ++ [f] ∧ f.content = k.bytes ++ List.replicate (240 - k.bytes.length) 0#8 := by
  have hlen : contentOf [k] = packetContent k := Nat.zero_add _
  have htake : (([k].map Packet.bytes).flatten.drop (240 * 0)).take 240 = k.bytes := by simpa using hfit
  simp only [Port.pump, Port.choose_lone hout hsends, hlen, hone, Port.sendBytes, upto, List.range_one, List.foldl_cons, List.foldl_nil, htake]
  exact ⟨_, rfl, rfl⟩

theorem length_leBytes (n v : Nat) : (leBytes n v).length = n := by
  induction n generalizing v with
  | zero => rfl
  | succ n ih => rw [leBytes, List.length_cons, ih]

theorem Packet.length_header (k : Packet) : k.header.length = 32 := by simp [Packet.header, length_leBytes]

section
variable {k : Packet} {fe : BitVec 32} {od : BitVec 20} {fc : BitVec 8} (hbody : k.body = .beacon fe od fc)
include hbody

/-- The content of a beacon packet: a header and the 16 bytes of its record (R285). -/
theorem packetContent_beacon : packetContent k = 48 := by simp [packetContent, hbody, bodyLen, cdiv]

theorem Packet.length_bytes_beacon : k.bytes.length = 48 := by
  simp [Packet.bytes, Packet.length_header, packetContent_beacon hbody, hbody, Payload.data, bodyLen, beaconBytes, length_leBytes]

/-- A beacon goes out at once from an idle UP port with a credit of channel 3 and room in its replay buffer. -/
theorem Port.replayBuf_pump_beacon {x : Port} (htype : k.ptype = .beacon) (hup : x.state = .up) (hout : x.outQ = []) (hroom : x.replayBuf.length < 512)
    (hidle : x.retraining = false) (hcredit : 0 < FMap.get 0 x.credits 3) :
    ∃ f : Flit, (Port.pump { x with outQ := x.outQ ++ [k] }).replayBuf = x.replayBuf ++ [f] ∧ f.content = k.bytes ++ List.replicate (240 - k.bytes.length) 0#8 := by
  have hvc : packetVc k = 3 := if_pos htype
  have hunits : packetUnits k = 1 := by rw [packetUnits, packetContent_beacon hbody]; rfl
  have hsends : Port.sendsNow { x with outQ := [] } [] k = true := by
    have hcontent : cdiv (contentOf [] + packetContent k) 240 = 1 := by rw [packetContent_beacon hbody]; rfl
    simp only [Port.sendsNow, Port.mayCarry, Port.credit, hidle, hup, hvc, hunits, hcontent]
    simp only [List.all_nil, Bool.and_true, decide_eq_true (show 1 ≤ FMap.get 0 x.credits 3 from hcredit),
      decide_eq_true (show x.replayBuf.length + 1 ≤ 512 from hroom)]
    rfl
  exact Port.replayBuf_pump_lone (x := { x with outQ := x.outQ ++ [k] }) (by rw [hout]; rfl) hsends
    (by rw [packetContent_beacon hbody]; rfl) (by rw [Packet.length_bytes_beacon hbody]; decide)

end

/-! ### A key is absorbed or entered (R286) -/

theorem BeaconKey.same_iff {k e : BeaconKey} : k.same e = true ↔ e.odev = k.odev ∧ e.unit = k.unit ∧ e.fepoch = k.fepoch := by
  simp [BeaconKey.same, and_assoc]

theorem any_same_iff {k : BeaconKey} {l : List BeaconKey} :
    l.any k.same = true ↔ ∃ e ∈ l, e.odev = k.odev ∧ e.unit = k.unit ∧ e.fepoch = k.fepoch := by
  simp only [List.any_eq_true, BeaconKey.same_iff]

section
variable (s : State) (h : Nat) (k : BeaconKey) (q : Packet) (fromPort : Nat)

/-- Neither the half's table nor, while the half link is UP, that of the other half has a key. -/
def State.newKey : Prop := (s.half h).keyTable.any k.same = false ∧ ¬ ((s.half h).link = .up ∧ (s.half (1 - h)).keyTable.any k.same = true)

variable {s h k}

theorem State.enterBeacon_held (hheld : (s.half h).keyTable.any k.same = true) :
    s.enterBeacon h k q fromPort = s.setHalf h (Half.countKey { s.half h with bcnAbs := satAdd (s.half h).bcnAbs 1 } k) := if_pos hheld

theorem State.enterBeacon_heldFar (hnew : (s.half h).keyTable.any k.same = false) (hup : (s.half h).link = .up)
    (hheld : (s.half (1 - h)).keyTable.any k.same = true) :
    s.enterBeacon h k q fromPort =
      (s.setHalf h { s.half h with bcnAbs := satAdd (s.half h).bcnAbs 1 }).setHalf (1 - h) ((s.half (1 - h)).countKey k) := by
  rw [State.enterBeacon, if_neg (by simp [hnew]), if_pos ⟨hup, hheld⟩]

theorem State.enterBeacon_entered (hnew : s.newKey h k) (hroom : (s.half h).keyTable.length < 1024) :
    s.enterBeacon h k q fromPort =
      ((s.setHalf h { s.half h with keyTable := (s.half h).keyTable ++ [{ k with count := 1 }] }).floodBeacon h q fromPort).beaconIrq k.odev := by
  rw [State.enterBeacon, if_neg (by simp [hnew.1]), if_neg hnew.2, if_pos hroom]

theorem State.enterBeacon_over (hnew : s.newKey h k) (hfull : 1024 ≤ (s.half h).keyTable.length) :
    s.enterBeacon h k q fromPort = (s.setHalf h { s.half h with bcnOvf := satAdd (s.half h).bcnOvf 1 }).floodBeacon h q fromPort := by
  rw [State.enterBeacon, if_neg (by simp [hnew.1]), if_neg hnew.2, if_neg (by omega)]

theorem State.beaconed_enterBeacon : s.Beaconed (s.enterBeacon h k q fromPort) := by
  by_cases hheld : (s.half h).keyTable.any k.same = true
  · rw [State.enterBeacon_held q fromPort hheld]
    exact State.beaconed_setHalf _ _ _ _ _
  rw [Bool.not_eq_true] at hheld
  by_cases hfar : (s.half h).link = .up ∧ (s.half (1 - h)).keyTable.any k.same = true
  · rw [State.enterBeacon_heldFar q fromPort hheld hfar.1 hfar.2, ← State.half_setHalf_far s h { s.half h with bcnAbs := satAdd (s.half h).bcnAbs 1 }]
    exact (State.beaconed_setHalf _ _ _ _ _).trans (State.beaconed_setHalf _ _ _ _ _)
  obtain hroom | hfull := Nat.lt_or_ge (s.half h).keyTable.length 1024
  · rw [State.enterBeacon_entered q fromPort ⟨hheld, hfar⟩ hroom]
    exact ((State.beaconed_setHalf _ _ _ _ _).trans (State.beaconed_floodBeacon _ _ _ _)).trans (State.beaconed_beaconIrq _ _)
  · rw [State.enterBeacon_over q fromPort ⟨hheld, hfar⟩ hfull]
    exact (State.beaconed_setHalf _ _ _ _ _).trans (State.beaconed_floodBeacon _ _ _ _)

end

/-! ### A beacon arrives, and its 10 ms are over -/

theorem State.popRx_cons {s : State} {p : Nat} {k : Packet} {rest : List Packet} (hq : (s.port p).rxQ = k :: rest) :
    s.popRx p = s.setPort p { s.port p with rxQ := rest
                                            owed := FMap.set 0 (s.port p).owed (packetVc k) (FMap.get 0 (s.port p).owed (packetVc k) + packetUnits k) } := by
  simp only [State.popRx, hq]
  rfl

/-- A beacon with a good ECRC leaves its port's queue, and its key is looked up. -/
theorem exec_beaconReceive {s : State} {p : Nat} {k : Packet} {rest : List Packet} {fe : BitVec 32} {od : BitVec 20} {fc : BitVec 8}
    (hq : (s.port p).rxQ = k :: rest) (htype : k.ptype = .beacon) (hcrc : k.crcOk = true) (hbody : k.body = .beacon fe od fc) :
    exec (.beaconReceive p) s = .next
      ((s.popRx p).enterBeacon (portHalf p) ⟨BitVec.ofNat 20 (fld k.rw2 44 20), BitVec.ofNat 16 (fld k.rw2 28 16), fe, fc, 0⟩ k p) := by
  have harrived : s.arrived p .beacon = some k := by simp [State.arrived, hq, htype]
  have haccepts : ∀ t : State, t.accepts (portHalf p) k = true := fun t => by unfold State.accepts; rw [htype]
  show Host.Outcome.next (doBeaconReceive s p) = _
  simp [doBeaconReceive, State.receive, harrived, anyPacket, hcrc, haccepts, hbody]

theorem exec_beaconKeyTimeout {s : State} {h i : Nat} {e : BeaconKey} (hh : h < 2) (he : (s.half h).keyTable[i]? = some e) :
    exec (.beaconKeyTimeout h i) s = .next
      ((s.setHalf h { s.half h with keyTable := (s.half h).keyTable.eraseIdx i }).postEvent ⟨1, e.unit, e.fepoch, e.odev, e.count, [e.fclass.toNat]⟩) := by
  show Host.Outcome.next (onHalf h s _) = _
  rw [onHalf_of_lt hh]
  simp only [doBeaconTimeout, he]

/-- Beacons leave the PF's rings. -/
theorem State.Beaconed.pfRing {s t : State} (hst : s.Beaconed t) : t.pfRing = s.pfRing := by
  have hring : ∀ j, (t.half j).ring 0 = (s.half j).ring 0 := fun j => by
    obtain ⟨_, _, _, heq⟩ := hst.half j
    rw [heq]; rfl
  have hstate : ∀ j, (t.half j).pstate = (s.half j).pstate := fun j => by
    obtain ⟨_, _, _, heq⟩ := hst.half j
    rw [heq]
  have h0 : t.half0.ring 0 = s.half0.ring 0 := hring 0
  have h1 : t.half1.ring 0 = s.half1.ring 0 := hring 1
  have p0 : t.half0.pstate = s.half0.pstate := hstate 0
  have p1 : t.half1.pstate = s.half1.pstate := hstate 1
  simp only [State.pfRing, h0, h1, p0, p1]

/-- Once a key's 10 ms are over, its event takes the next slot of a ring that has room for it. -/
theorem State.postEvent_keyFreed {s : State} {h : Nat} {keys : List BeaconKey} (hon : s.evqOn = true) (hwait : s.evWait = [])
    (hroom : s.evNext < s.evqSize) (e : EvRec) :
    let t := s.setHalf h { s.half h with keyTable := keys }
    t.postEvent e = { t with events := s.events ++ [⟨s.evNext, true, e⟩], evNext := s.evNext + 1, msix := s.msix ++ [(0, 1)] } := by
  intro t
  have hring : t.pfRing = s.pfRing := (State.beaconed_setHalf s h keys (s.half h).bcnAbs (s.half h).bcnOvf).pfRing
  have hsize : t.evqSize = s.evqSize := by rw [State.evqSize, hring]; rfl
  have hroom' : t.evNext < t.evqSize := by rw [hsize, State.setHalf_evNext]; exact hroom
  rw [State.postEvent_of_room (by rw [State.evqOn, hring]; exact hon) (by rw [State.setHalf_evWait]; exact hwait) hroom',
    State.pushEvent_firstTurn hroom', State.setHalf_events, State.setHalf_evNext, State.setHalf_msix]

end Sys2Proof.Machine
end

section
/-! The settling of O33: a beacon's arrival by cases of its key, the end of its 10 ms, and a fault's record. -/

namespace Sys2Proof.Machine

/-! ### A key that is entered -/

section
variable {s : State} {h : Nat} {k : BeaconKey} {q : Packet} {fromPort : Nat} (hnew : s.newKey h k) (hroom : (s.half h).keyTable.length < 1024)
include hnew hroom

theorem State.keyTable_enterBeacon : ((s.enterBeacon h k q fromPort).half h).keyTable = (s.half h).keyTable ++ [{ k with count := 1 }] := by
  rw [State.enterBeacon_entered q fromPort hnew hroom, State.half_beaconIrq, State.half_floodBeacon, State.half_setHalf_same]

/-- Every binding takes interrupt 0x23 of a beacon of the own device. -/
theorem State.bcnPend_enterBeacon_own (hown : k.odev = s.devid) {b : Nat} (hlive : (s.binding b).live = true) :
    ((s.enterBeacon h k q fromPort).binding b).bcnPend = true := by
  have hconcerned : ∀ t : State, t.devid = s.devid → t.concerned k.odev b = true := fun t ht => by simp [State.concerned, ht, hown]
  rw [State.enterBeacon_entered q fromPort hnew hroom, State.binding_beaconIrq, State.binding_floodBeacon, State.binding_setHalf, hlive,
    hconcerned _ (by rw [State.floodBeacon_devid, State.setHalf_devid])]
  rfl

theorem State.binding_enterBeacon_idle {b : Nat} (hidle : (s.binding b).live = false) : (s.enterBeacon h k q fromPort).binding b = s.binding b := by
  rw [State.enterBeacon_entered q fromPort hnew hroom, State.binding_beaconIrq, State.binding_floodBeacon, State.binding_setHalf, hidle]
  rfl

theorem State.port_enterBeacon (hq : q.hidx < 15) {p : Nat} (hp : p < 24) (hne : p ≠ fromPort) (hup : (s.port p).state = .up)
    (hreach : portHalf p = h ∨ (s.half h).link = .up) :
    (s.enterBeacon h k q fromPort).port p = Port.pump { s.port p with outQ := (s.port p).outQ ++ [{ q with hidx := q.hidx + 1 }] } := by
  rw [State.enterBeacon_entered q fromPort hnew hroom, State.port, State.beaconIrq_ports]
  refine (State.port_floodBeacon hq hp hne (by rw [State.port_setHalf]; exact hup) ?_).trans (by rw [State.port_setHalf])
  rw [State.half_setHalf_same]
  exact hreach

theorem State.ports_enterBeacon_spent (hq : 15 ≤ q.hidx) : (s.enterBeacon h k q fromPort).ports = s.ports := by
  rw [State.enterBeacon_entered q fromPort hnew hroom, State.beaconIrq_ports, State.floodBeacon_spent _ _ _ hq, State.setHalf_ports]

end

/-! ### The record of a fault (R10, R285, R375) -/

/-- The state once a fault's epoch has risen and its record is kept, before its beacon. -/
def State.faultKept (s : State) (u : BitVec 16) : State :=
  State.setHalf { s with fepochs := FMap.set 0#32 s.fepochs u.toNat (s.fepoch u + 1) } (unitHalf u)
    ((s.half (unitHalf u)).addFault ⟨u, s.fepoch u + 1, s.physOf u, none⟩)

theorem State.beaconed_recordFault (s : State) (u : BitVec 16) (fclass : Nat) : (s.faultKept u).Beaconed (s.recordFault u fclass) :=
  State.beaconed_enterBeacon _ _

/-- What the record of a fault may change. -/
theorem State.recordFault_eq (s : State) (u : BitVec 16) (fclass : Nat) : ∃ bs h0 h1 ps, s.recordFault u fclass =
    { s with fepochs := FMap.set 0#32 s.fepochs u.toNat (s.fepoch u + 1), bindings := bs, half0 := h0, half1 := h1, ports := ps } := by
  obtain ⟨_, _, _, _, heq⟩ := (s.beaconed_recordFault u fclass).rest
  obtain ⟨_, _, hkept⟩ := State.setHalf_eq { s with fepochs := FMap.set 0#32 s.fepochs u.toNat (s.fepoch u + 1) } (unitHalf u)
    ((s.half (unitHalf u)).addFault ⟨u, s.fepoch u + 1, s.physOf u, none⟩)
  exact ⟨_, _, _, _, heq.trans (by rw [State.faultKept, hkept])⟩

theorem State.fepoch_recordFault (s : State) (u v : BitVec 16) (fclass : Nat) :
    (s.recordFault u fclass).fepoch v = if v = u then s.fepoch u + 1 else s.fepoch v := by
  obtain ⟨_, _, _, _, heq⟩ := s.recordFault_eq u fclass
  rw [heq, State.fepoch, FMap.get_set]
  simp only [BitVec.toNat_inj]
  rfl

theorem State.faults_recordFault (s : State) (u : BitVec 16) (fclass : Nat) : ((s.recordFault u fclass).half (unitHalf u)).faults =
    ((s.half (unitHalf u)).addFault ⟨u, s.fepoch u + 1, s.physOf u, none⟩).faults := by
  obtain ⟨_, _, _, heq⟩ := (s.beaconed_recordFault u fclass).half (unitHalf u)
  rw [heq, State.faultKept, State.half_setHalf_same]

theorem Half.getLast?_faults_addFault (x : Half) (f : FaultRec) : (x.addFault f).faults.getLast? = some f := by
  rw [Half.addFault, List.getLast?_drop, if_neg (by simp), List.getLast?_concat]

theorem Half.length_faults_addFault (x : Half) (f : FaultRec) : (x.addFault f).faults.length ≤ 64 := by
  simp [Half.addFault]; omega

/-- Settles O33: a beacon's arrival by cases of its key, the event of a key by the room in the ring, and a fault by its record. -/
theorem beacons : Obligations.Beacons := by
  unfold Obligations.Beacons
  intro s p k rest fe fc od h popped x y bk same counted fresh
  refine ⟨fun hp hq htype hcrc hbody => ?_, fun i e hh he hon hwait hroom => ?_, fun u fclass => ?_⟩
  · have hexec : exec (.beaconReceive p) s = .next (popped.enterBeacon h bk k p) := by
      rw [exec_beaconReceive hq htype hcrc hbody, State.popRx_cons hq]
    have hheld : x.keyTable.any bk.same = true ↔ ∃ e ∈ x.keyTable, same e := any_same_iff
    have hfar : y.keyTable.any bk.same = true ↔ ∃ e ∈ y.keyTable, same e := any_same_iff
    have hnone : (∀ e ∈ x.keyTable, ¬ same e) → x.keyTable.any bk.same = false := fun hn =>
      Bool.eq_false_iff.mpr fun ha => by obtain ⟨e, he, hs⟩ := hheld.mp ha; exact hn e he hs
    have hnew : fresh → popped.newKey h bk := fun ⟨hx, hy⟩ =>
      ⟨hnone hx, fun ⟨hup, ha⟩ => by obtain ⟨e, he, hs⟩ := hfar.mp ha; exact hy hup e he hs⟩
    refine ⟨fun hs => ?_, fun hn hup hs => ?_, fun hf hroom => ⟨_, hexec, ?_, fun hown b => ?_, fun b => ?_,
      fun q hq24 hne hreach hup hout hbuf hidle hcr hhidx => ?_, fun hhidx => ?_⟩, fun hf hfull => ⟨_, hexec, ?_, ?_⟩⟩
    · rw [hexec, State.enterBeacon_held (s := popped) _ _ (hheld.mpr hs)]
      rfl
    · rw [hexec, State.enterBeacon_heldFar (s := popped) _ _ (hnone hn) hup (hfar.mpr hs)]
      rfl
    · exact State.keyTable_enterBeacon (hnew hf) hroom
    · exact State.bcnPend_enterBeacon_own (hnew hf) hroom hown
    · exact State.binding_enterBeacon_idle (hnew hf) hroom
    · have hport : popped.port q = s.port q := by rw [State.port_setPort, if_neg hne]
      rw [State.port_enterBeacon (hnew hf) hroom hhidx hq24 hne (by rw [hport]; exact hup) hreach, hport]
      obtain ⟨f, hbuf', hcontent⟩ := Port.replayBuf_pump_beacon (k := { k with hidx := k.hidx + 1 }) hbody htype hup hout hbuf hidle hcr
      refine ⟨f, hbuf', hcontent.trans ?_⟩
      rw [Packet.length_bytes_beacon (k := { k with hidx := k.hidx + 1 }) hbody, Packet.length_bytes_beacon hbody]
      rfl
    · exact State.ports_enterBeacon_spent (hnew hf) hroom hhidx
    · rw [State.enterBeacon_over _ _ (hnew hf) hfull, State.half_floodBeacon, State.half_setHalf_same]
      rfl
    · rw [State.enterBeacon_over _ _ (hnew hf) hfull, State.half_floodBeacon, State.half_setHalf_same]
      rfl
  · refine ⟨_, exec_beaconKeyTimeout hh he, ?_⟩
    rw [State.postEvent_keyFreed hon hwait hroom]
    exact ⟨congrArg Half.keyTable (State.half_setHalf_same s h _), rfl, rfl, rfl⟩
  · obtain ⟨_, _, _, _, heq⟩ := s.recordFault_eq u fclass
    refine ⟨?_, fun v hv => ?_, by rw [heq], by rw [heq], by rw [heq], ?_, ?_⟩
    · rw [State.fepoch_recordFault, if_pos rfl]
    · rw [State.fepoch_recordFault, if_neg hv]
    · rw [State.faults_recordFault, Half.getLast?_faults_addFault]
    · rw [State.faults_recordFault]
      exact Half.length_faults_addFault _ _

end Sys2Proof.Machine
end

section
/-! SUPPORT. What halting, scrubbing and restoring bindings leave: the units of the module, and every other binding (R333, R352). -/

namespace Sys2Proof

/-- A key that a write lists was listed, or is the key written. -/
theorem FMap.mem_keys_set {α : Type} [DecidableEq α] {d : α} {m : FMap α} {k : Nat} {v : α} {j : Nat}
    (h : j ∈ (FMap.set d m k v).map (·.1)) : j = k ∨ j ∈ m.map (·.1) := by
  unfold FMap.set at h
  split at h
  · rw [FMap.del_eq_filter] at h
    exact Or.inr ((List.filter_sublist.map _).subset h)
  · induction m with
    | nil => exact Or.inl (by simpa [FMap.ins] using h)
    | cons e t ih =>
      simp only [FMap.ins] at h
      split at h
      · rw [List.map_cons, List.mem_cons] at h
        exact h.imp_right (List.mem_cons_of_mem _)
      · split at h
        · rwa [List.map_cons, List.mem_cons] at h
        · rw [List.map_cons, List.mem_cons] at h
          rw [List.map_cons, List.mem_cons]
          tauto

end Sys2Proof

namespace Sys2Proof.Machine

/-! ### Walks -/

/-- A walk whose steps keep `I`, and keep `Q` once the step of one element has brought it about, ends in `Q`. -/
theorem foldl_of_mem {α β : Type} {f : α → β → α} {I Q : α → Prop} {l : List β} {b : β} (hb : b ∈ l) (hI : ∀ a, ∀ c ∈ l, I a → I (f a c))
    (hQ : ∀ a, I a → Q (f a b)) (hkeep : ∀ a, ∀ c ∈ l, Q a → Q (f a c)) {a : α} (ha : I a) : Q (l.foldl f a) := by
  obtain ⟨l₁, l₂, rfl⟩ := List.append_of_mem hb
  rw [List.foldl_append, List.foldl_cons]
  refine List.foldlRecOn (motive := Q) _ _ (hQ _ ?_) fun a hq c hc => hkeep a c (List.mem_append_right _ (List.mem_cons_of_mem _ hc)) hq
  exact List.foldlRecOn (motive := I) _ _ ha fun a hi c hc => hI a c (List.mem_append_left _ hc) hi

theorem State.mapThreads_threads (s : State) (f : Nat → Thread → Thread) :
    (s.mapThreads f).threads = s.threads.foldl (fun a e => FMap.set Thread.reset a e.1 (f e.1 (s.thread e.1))) s.threads :=
  (List.foldl_hom State.threads fun _ _ => rfl).symm

/-- The walk changes every thread that is listed, and no other. -/
theorem State.thread_mapThreads (s : State) (f : Nat → Thread → Thread) (g : Nat) :
    (s.mapThreads f).thread g = if g ∈ s.threads.map (·.1) then f g (s.thread g) else s.thread g := by
  rw [State.thread, State.mapThreads_threads]
  exact FMap.get_foldl_set _ (fun k => f k (s.thread k)) _ _ _

theorem State.mem_threads_mapThreads {s : State} {f : Nat → Thread → Thread} {g : Nat} (h : g ∈ (s.mapThreads f).threads.map (·.1)) :
    g ∈ s.threads.map (·.1) := by
  rw [State.mapThreads_threads] at h
  revert h
  refine List.foldlRecOn (motive := fun m : FMap Thread => g ∈ m.map (·.1) → g ∈ s.threads.map (·.1)) _ _ id fun m hm e he hg => ?_
  obtain rfl | hg := FMap.mem_keys_set hg
  · exact List.mem_map_of_mem he
  · exact hm hg

theorem State.mapThreads_eq (s : State) (f : Nat → Thread → Thread) : ∃ ts, s.mapThreads f = { s with threads := ts } := by
  refine List.foldlRecOn (motive := fun t : State => ∃ ts, t = { s with threads := ts }) _ _ ⟨_, rfl⟩ ?_
  rintro _ ⟨ts, rfl⟩ e -
  exact ⟨_, rfl⟩

theorem State.mapCores_eq (s : State) (f : Nat → Core → Core) : ∃ ks, s.mapCores f = { s with cores := ks } := by
  refine List.foldlRecOn (motive := fun t : State => ∃ ks, t = { s with cores := ks }) _ _ ⟨_, rfl⟩ ?_
  rintro _ ⟨ks, rfl⟩ e -
  exact ⟨_, rfl⟩

/-- A thread that is not listed is as reset leaves it. -/
theorem State.thread_of_not_mem {s : State} {g : Nat} (h : g ∉ s.threads.map (·.1)) : s.thread g = Thread.reset := FMap.get_of_not_mem _ h

/-! ### The place of a core: its physical position and its binding -/

def Core.place (k : Core) : Nat × Option Nat := (k.phys, k.binding)

theorem Core.place_viewOf (k : Core) (e : TileEntry) : (k.viewOf e).place = k.place := by
  unfold Core.viewOf
  split
  case h_6 =>
    dsimp only
    split <;> rfl
  all_goals rfl

theorem Core.place_syncView (k : Core) : k.syncView.place = k.place :=
  foldl_keeps k.tileQ Core.viewOf Core.place Core.place_viewOf _

theorem Core.place_takeBack (k : Core) (e : TileEntry) : (k.takeBack e).place = k.place := by
  unfold Core.takeBack
  split
  · split <;> rfl
  · rfl

theorem Core.place_dropWork (k : Core) (p : Nat → Bool) : (k.dropWork p).place = k.place := by
  have htake : (k.tileQ.foldl (fun k e => if p e.g then k.takeBack e else k) k).place = k.place :=
    foldl_keeps _ _ Core.place (fun a e => by split; exacts [a.place_takeBack e, rfl]) _
  exact (Core.place_syncView _).trans htake

theorem State.place_mapCores {s : State} {f : Nat → Core → Core} (hf : ∀ c k, (f c k).place = k.place) (c : Nat) :
    ((s.mapCores f).core c).place = (s.core c).place := by
  rw [State.mapCores_core]
  split
  · exact hf _ _
  · rfl

theorem State.bindingOf_of_place {s t : State} {c : Nat} (h : (t.core c).place = (s.core c).place) : t.bindingOf c = s.bindingOf c :=
  congrArg Prod.snd h

/-! ### Changes of the collective engines alone -/

/-- `t` is `s` but for the collective engines of the halves. -/
structure State.EnginesDiffer (s t : State) : Prop where
  rest : ∃ h0 h1, t = { s with half0 := h0, half1 := h1 }
  half : ∀ j, ∃ e, t.half j = { s.half j with eng := e }

theorem State.EnginesDiffer.refl (s : State) : s.EnginesDiffer s := ⟨⟨_, _, rfl⟩, fun _ => ⟨_, rfl⟩⟩

theorem State.EnginesDiffer.trans {s t u : State} (hst : s.EnginesDiffer t) (htu : t.EnginesDiffer u) : s.EnginesDiffer u := by
  refine ⟨?_, fun j => ?_⟩
  · obtain ⟨_, _, ht⟩ := hst.rest
    obtain ⟨_, _, hu⟩ := htu.rest
    exact ⟨_, _, hu.trans (by rw [ht])⟩
  · obtain ⟨_, ht⟩ := hst.half j
    obtain ⟨_, hu⟩ := htu.half j
    exact ⟨_, hu.trans (by rw [ht])⟩

theorem State.enginesDiffer_setEngine (s : State) (h : Nat) (e : Engine) : s.EnginesDiffer (s.setEngine h e) := by
  refine ⟨State.setHalf_eq _ _ _, fun j => ?_⟩
  rw [State.setEngine, State.half_setHalf_iff]
  split
  · next hj =>
    exact ⟨e, by rw [s.half_eq_of_iff hj]⟩
  · exact ⟨_, rfl⟩

theorem State.EnginesDiffer.foldl {β : Type} (l : List β) {f : State → β → State} (hf : ∀ (t : State) b, t.EnginesDiffer (f t b)) (s : State) :
    s.EnginesDiffer (l.foldl f s) :=
  List.foldlRecOn (motive := fun t : State => s.EnginesDiffer t) _ _ (.refl s) fun t ht b _ => ht.trans (hf t b)

/-! ### What every one of these operations leaves -/

/-- What the units of the module keep while bindings are halted, scrubbed and restored: the halves but for their collective
engines, the ports, where each core lies and what holds it; a thread as reset leaves it, and a zero byte, stay so. -/
structure State.UnitsKept (s t : State) : Prop where
  half : ∀ j, ∃ e, t.half j = { s.half j with eng := e }
  ports : t.ports = s.ports
  place : ∀ c, (t.core c).place = (s.core c).place
  unlisted : ∀ g, g ∈ t.threads.map (·.1) → g ∈ s.threads.map (·.1)
  zero : ∀ a, s.byte a = 0 → t.byte a = 0

theorem State.UnitsKept.refl (s : State) : s.UnitsKept s := ⟨fun _ => ⟨_, rfl⟩, rfl, fun _ => rfl, fun _ => id, fun _ => id⟩

theorem State.UnitsKept.trans {s t u : State} (hst : s.UnitsKept t) (htu : t.UnitsKept u) : s.UnitsKept u := by
  refine ⟨fun j => ?_, htu.ports.trans hst.ports, fun c => (htu.place c).trans (hst.place c), fun g => hst.unlisted g ∘ htu.unlisted g,
    fun a => htu.zero a ∘ hst.zero a⟩
  obtain ⟨_, ht⟩ := hst.half j
  obtain ⟨_, hu⟩ := htu.half j
  exact ⟨_, hu.trans (by rw [ht])⟩

theorem State.UnitsKept.foldl {β : Type} (l : List β) {f : State → β → State} (hf : ∀ (t : State) b, t.UnitsKept (f t b)) (s : State) :
    s.UnitsKept (l.foldl f s) :=
  List.foldlRecOn (motive := fun t : State => s.UnitsKept t) _ _ (.refl s) fun t ht b _ => ht.trans (hf t b)

theorem State.EnginesDiffer.unitsKept {s t : State} (h : s.EnginesDiffer t) : s.UnitsKept t := by
  obtain ⟨_, _, rfl⟩ := h.rest
  exact ⟨h.half, rfl, fun _ => rfl, fun _ => id, fun _ => id⟩

theorem State.unitsKept_setBinding (s : State) (b : Nat) (x : Binding) : s.UnitsKept (s.setBinding b x) :=
  ⟨fun _ => ⟨_, rfl⟩, rfl, fun _ => rfl, fun _ => id, fun _ => id⟩

theorem State.unitsKept_mapThreads (s : State) (f : Nat → Thread → Thread) : s.UnitsKept (s.mapThreads f) := by
  have hlisted : ∀ g, g ∈ (s.mapThreads f).threads.map (·.1) → g ∈ s.threads.map (·.1) := fun _ => State.mem_threads_mapThreads
  obtain ⟨_, heq⟩ := s.mapThreads_eq f
  rw [heq] at hlisted ⊢
  exact ⟨fun _ => ⟨_, rfl⟩, rfl, fun _ => rfl, hlisted, fun _ => id⟩

theorem State.unitsKept_mapCores (s : State) {f : Nat → Core → Core} (hf : ∀ c k, (f c k).place = k.place) : s.UnitsKept (s.mapCores f) := by
  have hplace := State.place_mapCores (s := s) hf
  obtain ⟨_, heq⟩ := s.mapCores_eq f
  rw [heq] at hplace ⊢
  exact ⟨fun _ => ⟨_, rfl⟩, rfl, hplace, fun _ => id, fun _ => id⟩

/-! ### Halting a binding (R352) -/

/-- A binding's commands leave the collective queue of a core. -/
def Core.dropColls (b : Nat) (k : Core) : Core := { k with collQ := k.collQ.filter (fun c => !decide (c.b = b)) }

/-- Ending a binding's collectives changes the cores' collective queues, the announced receives and the engines. -/
theorem State.enginesDiffer_dropColls (s : State) (b : Nat) :
    State.EnginesDiffer { s.mapCores (fun _ => Core.dropColls b) with recvs := s.recvs.filter (fun a => a.b != b) } (s.dropColls b) := by
  unfold State.dropColls
  exact State.EnginesDiffer.foldl [0, 1] (fun t h => t.enginesDiffer_setEngine h _) _

theorem State.unitsKept_dropColls (s : State) (b : Nat) : s.UnitsKept (s.dropColls b) := by
  have hcores : s.UnitsKept (s.mapCores (fun _ => Core.dropColls b)) := s.unitsKept_mapCores fun _ _ => rfl
  have hrecvs : ∀ (t : State) l, t.UnitsKept { t with recvs := l } := fun t l => ⟨fun _ => ⟨_, rfl⟩, rfl, fun _ => rfl, fun _ => id, fun _ => id⟩
  exact (hcores.trans (hrecvs _ _)).trans (s.enginesDiffer_dropColls b).unitsKept

theorem State.unitsKept_haltBinding (s : State) (b : Nat) : s.UnitsKept (s.haltBinding b) :=
  ((s.unitsKept_mapThreads _).trans (State.unitsKept_mapCores _ fun _ k => k.place_dropWork _)).trans (State.unitsKept_dropColls _ b)

theorem State.enginesDiffer_notifyRollback (s : State) (b : Nat) : s.EnginesDiffer (s.notifyRollback b) := by
  unfold State.notifyRollback
  split
  · exact .refl s
  · exact .foldl _ (fun t m => t.enginesDiffer_setEngine _ _) s

theorem State.mapCores_bindings (s : State) (f : Nat → Core → Core) : (s.mapCores f).bindings = s.bindings := by
  obtain ⟨_, heq⟩ := s.mapCores_eq f
  rw [heq]

theorem State.mapThreads_bindings (s : State) (f : Nat → Thread → Thread) : (s.mapThreads f).bindings = s.bindings := by
  obtain ⟨_, heq⟩ := s.mapThreads_eq f
  rw [heq]

theorem State.haltBinding_mem (s : State) (b : Nat) : (s.haltBinding b).mem = s.mem := by
  obtain ⟨_, _, heq⟩ := ((s.haltThreads (s.onBinding b)).enginesDiffer_dropColls b).rest
  rw [State.haltBinding, heq]
  simp only [State.haltThreads, State.mapCores_mem, State.mapThreads_mem]

theorem State.haltBinding_bindings (s : State) (b : Nat) : (s.haltBinding b).bindings = s.bindings := by
  obtain ⟨_, _, heq⟩ := ((s.haltThreads (s.onBinding b)).enginesDiffer_dropColls b).rest
  rw [State.haltBinding, heq]
  simp only [State.haltThreads, State.mapCores_bindings, State.mapThreads_bindings]

/-- Halting a binding halts the threads that are listed on its cores, and no other. -/
theorem State.thread_haltBinding (s : State) (b g : Nat) :
    (s.haltBinding b).thread g = if g ∈ s.threads.map (·.1) ∧ s.bindingOf (coreOf g) = some b then (s.thread g).halt else s.thread g := by
  have hdrop : ∀ t : State, (t.dropColls b).thread g = t.thread g := fun t => by
    obtain ⟨_, _, heq⟩ := (t.enginesDiffer_dropColls b).rest
    rw [heq]
    exact congrArg (FMap.get Thread.reset · g) (State.mapCores_threads _ _)
  have hcores : (s.haltThreads (s.onBinding b)).thread g = (s.mapThreads (fun g t => if s.onBinding b g then t.halt else t)).thread g :=
    congrArg (FMap.get Thread.reset · g) (State.mapCores_threads _ _)
  rw [State.haltBinding, hdrop, hcores, State.thread_mapThreads]
  by_cases hm : g ∈ s.threads.map (·.1) <;> by_cases hb : s.bindingOf (coreOf g) = some b <;> simp [State.onBinding, hm, hb]

/-- Every thread of a halted binding is idle. -/
theorem State.run_haltBinding {s : State} {b g : Nat} (hb : s.bindingOf (coreOf g) = some b) : ((s.haltBinding b).thread g).run = .idle := by
  rw [State.thread_haltBinding]
  by_cases hm : g ∈ s.threads.map (·.1)
  · rw [if_pos ⟨hm, hb⟩]; rfl
  · rw [if_neg fun h => hm h.1, State.thread_of_not_mem hm]; rfl

/-! ### Stopping a binding (R352) -/

theorem State.stopBinding_stopped {s : State} {b : Nat} (h : (s.binding b).stop = true) :
    s.stopBinding b = if (s.binding b).phase = .restore then s.setBinding b { s.binding b with phase := .stopped, agreed := none } else s :=
  if_pos h

theorem State.stopBinding_running {s : State} {b : Nat} (h : (s.binding b).stop = false) :
    s.stopBinding b = ((s.haltBinding b).setBinding b { ((s.haltBinding b).binding b).abandon with stop := true, phase := .stopped }).notifyRollback b :=
  if_neg (by simp [h])

theorem State.unitsKept_stopBinding (s : State) (b : Nat) : s.UnitsKept (s.stopBinding b) := by
  cases hstop : (s.binding b).stop with
  | true =>
    rw [State.stopBinding_stopped hstop]
    split
    · exact s.unitsKept_setBinding _ _
    · exact .refl s
  | false =>
    rw [State.stopBinding_running hstop]
    exact ((s.unitsKept_haltBinding b).trans (State.unitsKept_setBinding _ _ _)).trans (State.enginesDiffer_notifyRollback _ b).unitsKept

/-! ### Scrubbing and restoring (R333, R354) -/

theorem FMap.get_clear_default {α : Type} {d : α} {m : FMap α} {lo hi j : Nat} (h : FMap.get d m j = d) : FMap.get d (FMap.clear m lo hi) j = d := by
  rw [FMap.get_clear, h, ite_self]

theorem State.unitsKept_scrubRange (s : State) (lo n : Nat) : s.UnitsKept (s.scrubRange lo n) :=
  ⟨fun _ => ⟨_, rfl⟩, rfl, fun _ => rfl, fun _ => id, fun _ => FMap.get_clear_default⟩

theorem State.unitsKept_scrubGranule (s : State) (g : Nat) : s.UnitsKept (s.scrubGranule g) := by
  unfold State.scrubGranule
  refine (s.unitsKept_scrubRange _ _).trans (State.unitsKept_mapCores _ ?_)
  exact fun _ _ => rfl

theorem State.place_setCore {s : State} {c : Nat} {k : Core} (hk : k.place = (s.core c).place) (j : Nat) :
    ((s.setCore c k).core j).place = (s.core j).place := by
  rw [State.core_setCore]
  split
  · next hj => rw [hj, hk]
  · rfl

theorem State.unitsKept_scrubCore (s : State) (c : Nat) : s.UnitsKept (s.scrubCore c) := by
  have hcore : s.UnitsKept { s.setCore c (s.core c).scrub with threads := FMap.clear s.threads (c * 16) (c * 16 + 16) } :=
    ⟨fun _ => ⟨_, rfl⟩, rfl, State.place_setCore rfl, fun _ hg => (List.filter_sublist.map _).subset hg, fun _ => id⟩
  exact hcore.trans (State.unitsKept_scrubRange _ _ _)

theorem State.unitsKept_scrubBinding (s : State) (b : Nat) : s.UnitsKept (s.scrubBinding b) :=
  (State.UnitsKept.foldl _ State.unitsKept_scrubCore s).trans (.foldl _ State.unitsKept_scrubGranule _)

theorem State.unitsKept_beginRestore (s : State) (b : Nat) (keepnet : Bool) (src : Option RestoreFrom) (step : Option Nat) :
    s.UnitsKept (s.beginRestore b keepnet src step) := by
  have hstop : s.UnitsKept (if (s.binding b).stop then s else s.stopBinding b) := by
    split
    · exact .refl s
    · exact s.unitsKept_stopBinding b
  exact (hstop.trans (State.unitsKept_setBinding _ _ _)).trans (State.unitsKept_scrubBinding _ b)

/-- What follows a repair for the bindings of the unit leaves every unit (R357, R358). -/
theorem State.unitsKept_repaired (s : State) (u : BitVec 16) : s.UnitsKept (s.repaired u) := by
  refine State.UnitsKept.foldl _ (fun t b => ?_) s
  split
  · split
    · exact t.unitsKept_beginRestore _ _ _ _
    · exact t.unitsKept_setBinding _ _
  · exact .refl t

end Sys2Proof.Machine
end

section
/-! Repairs (O57): the stop of a faulty unit's bindings, what a repair puts in the unit's place, a unit with no spare left, and
tests that were deferred. -/

namespace Sys2Proof.Machine

/-! ### A binding is stopped for a repair (R344, R352) -/

/-- The stop of one binding of a unit with a permanent fault, as `doBindingStop` makes it. -/
def State.stopForRepair (s : State) (b : Nat) : State :=
  (s.stopBinding b).setBinding b { (s.stopBinding b).binding b with phase := .repair, byReset := false, stranded := false }

theorem exec_bindingStop {s : State} {u : BitVec 16} (hu : unitPresent s.build u = true) (hclass : unitClass u ≠ 1) :
    exec (.bindingStop u) s = .next ((s.stoppedBy u).foldl State.stopForRepair s) := by
  show Host.Outcome.next (doBindingStop s u) = _
  rw [doBindingStop, if_pos hu, State.loseReserves, if_pos hclass]
  rfl

theorem State.unitsKept_stopForRepair (s : State) (b : Nat) : s.UnitsKept (s.stopForRepair b) :=
  (s.unitsKept_stopBinding b).trans (State.unitsKept_setBinding _ _ _)

theorem State.bindingOf_stopForRepair (s : State) (b c : Nat) : (s.stopForRepair b).bindingOf c = s.bindingOf c :=
  State.bindingOf_of_place ((s.unitsKept_stopForRepair b).place c)

/-- What the stop of a running binding leaves besides the units. -/
theorem State.stopBinding_running_eq {s : State} {b : Nat} (h : (s.binding b).stop = false) : ∃ x h0 h1, x.stop = true ∧
    s.stopBinding b = { (s.haltBinding b).setBinding b x with half0 := h0, half1 := h1 } := by
  obtain ⟨_, _, heq⟩ := (State.enginesDiffer_notifyRollback
    ((s.haltBinding b).setBinding b { ((s.haltBinding b).binding b).abandon with stop := true, phase := .stopped }) b).rest
  exact ⟨_, _, _, by rfl, (State.stopBinding_running h).trans heq⟩

theorem State.stopBinding_mem (s : State) (b : Nat) : (s.stopBinding b).mem = s.mem := by
  cases hstop : (s.binding b).stop with
  | true =>
    rw [State.stopBinding_stopped hstop]
    split <;> rfl
  | false =>
    obtain ⟨_, _, _, -, heq⟩ := State.stopBinding_running_eq hstop
    rw [heq, State.setBinding_mem, State.haltBinding_mem]

theorem State.binding_stopBinding_other (s : State) {b y : Nat} (hy : y ≠ b) : (s.stopBinding b).binding y = s.binding y := by
  cases hstop : (s.binding b).stop with
  | true =>
    rw [State.stopBinding_stopped hstop]
    split
    · rw [State.binding_setBinding, if_neg hy]
    · rfl
  | false =>
    obtain ⟨x, _, _, -, heq⟩ := State.stopBinding_running_eq hstop
    rw [heq]
    show ((s.haltBinding b).setBinding b x).binding y = _
    rw [State.binding_setBinding, if_neg hy, State.binding, State.haltBinding_bindings, State.binding]

theorem State.stop_stopBinding (s : State) (b : Nat) : ((s.stopBinding b).binding b).stop = true := by
  cases hstop : (s.binding b).stop with
  | true =>
    rw [State.stopBinding_stopped hstop]
    split
    · rw [State.binding_setBinding_same]; exact hstop
    · exact hstop
  | false =>
    obtain ⟨x, _, _, hx, heq⟩ := State.stopBinding_running_eq hstop
    rw [heq]
    show (((s.haltBinding b).setBinding b x).binding b).stop = true
    rw [State.binding_setBinding_same, hx]

theorem State.thread_stopBinding_running {s : State} {b : Nat} (h : (s.binding b).stop = false) (g : Nat) :
    (s.stopBinding b).thread g = (s.haltBinding b).thread g := by
  obtain ⟨_, _, _, -, heq⟩ := State.stopBinding_running_eq h
  rw [heq]; rfl

theorem State.thread_stopBinding_stopped {s : State} {b : Nat} (h : (s.binding b).stop = true) (g : Nat) : (s.stopBinding b).thread g = s.thread g := by
  rw [State.stopBinding_stopped h]
  split <;> rfl

theorem State.thread_stopBinding_other (s : State) {b g : Nat} (hg : s.bindingOf (coreOf g) ≠ some b) : (s.stopBinding b).thread g = s.thread g := by
  cases hstop : (s.binding b).stop with
  | true => exact State.thread_stopBinding_stopped hstop g
  | false => rw [State.thread_stopBinding_running hstop, State.thread_haltBinding, if_neg fun h => hg h.2]

theorem State.stopForRepair_mem (s : State) (b : Nat) : (s.stopForRepair b).mem = s.mem := s.stopBinding_mem b

theorem State.binding_stopForRepair_other (s : State) {b y : Nat} (hy : y ≠ b) : (s.stopForRepair b).binding y = s.binding y := by
  rw [State.stopForRepair, State.binding_setBinding, if_neg hy, State.binding_stopBinding_other s hy]

theorem State.binding_stopForRepair_same (s : State) (b : Nat) :
    ((s.stopForRepair b).binding b).stop = true ∧ ((s.stopForRepair b).binding b).phase = .repair := by
  rw [State.stopForRepair, State.binding_setBinding_same]
  exact ⟨s.stop_stopBinding b, rfl⟩

/-! ### The bindings of a core (R344) -/

theorem State.mem_coresOf {s : State} {b c : Nat} : c ∈ s.coresOf b ↔ s.bindingOf c = some b := by
  simp only [State.coresOf, List.mem_filter, beq_iff_eq]
  refine ⟨And.right, fun h => ⟨FMap.mem_of_get_ne (d := Core.reset) fun hc => ?_, h⟩⟩
  rw [State.bindingOf, State.core, hc] at h
  cases h

theorem State.mem_liveBindings {s : State} {b : Nat} : b ∈ s.liveBindings ↔ (s.binding b).live = true := by
  simp only [State.liveBindings, List.mem_filter]
  exact ⟨And.right, fun h => ⟨State.binding_listed h, h⟩⟩

theorem State.mem_stoppedBy_core {s : State} {u : BitVec 16} (hclass : unitClass u = 0) {b : Nat} :
    b ∈ s.stoppedBy u ↔ (s.binding b).live = true ∧ s.bindingOf (unitIdx u) = some b := by
  simp only [State.stoppedBy, hclass, List.mem_filter, State.mem_liveBindings, List.contains_iff_mem, State.mem_coresOf]

/-- The stop of a core's bindings: the one that holds the core, if it is live, is stopped for repair and its threads are idle. -/
theorem State.stopForRepair_core_held {s : State} {u : BitVec 16} (hclass : unitClass u = 0) {y : Nat} (hlive : (s.binding y).live = true)
    (hy : s.bindingOf (unitIdx u) = some y) :
    let s' := (s.stoppedBy u).foldl State.stopForRepair s
    (s'.binding y).stop = true ∧ (s'.binding y).phase = .repair ∧
      ((s.binding y).stop = false → ∀ g, s.bindingOf (coreOf g) = some y → (s'.thread g).run = .idle) := by
  have honly : ∀ b ∈ s.stoppedBy u, b = y := fun b hb => Option.some.inj (((State.mem_stoppedBy_core hclass).mp hb).2.symm.trans hy)
  have hmem : y ∈ s.stoppedBy u := (State.mem_stoppedBy_core hclass).mpr ⟨hlive, hy⟩
  cases hl : s.stoppedBy u with
  | nil => rw [hl] at hmem; cases hmem
  | cons b rest =>
    rw [hl] at honly
    obtain rfl := honly b List.mem_cons_self
    rw [List.foldl_cons]
    refine List.foldlRecOn (motive := fun t : State => (t.binding b).stop = true ∧ (t.binding b).phase = .repair ∧
      ((s.binding b).stop = false → ∀ g, s.bindingOf (coreOf g) = some b → (t.thread g).run = .idle)) _ _ ?_ ?_
    · obtain ⟨hstop, hphase⟩ := s.binding_stopForRepair_same b
      refine ⟨hstop, hphase, fun hrun g hg => ?_⟩
      show ((s.stopBinding b).thread g).run = .idle
      rw [State.thread_stopBinding_running hrun, State.run_haltBinding hg]
    · rintro t ⟨hstop, -, hidle⟩ c hc
      obtain rfl := honly c (List.mem_cons_of_mem _ hc)
      obtain ⟨hstop', hphase'⟩ := t.binding_stopForRepair_same c
      refine ⟨hstop', hphase', fun hrun g hg => ?_⟩
      show ((t.stopBinding c).thread g).run = .idle
      rw [State.thread_stopBinding_stopped hstop, hidle hrun g hg]

/-- The stop of a core's bindings leaves every binding that does not hold the core, with its threads. -/
theorem State.stopForRepair_core_other {s : State} {u : BitVec 16} (hclass : unitClass u = 0) {y : Nat} (hy : s.bindingOf (unitIdx u) ≠ some y) :
    let s' := (s.stoppedBy u).foldl State.stopForRepair s
    s'.binding y = s.binding y ∧ ∀ g, s.bindingOf (coreOf g) = some y → s'.thread g = s.thread g := by
  suffices h : ∀ t : State, t = (s.stoppedBy u).foldl State.stopForRepair s → (∀ c, t.bindingOf c = s.bindingOf c) ∧ t.binding y = s.binding y ∧
      ∀ g, s.bindingOf (coreOf g) = some y → t.thread g = s.thread g from (h _ rfl).2
  rintro _ rfl
  refine List.foldlRecOn (motive := fun t : State => (∀ c, t.bindingOf c = s.bindingOf c) ∧ t.binding y = s.binding y ∧
    ∀ g, s.bindingOf (coreOf g) = some y → t.thread g = s.thread g) _ _ ⟨fun _ => rfl, rfl, fun _ _ => rfl⟩ ?_
  rintro t ⟨hof, hbind, hthread⟩ b hb
  have hne : y ≠ b := fun he => hy (he ▸ ((State.mem_stoppedBy_core hclass).mp hb).2)
  refine ⟨fun c => (t.bindingOf_stopForRepair b c).trans (hof c), (t.binding_stopForRepair_other hne).trans hbind, fun g hg => ?_⟩
  refine (t.thread_stopBinding_other ?_).trans (hthread g hg)
  rw [hof, hg]
  exact fun he => hne (Option.some.inj he)

theorem State.stopForRepair_foldl_mem (s : State) (l : List Nat) : (l.foldl State.stopForRepair s).mem = s.mem :=
  foldl_keeps _ _ State.mem State.stopForRepair_mem s

/-! ### A spare takes over (R10, R231, R270, R357) -/

@[simp] theorem Half.die_setDie_same (x : Half) (n : Nat) (d : Die) : (x.setDie n d).die n = d := FMap.get_set_same _ _ _ _
@[simp] theorem Half.hbm_setHbm_same (x : Half) (n : Nat) (m : Stack) : (x.setHbm n m).hbm n = m := FMap.get_set_same _ _ _ _

theorem State.UnitsKept.die {s t : State} (h : s.UnitsKept t) (j n : Nat) : (t.half j).die n = (s.half j).die n := by
  obtain ⟨_, heq⟩ := h.half j
  rw [heq]; rfl

theorem State.UnitsKept.hbm {s t : State} (h : s.UnitsKept t) (j n : Nat) : (t.half j).hbm n = (s.half j).hbm n := by
  obtain ⟨_, heq⟩ := h.half j
  rw [heq]; rfl

theorem State.UnitsKept.linkSpares {s t : State} (h : s.UnitsKept t) (j : Nat) : (t.half j).linkSpares = (s.half j).linkSpares := by
  obtain ⟨_, heq⟩ := h.half j
  rw [heq]

theorem State.UnitsKept.port {s t : State} (h : s.UnitsKept t) (p : Nat) : t.port p = s.port p := congrArg (FMap.get Port.reset · p) h.ports

/-- A repair with a spare changes the unit, and then concerns its bindings. -/
theorem exec_repairComplete_spare {s t : State} {u : BitVec 16} {r : RepairKind} (hu : unitPresent s.build u = true) (hfits : repairFits r u = true)
    (hr : r ≠ .nothing) (ht : s.repairUnit u r = some t) : exec (.repairComplete u r) s = .next (t.repaired u) := by
  show Host.Outcome.next (doRepairComplete s u r) = _
  simp [doRepairComplete, hu, hfits, hr, ht]

/-- A repair with no spare, of bindings that no reset stopped, exhausts the unit. -/
theorem exec_repairComplete_exhausted {s : State} {u : BitVec 16} {r : RepairKind} (hu : unitPresent s.build u = true) (hfits : repairFits r u = true)
    (hr : r = .nothing → ∀ y, (s.binding y).byReset = false) (ht : s.repairUnit u r = none) :
    exec (.repairComplete u r) s = .next (s.exhausted u) := by
  have hreset : (decide (r = .nothing) && (s.stoppedBy u).any (fun b => (s.binding b).byReset)) = false := by
    by_cases h : r = .nothing
    · simp [hr h]
    · simp [h]
  show Host.Outcome.next (doRepairComplete s u r) = _
  simp only [doRepairComplete, hu, hfits, hreset, ht]
  rfl

theorem State.die_spareCore (s : State) (c : Nat) : ((s.spareCore c).half (halfOfCore c)).die (dieOfCore c) =
    (let d := (s.half (halfOfCore c)).die (dieOfCore c)
     { d with cleft := d.cleft - 1, spares := d.spares.tail }) := by
  show ((s.setHalf (halfOfCore c) _).half (halfOfCore c)).die (dieOfCore c) = _
  rw [State.half_setHalf_same, Half.die_setDie_same]

theorem State.place_spareCore (s : State) (c : Nat) :
    ((s.spareCore c).core c).place = (((s.half (halfOfCore c)).die (dieOfCore c)).spares.headD 0 + 1, (s.core c).binding) := by
  rw [State.spareCore, (State.unitsKept_scrubCore _ c).place, State.core_setCore_same, State.core_setHalf]
  rfl

/-- The threads of a scrubbed core are as reset leaves them, and not listed. -/
theorem State.not_mem_threads_scrubCore (s : State) {c g : Nat} (hlo : c * 16 ≤ g) (hhi : g < c * 16 + 16) : g ∉ (s.scrubCore c).threads.map (·.1) := by
  show g ∉ (FMap.clear s.threads (c * 16) (c * 16 + 16)).map (·.1)
  simp only [FMap.clear, List.mem_map, List.mem_filter, not_exists, not_and]
  rintro ⟨k, t⟩ ⟨-, hk⟩ rfl
  simp only [Bool.or_eq_true, decide_eq_true_eq] at hk
  omega

/-- A scrubbed core's press is zero. -/
theorem State.byte_scrubCore_press (s : State) (c : Nat) {o : Nat} (ho : o < 0x200000) : (s.scrubCore c).byte (pressAddr c o) = 0 := by
  rw [State.scrubCore, State.scrubRange_byte, if_pos]
  unfold pressAddr
  omega

theorem getLsbD_ofNat_two_pow (m : Nat) {w i : Nat} (hi : i < w) : (BitVec.ofNat w (2 ^ m)).getLsbD i = decide (m = i) := by
  rw [BitVec.getLsbD_ofNat, decide_eq_true hi, Bool.true_and, Nat.testBit_two_pow]

/-- The failed lane leaves the mask and the spare one enters it. -/
theorem Port.getLsbD_lmask_spareLane (x : Port) {lane : Nat} (hlane : lane < 5) (hspare : x.spare.toNat < 5) (hne : x.spare.toNat ≠ lane) :
    (x.spareLane lane).lmask.getLsbD lane = false ∧ (x.spareLane lane).lmask.getLsbD x.spare.toNat = true := by
  simp only [Port.spareLane, if_neg hne.symm, BitVec.getLsbD_or, BitVec.getLsbD_and, BitVec.getLsbD_not, getLsbD_ofNat_two_pow _ hlane,
    getLsbD_ofNat_two_pow _ hspare]
  simp [hne, hlane]

end Sys2Proof.Machine
end

section
/-! The settling of O57: a unit with no spare left (R358), deferred tests (R337), and the obligation's clauses. -/

namespace Sys2Proof.Machine

/-! ### A unit with no spare left (R358) -/

/-- The beacon and the event of an exhausted unit. -/
def State.reported (s : State) (u : BitVec 16) : State :=
  let t := if unitClass u = 2 then s.originate (portHalf (unitIdx u)) (s.portKey (unitIdx u) 3) else s.recordFault u 0x03
  t.postEvent ⟨5, u, t.fepoch u, 0, 0, []⟩

/-- The mark of one of its bindings, if that is stopped. -/
def State.strand (s : State) (b : Nat) : State :=
  if (s.binding b).stop then s.setBinding b { s.binding b with phase := .stopped, stranded := true } else s

/-- The marks of an exhausted unit's bindings. -/
def State.strandAll (s : State) (u : BitVec 16) : State := (s.stoppedBy u).foldl State.strand s

/-- An exhausted unit is listed. -/
def State.markGone (s : State) (u : BitVec 16) : State := { s with gone := if s.gone.contains u then s.gone else u :: s.gone }

/-- The module of an exhausted unit, but for what the unit itself becomes. -/
def State.strandedUnit (s : State) (u : BitVec 16) : State := ((s.reported u).strandAll u).markGone u

/-- What an exhausted unit itself becomes: a stack is retired, a port failed. -/
def State.retire (s : State) (u : BitVec 16) : State :=
  let i := unitIdx u
  match unitClass u with
  | 1 =>
    let h := halfOfStack i
    { s.setHalf h ((s.half h).setHbm i { (s.half h).hbm i with state := 3 }) with retired := if s.retired.contains i then s.retired else i :: s.retired }
  | 2 =>
    let x := s.port i
    s.setPort i { x with state := .failed, dead := (upto 5).filter (fun l => x.dead.contains l || (!x.lmask.getLsbD l && decide (l ≠ x.spare.toNat))) }
  | _ => s

theorem State.exhausted_eq (s : State) (u : BitVec 16) : s.exhausted u = (s.strandedUnit u).retire u := rfl

theorem mem_if_contains {α : Type} [BEq α] [LawfulBEq α] (l : List α) (a : α) : a ∈ (if l.contains a then l else a :: l) := by
  split
  · next h => exact List.contains_iff_mem.mp h
  · exact List.mem_cons_self

theorem State.mem_gone_markGone (s : State) (u : BitVec 16) : u ∈ (s.markGone u).gone := mem_if_contains s.gone u

theorem State.mem_gone_strandedUnit (s : State) (u : BitVec 16) : u ∈ (s.strandedUnit u).gone := State.mem_gone_markGone _ u

theorem State.retire_stack (s : State) {u : BitVec 16} (hclass : unitClass u = 1) :
    unitIdx u ∈ (s.retire u).retired ∧ (((s.retire u).half (halfOfStack (unitIdx u))).hbm (unitIdx u)).state = 3 := by
  simp only [State.retire, hclass]
  refine ⟨mem_if_contains s.retired (unitIdx u), ?_⟩
  show (((s.setHalf (halfOfStack (unitIdx u)) _).half (halfOfStack (unitIdx u))).hbm (unitIdx u)).state = 3
  rw [State.half_setHalf_same, Half.hbm_setHbm_same]

theorem State.retire_port (s : State) {u : BitVec 16} (hclass : unitClass u = 2) :
    (s.retire u).gone = s.gone ∧ ((s.retire u).port (unitIdx u)).state = .failed := by
  simp only [State.retire, hclass]
  exact ⟨rfl, by rw [State.port_setPort_same]⟩

theorem State.retire_other (s : State) {u : BitVec 16} (hstack : unitClass u ≠ 1) (hport : unitClass u ≠ 2) : s.retire u = s := by
  unfold State.retire
  split
  · next h => exact absurd h hstack
  · next h => exact absurd h hport
  · rfl

theorem State.exhausted_other {s : State} {u : BitVec 16} (hstack : unitClass u ≠ 1) (hport : unitClass u ≠ 2) : s.exhausted u = s.strandedUnit u := by
  rw [State.exhausted_eq, State.retire_other _ hstack hport]

theorem State.strand_eq (s : State) (b : Nat) : ∃ m, s.strand b = { s with bindings := m } := by
  unfold State.strand
  split
  · exact ⟨_, rfl⟩
  · exact ⟨_, rfl⟩

/-- Stranding bindings changes bindings alone. -/
theorem State.foldl_strand_eq (s : State) (l : List Nat) : ∃ m, l.foldl State.strand s = { s with bindings := m } := by
  refine List.foldlRecOn (motive := fun t : State => ∃ m, t = { s with bindings := m }) _ _ ⟨_, rfl⟩ ?_
  rintro _ ⟨m, rfl⟩ b -
  obtain ⟨m', hm'⟩ := State.strand_eq { s with bindings := m } b
  exact ⟨m', hm'⟩

theorem State.fepoch_postEvent (s : State) (e : EvRec) (u : BitVec 16) : (s.postEvent e).fepoch u = s.fepoch u := by
  obtain ⟨_, _, _, _, _, heq⟩ := s.postEvent_eq e
  rw [heq]; rfl

theorem State.binding_postEvent (s : State) (e : EvRec) (b : Nat) : (s.postEvent e).binding b = s.binding b := by
  obtain ⟨_, _, _, _, _, heq⟩ := s.postEvent_eq e
  rw [heq]; rfl

theorem State.reported_of_ne {s : State} {u : BitVec 16} (hport : unitClass u ≠ 2) :
    s.reported u = (s.recordFault u 3).postEvent ⟨5, u, (s.recordFault u 3).fepoch u, 0, 0, []⟩ := by
  simp only [State.reported, if_neg hport]

theorem State.fepoch_strandAll (s : State) (u v : BitVec 16) : (s.strandAll u).fepoch v = s.fepoch v := by
  obtain ⟨_, heq⟩ := s.foldl_strand_eq (s.stoppedBy u)
  rw [State.strandAll, heq]; rfl

theorem State.fepoch_markGone (s : State) (u v : BitVec 16) : (s.markGone u).fepoch v = s.fepoch v := rfl

/-- The fault epoch of an exhausted unit that is no port rises once. -/
theorem State.fepoch_strandedUnit {s : State} {u : BitVec 16} (hport : unitClass u ≠ 2) : (s.strandedUnit u).fepoch u = s.fepoch u + 1 := by
  rw [State.strandedUnit, State.fepoch_markGone, State.fepoch_strandAll, State.reported_of_ne hport, State.fepoch_postEvent, State.fepoch_recordFault,
    if_pos rfl]

/-! ### Its bindings (R344, R358) -/

/-- What the bindings that a fault stops are found by: the report of a fault leaves it. -/
structure State.HoldersKept (s t : State) : Prop where
  live : ∀ b, (t.binding b).live = (s.binding b).live
  cores : t.cores = s.cores
  owner : t.owner = s.owner
  keeper : ∀ j k, (t.half j).otherKeeper k = (s.half j).otherKeeper k
  routes : ∀ b p, t.routesVia b p = s.routesVia b p

theorem State.HoldersKept.stoppedBy {s t : State} (h : s.HoldersKept t) {u : BitVec 16} {b : Nat} (hb : b ∈ s.stoppedBy u) : b ∈ t.stoppedBy u := by
  have hcores : ∀ y, t.coresOf y = s.coresOf y := fun y => by simp only [State.coresOf, State.core, h.cores]
  have hgranules : ∀ y, t.granulesOf y = s.granulesOf y := fun y => by simp only [State.granulesOf, State.granOwner, h.owner]
  simp only [State.stoppedBy, List.mem_filter, State.mem_liveBindings, State.holdsAny] at hb ⊢
  simpa only [h.live, hcores, hgranules, h.keeper, h.routes] using hb

theorem State.holdersKept_recordFault (s : State) (u : BitVec 16) (fclass : Nat) : s.HoldersKept (s.recordFault u fclass) := by
  have hbeacon := s.beaconed_recordFault u fclass
  have hhalf : ∀ j, ∃ keys absorbed dropped faults, (s.recordFault u fclass).half j =
      { s.half j with keyTable := keys, bcnAbs := absorbed, bcnOvf := dropped, faults := faults } := fun j => by
    obtain ⟨_, _, _, heq⟩ := hbeacon.half j
    rw [heq, State.faultKept, State.half_setHalf_iff]
    split
    · next hj =>
      rw [s.half_eq_of_iff hj]
      exact ⟨_, _, _, _, rfl⟩
    · exact ⟨_, _, _, _, rfl⟩
  obtain ⟨_, _, _, _, heq⟩ := s.recordFault_eq u fclass
  refine ⟨fun b => ?_, by rw [heq], by rw [heq], fun j k => ?_, fun b p => ?_⟩
  · obtain ⟨_, hb⟩ := hbeacon.binding b
    rw [hb, State.faultKept, State.binding_setHalf]
    rfl
  · obtain ⟨_, _, _, _, hj⟩ := hhalf j
    rw [hj]; rfl
  · have hpartners : ∀ j, ((s.recordFault u fclass).half j).partners0 = (s.half j).partners0 ∧
        ((s.recordFault u fclass).half j).partners1 = (s.half j).partners1 := fun j => by
      obtain ⟨_, _, _, _, hj⟩ := hhalf j
      rw [hj]; exact ⟨rfl, rfl⟩
    obtain ⟨h00, h01⟩ : (s.recordFault u fclass).half0.partners0 = s.half0.partners0 ∧ (s.recordFault u fclass).half0.partners1 = s.half0.partners1 :=
      hpartners 0
    obtain ⟨h10, h11⟩ : (s.recordFault u fclass).half1.partners0 = s.half1.partners0 ∧ (s.recordFault u fclass).half1.partners1 = s.half1.partners1 :=
      hpartners 1
    simp only [State.routesVia, h00, h01, h10, h11]

theorem State.holdersKept_postEvent (s : State) (e : EvRec) : s.HoldersKept (s.postEvent e) := by
  obtain ⟨_, _, _, _, _, heq⟩ := s.postEvent_eq e
  rw [heq]
  exact ⟨fun _ => rfl, rfl, rfl, fun _ _ => rfl, fun _ _ => rfl⟩

/-- A binding that waits for a `RESTORE`, since the repair of its unit found no spare. -/
def Binding.Stranded (x : Binding) : Prop := x.stop = true ∧ x.phase = .stopped ∧ x.stranded = true

theorem State.binding_strand_same {s : State} {b : Nat} (h : (s.binding b).stop = true) : ((s.strand b).binding b).Stranded := by
  rw [State.strand, if_pos h, State.binding_setBinding_same]
  exact ⟨h, rfl, rfl⟩

theorem State.binding_strand_other (s : State) {b y : Nat} (hy : y ≠ b) : (s.strand b).binding y = s.binding y := by
  unfold State.strand
  split
  · rw [State.binding_setBinding, if_neg hy]
  · rfl

/-- Every stopped binding of the list is stranded. -/
theorem State.stranded_foldl_strand {s : State} {l : List Nat} {y : Nat} (hy : y ∈ l) (hstop : (s.binding y).stop = true) :
    ((l.foldl State.strand s).binding y).Stranded := by
  refine foldl_of_mem (I := fun t : State => (t.binding y).stop = true) (Q := fun t : State => (t.binding y).Stranded) hy (fun t c _ ht => ?_)
    (fun t ht => State.binding_strand_same ht) (fun t c _ ht => ?_) hstop
  · by_cases hc : y = c
    · subst hc; exact (State.binding_strand_same ht).1
    · rw [State.binding_strand_other t hc]; exact ht
  · by_cases hc : y = c
    · subst hc; exact State.binding_strand_same ht.1
    · rw [State.binding_strand_other t hc]; exact ht

theorem State.binding_markGone (s : State) (u : BitVec 16) (b : Nat) : (s.markGone u).binding b = s.binding b := rfl

/-- The stopped bindings of an exhausted unit that is no port are stranded. -/
theorem State.stranded_strandedUnit {s : State} {u : BitVec 16} (hport : unitClass u ≠ 2) {y : Nat} (hy : y ∈ s.stoppedBy u)
    (hstop : (s.binding y).stop = true) : ((s.strandedUnit u).binding y).Stranded := by
  have hmem : y ∈ (s.reported u).stoppedBy u := by
    rw [State.reported_of_ne hport]
    exact (State.holdersKept_postEvent _ _).stoppedBy ((s.holdersKept_recordFault u 3).stoppedBy hy)
  rw [State.strandedUnit, State.binding_markGone]
  refine State.stranded_foldl_strand hmem ?_
  obtain ⟨_, hb⟩ := (s.beaconed_recordFault u 3).binding y
  rw [State.reported_of_ne hport, State.binding_postEvent, hb, State.faultKept, State.binding_setHalf]
  exact hstop

/-! ### Deferred tests (R337, R339) -/

theorem exec_deferredSelftestResult_waits {s : State} {u : BitVec 16} (h : u ∉ s.deferredTests ∨ s.unitBound u = true) (r : Option Word) :
    exec (.deferredSelftestResult u r) s = .next s := by
  show Host.Outcome.next (doDeferredTest s u r) = _
  unfold doDeferredTest
  rw [if_neg]
  simp only [Bool.and_eq_true, List.contains_iff_mem, Bool.not_eq_true']
  rintro ⟨hmem, hfree⟩
  obtain hnot | hbound := h
  · exact hnot hmem
  · rw [hbound] at hfree; cases hfree

theorem exec_deferredSelftestResult_ends {s : State} {u : BitVec 16} (hmem : u ∈ s.deferredTests) (hfree : s.unitBound u = false) (r : Option Word) :
    exec (.deferredSelftestResult u r) s = .next (State.postEvent { s with deferredTests := s.deferredTests.filter (· ≠ u) }
      ⟨2, u, 0, 0, 0, (r.map (fun w => [7, w.toNat])).getD [1]⟩) := by
  show Host.Outcome.next (doDeferredTest s u r) = _
  unfold doDeferredTest
  rw [if_pos (by simp [hmem, hfree])]
  cases r <;> rfl

/-! ### The clauses -/

/-- Settles O57: the stop of a core's bindings by `stopForRepair`, each repair by the unit that `repairUnit` gives, which what follows
keeps, and each unit with no spare left by `strandedUnit`. -/
theorem repairs : Obligations.Repairs := by
  unfold Obligations.Repairs
  intro s u i d m
  refine ⟨fun hclass hpresent => ?_, fun lane hclass hpresent => ?_, fun lane hlane hclass hi hspare hne => ?_, fun lane hclass hi hspare => ?_,
    fun hclass hi h0 h1 => ?_, fun hclass hpresent hleft => ?_, fun hclass hpresent hreset => ?_, fun hon hwait hroom => ⟨fun hmem hfree r => ?_, ?_⟩⟩
  -- a core
  · have hu : unitPresent s.build u = true := by simpa [unitPresent, hclass] using hpresent
    have hfits : repairFits .core u = true := decide_eq_true hclass
    refine ⟨⟨_, exec_bindingStop hu (by omega), fun y hlive hy => State.stopForRepair_core_held hclass hlive hy,
      fun y hy => State.stopForRepair_core_other hclass hy, State.stopForRepair_foldl_mem _ _⟩, fun hleft => ?_, fun hleft => ?_⟩
    · have hrepair : s.repairUnit u .core = some (s.spareCore i) := if_neg hleft
      have hkept := (s.spareCore i).unitsKept_repaired u
      have hplace : (((s.spareCore i).repaired u).core i).place = (d.spares.headD 0 + 1, (s.core i).binding) :=
        (hkept.place i).trans (s.place_spareCore i)
      refine ⟨_, exec_repairComplete_spare hu hfits (by decide) hrepair, ?_, congrArg Prod.fst hplace, congrArg Prod.snd hplace, fun t ht => ?_, fun o ho => ?_⟩
      · rw [hkept.die]
        exact congrArg Die.cleft (s.die_spareCore i)
      · exact State.thread_of_not_mem fun hmem => State.not_mem_threads_scrubCore _ (c := i) (by omega) (by omega) (hkept.unlisted _ hmem)
      · exact hkept.zero _ (State.byte_scrubCore_press _ i ho)
    · have hrepair : s.repairUnit u .core = none := if_pos hleft
      refine ⟨_, exec_repairComplete_exhausted hu hfits nofun hrepair, ?_, ?_⟩
      · rw [State.exhausted_other (by omega) (by omega)]
        exact s.mem_gone_strandedUnit u
      · rw [State.exhausted_other (by omega) (by omega), State.fepoch_strandedUnit (by omega)]
  -- a lane of an HBM stack
  · have hu : unitPresent s.build u = true := by simpa [unitPresent, hclass] using hpresent
    have hfits : repairFits (.hbmLane lane) u = true := decide_eq_true hclass
    refine ⟨fun hleft => ?_, fun hleft => ?_⟩
    · have hrepair : s.repairUnit u (.hbmLane lane) =
          some (s.setHalf (halfOfStack i) ((s.half (halfOfStack i)).setHbm i (m.spareLane lane))) := if_neg hleft
      refine ⟨_, exec_repairComplete_spare hu hfits (by simp) hrepair, ?_⟩
      rw [(State.unitsKept_repaired _ u).hbm, State.half_setHalf_same, Half.hbm_setHbm_same]
      exact ⟨rfl, rfl, rfl, by simp [Stack.spareLane]⟩
    · have hrepair : s.repairUnit u (.hbmLane lane) = none := if_pos hleft
      refine ⟨_, exec_repairComplete_exhausted hu hfits nofun hrepair, ?_⟩
      rw [State.exhausted_eq]
      exact State.retire_stack _ hclass
  -- a lane of a fabric port
  · have hu : unitPresent s.build u = true := by simp only [unitPresent, hclass]; exact decide_eq_true hi
    have hrepair : s.repairUnit u (.fabricLane lane) = some (s.setPort i ((s.port i).spareLane lane)) := if_neg (show ¬ (s.port i).spare.toNat > 4 by omega)
    refine ⟨_, exec_repairComplete_spare hu (decide_eq_true hclass) (by simp) hrepair, ?_⟩
    rw [(State.unitsKept_repaired _ u).port, State.port_setPort_same]
    exact ⟨rfl, rfl, rfl, Port.getLsbD_lmask_spareLane _ hlane hspare hne⟩
  · have hu : unitPresent s.build u = true := by simp only [unitPresent, hclass]; exact decide_eq_true hi
    have hrepair : s.repairUnit u (.fabricLane lane) = none := if_pos (show (s.port i).spare.toNat > 4 by omega)
    refine ⟨_, exec_repairComplete_exhausted hu (decide_eq_true hclass) nofun hrepair, ?_⟩
    obtain ⟨hgone, hfailed⟩ := (s.strandedUnit u).retire_port hclass
    rw [State.exhausted_eq, hgone]
    exact ⟨s.mem_gone_strandedUnit u, hfailed⟩
  -- a lane of the half link, and a line frame of the L2
  · have hu : unitPresent s.build u = true := by simp only [unitPresent, hclass]; exact decide_eq_true hi
    have hrepair : s.repairUnit u .halfLinkLane = some (s.bothHalves (fun h => { h with linkSpares := h.linkSpares - 1 })) := if_neg (by simp [h0, h1])
    refine ⟨_, exec_repairComplete_spare hu (decide_eq_true hclass) (by decide) hrepair, fun h _ => ?_⟩
    rw [(State.unitsKept_repaired _ u).linkSpares]
    unfold State.half State.bothHalves
    split <;> rfl
  · have hu : unitPresent s.build u = true := by simpa [unitPresent, hclass] using hpresent
    have hrepair : s.repairUnit u .l2Frame = some (s.setHalf (i / 4) ((s.half (i / 4)).setDie i
        { (s.half (i / 4)).die i with l2left := ((s.half (i / 4)).die i).l2left - 1 })) := if_neg hleft
    refine ⟨_, exec_repairComplete_spare hu (decide_eq_true hclass) (by decide) hrepair, ?_⟩
    rw [(State.unitsKept_repaired _ u).die, State.half_setHalf_same, Half.die_setDie_same]
  -- a unit that has no spare
  · refine ⟨_, exec_repairComplete_exhausted hpresent (decide_eq_true (Or.inr hclass)) (fun _ => hreset) rfl, ?_⟩
    rw [State.exhausted_other (by omega) (by omega)]
    exact ⟨s.mem_gone_strandedUnit u, State.fepoch_strandedUnit (by omega), fun y hy hstop => State.stranded_strandedUnit (by omega) hy hstop⟩
  -- a deferred test
  · rw [exec_deferredSelftestResult_ends hmem hfree, State.postEvent_of_room (by exact hon) (by exact hwait) (by exact hroom)]
    cases r <;> rfl
  · exact fun h r => exec_deferredSelftestResult_waits h r

end Sys2Proof.Machine
end

section
/-! SUPPORT. The row of each operation, the forms its long words take, and what an issued word of a fixed-distance or a
ticketed operation leaves (R22, R32, R36, R37, R50). -/

namespace Sys2Proof.Machine

/-! ### Rows and forms -/

/-- Every row issues its word with its operation's body. -/
theorem exec_instrOf (o : Op) (g : Nat) (w : Word) (s : State) : exec (instrOf o g w) s = issueRow o (bodyOf o) g w s := by
  cases o <;> rfl

/-- The forms that the long words of an operation take; a reserved opcode reads as `nop` (R32, R50). -/
def formsOf (o : Op) : List Form :=
  if o = .nop then [.li, .lr, .lb]
  else if o = .li then [.li]
  else if branchOp o then [.lb]
  else if o ∈ aluImmOps ∨ o ∈ [Op.ld, .ldf, .ldp, .ldt, .st, .stt] then [.li, .lr]
  else [.lr]

theorem formOfMajor_mem_formsOf : ∀ m < 128, ∀ o ∈ opOfMajor m, formOfMajor m ∈ formsOf o := by decide

theorem li_mem_formsOf_aluImm : ∀ o ∈ aluImmOps, Form.li ∈ formsOf o := by decide

/-- The variants of `dinfo` and `cbkt` take the form of their opcode. -/
theorem formsOf_longOp {m tk fn x : Nat} {o : Op} (h : longOp m tk fn x = some o) :
    ∃ o', (if m = 0x17 then aluImmOps[tk]? else opOfMajor m) = some o' ∧ formsOf o = formsOf o' := by
  unfold longOp at h
  dsimp only at h
  split at h
  · next hmajor =>
    cases h
    exact ⟨_, hmajor, by split <;> rfl⟩
  · next hmajor =>
    cases h
    exact ⟨_, hmajor, by split <;> rfl⟩
  · exact ⟨_, h, rfl⟩

theorem form_mem_formsOf (w : Word) : (longFields w).form ∈ formsOf (longFields w).op := by
  show formOfMajor (majorOf w) ∈ formsOf ((longOp (majorOf w) (fld w 42 4) (fld w 24 8) (fld w 0 24)).getD .nop)
  cases h : longOp (majorOf w) (fld w 42 4) (fld w 24 8) (fld w 0 24) with
  | none =>
    unfold formOfMajor
    split
    · decide
    · split <;> decide
  | some o =>
    obtain ⟨o', ho', hforms⟩ := formsOf_longOp h
    rw [Option.getD_some, hforms]
    split at ho'
    · next hm =>
      rw [hm]
      exact li_mem_formsOf_aluImm _ (List.mem_of_getElem? ho')
    · exact formOfMajor_mem_formsOf _ (Nat.mod_lt _ (by decide)) _ ho'

theorem Issues.form_mem {s : State} {g : Nat} {w : Word} {o : Op} (h : Issues s g w o) : (longFields w).form ∈ formsOf o :=
  h.op ▸ form_mem_formsOf w

theorem form_ne_sr (w : Word) : (longFields w).form ≠ .sr := by
  show formOfMajor (majorOf w) ≠ .sr
  unfold formOfMajor
  split
  · decide
  · split <;> decide

/-! ### Operands that pass their checks -/

/-- A source that passes both steps of R27: a scalar, link or summary register that holds a tag its operand accepts. -/
def Thread.accepts (t : Thread) (e : Nat × Accept) : Prop := (e.1 < 64 ∨ 96 ≤ e.1) ∧ Tag.pend ∉ e.2 ∧ (t.reg e.1).tag ∈ e.2

theorem Thread.accepts_of_lt {t : Thread} {c : Nat} {acc : Accept} (hc : c < 32) (h : (t.reg c).tag ∈ acc) (hp : Tag.pend ∉ acc := by decide) :
    t.accepts (c, acc) := ⟨.inl (Nat.lt_trans hc (by decide)), hp, h⟩

/-! ### Fixed-distance operations -/

/-- A fixed-distance operation of one result whose operands pass their checks. -/
theorem writes_of_fixed {s : State} {g : Nat} {w : Word} {o : Op} {fb : FBody} {srcs : List (Nat × Accept)} {rd dist : Nat} {v : TReg} {fl : FFlags}
    (hbody : bodyOf o = fixedBody fb)
    (hfb : Issues s g w o → fb w (longFields w) (s.now g) = guardLegal w (longFields w) true (fixed1 (s.now g) srcs rd dist v fl))
    (hsrcs : ∀ e ∈ srcs, (s.now g).accepts e) (hd : (s.now g).isPend rd = false) : Writes s g w o (instrOf o g w) [(rd, v, 0, dist)] fl := by
  intro h
  rw [exec_instrOf, hbody]
  exact fixed_writes h fb srcs rd dist v fl (hfb h) hsrcs hd

/-! ### The context of a long word -/

@[simp] theorem longCtx_s (s : State) (g : Nat) (w : Word) (join : Bool) : (longCtx s g w join).s = s := rfl
@[simp] theorem longCtx_g (s : State) (g : Nat) (w : Word) (join : Bool) : (longCtx s g w join).g = g := rfl
@[simp] theorem longCtx_th (s : State) (g : Nat) (w : Word) (join : Bool) : (longCtx s g w join).th = s.now g := rfl
@[simp] theorem longCtx_f (s : State) (g : Nat) (w : Word) (join : Bool) : (longCtx s g w join).f = longFields w := rfl
@[simp] theorem longCtx_w (s : State) (g : Nat) (w : Word) (join : Bool) : (longCtx s g w join).w = w := rfl

/-! ### Bodies that change the thread alone -/

/-- A word whose body completes and changes its thread alone. -/
theorem leaves_of_body {s : State} {g : Nat} {w : Word} {o : Op} {t' : Thread} {flow : Next}
    (hb : Issues s g w o → bodyOf o (longCtx s g w false) = .ok s t' flow) : Leaves s g w o (instrOf o g w) s t' flow := by
  intro h
  rw [exec_instrOf]
  exact issueRow_ok h _ _ _ (hb h)

/-- A word whose body completes and leaves the datapath's backlog as it was. -/
theorem leaves_of_body_state {s s' : State} {g : Nat} {w : Word} {o : Op} {t' : Thread} {flow : Next}
    (hq : (s'.core (coreOf g)).vecQ = (s.core (coreOf g)).vecQ)
    (hb : Issues s g w o → bodyOf o (longCtx s g w false) = .ok s' t' flow) : Leaves s g w o (instrOf o g w) s' t' flow := by
  intro h
  rw [exec_instrOf]
  exact issueRow_state h _ _ _ _ (hb h) hq

/-- A word whose body ends in a trap. -/
theorem traps_of_body {s : State} {g : Nat} {w : Word} {o : Op} {prio cause : Nat} {etval : Word} {tk : Option Nat} (ho : o ≠ .eret)
    (hb : Issues s g w o → bodyOf o (longCtx s g w false) = .trap ⟨prio, cause, etval, tk⟩) : Traps s g w o (instrOf o g w) cause etval := by
  intro h
  refine ⟨prio, tk, ?_⟩
  rw [exec_instrOf]
  exact issueRow_trap h ho _ _ (hb h)

/-- A ticketed operation's checks pass: its sources are accepted, its destinations not pending, its ticket free. -/
theorem checkTicketed_none {s : State} {g : Nat} {w : Word} {srcs : List (Nat × Accept)} {dsts : List Nat}
    (hsrcs : ∀ e ∈ srcs, (s.now g).accepts e) (hd : ∀ c ∈ dsts, (s.now g).isPend c = false) (ht : (s.now g).ticketIdle (longFields w).tk) :
    (longCtx s g w false).checkTicketed srcs dsts = none :=
  checkTicketed_ok _ _ _ rfl (fun e he => .inr (hsrcs e he)) hd ht

/-- A calculation on its ticket whose operands pass their checks. -/
theorem leaves_of_calc {s : State} {g : Nat} {w : Word} {o : Op} {srcs : Fields → List (Nat × Accept)} {val : Fields → Thread → TReg × FFlags}
    {v : TReg} {fl : FFlags} (hbody : bodyOf o = calcBody srcs val) (hval : val (longFields w) (s.now g) = (v, fl))
    (hsrcs : ∀ e ∈ srcs (longFields w), (s.now g).accepts e) (hd : (s.now g).isPend (longFields w).rd = false)
    (ht : (s.now g).ticketIdle (longFields w).tk) :
    Leaves s g w o (instrOf o g w) s ((s.now g).addOp (longFields w).tk ⟨.calc v fl, (s.now g).pc, [(longFields w).rd]⟩) .seq := by
  refine leaves_of_body fun _ => ?_
  rw [hbody]
  have hcheck : (longCtx s g w false).checkTicketed (srcs (longFields w)) [(longFields w).rd] = none :=
    checkTicketed_none hsrcs (List.forall_mem_singleton.mpr hd) ht
  simp only [calcBody, longCtx_f, longCtx_th, longCtx_s, hcheck, hval]

end Sys2Proof.Machine
end

section
/-! The scalar instructions (O1 to O5): integer ALU, moves and tags, multiply and divide, FP64, comparisons and predicates. -/

namespace Sys2Proof.Machine

/-! ### Integer ALU (R28, R36) -/

theorem pend_not_mem_aluAcc1 (o : Op) : Tag.pend ∉ aluAcc1 o := by cases o <;> decide

theorem pend_not_mem_aluAcc2 (o : Op) (t : Tag) : Tag.pend ∉ aluAcc2 o t := by
  unfold aluAcc2
  split <;> decide

theorem int_mem_aluAcc2 (o : Op) (t : Tag) : Tag.int ∈ aluAcc2 o t := by
  unfold aluAcc2
  split <;> decide

/-- An ALU operation whose sources hold tags it accepts. -/
theorem writes_alu {s : State} {g : Nat} {w : Word} {o : Op} {tag : Tag} {v : Word} (hbody : bodyOf o = fixedBody (aluF o))
    (hd : (s.now g).isPend (longFields w).rd = false)
    (ha : ((s.now g).reg (longFields w).rs1).tag ∈ aluAcc1 o)
    (hb : (src2Of (longFields w) (s.now g)).tag ∈ aluAcc2 o ((s.now g).reg (longFields w).rs1).tag)
    (htag : aluTag o ((s.now g).reg (longFields w).rs1).tag (src2Of (longFields w) (s.now g)).tag = tag)
    (hval : aluVal o ((s.now g).reg (longFields w).rs1).val (src2Of (longFields w) (s.now g)).val = v) :
    Writes s g w o (instrOf o g w) [((longFields w).rd, ⟨tag, v⟩, 0, 1)] 0 := by
  subst htag hval
  refine writes_of_fixed hbody (fun _ => rfl) (List.forall_mem_cons.mpr ⟨?_, fun e he => ?_⟩) hd
  · exact Thread.accepts_of_lt (rs1_lt w) ha (pend_not_mem_aluAcc1 o)
  · unfold src2CheckOf at he
    unfold src2Of at hb
    split at he
    · exact absurd he List.not_mem_nil
    · next hform =>
      rw [if_neg hform] at hb
      rw [List.mem_singleton.mp he]
      exact Thread.accepts_of_lt (rs2_lt w) hb (pend_not_mem_aluAcc2 o _)

/-- Settles O1: each operation by its row of the ALU, whose accepted tags the hypotheses meet. -/
theorem integerAlu : Obligations.IntegerAlu := by
  unfold Obligations.IntegerAlu
  intro s g w t f a b put hd
  have hint : ∀ o, b.tag = .int → b.tag ∈ aluAcc2 o a.tag := fun o hb => hb ▸ int_mem_aluAcc2 o a.tag
  refine ⟨fun ha hb => ?_, fun ha hb => ?_, fun ha hb => ?_, fun ha hb => ?_, fun ha hb => ?_⟩
  · exact writes_alu (o := .add) rfl hd (by simpa [aluAcc1] using ha) (hint _ hb) rfl rfl
  · have htag : aluTag .sub a.tag b.tag = a.tag := by simp [aluTag, hb]
    exact writes_alu (o := .sub) rfl hd (by simpa [aluAcc1] using ha) (hint _ hb) htag rfl
  · have htag : aluTag .sub a.tag b.tag = .int := by simp [aluTag, ha, hb]
    have hacc : b.tag ∈ aluAcc2 .sub a.tag := by simp [aluAcc2, ha, hb]
    exact writes_alu (o := .sub) rfl hd (by simpa [aluAcc1] using Or.inr ha) hacc htag rfl
  · exact writes_alu (o := .andI) rfl hd (by simpa [aluAcc1] using ha) (hint _ hb) rfl rfl
  · have hacc : a.tag ∈ [Tag.int] := List.mem_singleton.mpr ha
    have hmin : aluVal .minI a.val b.val = if b.val.toInt < a.val.toInt then b.val else a.val := by simp [aluVal, BitVec.slt]
    have hmax : aluVal .maxI a.val b.val = if a.val.toInt < b.val.toInt then b.val else a.val := by simp [aluVal, BitVec.slt]
    exact ⟨writes_alu (o := .orI) rfl hd hacc (hint _ hb) rfl rfl, writes_alu (o := .xorI) rfl hd hacc (hint _ hb) rfl rfl,
      writes_alu (o := .shl) rfl hd hacc (hint _ hb) rfl rfl, writes_alu (o := .shr) rfl hd hacc (hint _ hb) rfl rfl,
      writes_alu (o := .sra) rfl hd hacc (hint _ hb) rfl rfl, writes_alu (o := .minI) rfl hd hacc (hint _ hb) rfl hmin,
      writes_alu (o := .maxI) rfl hd hacc (hint _ hb) rfl hmax⟩

/-! ### Moves and tags (R26, R28, R46, R160) -/

theorem mem_anyTag_iff {t : Tag} : t ∈ anyTag ↔ t ≠ .pend ∧ t ≠ .inval := by cases t <;> decide

/-- The source of `mov`, `smv`, `cmp` and `fcmp`: fn8[7] names a summary register. -/
theorem src1CodeOf_eq {w : Word} (h : namesSummary (longFields w).op = true) :
    src1CodeOf (longFields w) = if bitAt w 31 then codeSm (longFields w).rs1 else (longFields w).rs1 := by
  rw [src1CodeOf, sm_eq h]

theorem code_of_summary (w : Word) : let c := if bitAt w 31 then codeSm (longFields w).rs1 else (longFields w).rs1
    c < 64 ∨ 96 ≤ c := by
  have := rs1_lt w
  simp only [codeSm]
  split <;> omega

/-- `sel` whose two sources hold one tag. -/
theorem writes_sel {s : State} {g : Nat} {w : Word} (hd : (s.now g).isPend (longFields w).rd = false)
    (hp : ((s.now g).reg (longFields w).rs1).tag = .pred) (ha : ((s.now g).reg (longFields w).rs2).tag ∈ anyTag)
    (hb : ((s.now g).reg (longFields w).rs3).tag = ((s.now g).reg (longFields w).rs2).tag) :
    Writes s g w .sel (.sel g w) [((longFields w).rd,
      selVal ((s.now g).reg (longFields w).rs1).val ((s.now g).reg (longFields w).rs2) ((s.now g).reg (longFields w).rs3), 0, 1)] 0 := by
  refine writes_of_fixed (o := .sel) rfl (fun _ => rfl) ?_ hd
  simp only [List.forall_mem_cons]
  refine ⟨Thread.accepts_of_lt (rs1_lt w) (by simp [hp]), Thread.accepts_of_lt (rs2_lt w) ha, Thread.accepts_of_lt (rs3_lt w) ?_ ?_, nofun⟩
  · exact List.mem_filter.mpr ⟨hb ▸ ha, by simp [hb]⟩
  · exact fun h => absurd (List.mem_filter.mp h).1 (by decide)

/-- A change of tag that keeps the value. -/
theorem writes_retag {s : State} {g : Nat} {w : Word} {o : Op} {src dst : Tag} (hbody : bodyOf o = fixedBody (retagF src dst))
    (hsrc : src ≠ .pend) (hd : (s.now g).isPend (longFields w).rd = false) (ha : ((s.now g).reg (longFields w).rs1).tag = src) :
    Writes s g w o (instrOf o g w) [((longFields w).rd, ⟨dst, ((s.now g).reg (longFields w).rs1).val⟩, 0, 1)] 0 :=
  writes_of_fixed hbody (fun _ => rfl)
    (List.forall_mem_singleton.mpr (Thread.accepts_of_lt (rs1_lt w) (by simp [ha]) (by simpa using hsrc.symm))) hd

/-- `mov` with its source and destination codes. -/
theorem writes_mov {s : State} {g : Nat} {w : Word} {src dst : Nat}
    (hsrc : src = if bitAt (BitVec.ofNat 8 (longFields w).fn) 5 then codeLnk else if bitAt w 31 then codeSm (longFields w).rs1 else (longFields w).rs1)
    (hdst : dst = if bitAt (BitVec.ofNat 8 (longFields w).fn) 6 then codeLnk else (longFields w).rd)
    (hd : (s.now g).isPend dst = false) (ha : ((s.now g).reg src).tag ∈ anyTag)
    (hret : bitAt (BitVec.ofNat 8 (longFields w).fn) 6 = true → ((s.now g).reg src).tag = .ret) :
    Writes s g w .mov (.mov g w) [(dst, (s.now g).reg src, 0, 1)] 0 := by
  refine writes_of_fixed (o := .mov) (srcs := [(src, if bitAt (BitVec.ofNat 8 (longFields w).fn) 6 then [.ret] else anyTag)]) rfl (fun h => ?_)
    (List.forall_mem_singleton.mpr ⟨?_, ?_, ?_⟩) hd
  · have hform : (longFields w).form = .lr := List.mem_singleton.mp h.form_mem
    rw [← src1CodeOf_eq (by rw [h.op]; rfl)] at hsrc
    subst hsrc hdst
    simp only [movF, hform, decide_true, Bool.true_and]
  · subst hsrc
    dsimp only
    split
    · exact .inl (by decide)
    · exact code_of_summary w
  · dsimp only
    split <;> decide
  · dsimp only
    split
    · next hbit => exact List.mem_singleton.mpr (hret hbit)
    · exact ha

/-- Settles O2: each move by its sources' tags; a change of tag by the row of the operation. -/
theorem movesAndRetagging : Obligations.MovesAndRetagging := by
  unfold Obligations.MovesAndRetagging
  refine ⟨?_, ?_⟩
  · intro s g w t f srcCode dstCode smCode
    refine ⟨?_, fun hd => ⟨?_, fun hp ha hb hc => ?_, fun ha => ?_, fun ha => ?_⟩, fun hd ha hb hret => ?_⟩
    · intro h
      refine issueRow_fixed h nopF [] 0 0 ?_
      simp [nopF, guardLegal, h.legal]
    · refine writes_of_fixed (o := .li) (srcs := []) rfl (fun h => ?_) nofun hd
      have hform : (longFields w).form = .li := List.mem_singleton.mp h.form_mem
      simp only [liF, hform]
      rfl
    · have hsel := writes_sel hd hp (mem_anyTag_iff.mpr ⟨ha, hb⟩) hc
      refine ⟨fun h1 => ?_, fun h0 => ?_, ?_⟩
      · rwa [show (selVal (t.reg f.rs1).val (t.reg f.rs2) (t.reg f.rs3)) = t.reg f.rs2 from if_pos h1] at hsel
      · rwa [show (selVal (t.reg f.rs1).val (t.reg f.rs2) (t.reg f.rs3)) = t.reg f.rs3 by simp [selVal, h0]] at hsel
      · have htag : (selVal (t.reg f.rs1).val (t.reg f.rs2) (t.reg f.rs3)).tag = (t.reg f.rs2).tag := by
          unfold selVal
          split
          · rfl
          · split
            · exact hc
            · rfl
        exact ⟨(selVal (t.reg f.rs1).val (t.reg f.rs2) (t.reg f.rs3)).val, by rw [← htag]; exact hsel⟩
    · have hmem : (t.reg f.rs1).tag ∈ Tag.inval :: anyTag := by
        rw [List.mem_cons, mem_anyTag_iff]
        tauto
      exact writes_of_fixed (o := .tagof) rfl (fun _ => rfl) (List.forall_mem_singleton.mpr (Thread.accepts_of_lt (rs1_lt w) hmem)) hd
    · refine writes_of_fixed (o := .smv) (srcs := [(smCode, [.smry])]) rfl (fun h => ?_)
        (List.forall_mem_singleton.mpr ⟨code_of_summary w, (by decide : Tag.pend ∉ [Tag.smry]), List.mem_singleton.mpr ha⟩) hd
      simp only [smvF, src1CodeOf_eq (show namesSummary (longFields w).op = true by rw [h.op]; rfl)]
      rfl
    · exact writes_mov rfl rfl hd (mem_anyTag_iff.mpr ⟨ha, hb⟩) hret
  · intro s g w t f a put hd
    exact ⟨fun ha => ⟨writes_retag (o := .mkptr) rfl nofun hd ha, writes_retag (o := .bitsf) rfl nofun hd ha⟩,
      fun ha => writes_retag (o := .ptrint) rfl nofun hd ha, fun ha => writes_retag (o := .fbits) rfl nofun hd ha⟩

/-! ### Multiply and divide (R28, R36, R37) -/

section
variable {s : State} {g : Nat} {w : Word}

/-- Two sources of one tag. -/
theorem accepts_two {tag : Tag} (ha : ((s.now g).reg (longFields w).rs1).tag = tag) (hb : ((s.now g).reg (longFields w).rs2).tag = tag)
    (htag : tag ≠ .pend) : ∀ e ∈ [((longFields w).rs1, [tag]), ((longFields w).rs2, [tag])], (s.now g).accepts e := by
  have hp : Tag.pend ∉ [tag] := by simpa using htag.symm
  simp only [List.forall_mem_cons]
  exact ⟨Thread.accepts_of_lt (rs1_lt w) (by simp [ha]) hp, Thread.accepts_of_lt (rs2_lt w) (by simp [hb]) hp, nofun⟩

theorem writes_mul {o : Op} {v : Word} (hbody : bodyOf o = fixedBody (mulF o)) (hd : (s.now g).isPend (longFields w).rd = false)
    (ha : ((s.now g).reg (longFields w).rs1).tag = .int) (hb : ((s.now g).reg (longFields w).rs2).tag = .int)
    (hval : mulVal o ((s.now g).reg (longFields w).rs1).val ((s.now g).reg (longFields w).rs2).val = v) :
    Writes s g w o (instrOf o g w) [((longFields w).rd, ⟨.int, v⟩, 0, 2)] 0 := by
  subst hval
  exact writes_of_fixed hbody (fun _ => rfl) (accepts_two ha hb nofun) hd

theorem leaves_div {o : Op} {v : Word} (hbody : bodyOf o = divBody o) (hd : (s.now g).isPend (longFields w).rd = false)
    (ht : (s.now g).ticketIdle (longFields w).tk)
    (ha : ((s.now g).reg (longFields w).rs1).tag = .int) (hb : ((s.now g).reg (longFields w).rs2).tag = .int)
    (hval : divVal o ((s.now g).reg (longFields w).rs1).val ((s.now g).reg (longFields w).rs2).val = v) :
    Leaves s g w o (instrOf o g w) s
      ((s.now g).addOp (longFields w).tk ⟨.calc ⟨.int, v⟩ 0, (s.now g).pc, [(longFields w).rd]⟩) .seq := by
  subst hval
  exact leaves_of_calc hbody rfl (accepts_two ha hb nofun) hd ht

end

/-- Settles O3: the halves of a product and the four results of a division, each by its row. -/
theorem multiplyAndDivide : Obligations.MultiplyAndDivide := by
  unfold Obligations.MultiplyAndDivide
  refine ⟨?_, ?_⟩
  · intro s g w t f a b put hd ha hb
    have hmul : mulVal .mul a b = BitVec.ofNat 64 (a.toNat * b.toNat) := BitVec.eq_of_toNat_eq (by simp [mulVal])
    exact ⟨writes_mul (o := .mul) rfl hd ha hb hmul, writes_mul (o := .mulh) rfl hd ha hb rfl, writes_mul (o := .mulhu) rfl hd ha hb rfl⟩
  · intro s g w t f a b put hd ht ha hb
    have hdivu : divVal .divu a b = if b = 0 then BitVec.allOnes 64 else BitVec.ofNat 64 (a.toNat / b.toNat) := by
      simp only [divVal, BitVec.udiv_def]
    have hremu : divVal .remu a b = if b = 0 then a else BitVec.ofNat 64 (a.toNat % b.toNat) := by
      simp only [divVal, BitVec.umod_def]
    exact ⟨leaves_div (o := .div) rfl hd ht ha hb rfl, leaves_div (o := .divu) rfl hd ht ha hb hdivu,
      leaves_div (o := .rem) rfl hd ht ha hb rfl, leaves_div (o := .remu) rfl hd ht ha hb hremu⟩

/-! ### FP64 (R28, R36, R37, R44) -/

/-- FP64 arithmetic on sources tagged FP64, the third of `ffma` too. -/
theorem writes_fp {s : State} {g : Nat} {w : Word} {o : Op} (hbody : bodyOf o = fixedBody (fpF o))
    (hd : (s.now g).isPend (longFields w).rd = false)
    (ha : ((s.now g).reg (longFields w).rs1).tag = .fp64) (hb : ((s.now g).reg (longFields w).rs2).tag = .fp64)
    (hc : o = .ffma → ((s.now g).reg (longFields w).rs3).tag = .fp64) :
    let r := fpVal o (s.now g).rm (s.now g).ftz ((s.now g).reg (longFields w).rs1).val ((s.now g).reg (longFields w).rs2).val
      ((s.now g).reg (longFields w).rs3).val
    Writes s g w o (instrOf o g w) [((longFields w).rd, ⟨.fp64, BitVec.ofNat 64 r.code⟩, 0, 4)] r.flags := by
  refine writes_of_fixed hbody (fun _ => rfl) ?_ hd
  obtain ⟨h1, h2⟩ := List.forall_mem_cons.mp (accepts_two ha hb nofun)
  refine List.forall_mem_cons.mpr ⟨h1, List.forall_mem_cons.mpr ⟨List.forall_mem_singleton.mp h2, ?_⟩⟩
  split
  · next hffma => exact List.forall_mem_singleton.mpr (Thread.accepts_of_lt (rs3_lt w) (by simp [hc hffma]))
  · nofun

/-- Settles O4: each operation by its row, with the result and flags of its arithmetic. -/
theorem scalarFloat : Obligations.ScalarFloat := by
  unfold Obligations.ScalarFloat
  intro s g w t f a b c put wait hd
  have hone : ∀ tag, tag ≠ .pend → (t.reg f.rs1).tag = tag → ∀ e ∈ [(f.rs1, [tag])], t.accepts e := fun tag htag ha =>
    List.forall_mem_singleton.mpr (Thread.accepts_of_lt (rs1_lt w) (by simp [ha]) (by simpa using htag.symm))
  have hfdiv : bodyOf .fdiv = fdivBody := rfl
  have hfsqrt : bodyOf .fsqrt = fsqrtBody := rfl
  unfold fdivBody at hfdiv
  unfold fsqrtBody at hfsqrt
  refine ⟨fun ha hb => ?_, fun ha => ⟨fun ht => ?_, ?_⟩, fun ha => ?_⟩
  · exact ⟨writes_fp (o := .fadd) rfl hd ha hb nofun, writes_fp (o := .fsub) rfl hd ha hb nofun, writes_fp (o := .fmul) rfl hd ha hb nofun,
      writes_fp (o := .fmin) rfl hd ha hb nofun, writes_fp (o := .fmax) rfl hd ha hb nofun,
      fun hc => writes_fp (o := .ffma) rfl hd ha hb (fun _ => hc),
      fun ht => leaves_of_calc hfdiv rfl (accepts_two ha hb nofun) hd ht⟩
  · exact leaves_of_calc hfsqrt rfl (hone .fp64 nofun ha) hd ht
  · exact writes_of_fixed (o := .ftoi) rfl (fun _ => rfl) (hone .fp64 nofun ha) hd
  · exact writes_of_fixed (o := .itof) rfl (fun _ => rfl) (hone .int nofun ha) hd

/-! ### Comparisons and predicates (R28, R50, R160) -/

theorem predOf_eq (b : Bool) : predOf b = ⟨.pred, if b then 1 else 0⟩ := by cases b <;> rfl

/-- The function of a comparison of a long word is fn8[6:0]. -/
theorem cmpFnOf_long (w : Word) : cmpFnOf (longFields w) = (longFields w).fn % 128 := if_neg (form_ne_sr w)

/-- The six comparisons of R50. -/
theorem cmpVal_iff {fn : Nat} (hfn : fn < 6) (a b : Word) : cmpVal fn a b = true ↔ (fn = 0 ∧ a = b) ∨ (fn = 1 ∧ a ≠ b) ∨
    (fn = 2 ∧ a.toInt < b.toInt) ∨ (fn = 3 ∧ a.toInt ≤ b.toInt) ∨ (fn = 4 ∧ a.toNat < b.toNat) ∨ (fn = 5 ∧ a.toNat ≤ b.toNat) := by
  interval_cases fn <;> simp [cmpVal, BitVec.slt, BitVec.sle, BitVec.ult, BitVec.ule]

theorem fcmpFn_eq (fn : Nat) : fcmpFn fn = if fn = 0 then .eq else if fn = 1 then .lt else if fn = 2 then .le else .un := by
  unfold fcmpFn
  split <;> simp_all

section
variable {s : State} {g : Nat} {w : Word} {c : Nat} (hc : c = if bitAt w 31 then codeSm (longFields w).rs1 else (longFields w).rs1)
  (hd : (s.now g).isPend (longFields w).rd = false)
include hc hd

/-- `cmp` of the source of code `c` with rs2, whose tags it accepts together. -/
theorem writes_cmp (ha : ((s.now g).reg c).tag ∈ [Tag.int, .ptr, .smry])
    (hb : ((s.now g).reg (longFields w).rs2).tag ∈ if ((s.now g).reg c).tag = .ptr then [Tag.ptr] else [.int]) :
    Writes s g w .cmp (.cmp g w) [((longFields w).rd,
      predOf (cmpVal ((longFields w).fn % 128) ((s.now g).reg c).val ((s.now g).reg (longFields w).rs2).val), 0, 1)] 0 := by
  refine writes_of_fixed (o := .cmp) (srcs := [(c, [.int, .ptr, .smry]), ((longFields w).rs2, if ((s.now g).reg c).tag = .ptr then [.ptr] else [.int])])
    rfl (fun h => ?_) (List.forall_mem_cons.mpr ⟨⟨hc ▸ code_of_summary w, (by decide : Tag.pend ∉ [Tag.int, .ptr, .smry]), ha⟩,
      List.forall_mem_singleton.mpr (Thread.accepts_of_lt (rs2_lt w) hb ?_)⟩) hd
  · rw [← src1CodeOf_eq (by rw [h.op]; rfl)] at hc
    subst hc
    rw [← cmpFnOf_long]
    rfl
  · split <;> decide

/-- `fcmp` of the source of code `c` with rs2. -/
theorem writes_fcmp (ha : ((s.now g).reg c).tag ∈ [Tag.fp64, .smry]) (hb : ((s.now g).reg (longFields w).rs2).tag = .fp64) :
    let r := fCompare binary64 (fcmpFn ((longFields w).fn % 128)) ((s.now g).reg c).val.toNat ((s.now g).reg (longFields w).rs2).val.toNat
    Writes s g w .fcmp (.fcmp g w) [((longFields w).rd, predOf r.1, 0, 1)] r.2 := by
  refine writes_of_fixed (o := .fcmp) (srcs := [(c, [.fp64, .smry]), ((longFields w).rs2, [.fp64])])
    rfl (fun h => ?_) (List.forall_mem_cons.mpr ⟨⟨hc ▸ code_of_summary w, (by decide : Tag.pend ∉ [Tag.fp64, .smry]), ha⟩,
      List.forall_mem_singleton.mpr (Thread.accepts_of_lt (rs2_lt w) (by simp [hb]))⟩) hd
  rw [← src1CodeOf_eq (by rw [h.op]; rfl)] at hc
  subst hc
  rw [← cmpFnOf_long]
  rfl

end

theorem cmpFn_lt_of_issues {s : State} {g : Nat} {w : Word} (h : Issues s g w .cmp) : (longFields w).fn % 128 < 6 := by
  have hlegal := h.legal
  simp only [fieldsLegal, h.op, if_neg (form_ne_sr w), Bool.and_eq_true, decide_eq_true_eq] at hlegal
  exact hlegal.2.1

section
variable {s : State} {g : Nat} {w : Word}

/-- A predicate operation of sources tagged PRED. -/
theorem writes_pred {o : Op} (hbody : bodyOf o = fixedBody (predF o)) (hd : (s.now g).isPend (longFields w).rd = false)
    (ha : ((s.now g).reg (longFields w).rs1).tag = .pred) (hb : o ≠ .pnot → ((s.now g).reg (longFields w).rs2).tag = .pred) :
    Writes s g w o (instrOf o g w)
      [((longFields w).rd, predRes o ((s.now g).reg (longFields w).rs1).val ((s.now g).reg (longFields w).rs2).val, 0, 1)] 0 := by
  refine writes_of_fixed hbody (fun _ => rfl) (List.forall_mem_cons.mpr ⟨Thread.accepts_of_lt (rs1_lt w) (by simp [ha]), ?_⟩) hd
  split
  · nofun
  · next hne => exact List.forall_mem_singleton.mpr (Thread.accepts_of_lt (rs2_lt w) (by simp [hb hne]))

end

theorem isTruth_of_bool (x : Bool) : isTruth (if x then 1 else 0) = true := by cases x <;> rfl

theorem predRes_pnot (x : Bool) (b : Word) : predRes .pnot (if x then 1 else 0) b = ⟨.pred, if !x then 1 else 0⟩ := by
  cases x <;> rfl

theorem predRes_of_bools {o : Op} (x y : Bool) : predRes o (if x then 1 else 0) (if y then 1 else 0) = ⟨.pred, if predVal o x y then 1 else 0⟩ := by
  have hone : ∀ z : Bool, decide ((if z then 1 else 0 : Word) = 1) = z := by decide
  rw [predRes, isTruth_of_bool, isTruth_of_bool, hone, hone, Bool.or_true, Bool.and_true, if_pos rfl, predOf_eq]

theorem predRes_eq (o : Op) (a b : Word) : predRes o a b = ⟨.pred, (predRes o a b).val⟩ := by
  unfold predRes
  split <;> rfl

/-- Settles O5: a comparison by its function, a predicate operation by its truth values. -/
theorem comparesAndPredicates : Obligations.ComparesAndPredicates := by
  unfold Obligations.ComparesAndPredicates
  intro s g w p t f a b fn put some' hd
  refine ⟨fun htags hp => ?_, fun ha hb => ?_, fun ha => ⟨fun x hx => ?_, ?_, fun hb => ⟨fun x y hx hy => ?_, ?_, ?_⟩⟩⟩
  · intro h
    have hval : cmpVal fn a.val b.val = p := by rw [Bool.eq_iff_iff, hp]; exact cmpVal_iff (cmpFn_lt_of_issues h) _ _
    refine (predOf_eq p ▸ hval ▸ writes_cmp rfl hd ?_ ?_) h
    · rcases htags with ⟨h1, _⟩ | ⟨h1, _⟩ | ⟨h1, _⟩ <;> simp [a, t, f] at h1 <;> simp [h1]
    · rcases htags with ⟨h1, h2⟩ | ⟨h1, h2⟩ | ⟨h1, h2⟩ <;> rw [h1, h2] <;> decide
  · intro k r
    have hfcmp := writes_fcmp rfl hd (by simpa using ha) hb
    simpa only [fcmpFn_eq, predOf_eq] using hfcmp
  · have hpnot := writes_pred (o := .pnot) rfl hd ha nofun
    rwa [hx, predRes_pnot] at hpnot
  · exact ⟨_, predRes_eq .pnot _ _ ▸ writes_pred (o := .pnot) rfl hd ha nofun⟩
  · have hpand := writes_pred (o := .pand) rfl hd ha (fun _ => hb)
    have hpor := writes_pred (o := .por) rfl hd ha (fun _ => hb)
    rw [hx, hy, predRes_of_bools] at hpand hpor
    exact ⟨hpand, hpor⟩
  · exact ⟨_, predRes_eq .pand _ _ ▸ writes_pred (o := .pand) rfl hd ha (fun _ => hb)⟩
  · exact ⟨_, predRes_eq .por _ _ ▸ writes_pred (o := .por) rfl hd ha (fun _ => hb)⟩

end Sys2Proof.Machine
end

section
/-! Branches and delay slots (O7). -/

namespace Sys2Proof.Machine

/-! ### Checks that pass -/

theorem checkReady_none {t : Thread} {codes : List Nat} (h : ∀ c ∈ codes, t.isPend c = false) : t.checkReady codes none false = none := by
  have hpend : codes.filter (fun c => t.isPend c) = [] := List.filter_eq_nil_iff.mpr fun c hc => by simp [h c hc]
  simp [Thread.checkReady, hpend]

theorem checkRegs_of_accepts {t : Thread} {srcs : List (Nat × Accept)} {dsts : List Nat} (hsrcs : ∀ e ∈ srcs, t.accepts e)
    (hd : ∀ c ∈ dsts, t.isPend c = false) : t.checkRegs srcs dsts = none := checkRegs_ok t srcs dsts hsrcs hd

theorem targetCheck_none {v : Word} (h : v.toNat % 8 = 0) : targetCheck v = none := by simp [targetCheck, condIf, h]

theorem isPend_lnk {t : Thread} (h : t.lnk.tag ≠ .pend) : t.isPend codeLnk = false := not_pend_of t codeLnk (.inl (by decide)) h

theorem accepts_target {t : Thread} {c : Nat} (hc : c < 32) (h : (t.reg c).tag = .ptr ∨ (t.reg c).tag = .ret) : t.accepts (c, targetAccept) :=
  Thread.accepts_of_lt hc (by simpa [targetAccept] using h)

/-! ### The delay slot (R45) -/

theorem Thread.advance_seq_delay {u : Thread} {d : Delay} (h : u.delay = some d) (sh : Bool) :
    (u.advance .seq sh).pc = (if d.taken then d.target else u.pc + 8) ∧ (u.advance .seq sh).delay = none := by
  simp [Thread.advance, h]

/-- The delay slot of a branch goes on to the branch's target, or to the word after the slot. -/
theorem Thread.delaySlot_goes_on {t u : Thread} {target : Word} {taken sh sh' : Bool}
    (hpc : u.pc = (t.advance (.branch target taken) sh).pc) (hdelay : u.delay = (t.advance (.branch target taken) sh).delay) :
    (u.advance .seq sh').pc = (if taken then target else t.pc + 16) ∧ (u.advance .seq sh').delay = none := by
  obtain ⟨h, hnone⟩ := u.advance_seq_delay (d := ⟨t.pc, target, taken⟩) hdelay sh'
  refine ⟨?_, hnone⟩
  rw [h, show u.pc = t.pc + 8 from hpc, BitVec.add_assoc]
  rfl

/-- The row of a word in a delay slot that may not stand there traps (R45). -/
theorem issueRow_delayIllegal {s : State} {g : Nat} {w : Word} {body : Body} (hp : isPair w = false) (hmay : s.mayIssue g w = true)
    (hdelay : (s.now g).delay.isSome = true) (hop : delayIllegal (opOf w) = true) :
    issueRow (opOf w) body g w s = .next (s.setThread g ((s.now g).raise (cIllegal w) false true false)) := by
  have hres : longRes (longCtx s g w false) body = .trap (cIllegal w) := by
    have hop' : delayIllegal (longCtx s g w false).f.op = true := by rwa [opOf, hp] at hop
    have hdelay' : (longCtx s g w false).th.delay.isSome = true := hdelay
    simp only [longRes, hop', hdelay', Bool.and_self, Bool.or_true, if_true]
    rfl
  simp only [issueRow, if_true, hmay, hp, Bool.false_eq_true, if_false, issueLong, hres]
  simp [finish, cIllegal]

section
variable {s : State} {g : Nat} {w : Word}

theorem leaves_condBranch {o : Op} {want : Bool} (hbody : bodyOf o = condBranchBody want) (ha : ((s.now g).reg (longFields w).rs1).tag = .pred) :
    Leaves s g w o (instrOf o g w) s (s.now g) (.branch ((s.now g).pc + (longFields w).off * 8)
      (decide (((s.now g).reg (longFields w).rs1).val = if want then 1 else 0))) := by
  refine leaves_of_body fun _ => ?_
  have hcheck : (s.now g).checkRegs [((longFields w).rs1, [.pred])] [] = none :=
    checkRegs_of_accepts (List.forall_mem_singleton.mpr (Thread.accepts_of_lt (rs1_lt w) (by simp [ha]))) nofun
  rw [hbody]
  simp only [condBranchBody, longCtx_f, longCtx_th, longCtx_s, hcheck, branchTarget]
  rfl

theorem leaves_call (hlnk : (s.now g).isPend codeLnk = false) :
    Leaves s g w .call (.call g w) s ((s.now g).queueFixed [(codeLnk, ⟨.ret, (s.now g).pc + 16⟩, 0, 1)])
      (.branch ((s.now g).pc + (longFields w).off * 8) true) := by
  refine leaves_of_body (o := .call) fun _ => ?_
  have hcheck : (s.now g).checkRegs [] [codeLnk] = none := checkRegs_of_accepts nofun (List.forall_mem_singleton.mpr hlnk)
  simp only [bodyOf, callBody, longCtx_f, longCtx_th, longCtx_s, hcheck, branchTarget, writeLnk]

section
variable (ha : ((s.now g).reg (longFields w).rs1).tag = .ptr ∨ ((s.now g).reg (longFields w).rs1).tag = .ret)
  (h8 : ((s.now g).reg (longFields w).rs1).val.toNat % 8 = 0)
include ha h8

theorem leaves_callr (hlnk : (s.now g).isPend codeLnk = false) :
    Leaves s g w .callr (.callr g w) s ((s.now g).queueFixed [(codeLnk, ⟨.ret, (s.now g).pc + 16⟩, 0, 1)])
      (.branch ((s.now g).reg (longFields w).rs1).val true) := by
  refine leaves_of_body (o := .callr) fun _ => ?_
  have hcheck : (s.now g).checkRegs [((longFields w).rs1, targetAccept)] [codeLnk] = none :=
    checkRegs_of_accepts (List.forall_mem_singleton.mpr (accepts_target (rs1_lt w) ha)) (List.forall_mem_singleton.mpr hlnk)
  have htarget := targetCheck_none h8
  simp only [bodyOf, callrBody, longCtx_f, longCtx_th, longCtx_s, hcheck, htarget, minCond, writeLnk]

theorem leaves_jr : Leaves s g w .jr (.jr g w) s (s.now g) (.branch ((s.now g).reg (longFields w).rs1).val true) := by
  refine leaves_of_body (o := .jr) fun _ => ?_
  have hcheck : (s.now g).checkRegs [((longFields w).rs1, targetAccept)] [] = none :=
    checkRegs_of_accepts (List.forall_mem_singleton.mpr (accepts_target (rs1_lt w) ha)) nofun
  have htarget := targetCheck_none h8
  simp only [bodyOf, jrBody, longCtx_f, longCtx_th, longCtx_s, hcheck, htarget, minCond]

end

theorem leaves_ret (ha : (s.now g).lnk.tag = .ret) (h8 : (s.now g).lnk.val.toNat % 8 = 0) :
    Leaves s g w .ret (.ret g w) s (s.now g) (.branch (s.now g).lnk.val true) := by
  refine leaves_of_body (o := .ret) fun _ => ?_
  have hcheck : (s.now g).checkReady [codeLnk] none false = none :=
    checkReady_none (List.forall_mem_singleton.mpr (isPend_lnk (by rw [ha]; nofun)))
  have htarget := targetCheck_none h8
  simp only [bodyOf, retBody, longCtx_th, longCtx_s, hcheck, ha, htarget, ne_eq, not_true_eq_false, if_false]

end

/-- Settles O7: each branch by its body, and the delay slot by where the branch left the thread. -/
theorem branchesAndDelaySlots : Obligations.BranchesAndDelaySlots := by
  unfold Obligations.BranchesAndDelaySlots
  refine ⟨fun s g w => ?_, fun t u target taken sh sh' => ?_, fun s g w => ?_⟩
  · intro t f target a linked
    exact ⟨leaves_of_body (o := .b) fun _ => rfl,
      fun ha => ⟨leaves_condBranch (o := .bt) rfl ha, leaves_condBranch (o := .bf) rfl ha⟩,
      fun hlnk => ⟨leaves_call hlnk, fun ha h8 => leaves_callr ha h8 hlnk⟩, leaves_jr, leaves_ret⟩
  · exact ⟨rfl, rfl, Thread.delaySlot_goes_on⟩
  · intro t hp hmay hdelay hop
    have hillegal : ∀ o ∈ [Op.b, .bt, .bf, .call, .callr, .jr, .ret, .rep, .repi, .eret, .tend], delayIllegal o = true := by decide
    rw [exec_instrOf]
    exact issueRow_delayIllegal hp hmay hdelay (hillegal _ hop)

end Sys2Proof.Machine
end

section
/-! Collective instructions at issue, `await` and `tkpoll` (O14). -/

namespace Sys2Proof.Machine

/-! ### Flags -/

@[simp] theorem Thread.orFlags_zero (t : Thread) : t.orFlags 0 = t := by
  show { t with fflags := t.fflags ||| 0#5 } = t
  rw [BitVec.or_zero]

/-- A word that queues its results and raises no flag. -/
theorem writes_of_leaves {s : State} {g : Nat} {w : Word} {o : Op} {c : Instr} {ws : List (Nat × TReg × VReg × Nat)}
    (h : Leaves s g w o c s ((s.now g).queueFixed ws) .seq) : Writes s g w o c ws 0 := by
  rw [Writes, State.wrote, Thread.orFlags_zero]
  exact h

/-! ### Collective instructions (R240) -/

theorem firstCond_none {l : List (Option Cond)} (h : ∀ c ∈ l, c = none) : firstCond l = none := by
  rw [firstCond, List.eq_replicate_of_mem h]
  generalize l.length = n
  induction n with
  | zero => rfl
  | succ n ih => exact ih

theorem condIf_false {b : Bool} (h : b = false) (c : Cond) : condIf b c = none := by rw [condIf, h]; rfl

theorem leaves_coll {s : State} {g : Nat} {w : Word} {o : Op} {op : CollOp} (hbody : bodyOf o = collBody op)
    (ha : ((s.now g).reg (longFields w).rs1).tag = .ptr) (ht : (s.now g).ticketIdle (longFields w).tk)
    (h64 : ((s.now g).reg (longFields w).rs1).val.toNat % 64 = 0)
    (hown : s.inOwnPress (coreOf g) ((s.now g).reg (longFields w).rs1).val.toNat 64 = true) :
    let va := ((s.now g).reg (longFields w).rs1).val
    Leaves s g w o (instrOf o g w) (s.setCore (coreOf g) { s.core (coreOf g) with collQ := (s.core (coreOf g)).collQ ++
        [⟨op, g, (longFields w).tk, (s.core (coreOf g)).binding.getD 0, va, (s.now g).estat.prv, s.readBytes va.toNat 64⟩] })
      ((s.now g).addOp (longFields w).tk ⟨.coll .waiting, (s.now g).pc, []⟩) .seq := by
  intro va
  refine leaves_of_body_state (by rw [State.core_setCore_same]) fun _ => ?_
  have hreg : (longCtx s g w false).checkTicketed [((longFields w).rs1, [.ptr])] [] = none :=
    checkTicketed_none (List.forall_mem_singleton.mpr (Thread.accepts_of_lt (rs1_lt w) (by simp [ha]))) nofun ht
  have hbase : va.toNat / 64 * 64 = va.toNat := Nat.div_mul_cancel (Nat.dvd_of_mod_eq_zero h64)
  have hcheck : firstCond [(longCtx s g w false).checkTicketed [((longFields w).rs1, [.ptr])] [],
      condIf (!s.inOwnPress (coreOf g) (va.toNat / 64 * 64) 64) (cPrivAddr va), condIf (decide (va.toNat % 64 ≠ 0)) (cMisaligned va)] = none := by
    refine firstCond_none ?_
    simp only [List.forall_mem_cons]
    exact ⟨hreg, condIf_false (by rw [hbase, hown]; rfl) _, condIf_false (by simp [va, h64]) _, nofun⟩
  rw [hbody]
  simp only [collBody]
  split
  · next cd hsome => exact nomatch hcheck.symm.trans hsome
  · rfl

/-! ### Tickets by name (R39) -/

theorem mem_ticketsNamed {m i : Nat} : i ∈ ticketsNamed m ↔ i < 16 ∧ (BitVec.ofNat 16 m = 0 ∨ (BitVec.ofNat 16 m).getLsbD i = true) := by
  have hzero : BitVec.ofNat 16 m = 0 ↔ m % 2 ^ 16 = 0 := by rw [BitVec.toNat_eq]; simp
  rw [hzero]
  simp [ticketsNamed]

theorem ofNat_mod_16 (m : Nat) : BitVec.ofNat 16 (m % 2 ^ 16) = BitVec.ofNat 16 m := BitVec.eq_of_toNat_eq (by simp)

/-- No named ticket has faulted and no destination is pending. -/
theorem checkNamed_none {t : Thread} {codes tks : List Nat} (hc : ∀ c ∈ codes, t.isPend c = false) (hf : ∀ i ∈ tks, (t.ticket i).fault = none) :
    t.checkNamed codes tks = none := by
  have hpend : codes.filter (fun c => t.isPend c) = [] := List.filter_eq_nil_iff.mpr fun c h => by simp [hc c h]
  have hfault : tks.filter (fun i => (t.ticket i).faulted) = [] := List.filter_eq_nil_iff.mpr fun i h => by simp [Ticket.faulted, hf i h]
  simp [Thread.checkNamed, hpend, hfault]

theorem Ticket.busy_eq_true {k : Ticket} : k.busy = true ↔ k.ops ≠ [] := by simp [Ticket.busy]

section
variable {s : State} {g : Nat} {w : Word}
  (hf : ∀ i ∈ ticketsNamed ((longFields w).x24 % 2 ^ 16), ((s.now g).ticket i).fault = none)
include hf

/-- `await` parks where a named ticket is in flight. -/
theorem awaitBody_ok : bodyOf .await (longCtx s g w false) = .ok s (s.now g)
    (if (ticketsNamed ((longFields w).x24 % 2 ^ 16)).any (fun i => ((s.now g).ticket i).busy) then .park (BitVec.ofNat 16 (longFields w).x24) else .seq) := by
  have hcheck := checkNamed_none (t := s.now g) (codes := []) nofun hf
  simp only [bodyOf, awaitBody, longCtx_f, longCtx_th, longCtx_s, hcheck, ofNat_mod_16]

/-- `tkpoll` writes which of the named tickets are not in flight. -/
theorem writes_tkpoll (hd : (s.now g).isPend (longFields w).rd = false) : Writes s g w .tkpoll (.tkpoll g w) [((longFields w).rd, ⟨.int,
    BitVec.ofNat 64 (maskOf (fun i => (ticketsNamed ((longFields w).x24 % 2 ^ 16)).contains i && !((s.now g).ticket i).busy) 16)⟩, 0, 1)] 0 := by
  refine writes_of_leaves (leaves_of_body (o := .tkpoll) fun _ => ?_)
  have hcheck := checkNamed_none (List.forall_mem_singleton.mpr hd) hf
  simp only [bodyOf, tkpollBody, longCtx_f, longCtx_th, longCtx_s, hcheck]

end

theorem ofNat_maskOf_16 {p : Nat → Bool} {v : BitVec 16} (h : ∀ i, i < 16 → (v.getLsbD i = true ↔ p i = true)) :
    BitVec.ofNat 64 (maskOf p 16) = v.setWidth 64 := by
  refine BitVec.eq_of_getLsbD_eq fun i hi => ?_
  rw [BitVec.getLsbD_ofNat, testBit_maskOf, BitVec.getLsbD_setWidth, decide_eq_true hi, Bool.true_and, Bool.true_and]
  by_cases h16 : i < 16
  · rw [decide_eq_true h16, Bool.true_and, Bool.eq_iff_iff]
    exact (h i h16).symm
  · rw [decide_eq_false h16, BitVec.getLsbD_of_ge _ _ (by omega)]
    rfl

/-- Settles O14: the seven collective instructions by their one body, `await` and `tkpoll` by the tickets they name. -/
theorem collectiveIssueAndTickets : Obligations.CollectiveIssueAndTickets := by
  unfold Obligations.CollectiveIssueAndTickets
  refine ⟨fun s g w => ?_, fun s g w => ?_⟩
  · intro t f c k va queued ha ht h64 hown
    exact ⟨leaves_coll (o := .cbktOpen) rfl ha ht h64 hown, leaves_coll (o := .cbktBucket) rfl ha ht h64 hown,
      leaves_coll (o := .cbktClose) rfl ha ht h64 hown, leaves_coll (o := .cbktPublish) rfl ha ht h64 hown,
      leaves_coll (o := .pgather) rfl ha ht h64 hown, leaves_coll (o := .csend) rfl ha ht h64 hown, leaves_coll (o := .crecv) rfl ha ht h64 hown⟩
  · intro t f m named hfault
    have hnamed : ∀ i, i ∈ ticketsNamed (f.x24 % 2 ^ 16) ↔ named i := fun i => by rw [mem_ticketsNamed, ofNat_mod_16]
    have hf : ∀ i ∈ ticketsNamed (f.x24 % 2 ^ 16), (t.ticket i).fault = none := fun i hi => hfault i ((hnamed i).mp hi)
    refine ⟨fun hidle => ?_, fun hbusy => ?_, fun v hd hv => ?_⟩
    · refine leaves_of_body (o := .await) fun _ => ?_
      rw [awaitBody_ok hf, if_neg]
      rw [List.any_eq_true]
      rintro ⟨i, hi, hbusy⟩
      exact Ticket.busy_eq_true.mp hbusy (hidle i ((hnamed i).mp hi))
    · intro h
      obtain ⟨i, hi, hops⟩ := hbusy
      have hpark := awaitBody_ok hf
      rw [if_pos (List.any_eq_true.mpr ⟨i, (hnamed i).mpr hi, Ticket.busy_eq_true.mpr hops⟩)] at hpark
      exact leaves_of_body (o := .await) (fun _ => hpark) h
    · rw [← ofNat_maskOf_16 (v := v) (p := fun i => (ticketsNamed (f.x24 % 2 ^ 16)).contains i && !(t.ticket i).busy)]
      · exact writes_tkpoll hf hd
      · intro i hi
        rw [hv i hi, ← hnamed, Bool.and_eq_true, List.contains_iff_mem, Bool.not_eq_true', ← Bool.not_eq_true, Ticket.busy_eq_true, not_not]

end Sys2Proof.Machine
end

section
/-! Modes, register accesses and tile configuration (O16). -/

namespace Sys2Proof.Machine

/-! ### Mode writes (R43) -/

theorem RMode.isNone_ofBits {n : Nat} (h : n ≤ 4) : (RMode.ofBits n).isNone = false := by interval_cases n <;> rfl

section
variable {s : State} {g : Nat} {w : Word}

/-- A source tagged INT. -/
theorem checkRegs_int (ha : ((s.now g).reg (longFields w).rs1).tag = .int) : (s.now g).checkRegs [((longFields w).rs1, [.int])] [] = none :=
  checkRegs_of_accepts (List.forall_mem_singleton.mpr (Thread.accepts_of_lt (rs1_lt w) (by simp [ha]))) nofun

/-- A write of CR_MODE outside a shadow whose rounding mode is not reserved. -/
theorem modeRes_ok {mask : Nat} (hshadow : (s.now g).shadow = none) (ha : ((s.now g).reg (longFields w).rs1).tag = .int)
    (hrm : fld (modeUnder (s.now g).mode mask ((s.now g).reg (longFields w).rs1).val.toNat) 0 3 ≤ 4) :
    modeRes (longCtx s g w false) mask =
      .ok s ((s.now g).startShadow (modeUnder (s.now g).mode mask ((s.now g).reg (longFields w).rs1).val.toNat)) .seq := by
  simp only [modeRes, longCtx_f, longCtx_th, longCtx_s, hshadow, checkRegs_int ha, RMode.isNone_ofBits hrm, Option.isSome_none,
    Bool.false_eq_true, if_false]

end

/-! ### Register accesses leave what waits for the vector datapath -/

/-- Every core's backlog of the vector datapath is kept. -/
def State.KeepsBacklog (s t : State) : Prop := ∀ c, (t.core c).vecQ = (s.core c).vecQ

@[simp] theorem State.keepsBacklog_refl (s : State) : s.KeepsBacklog s := fun _ => rfl
@[simp] theorem State.keepsBacklog_setThread (s : State) (g : Nat) (t : Thread) : s.KeepsBacklog (s.setThread g t) := fun _ => rfl
@[simp] theorem State.keepsBacklog_setBinding (s : State) (b : Nat) (x : Binding) : s.KeepsBacklog (s.setBinding b x) := fun _ => rfl
@[simp] theorem State.keepsBacklog_setPort (s : State) (p : Nat) (x : Port) : s.KeepsBacklog (s.setPort p x) := fun _ => rfl
@[simp] theorem State.keepsBacklog_setHalf (s : State) (h : Nat) (x : Half) : s.KeepsBacklog (s.setHalf h x) := fun c => by rw [State.core_setHalf]

theorem State.keepsBacklog_setCore {s : State} {c : Nat} {k : Core} (h : k.vecQ = (s.core c).vecQ) : s.KeepsBacklog (s.setCore c k) := by
  intro j
  rw [State.core_setCore]
  split
  · next hj => rw [hj, h]
  · rfl

theorem State.keepsBacklog_ite {s a b : State} {p : Prop} [Decidable p] (ha : s.KeepsBacklog a) (hb : s.KeepsBacklog b) :
    s.KeepsBacklog (if p then a else b) := by
  split
  · exact ha
  · exact hb

theorem State.keepsBacklog_snd_ite {s : State} {a b : Word × State} {p : Prop} [Decidable p] (ha : s.KeepsBacklog a.2) (hb : s.KeepsBacklog b.2) :
    s.KeepsBacklog (if p then a else b).2 := by
  split
  · exact ha
  · exact hb

theorem keepsBacklog_csrRead (s : State) (x : CsrAt) (n : Nat) : s.KeepsBacklog (csrRead s x n).2 := by
  unfold csrRead
  dsimp only
  repeat' with_reducible refine State.keepsBacklog_snd_ite ?_ ?_
  all_goals simp [readTlStat, readVcStat, readOob, readParcnt, readStall, readHbStat, readRxerr, readBcn, readLinkerr, readCeStat, readDbstat,
    State.keepsBacklog_setCore]

theorem vecQ_tcfgApply {k k' : Core} {n : Nat} {v : BitVec 32} (h : tcfgApply k n v = some k') : k'.vecQ = k.vecQ := by
  unfold tcfgApply at h
  dsimp only at h
  split_ifs at h <;> cases h <;> rfl

theorem vecQ_tcfgDo {k k' : Core} {n : Nat} {v : Word} (h : tcfgDo k n v = .ok k') : k'.vecQ = k.vecQ := by
  unfold tcfgDo at h
  split_ifs at h
  split at h
  · cases h
  · next happly =>
    cases h
    exact vecQ_tcfgApply happly

theorem keepsBacklog_csrWrite (s : State) (x : CsrAt) (n : Nat) (tag : Tag) (v : Word) (prv : Nat) : s.KeepsBacklog (csrWrite s x n tag v prv) := by
  have hcore : ∀ k', tcfgDo (s.core x.c) (n - 0x1000) v = .ok k' → s.KeepsBacklog (s.setCore x.c k') :=
    fun k' h => State.keepsBacklog_setCore (vecQ_tcfgDo h)
  unfold csrWrite
  dsimp only
  generalize tcfgDo (s.core x.c) (n - 0x1000) v = r at hcore ⊢
  cases r
  all_goals
    repeat' with_reducible refine State.keepsBacklog_ite ?_ ?_
    all_goals simp [writeFflags, writeEpc, writeEstat, writeTlStat, writeStallctl, writeHlEvent, writeCeBucket, writeTcmp, writePwEvent,
      State.keepsBacklog_setCore, hcore]

/-! ### Register accesses (R49) -/

section
variable {s : State} {g : Nat} {w : Word}

theorem csrLevelCheck_none (h : csrInfo s.build ((longFields w).x24 % 65536) = none) :
    csrLevelCheck (longCtx s g w false) = some (cIllegal w) := by
  simp [csrLevelCheck, h]

section
variable {lvl : Nat} {cp : Copies} (h : csrInfo s.build ((longFields w).x24 % 65536) = some (lvl, cp))
include h

theorem csrLevelCheck_below (hlvl : (s.now g).estat.prv.toNat < lvl) :
    csrLevelCheck (longCtx s g w false) = some (cPrivReg ((longFields w).x24 % 65536)) := by
  simp [csrLevelCheck, h, condIf, hlvl]

theorem csrLevelCheck_reached (hlvl : lvl ≤ (s.now g).estat.prv.toNat) : csrLevelCheck (longCtx s g w false) = none := by
  simp [csrLevelCheck, h, condIf, Nat.not_lt.mpr hlvl]

end

section
variable (hd : (s.now g).isPend (longFields w).rd = false)
include hd

theorem traps_csrr {prio cause : Nat} {etval : Word} {tk : Option Nat} (hlevel : csrLevelCheck (longCtx s g w false) = some ⟨prio, cause, etval, tk⟩) :
    Traps s g w .csrr (.csrr g w) cause etval := by
  refine traps_of_body (o := .csrr) (prio := prio) (tk := tk) nofun fun _ => ?_
  have hcheck : (s.now g).checkRegs [] [(longFields w).rd] = none := checkRegs_of_accepts nofun (List.forall_mem_singleton.mpr hd)
  simp only [bodyOf, csrrBody, hlevel, longCtx_f, longCtx_th, hcheck, minCond]

theorem exec_csrr (hlevel : csrLevelCheck (longCtx s g w false) = none) (h : Issues s g w .csrr) :
    let r := csrRead (s.setThread g (s.now g)) (s.csrOf g) ((longFields w).x24 % 65536)
    exec (.csrr g w) s = .next (r.2.setThread g ((s.now g).went
      ((r.2.thread g).queueFixed [((longFields w).rd, ⟨.int, r.1⟩, 0, 1)]) .seq)) := by
  intro r
  have hkeeps : (s.setThread g (s.now g)).KeepsBacklog r.2 := keepsBacklog_csrRead _ _ _
  refine leaves_of_body_state (o := .csrr) (hkeeps (coreOf g)) (fun _ => ?_) h
  have hcheck : (s.now g).checkRegs [] [(longFields w).rd] = none := checkRegs_of_accepts nofun (List.forall_mem_singleton.mpr hd)
  simp only [bodyOf, csrrBody, hlevel, longCtx_f, longCtx_th, hcheck, minCond]
  rfl

end

theorem traps_csrw {prio cause : Nat} {etval : Word} {tk : Option Nat} (hlevel : csrLevelCheck (longCtx s g w false) = some ⟨prio, cause, etval, tk⟩) :
    Traps s g w .csrw (.csrw g w) cause etval := by
  refine traps_of_body (o := .csrw) (prio := prio) (tk := tk) nofun fun _ => ?_
  simp only [bodyOf, csrwBody, hlevel]

theorem checkRegs_csrw {n : Nat} (ha : ((s.now g).reg (longFields w).rs1).tag = .int ∨ (n = 0x0020 ∧
      (((s.now g).reg (longFields w).rs1).tag = .ptr ∨ ((s.now g).reg (longFields w).rs1).tag = .ret))) :
    (s.now g).checkRegs [((longFields w).rs1, if n = 0x0020 then [.int, .ptr, .ret] else [.int])] [] = none := by
  refine checkRegs_of_accepts (List.forall_mem_singleton.mpr (Thread.accepts_of_lt (rs1_lt w) ?_ ?_)) nofun
  · split
    · simpa using ha.imp_right And.right
    · next hn => simpa [hn] using ha
  · split <;> decide

section
variable (hlevel : csrLevelCheck (longCtx s g w false) = none)
include hlevel

theorem leaves_csrw_mode (hn : (longFields w).x24 % 65536 = 0x0010) (hshadow : (s.now g).shadow = none)
    (ha : ((s.now g).reg (longFields w).rs1).tag = .int)
    (hrm : fld (modeUnder (s.now g).mode 0 ((s.now g).reg (longFields w).rs1).val.toNat) 0 3 ≤ 4) :
    Leaves s g w .csrw (.csrw g w) s ((s.now g).startShadow (modeUnder (s.now g).mode 0 ((s.now g).reg (longFields w).rs1).val.toNat)) .seq := by
  refine leaves_of_body (o := .csrw) fun _ => ?_
  simp only [bodyOf, csrwBody, hlevel, longCtx_f, Nat.reducePow, hn, if_true]
  exact modeRes_ok hshadow ha hrm

theorem leaves_csrw_tlCfg {k' : Core} (hlo : 0x1000 ≤ (longFields w).x24 % 65536) (hhi : (longFields w).x24 % 65536 ≤ 0x100B)
    (ha : ((s.now g).reg (longFields w).rs1).tag = .int)
    (hdo : tcfgDo (s.core (coreOf g)) ((longFields w).x24 % 65536 - 0x1000) ((s.now g).reg (longFields w).rs1).val = .ok k') :
    Leaves s g w .csrw (.csrw g w) (s.setCore (coreOf g) k') (s.now g) .seq := by
  refine leaves_of_body_state (o := .csrw) (by rw [State.core_setCore_same, vecQ_tcfgDo hdo]) fun _ => ?_
  have hmode : (longFields w).x24 % 65536 ≠ 0x0010 := by omega
  have hepc : (longFields w).x24 % 65536 ≠ 0x0020 := by omega
  simp only [bodyOf, csrwBody, hlevel, longCtx_f, longCtx_th, longCtx_s, longCtx_g, Nat.reducePow, if_neg hmode, hepc, if_false, checkRegs_int ha,
    hlo, hhi, and_self, if_true, hdo]

theorem exec_csrw_register {n : Nat} (hn : n = (longFields w).x24 % 65536) (hmode : n ≠ 0x0010) (htl : ¬ (0x1000 ≤ n ∧ n ≤ 0x100B))
    (ha : ((s.now g).reg (longFields w).rs1).tag = .int ∨ (n = 0x0020 ∧
      (((s.now g).reg (longFields w).rs1).tag = .ptr ∨ ((s.now g).reg (longFields w).rs1).tag = .ret))) (h : Issues s g w .csrw) :
    let a := (s.now g).reg (longFields w).rs1
    let s' := csrWrite (s.setThread g (s.now g)) (s.csrOf g) n a.tag a.val (s.now g).estat.prv.toNat
    exec (.csrw g w) s = .next (s'.setThread g ((s.now g).went (s'.thread g) .seq)) := by
  intro a s'
  have hkeeps : (s.setThread g (s.now g)).KeepsBacklog s' := keepsBacklog_csrWrite _ _ _ _ _ _
  refine leaves_of_body_state (o := .csrw) (hkeeps (coreOf g)) (fun _ => ?_) h
  have hcheck := checkRegs_csrw ha
  simp only [bodyOf, csrwBody, hlevel, longCtx_f, longCtx_th, longCtx_s, longCtx_g, Nat.reducePow, ← hn, if_neg hmode, hcheck, if_neg htl]
  rfl

end

/-! ### Tile configuration (R103, R105, R106) -/

/-- Whether the shape of a tile stays under a configuration (R106). -/
theorem tcfgDo_sameShape {k : Core} {n : Nat} {v : Word} (hv : tcfgConsistent n v = true)
    (hshape : shapeOf n (k.cfg n) = shapeOf n (BitVec.ofNat 32 v.toNat)) :
    tcfgDo k n v = .ok { k with tcfg := FMap.set 0#32 k.tcfg n (BitVec.ofNat 32 v.toNat) } := by
  have hshape' : shapeOf n (FMap.get 0#32 k.tcfg n) = shapeOf n (BitVec.ofNat 32 v.toNat) := hshape
  simp only [tcfgDo, tcfgApply, hv, Bool.not_true, Bool.false_eq_true, if_false, if_pos hshape']

section
variable {k : Core} {n : Nat} {v : Word} (hv : tcfgConsistent n v = true) (hshape : shapeOf n (k.cfg n) ≠ shapeOf n (BitVec.ofNat 32 v.toNat))
include hv hshape

theorem tcfgDo_newShape (hfree : ∀ e ∈ k.tileQ, n ∉ e.op.names) :
    tcfgDo k n v = .ok { setEmptyView (({ k with tcfg := FMap.set 0#32 k.tcfg n (BitVec.ofNat 32 v.toNat) } : Core).setTile n Tile.empty) n true with
      vScaled := if n < 8 then k.vScaled else k.vScaled &&& ~~~(BitVec.ofNat 4 (2 ^ (n - 8))) } := by
  have hshape' : ¬ shapeOf n (FMap.get 0#32 k.tcfg n) = shapeOf n (BitVec.ofNat 32 v.toNat) := hshape
  have hany : k.tileQ.any (fun e => e.op.names.contains n) = false := by simpa using hfree
  simp only [tcfgDo, tcfgApply, hv, Bool.not_true, Bool.false_eq_true, if_false, if_neg hshape', hany]
  rfl

theorem tcfgDo_busy (hbusy : ∃ e ∈ k.tileQ, n ∈ e.op.names) : tcfgDo k n v = .error (cTileBusy n) := by
  have hshape' : ¬ shapeOf n (FMap.get 0#32 k.tcfg n) = shapeOf n (BitVec.ofNat 32 v.toNat) := hshape
  have hany : k.tileQ.any (fun e => e.op.names.contains n) = true := by simpa using hbusy
  simp only [tcfgDo, tcfgApply, hv, Bool.not_true, Bool.false_eq_true, if_false, if_neg hshape', hany, if_true]

end

theorem tcfgDo_inconsistent {k : Core} {n : Nat} {v : Word} (hv : tcfgConsistent n v = false) : tcfgDo k n v = .error (cTileShape n) := by
  simp only [tcfgDo, hv, Bool.not_false, if_true]

section
variable (ha : ((s.now g).reg (longFields w).rs1).tag = .int)
include ha

theorem leaves_tcfg {k' : Core} (hdo : tcfgDo (s.core (coreOf g)) (longFields w).x24 ((s.now g).reg (longFields w).rs1).val = .ok k') :
    Leaves s g w .tcfg (.tcfg g w) (s.setCore (coreOf g) k') (s.now g) .seq := by
  refine leaves_of_body_state (o := .tcfg) (by rw [State.core_setCore_same, vecQ_tcfgDo hdo]) fun _ => ?_
  simp only [bodyOf, tcfgBody, longCtx_f, longCtx_th, longCtx_s, longCtx_g, checkRegs_int ha, hdo]

theorem traps_tcfg {prio cause : Nat} {etval : Word} {tk : Option Nat}
    (hdo : tcfgDo (s.core (coreOf g)) (longFields w).x24 ((s.now g).reg (longFields w).rs1).val = .error ⟨prio, cause, etval, tk⟩) :
    Traps s g w .tcfg (.tcfg g w) cause etval := by
  refine traps_of_body (o := .tcfg) (prio := prio) (tk := tk) nofun fun _ => ?_
  simp only [bodyOf, tcfgBody, longCtx_f, longCtx_th, longCtx_s, longCtx_g, checkRegs_int ha, hdo]

end

end

theorem modeUnder_eq (old : BitVec 8) {mask : Nat} (hmask : mask < 256) (v : Nat) : modeUnder old mask v =
    (old &&& ~~~(BitVec.ofNat 8 (if mask = 0 then 0xE7 else mask &&& 0xE7))) ||| (BitVec.ofNat 8 v &&& BitVec.ofNat 8 (if mask = 0 then 0xE7 else mask &&& 0xE7)) := by
  rw [modeUnder, Nat.mod_eq_of_lt hmask]

/-- Settles O16: a register access by its level and its number, a tile configuration by its consistency and shape. -/
theorem modesAndConfiguration : Obligations.ModesAndConfiguration := by
  unfold Obligations.ModesAndConfiguration
  refine ⟨fun s g w => ?_, fun s g w => ?_⟩
  · intro t f n a c under shadowed
    have hunder : ∀ x, x < 256 → under x = modeUnder t.mode x a.val.toNat := fun x hx => (modeUnder_eq _ hx _).symm
    have hmask : f.x24 % 256 < 256 := Nat.mod_lt _ (by decide)
    refine ⟨fun hshadow ha hrm => ?_, leaves_of_body (o := .ifence) fun _ => rfl, fun hinfo hd => ?_, fun lvl cp hinfo => ⟨fun hlvl hd => ?_, fun hlvl => ?_⟩⟩
    · rw [hunder _ hmask] at hrm ⊢
      exact leaves_of_body (o := .mset) fun _ => modeRes_ok hshadow ha hrm
    · have hlevel := csrLevelCheck_none (g := g) hinfo
      exact ⟨traps_csrr hd hlevel, traps_csrw hlevel⟩
    · have hlevel := csrLevelCheck_below hinfo hlvl
      exact ⟨traps_csrr hd hlevel, traps_csrw hlevel⟩
    · have hlevel := csrLevelCheck_reached hinfo hlvl
      refine ⟨fun hd h => exec_csrr hd hlevel h, fun hn hshadow ha hrm => ?_, fun k' hlo hhi ha hdo => leaves_csrw_tlCfg hlevel hlo hhi ha hdo,
        fun ha hmode htl h => exec_csrw_register hlevel rfl hmode htl ha h⟩
      rw [hunder 0 (by decide)] at hrm ⊢
      exact leaves_csrw_mode hlevel hn hshadow ha hrm
  · intro t f c k n v cfg k1 ha
    refine ⟨fun hv => ⟨fun hshape => leaves_tcfg ha (tcfgDo_sameShape hv hshape), fun hshape => ⟨fun hfree => ?_, fun hbusy => ?_⟩⟩, fun hv => ?_⟩
    · exact leaves_tcfg ha (tcfgDo_newShape hv hshape hfree)
    · exact traps_tcfg ha (tcfgDo_busy hv hshape hbusy)
    · exact traps_tcfg ha (tcfgDo_inconsistent hv)

end Sys2Proof.Machine
end

section
/-! Calls of the runtime, returns from traps and the end of a thread (O17). -/

namespace Sys2Proof.Machine

/-! ### Calls (R57, R59) -/

theorem traps_ecall (s : State) (g : Nat) (w : Word) : Traps s g w .ecall (.ecall g w) (if (s.now g).estat.prv = 0 then 0x12 else 0x13) 0 :=
  traps_of_body (o := .ecall) (prio := 110) (tk := none) nofun fun _ => rfl

theorem traps_brk (s : State) (g : Nat) (w : Word) : Traps s g w .brk (.brk g w) 0x14 (BitVec.ofNat 64 (longFields w).x24) :=
  traps_of_body (o := .brk) (prio := 110) (tk := none) nofun fun _ => rfl

/-! ### Returns (R75, R76) -/

theorem eretChecks_zero {t : Thread} (h2 : t.estat.sprv ≠ 2) (hle : t.estat.sprv.toNat ≤ t.estat.prv.toNat)
    (htag : t.epc.tag = .ptr ∨ t.epc.tag = .ret) (hsvi : t.estat.svi = true) : eretChecks t = 0 := by
  have hepc : (t.epc.tag == .ptr || t.epc.tag == .ret) = true := by simpa using htag
  have hsprv : ¬ t.estat.sprv = 2#2 := h2
  simp [eretChecks, hsprv, Nat.not_lt.mpr hle, hepc, hsvi, b2n]

/-- An `eret` whose saved state passes its checks returns. -/
theorem leaves_eret {s : State} {g : Nat} {w : Word} (hprv : (s.now g).estat.prv ≠ 0) (hchecks : eretChecks (s.now g) = 0) :
    Leaves s g w .eret (.eret g w) s (eretThread (s.now g)) (.resume (s.now g).epc.val (s.now g).estat.rpt) := by
  refine leaves_of_body (o := .eret) fun _ => ?_
  simp only [bodyOf, eretBody, longCtx_th, longCtx_s, if_neg hprv, hchecks, ne_eq, not_true_eq_false, if_false]

/-- What the return leaves outside a shadow: the saved level and mode, or the shadow that was saved. -/
theorem eretThread_mode {t : Thread} (hshadow : t.shadow = none) :
    (t.estat.msh = false → (eretThread t).mode = t.mode ∧ (eretThread t).shadow = none) ∧
    (t.estat.msh = true → t.estat.shcnt = 0 → (eretThread t).mode = t.estat.pmode &&& 0xE7 ∧ (eretThread t).shadow = none) ∧
    (t.estat.msh = true → t.estat.shcnt ≠ 0 → (eretThread t).mode = t.estat.omode &&& 0xE7 ∧
      (eretThread t).shadow = some ⟨t.estat.omode &&& 0xE7, t.estat.pmode &&& 0xE7, t.estat.shcnt.toNat, true⟩) := by
  refine ⟨fun hmsh => ?_, fun hmsh h0 => ?_, fun hmsh h0 => ?_⟩
  · simp [eretThread, hshadow, hmsh]
  · simp [eretThread, hshadow, hmsh, h0, modeOf]
  · have hcount : ¬ t.estat.shcnt = 0#2 := h0
    simp [eretThread, hshadow, hmsh, hcount, modeOf]

theorem eretThread_rest {t : Thread} (hshadow : t.shadow = none) :
    eretThread t = { t with fetch := none, mode := (eretThread t).mode, shadow := (eretThread t).shadow,
                            estat := { t.estat with prv := t.estat.sprv, exl := false, lnta := false, eds := false, rpt := false,
                                                    msh := (eretThread t).estat.msh } } := by
  simp [eretThread, hshadow]

/-! ### The end of a thread (R21, R166) -/

theorem Core.desc_setDesc (k : Core) (i j : Nat) (d : DescSlot) : (k.setDesc i d).desc j = if j = i then d else k.desc j := FMap.get_set _ _ _ _ _

/-- Retiring the first `n` slots of a thread advances each of their generations, and leaves every other slot. -/
theorem Core.desc_foldl_retire (k : Core) (base n i : Nat) :
    ((List.range n).foldl (fun (k : Core) i => k.setDesc (base + i) ⟨none, (k.desc (base + i)).gen + 1⟩) k).desc i =
      if base ≤ i ∧ i < base + n then ⟨none, (k.desc i).gen + 1⟩ else k.desc i := by
  induction n generalizing i with
  | zero => simp
  | succ n ih =>
    rw [List.range_succ, List.foldl_append, List.foldl_cons, List.foldl_nil, Core.desc_setDesc]
    by_cases hi : i = base + n
    · rw [if_pos hi, if_pos (by omega)]
      subst hi
      rw [ih, if_neg (by omega)]
    · rw [if_neg hi, ih]
      congr 1
      simp only [eq_iff_iff]
      omega

theorem Core.desc_retireThread (k : Core) (tid i : Nat) : (k.retireThread tid).desc i =
    if tid * 64 ≤ i ∧ i < tid * 64 + 64 then ⟨none, (k.desc i).gen + 1⟩ else k.desc i := Core.desc_foldl_retire k (tid * 64) 64 i

/-- Retiring slots changes the slots alone. -/
theorem Core.retireThread_eq (k : Core) (tid : Nat) : k.retireThread tid = { k with descs := (k.retireThread tid).descs } := by
  unfold Core.retireThread
  generalize upto 64 = l
  induction l generalizing k with
  | nil => rfl
  | cons i l ih =>
    rw [List.foldl_cons, ih]
    rfl

@[simp] theorem Core.tileQ_retireThread (k : Core) (tid : Nat) : (k.retireThread tid).tileQ = k.tileQ := by rw [Core.retireThread_eq]
@[simp] theorem Core.chainQ_retireThread (k : Core) (tid : Nat) : (k.retireThread tid).chainQ = k.chainQ := by rw [Core.retireThread_eq]
@[simp] theorem Core.descQ_retireThread (k : Core) (tid : Nat) : (k.retireThread tid).descQ = k.descQ := by rw [Core.retireThread_eq]
@[simp] theorem Core.collQ_retireThread (k : Core) (tid : Nat) : (k.retireThread tid).collQ = k.collQ := by rw [Core.retireThread_eq]
@[simp] theorem Core.vecQ_retireThread (k : Core) (tid : Nat) : (k.retireThread tid).vecQ = k.vecQ := by rw [Core.retireThread_eq]

theorem leaves_tend (s : State) (g : Nat) (w : Word) : Leaves s g w .tend (.tend g w)
    (s.setCore (coreOf g) ((s.core (coreOf g)).retireThread (tidOf g))) { s.now g with ending := true } .seq :=
  leaves_of_body_state (o := .tend) (by simp) fun _ => rfl

/-- Settles O17: the calls by their traps, `eret` by the thread it returns to, `tend` by the slots it retires. -/
theorem callsAndReturns : Obligations.CallsAndReturns := by
  unfold Obligations.CallsAndReturns
  intro s g w t f e k
  refine ⟨traps_ecall s g w, traps_brk s g w, fun hprv h2 hle htag hsvi hshadow h => ?_, fun h => ⟨_, leaves_tend s g w h, ?_⟩⟩
  · refine ⟨_, leaves_eret hprv (eretChecks_zero h2 hle htag hsvi) h, ?_⟩
    have hmode := eretThread_mode hshadow
    have hrest := eretThread_rest hshadow
    generalize eretThread t = u at hmode hrest ⊢
    rw [hrest]
    exact ⟨rfl, rfl, rfl, rfl, rfl, rfl, rfl, rfl, rfl, rfl, rfl, rfl, rfl, hmode⟩
  · refine ⟨fun i hi => ?_, fun i hi => ?_, k.tileQ_retireThread _, k.chainQ_retireThread _, k.descQ_retireThread _, k.collQ_retireThread _⟩
    · rw [Core.desc_retireThread, if_pos (by omega)]
      exact ⟨rfl, rfl⟩
    · rw [Core.desc_retireThread, if_neg (by omega)]

end Sys2Proof.Machine
end

section
/-! Scalar memory instructions at issue (O8): loads, stores, tagged pairs, atomics and fences. -/

namespace Sys2Proof.Machine

/-! ### The checks of an access (R30, R210, R222) -/

theorem privAddrCheck_none {s : State} {g : Nat} {t : Thread} {o : Op} {va : Word} {n : Nat} (hctl : t.estat.prv = 3 ∨ ctlHit va n = none)
    (htagged : isTagged o = true → t.estat.prv ≠ 0 ∨ (isPress va.toNat = true ∧ s.pressHeld (s.bindingOf (coreOf g)) va.toNat = true)) :
    privAddrCheck s g t o va n = none := by
  unfold privAddrCheck
  rw [if_neg]
  · refine condIf_false ?_ _
    rw [Bool.eq_false_iff]
    intro h
    simp only [Bool.and_eq_true, decide_eq_true_eq, Bool.not_eq_true', Bool.and_eq_false_iff] at h
    obtain ⟨⟨ho, hprv⟩, hheld⟩ := h
    rcases htagged ho with hne | ⟨hpress, hown⟩
    · exact hne hprv
    · simp [hpress, hown] at hheld
  · rcases hctl with h | h <;> simp [h]

theorem alignCheck_none {o : Op} {n : Nat} {va : Word} (h : va.toNat % (if isTagged o && !isPress va.toNat then 16 else n) = 0) :
    alignCheck o n va = none := condIf_false (decide_eq_false (not_not_intro h)) _

section
variable {s : State} {g : Nat} {w : Word}

/-- A scalar memory instruction whose checks pass puts its access on its ticket. -/
theorem memBody_ok {srcs : Fields → List (Nat × Accept)} {dsts : Fields → List Nat} {op : Fields → Thread → AccOp}
    (hsrcs : ∀ e ∈ srcs (longFields w), (s.now g).accepts e) (hd : ∀ c ∈ dsts (longFields w), (s.now g).isPend c = false)
    (ht : (s.now g).ticketIdle (longFields w).tk)
    (hpriv : privAddrCheck s g (s.now g) (longFields w).op (memAddr (longFields w) (s.now g)) (memSize (longFields w)) = none)
    (halign : alignCheck (longFields w).op (memSize (longFields w)) (memAddr (longFields w) (s.now g)) = none) :
    let t := s.now g
    let f := longFields w
    let u := t.addAccess f.tk (op f t) (memAddr f t) (s.beginAccess g (op f t) (memAddr f t) t.estat.prv) (dsts f)
    memBody srcs dsts op (longCtx s g w false) =
      .ok s (if memPi f && !(dsts f).contains f.rs1 then u.queueFixed [(f.rs1, ⟨.ptr, (t.reg f.rs1).val + sfld w 0 24⟩, 0, 1)] else u) .seq := by
  have hcheck : firstCond [(longCtx s g w false).checkTicketed (srcs (longFields w)) (dsts (longFields w)),
      privAddrCheck s g (s.now g) (longFields w).op (memAddr (longFields w) (s.now g)) (memSize (longFields w)),
      alignCheck (longFields w).op (memSize (longFields w)) (memAddr (longFields w) (s.now g))] = none := by
    refine firstCond_none ?_
    simp only [List.forall_mem_cons]
    exact ⟨checkTicketed_none hsrcs hd ht, hpriv, halign, nofun⟩
  simp only [memBody, longCtx_f, longCtx_th, longCtx_s, longCtx_g, hcheck]
  rfl

/-! ### Loads and stores (R222) -/

/-- The instructions that move one register: their long words take the LI or the LR form. -/
def isMove (o : Op) : Prop := o ∈ [Op.ld, .ldf, .ldp, .ldt, .st, .stt]

theorem form_of_isMove {o : Op} (ho : isMove o) (h : Issues s g w o) : (longFields w).form = .li ∨ (longFields w).form = .lr := by
  have hforms : ∀ o ∈ [Op.ld, .ldf, .ldp, .ldt, .st, .stt], formsOf o = [.li, .lr] := by decide
  have hmem := h.form_mem
  rw [hforms o ho] at hmem
  simpa using hmem

/-- The address of a load or a store: base and immediate, or base, index and, without post-increment, displacement. -/
def moveAddr (w : Word) (t : Thread) : Word :=
  let f := longFields w
  if f.form = .li then (t.reg f.rs1).val + f.imm
  else if f.fn / 8 % 2 = 1 then (t.reg f.rs1).val + (t.reg f.rs2).val else (t.reg f.rs1).val + (t.reg f.rs2).val + sfld w 0 24

theorem isMove.ne_amo {o : Op} (ho : isMove o) : o ≠ .amo := by
  rintro rfl
  exact absurd ho (by unfold isMove; decide)

theorem memPi_of_isMove {o : Op} (ho : isMove o) (h : Issues s g w o) :
    memPi (longFields w) = true ↔ (longFields w).form = .lr ∧ (longFields w).fn / 8 % 2 = 1 := by
  simp [memPi, h.op, ho.ne_amo]

theorem memAddr_of_isMove {o : Op} (ho : isMove o) (h : Issues s g w o) (t : Thread) : memAddr (longFields w) t = moveAddr w t := by
  rcases form_of_isMove ho h with hform | hform
  · simp only [memAddr, moveAddr, hform, if_true]
  · simp only [memAddr, moveAddr, memPi, hform, h.op, ho.ne_amo, ne_eq, not_false_eq_true, decide_true, Bool.true_and, Bool.and_true,
      decide_eq_true_eq, reduceCtorEq, if_false]
    rfl

/-- The base of a load or a store is a pointer and its index, in the LR form, an integer. -/
theorem accepts_memSrcs_of_isMove {o : Op} (ho : isMove o) (h : Issues s g w o) (hbase : ((s.now g).reg (longFields w).rs1).tag = .ptr)
    (hindex : (longFields w).form = .lr → ((s.now g).reg (longFields w).rs2).tag = .int) :
    ∀ e ∈ memSrcs (longFields w), (s.now g).accepts e := by
  have hacc1 : (s.now g).accepts ((longFields w).rs1, [.ptr]) := Thread.accepts_of_lt (rs1_lt w) (by simp [hbase])
  rcases form_of_isMove ho h with hform | hform
  · simpa [memSrcs, hform] using hacc1
  · have hacc2 : (s.now g).accepts ((longFields w).rs2, [.int]) := Thread.accepts_of_lt (rs2_lt w) (by simp [hindex hform])
    simpa [memSrcs, hform, h.op, ho.ne_amo] using And.intro hacc1 hacc2

/-- A load or a store goes onto its ticket; where it post-increments a base that it does not load, the base is written one slot later. -/
theorem leaves_move {o : Op} (ho : isMove o) {srcs : Fields → List (Nat × Accept)} {dsts : Fields → List Nat} {op : Fields → Thread → AccOp}
    (hbody : bodyOf o = memBody srcs dsts op) (hsrcs : Issues s g w o → ∀ e ∈ srcs (longFields w), (s.now g).accepts e)
    (hd : ∀ c ∈ dsts (longFields w), (s.now g).isPend c = false) (ht : (s.now g).ticketIdle (longFields w).tk)
    (hctl : (s.now g).estat.prv = 3 ∨ ctlHit (moveAddr w (s.now g)) (memSize (longFields w)) = none)
    (htagged : isTagged o = true → (s.now g).estat.prv ≠ 0 ∨
      (isPress (moveAddr w (s.now g)).toNat = true ∧ s.pressHeld (s.bindingOf (coreOf g)) (moveAddr w (s.now g)).toNat = true))
    (halign : Issues s g w o →
      (moveAddr w (s.now g)).toNat % (if isTagged o && !isPress (moveAddr w (s.now g)).toNat then 16 else memSize (longFields w)) = 0) :
    let t := s.now g
    let f := longFields w
    let post := f.form = .lr ∧ f.fn / 8 % 2 = 1
    let u := t.addAccess f.tk (op f t) (moveAddr w t) (s.beginAccess g (op f t) (moveAddr w t) t.estat.prv) (dsts f)
    (post ∧ f.rs1 ∉ dsts f →
      Leaves s g w o (instrOf o g w) s (u.queueFixed [(f.rs1, ⟨.ptr, (t.reg f.rs1).val + sfld w 0 24⟩, 0, 1)]) .seq) ∧
    (¬ (post ∧ f.rs1 ∉ dsts f) → Leaves s g w o (instrOf o g w) s u .seq) := by
  intro t f post u
  have hok : Issues s g w o → bodyOf o (longCtx s g w false) =
      .ok s (if post ∧ f.rs1 ∉ dsts f then u.queueFixed [(f.rs1, ⟨.ptr, (t.reg f.rs1).val + sfld w 0 24⟩, 0, 1)] else u) .seq := by
    intro h
    have haddr := memAddr_of_isMove ho h (s.now g)
    have hcond : (memPi f && !(dsts f).contains f.rs1) = true ↔ post ∧ f.rs1 ∉ dsts f := by
      rw [Bool.and_eq_true, memPi_of_isMove ho h]
      simp [post, f]
    have hbodyOk := memBody_ok (op := op) (hsrcs h) hd ht (by rw [haddr, h.op]; exact privAddrCheck_none hctl htagged)
      (by rw [haddr, h.op]; exact alignCheck_none (halign h))
    rw [hbody, hbodyOk, haddr, if_congr hcond rfl rfl]
  refine ⟨fun hpost => leaves_of_body fun h => ?_, fun hpost => leaves_of_body fun h => ?_⟩
  · rw [hok h, if_pos hpost]
  · rw [hok h, if_neg hpost]

theorem memSize_of_tagged {o : Op} (ho : o = .ldt ∨ o = .stt) (h : Issues s g w o) : memSize (longFields w) = 8 := by
  have hmove : isMove o := by rcases ho with rfl | rfl <;> unfold isMove <;> decide
  rcases form_of_isMove hmove h with hform | hform
  · simp [memSize, hform]
  · have hlegal := h.legal
    have hfn : (longFields w).fn % 4 = 3 := by
      rcases ho with rfl | rfl <;> simp [fieldsLegal, h.op, hform] at hlegal <;> simp [hlegal]
    simp [memSize, hform, hfn]

/-- The alignment of `ldt` and `stt`: 8 bytes in the press, 16 outside (R30). -/
theorem align_of_tagged {o : Op} (ho : o = .ldt ∨ o = .stt) {va : Word} (hva : va.toNat % (if isPress va.toNat then 8 else 16) = 0)
    (h : Issues s g w o) : va.toNat % (if isTagged o && !isPress va.toNat then 16 else memSize (longFields w)) = 0 := by
  have htag : isTagged o = true := by rcases ho with rfl | rfl <;> rfl
  rw [memSize_of_tagged ho h, htag]
  cases hp : isPress va.toNat <;> simpa [hp] using hva

/-- The data register of a store, with the tags `data` accepts, beside base and index. -/
theorem accepts_storeSrcs {o : Op} (ho : isMove o) {acc : Accept} (hacc : Tag.pend ∉ acc)
    (hbase : ((s.now g).reg (longFields w).rs1).tag = .ptr) (hindex : (longFields w).form = .lr → ((s.now g).reg (longFields w).rs2).tag = .int)
    (hdata : ((s.now g).reg (memData (longFields w))).tag ∈ acc) (h : Issues s g w o) :
    ∀ e ∈ memSrcs (longFields w) ++ [(memData (longFields w), acc)], (s.now g).accepts e := by
  have hlt : memData (longFields w) < 32 := by unfold memData; split <;> [exact rd_lt w; exact rs3_lt w]
  intro e he
  rcases List.mem_append.mp he with he | he
  · exact accepts_memSrcs_of_isMove ho h hbase hindex e he
  · rw [List.mem_singleton.mp he]
    exact Thread.accepts_of_lt hlt hdata hacc

/-! ### Atomics and fences (R223, R225) -/

theorem leaves_amo (ha : ((s.now g).reg (longFields w).rs1).tag = .ptr) (hb : ((s.now g).reg (longFields w).rs2).tag = .int)
    (hc : ((s.now g).reg (longFields w).rs3).tag = .int) (hd : (s.now g).isPend (longFields w).rd = false)
    (ht : (s.now g).ticketIdle (longFields w).tk) :
    let t := s.now g
    let f := longFields w
    let n := 2 ^ (f.fn % 4)
    let va := (t.reg f.rs1).val + sfld w 0 24
    let a := AccOp.amo n (f.fn / 16) (decide (f.fn / 4 % 2 = 1)) (t.reg f.rs2).val (t.reg f.rs3).val
    (t.estat.prv = 3 ∨ ctlHit va n = none) → va.toNat % n = 0 →
      Leaves s g w .amo (.amo g w) s (t.addAccess f.tk a va (s.beginAccess g a va t.estat.prv) [f.rd]) .seq := by
  intro t f n va a hctl halign
  refine leaves_of_body fun h => ?_
  have hform : f.form = .lr := by
    have hmem := h.form_mem
    rw [show formsOf .amo = [.lr] by decide] at hmem
    exact List.mem_singleton.mp hmem
  have haddr : memAddr f t = va := by simp only [memAddr, hform, h.op, f, reduceCtorEq, if_false, if_true]; rfl
  have hsize : memSize f = n := by simp [memSize, hform, n]
  have hpi : memPi f = false := by simp [memPi, h.op, f]
  have hsrcs : ∀ e ∈ memSrcs f ++ [(f.rs2, [.int]), (f.rs3, [.int])], t.accepts e := by
    have h1 : t.accepts (f.rs1, [.ptr]) := Thread.accepts_of_lt (rs1_lt w) (by simp [t, f, ha])
    have h2 : t.accepts (f.rs2, [.int]) := Thread.accepts_of_lt (rs2_lt w) (by simp [t, f, hb])
    have h3 : t.accepts (f.rs3, [.int]) := Thread.accepts_of_lt (rs3_lt w) (by simp [t, f, hc])
    simpa [memSrcs, h.op, f] using And.intro h1 (And.intro h2 h3)
  have hok := memBody_ok (s := s) (g := g) (w := w) (srcs := fun f => memSrcs f ++ [(f.rs2, [.int]), (f.rs3, [.int])]) (dsts := fun f => [f.rd])
    (op := fun f t => .amo (memSize f) (f.fn / 16) (decide (f.fn / 4 % 2 = 1)) (t.reg f.rs2).val (t.reg f.rs3).val)
    hsrcs (List.forall_mem_singleton.mpr hd) ht
    (by rw [show memAddr (longFields w) (s.now g) = va from haddr, show memSize (longFields w) = n from hsize, h.op]
        exact privAddrCheck_none hctl nofun)
    (by rw [show memAddr (longFields w) (s.now g) = va from haddr, show memSize (longFields w) = n from hsize, h.op]
        exact alignCheck_none halign)
  simp only [bodyOf, amoBody, hok, show memPi (longFields w) = false from hpi, show memAddr (longFields w) (s.now g) = va from haddr,
    show memSize (longFields w) = n from hsize, Bool.false_and, Bool.false_eq_true, if_false]
  rfl

end

/-- Settles O8: each access goes onto its ticket by `memBody_ok`; a fence keeps the fences that have an access to wait for. -/
theorem memoryAndAtomicIssue : Obligations.MemoryAndAtomicIssue := by
  unfold Obligations.MemoryAndAtomicIssue
  refine ⟨fun s g w => ?_, fun s g w => ⟨?_, ?_⟩⟩
  · intro t f base post n signed va data held onto hbase hindex ht hctl
    have hsrcs {o : Op} (ho : isMove o) (h : Issues s g w o) := accepts_memSrcs_of_isMove ho h hbase hindex
    refine ⟨fun halign => ⟨fun hd => ?_, fun hdata => ?_⟩, fun hheld halign => ⟨fun hd => ?_, fun hpend hinval => ?_⟩⟩
    · have hload (o : Op) (tag : Tag) (ho : isMove o) (htag : isTagged o = false) (hbody : bodyOf o = loadBody tag) :
          onto o (instrOf o g w) (.load n signed tag) [f.rd] :=
        leaves_move ho hbody (hsrcs ho) (List.forall_mem_singleton.mpr hd) ht hctl (by simp [htag]) (fun _ => by rw [htag]; exact halign)
      exact ⟨hload .ld .int (by unfold isMove; decide) rfl rfl, hload .ldf .fp64 (by unfold isMove; decide) rfl rfl,
        hload .ldp .ptr (by unfold isMove; decide) rfl rfl⟩
    · have ho : isMove .st := by unfold isMove; decide
      exact leaves_move ho (show bodyOf .st = stBody from rfl) (accepts_storeSrcs ho (by decide) hbase hindex hdata) nofun ht hctl nofun (fun _ => halign)
    · have ho : isMove .ldt := by unfold isMove; decide
      exact leaves_move ho (show bodyOf .ldt = ldtBody from rfl) (hsrcs ho) (List.forall_mem_singleton.mpr hd) ht hctl (fun _ => hheld)
        (align_of_tagged (.inl rfl) halign)
    · have ho : isMove .stt := by unfold isMove; decide
      exact leaves_move ho (show bodyOf .stt = sttBody from rfl)
        (accepts_storeSrcs ho (by decide) hbase hindex (mem_anyTag_iff.mpr ⟨hpend, hinval⟩)) nofun ht hctl (fun _ => hheld)
        (align_of_tagged (.inr rfl) halign)
  · exact fun ha hb hc hd ht => leaves_amo ha hb hc hd ht
  · refine ⟨_, fun fe hfe => List.mem_of_mem_filter hfe, fun fe hfe ⟨e, he, hord, hover⟩ => ?_, leaves_of_body fun _ => rfl⟩
    exact List.mem_filter.mpr ⟨hfe, List.any_eq_true.mpr ⟨e, he, by simp [hord, hover]⟩⟩

end Sys2Proof.Machine
end

section
/-! Paired words and fetched blocks (O6). -/

namespace Sys2Proof.Machine

/-! ### Paired words (R33, R34, R57) -/

theorem shortOps_ne_eret : ∀ o ∈ shortOps, o ≠ .eret := by decide

theorem slotFields_op_ne_eret (x : Nat) : (slotFields x).op ≠ .eret := by
  show (shortOps[x / 2 ^ 25 % 64]?).getD .nop ≠ .eret
  cases h : shortOps[x / 2 ^ 25 % 64]? with
  | none => decide
  | some o => exact shortOps_ne_eret o (List.mem_of_getElem? h)

theorem FixedOp.join_ok {a b : FixedOp} (ha : a.fault = none) (hb : b.fault = none) :
    a.join b = (⟨none, a.writes ++ b.writes, a.flags ||| b.flags, a.pumps + b.pumps, a.first⟩, false) := by
  simp [FixedOp.join, minCond, ha, hb]

/-- A tie between two faults is slot A's. -/
theorem FixedOp.join_faultA {a b : FixedOp} {c : Cond} (ha : a.fault = some c) (hb : ∀ d, b.fault = some d → c.prio ≤ d.prio) :
    (a.join b).1.fault = some c ∧ (a.join b).2 = false := by
  cases hfb : b.fault with
  | none => simp [FixedOp.join, minCond, ha, hfb]
  | some d => simp [FixedOp.join, minCond, ha, hfb, Nat.not_lt.mpr (hb d hfb)]

theorem FixedOp.join_faultB {a b : FixedOp} {d : Cond} (hb : b.fault = some d) (ha : ∀ c, a.fault = some c → d.prio < c.prio) :
    (a.join b).1.fault = some d ∧ (a.join b).2 = true := by
  cases hfa : a.fault with
  | none => simp [FixedOp.join, minCond, hb, hfa]
  | some c => simp [FixedOp.join, minCond, hb, hfa, ha c hfa]

section
variable {s : State} {g : Nat} {w : Word}

theorem exec_pair (hp : isPair w = true) (hmay : s.mayIssue g w = true) :
    exec (instrOf (opOf w) g w) s = .next (finish (pairCtx s g w) (pairRes (pairCtx s g w) fopOf pairRegs)) := by
  rw [exec_instrOf, issueRow, if_pos rfl, if_pos hmay, if_pos hp]
  rfl

theorem finish_pair_trap (c : Cond) (inB : Bool) :
    finish (pairCtx s g w) (.trap c inB) = s.setThread g ((s.now g).raise c inB true false) := by
  have hop : (pairCtx s g w).f.op ≠ .eret := slotFields_op_ne_eret _
  simp only [finish, hop, decide_false, Bool.false_and]
  rfl

theorem finish_pair_ok (t' : Thread) : finish (pairCtx s g w) (.ok s t' .seq) = s.setThread g ((s.now g).went t' .seq) := by
  simp only [finish, pairCtx, hasRoom_self, if_true]
  rfl

/-- What is illegal of the whole word, by slot A (R33, R34). -/
def pairIllegal (w : Word) (t : Thread) : Bool := bitAt w 0 || !fieldsLegal (slotA w) || pairConflict (pairRegs (slotA w) t) (pairRegs (slotB w) t)

theorem pairRes_illegal (h : pairIllegal w (s.now g) = true) : pairRes (pairCtx s g w) fopOf pairRegs = .trap (cIllegal w) := if_pos h

theorem pairRes_illegalB (h : pairIllegal w (s.now g) = false) (hb : fieldsLegal (slotB w) = false) :
    pairRes (pairCtx s g w) fopOf pairRegs = .trap (cIllegal w) true :=
  (if_neg (ne_true_of_eq_false h)).trans (if_pos (by rw [show slotB (pairCtx s g w).w = slotB w from rfl, hb]; rfl))

/-- A legal pair whose operations take no pump: the joined operation's trap or results. -/
theorem pairRes_legal (h : pairIllegal w (s.now g) = false) (hb : fieldsLegal (slotB w) = true)
    (hpa : (fopOf (slotA w).op w (slotA w) (s.now g)).pumps = 0) (hpb : (fopOf (slotB w).op w (slotB w) (s.now g)).pumps = 0) :
    let ra := fopOf (slotA w).op w (slotA w) (s.now g)
    let rb := fopOf (slotB w).op w (slotB w) (s.now g)
    pairRes (pairCtx s g w) fopOf pairRegs = match (ra.join rb).1.fault with
      | some c => .trap c (ra.join rb).2
      | none => .ok s (((s.now g).queueFixed (ra.writes ++ rb.writes)).orFlags (ra.flags ||| rb.flags)) .seq := by
  intro ra rb
  have hpumps : ¬ ra.pumps + rb.pumps > 24 := by simp only [ra, rb, hpa, hpb]; decide
  have hpush : s.pushPumps g [ra.pumps, rb.pumps] = s := by simp only [ra, rb, hpa, hpb]; rfl
  refine (if_neg (ne_true_of_eq_false h)).trans ((if_neg (by rw [show slotB (pairCtx s g w).w = slotB w from rfl, hb]; decide)).trans ?_)
  show (match (ra.join rb).1.fault with
    | some c => Res.trap c (ra.join rb).2
    | none => if ra.pumps + rb.pumps > 24 then _
        else Res.ok (s.pushPumps g [ra.pumps, rb.pumps]) (((s.now g).queueFixed (ra.writes ++ rb.writes)).orFlags (ra.flags ||| rb.flags)) .seq) = _
  cases (ra.join rb).1.fault with
  | some c => rfl
  | none => rw [if_neg hpumps, hpush]

theorem pairRes_fault {c : Cond} {inB : Bool} (h : pairIllegal w (s.now g) = false) (hb : fieldsLegal (slotB w) = true)
    (hpa : (fopOf (slotA w).op w (slotA w) (s.now g)).pumps = 0) (hpb : (fopOf (slotB w).op w (slotB w) (s.now g)).pumps = 0)
    (hc : ((fopOf (slotA w).op w (slotA w) (s.now g)).join (fopOf (slotB w).op w (slotB w) (s.now g))).1.fault = some c ∧
      ((fopOf (slotA w).op w (slotA w) (s.now g)).join (fopOf (slotB w).op w (slotB w) (s.now g))).2 = inB) :
    pairRes (pairCtx s g w) fopOf pairRegs = .trap c inB := by
  rw [pairRes_legal h hb hpa hpb, hc.1, hc.2]

end

/-! ### The caches on a read's path (R214, R215) -/

/-- A read's path changes the caches alone: the L2 and the cores. -/
theorem State.cached_eq (s : State) (c : Nat) (scalar : Bool) (a n : Nat) :
    ∃ l2 ks, s.cached c scalar a n = { s with l2 := l2, cores := ks } := by
  refine List.foldlRecOn (motive := fun t : State => ∃ l2 ks, t = { s with l2 := l2, cores := ks }) _ _ ⟨_, _, rfl⟩ ?_
  rintro _ ⟨l2, ks, rfl⟩ line _
  split
  · exact ⟨_, _, rfl⟩
  · rw [State.l2Use_eq]
    dsimp only
    split <;> exact ⟨_, _, rfl⟩

theorem State.cached_l2_cores (s : State) (c : Nat) (scalar : Bool) (a n : Nat) :
    s.cached c scalar a n = { s with l2 := (s.cached c scalar a n).l2, cores := (s.cached c scalar a n).cores } := by
  obtain ⟨l2, ks, h⟩ := s.cached_eq c scalar a n
  rw [h]

@[simp] theorem State.thread_cached (s : State) (c : Nat) (scalar : Bool) (a n g : Nat) : (s.cached c scalar a n).thread g = s.thread g := by
  rw [State.cached_l2_cores]
  rfl

@[simp] theorem State.readWord_cached (s : State) (c : Nat) (scalar : Bool) (a n b : Nat) :
    (s.cached c scalar a n).readWord b = s.readWord b := by
  rw [State.cached_l2_cores]
  rfl

/-! ### The fetch of a block (R23, R59, R227) -/

/-- A thread fetches where it runs, meets no trap, has not ended and has no word, on a populated core that is not suspended. -/
theorem fetches_eq_true {s : State} {g : Nat} (hpresent : threadPresent s.build g = true) (hrun : (s.thread g).run = .run)
    (htrap : (s.thread g).trap = none) (hending : (s.thread g).ending = false) (hword : (s.thread g).word? = none)
    (hsus : (s.core (coreOf g)).suspended = false) : s.fetches g = true := by
  simp [State.fetches, hpresent, hrun, htrap, hending, hword, hsus]

theorem State.xlat_of_quick {s : State} {c : Nat} {prv : BitVec 2} {n : Need} {va : Word} {pa : Nat}
    (h : s.xlatQuick (s.bindingOf c) (s.core c).tcache prv n va = .pa pa) : s.xlat c prv n va = (.ok pa, s) := by
  simp only [State.xlat, h]

/-- At M an address is its own translation (R212). -/
theorem State.xlatQuick_machine {s : State} {b : Option Nat} {tc : List Leaf} {n : Need} {va : Word} {pa : Nat}
    (h : s.xlatQuick b tc 3 n va = .pa pa) : pa = va.toNat := by
  simp only [State.xlatQuick, if_true, Xlat.pa.injEq] at h
  exact h.symm

section
variable {s : State} {g pa : Nat}

theorem State.fetchPa_of_quick
    (h : s.xlatQuick (s.bindingOf (coreOf g)) (s.core (coreOf g)).tcache (s.thread g).estat.prv .x (s.thread g).pc = .pa pa) :
    s.fetchPa g (s.thread g).pc =
      (if s.isHbm pa then (if s.linkWait (coreOf g) (pa / 64 * 64) then .error (.link pa) else .ok pa) else .error (.xlat (s.thread g).pc), s) := by
  simp only [State.fetchPa, State.xlat_of_quick h]

theorem exec_fetchReturn_link (hf : s.fetches g = true) (h : s.fetchPa g (s.thread g).pc = (.error (.link pa), s)) :
    exec (.fetchReturn g .ok) s = .next s := by
  show Host.Outcome.next (doFetchReturn s g .ok) = _
  simp only [doFetchReturn, hf, if_true, h]

theorem exec_fetchReturn_fault (hf : s.fetches g = true) {va : Word} (h : s.fetchPa g (s.thread g).pc = (.error (.xlat va), s)) :
    exec (.fetchReturn g .ok) s = .next (s.setThread g ((s.thread g).fetched.raise ⟨20, 0x08, (s.thread g).pc, none⟩ false true false)) := by
  show Host.Outcome.next (doFetchReturn s g .ok) = _
  simp only [doFetchReturn, hf, if_true, h]

theorem exec_fetchReturn_poisoned (hf : s.fetches g = true) (h : s.fetchPa g (s.thread g).pc = (.ok pa, s))
    (hp : s.poisoned (pa / 64 * 64) 64 = true) : exec (.fetchReturn g .ok) s =
      .next ((s.setThread g ((s.thread g).fetched.raise ⟨10, 0x10, BitVec.ofNat 64 (pa / 4 * 4), none⟩ false true false)).recordFault
        (unitOfPa s pa) 0x01) := by
  show Host.Outcome.next (doFetchReturn s g .ok) = _
  simp only [doFetchReturn, hf, if_true, h, State.settlePar, Parity.isLost, Bool.false_eq_true, if_false, hp]
  rfl

/-- A thread's buffer filled with the 64-byte block that holds its program counter. -/
def State.filled (s : State) (g pa : Nat) : Thread :=
  { s.thread g with fetch := some ⟨(s.thread g).pc &&& 0xFFFF_FFFF_FFFF_FFC0#64, (List.range 8).map (fun i => s.readWord (pa / 64 * 64 + 8 * i))⟩ }

theorem exec_fetchReturn_filled (hf : s.fetches g = true) (h : s.fetchPa g (s.thread g).pc = (.ok pa, s))
    (hp : s.poisoned (pa / 64 * 64) 64 = false) :
    exec (.fetchReturn g .ok) s = .next ((s.cached (coreOf g) true (pa / 64 * 64) 64).setThread g (s.filled g pa)) := by
  show Host.Outcome.next (doFetchReturn s g .ok) = _
  simp only [doFetchReturn, hf, if_true, h, State.settlePar, Parity.isLost, Bool.false_eq_true, if_false, hp, reduceCtorEq,
    State.thread_cached, State.readWord_cached]
  rfl

/-- A filled buffer holds the word at the program counter. -/
theorem State.word_filled (hpa : pa = (s.thread g).pc.toNat) : (s.filled g pa).word? = some (s.readWord (pa / 8 * 8)) := by
  have hindex : fld (s.thread g).pc 3 3 = pa / 8 % 8 := by rw [hpa, fld, Nat.shiftRight_eq_div_pow]; rfl
  have haddr : pa / 64 * 64 + 8 * (pa / 8 % 8) = pa / 8 * 8 := by omega
  have hlt : pa / 8 % 8 < 8 := Nat.mod_lt _ (by decide)
  simp only [Thread.word?, State.filled, if_true, hindex]
  simp [hlt, haddr]

end

/-- Settles O6: a pair by the joined operation of its slots (`pairRes_legal`); a fetch by what its translation and the poison say. -/
theorem pairedWordsAndFetch : Obligations.PairedWordsAndFetch := by
  unfold Obligations.PairedWordsAndFetch
  refine ⟨fun s g w => ?_, fun s g pa => ?_⟩
  · intro t a b ra rb run raised illegal hp hmay hpa hpb
    have hrun : run = .next (finish (pairCtx s g w) (pairRes (pairCtx s g w) fopOf pairRegs)) := exec_pair hp hmay
    refine ⟨fun h => ?_, fun h hb => ?_, fun h hb => ⟨fun ha hrb => ?_, fun c hc hle => ?_, fun d hd hlt => ?_⟩⟩
    · rw [hrun, pairRes_illegal h, finish_pair_trap]
      rfl
    · rw [hrun, pairRes_illegalB h hb, finish_pair_trap]
      rfl
    · rw [hrun, pairRes_legal h hb hpa hpb, FixedOp.join_ok ha hrb, finish_pair_ok]
      rfl
    · rw [hrun, pairRes_fault h hb hpa hpb (FixedOp.join_faultA hc hle), finish_pair_trap]
    · rw [hrun, pairRes_fault h hb hpa hpb (FixedOp.join_faultB hd hlt), finish_pair_trap]
  · intro t c blk words s' u hpresent hrun htrap hending hword hsus hquick
    have hf : s.fetches g = true := fetches_eq_true hpresent hrun htrap hending hword hsus
    have hpa := State.fetchPa_of_quick hquick
    refine ⟨fun hhbm hlink => ?_, fun hhbm hlink hpois => ⟨?_, State.cached_l2_cores _ _ _ _ _, fun hprv => ?_⟩, fun hhbm hlink hpois => ?_, fun hhbm => ?_⟩
    · rw [hhbm, if_pos rfl, if_pos hlink] at hpa
      exact exec_fetchReturn_link hf hpa
    · rw [hhbm, if_pos rfl, hlink] at hpa
      exact exec_fetchReturn_filled hf hpa hpois
    · exact State.word_filled (State.xlatQuick_machine (hprv ▸ hquick))
    · rw [hhbm, if_pos rfl, hlink] at hpa
      exact exec_fetchReturn_poisoned hf hpa hpois
    · rw [hhbm] at hpa
      exact exec_fetchReturn_fault hf hpa

end Sys2Proof.Machine
end

section
/-! SUPPORT. Results that commit, faults that settle, and what the recognition of a trap leaves (R36, R40, R41, R69). -/

namespace Sys2Proof.Machine

/-! ### Folds read through one field -/

theorem foldl_of_miss {α β γ : Type} {f : α → β → α} {p : α → γ} {l : List β} (h : ∀ a, ∀ b ∈ l, p (f a b) = p a) (a : α) :
    p (l.foldl f a) = p a :=
  List.foldlRecOn (motive := fun x => p x = p a) l f rfl fun x hx b hb => (h x b hb).trans hx

/-- The last hit decides. -/
theorem foldl_of_hit {α β γ : Type} {f : α → β → α} {p : α → γ} {v : γ} {hit : β → Prop} {l : List β}
    (hhit : ∀ a, ∀ b ∈ l, hit b → p (f a b) = v) (hmiss : ∀ a, ∀ b ∈ l, ¬ hit b → p (f a b) = p a) (he : ∃ b ∈ l, hit b) (a : α) :
    p (l.foldl f a) = v := by
  induction l using List.reverseRecOn with
  | nil => obtain ⟨b, hb, _⟩ := he; cases hb
  | append_singleton l b ih =>
    rw [List.foldl_append, List.foldl_cons, List.foldl_nil]
    by_cases hb : hit b
    · exact hhit _ b (by simp) hb
    · rw [hmiss _ b (by simp) hb]
      refine ih (fun a x hx => hhit a x (List.mem_append_left _ hx)) (fun a x hx => hmiss a x (List.mem_append_left _ hx)) ?_
      obtain ⟨x, hx, hit'⟩ := he
      rcases List.mem_append.mp hx with hx | hx
      · exact ⟨x, hx, hit'⟩
      · exact absurd (List.mem_singleton.mp hx ▸ hit') hb

/-! ### Threads that differ in registers alone -/

/-- Two threads differ in their registers alone. -/
def Thread.RegsDiffer (t u : Thread) : Prop :=
  ∃ regs lnk sm vregs vpend, u = { t with regs := regs, lnk := lnk, sm := sm, vregs := vregs, vpend := vpend }

theorem Thread.RegsDiffer.refl (t : Thread) : t.RegsDiffer t := ⟨_, _, _, _, _, rfl⟩

theorem Thread.RegsDiffer.trans {t u v : Thread} (h : t.RegsDiffer u) (h' : u.RegsDiffer v) : t.RegsDiffer v := by
  obtain ⟨_, _, _, _, _, rfl⟩ := h
  obtain ⟨_, _, _, _, _, rfl⟩ := h'
  exact ⟨_, _, _, _, _, rfl⟩

theorem Thread.regsDiffer_setReg (t : Thread) (c : Nat) (v : TReg) : t.RegsDiffer (t.setReg c v) := by
  unfold Thread.setReg
  repeat' split
  all_goals exact ⟨_, _, _, _, _, rfl⟩

theorem Thread.regsDiffer_commit1 (t : Thread) (r : FixedRes) : t.RegsDiffer (t.commit1 r) := by
  unfold Thread.commit1
  split
  · exact ⟨_, _, _, _, _, rfl⟩
  · exact t.regsDiffer_setReg _ _

theorem Thread.regsDiffer_invalidate (t : Thread) (c : Nat) : t.RegsDiffer (t.invalidate c) := by
  unfold Thread.invalidate
  split
  · exact ⟨_, _, _, _, _, rfl⟩
  · exact t.regsDiffer_setReg _ _

theorem Thread.regsDiffer_foldl {β : Type} {f : Thread → β → Thread} (h : ∀ (t : Thread) b, t.RegsDiffer (f t b)) (l : List β) (t : Thread) :
    t.RegsDiffer (l.foldl f t) :=
  List.foldlRecOn (motive := t.RegsDiffer) l f (.refl t) fun u hu b _ => hu.trans (h u b)

theorem Thread.regsDiffer_commits (t : Thread) (l : List FixedRes) : t.RegsDiffer (l.foldl Thread.commit1 t) :=
  t.regsDiffer_foldl Thread.regsDiffer_commit1 l

/-! ### Registers and results that commit (R36) -/

theorem isVCode_of_isRegCode {c : Nat} (h : isRegCode c = true) : isVCode c = false := by
  unfold isRegCode codeLnk at h
  unfold isVCode
  simp only [Bool.or_eq_true, decide_eq_true_eq, Bool.and_eq_false_iff, decide_eq_false_iff_not] at h ⊢
  omega

theorem Thread.reg_setReg_same {t : Thread} {c : Nat} {v : TReg} (h0 : c ≠ 0) (hc : isRegCode c = true) : (t.setReg c v).reg c = v := by
  rw [Thread.reg_setReg, if_pos ⟨h0, hc, rfl⟩]

theorem Thread.reg_setReg_ne {t : Thread} {c j : Nat} {v : TReg} (h : j ≠ c) : (t.setReg c v).reg j = t.reg j := by
  rw [Thread.reg_setReg, if_neg fun h' => h h'.2.2]

theorem Thread.reg_commit1_same {t : Thread} {r : FixedRes} (h0 : r.dst ≠ 0) (hr : isRegCode r.dst = true) : (t.commit1 r).reg r.dst = r.val := by
  rw [Thread.commit1, isVCode_of_isRegCode hr]
  exact Thread.reg_setReg_same h0 hr

theorem Thread.reg_commit1_ne {t : Thread} {r : FixedRes} {c : Nat} (h : r.dst ≠ c) : (t.commit1 r).reg c = t.reg c := by
  unfold Thread.commit1
  split
  · rfl
  · exact Thread.reg_setReg_ne h.symm

theorem Thread.reg_commits_of_miss {l : List FixedRes} {c : Nat} (h : ∀ r ∈ l, r.dst ≠ c) (t : Thread) :
    (l.foldl Thread.commit1 t).reg c = t.reg c :=
  foldl_of_miss (p := fun t : Thread => t.reg c) (fun _ r hr => Thread.reg_commit1_ne (h r hr)) t

/-- A register that one result of several names holds it once they have committed. -/
theorem Thread.reg_commits_of_mem {l : List FixedRes} {r : FixedRes} (hr : r ∈ l) (h : ∀ q ∈ l, q.dst = r.dst → q = r)
    (hreg : isRegCode r.dst = true) (h0 : r.dst ≠ 0) (t : Thread) : (l.foldl Thread.commit1 t).reg r.dst = r.val := by
  refine foldl_of_hit (p := fun t : Thread => t.reg r.dst) (hit := fun q => q.dst = r.dst) (fun t q hq hd => ?_)
    (fun t q hq hd => Thread.reg_commit1_ne hd) ⟨r, hr, rfl⟩ t
  rw [h q hq hd]
  exact Thread.reg_commit1_same h0 hreg

/-! ### Faults that settle (R40, R41) -/

theorem Thread.reg_invalidate_ne {t : Thread} {c j : Nat} (h : j ≠ c) : (t.invalidate c).reg j = t.reg j := by
  unfold Thread.invalidate
  split
  · rfl
  · exact Thread.reg_setReg_ne h

theorem Thread.tag_invalidate_same {t : Thread} {c : Nat} (h0 : c ≠ 0) (hc : isRegCode c = true) : ((t.invalidate c).reg c).tag = .inval := by
  rw [Thread.invalidate, isVCode_of_isRegCode hc]
  exact congrArg TReg.tag (Thread.reg_setReg_same h0 hc)

/-- An INVAL register stays so, whichever registers become INVAL. -/
theorem Thread.tag_invalidate_of_inval {t : Thread} {c j : Nat} (h : (t.reg j).tag = .inval) : ((t.invalidate c).reg j).tag = .inval := by
  unfold Thread.invalidate
  split
  · exact h
  · rw [Thread.reg_setReg]
    split
    · rfl
    · exact h

theorem Thread.reg_invalidates_of_miss {l : List Nat} {c : Nat} (h : c ∉ l) (t : Thread) : (l.foldl Thread.invalidate t).reg c = t.reg c :=
  foldl_of_miss (p := fun t : Thread => t.reg c) (fun _ _ hd => Thread.reg_invalidate_ne fun he => h (he ▸ hd)) t

theorem Thread.tag_invalidates_of_mem {l : List Nat} {c : Nat} (h : c ∈ l) (h0 : c ≠ 0) (hc : isRegCode c = true) (t : Thread) :
    ((l.foldl Thread.invalidate t).reg c).tag = .inval :=
  foldl_of_hit (p := fun t : Thread => (t.reg c).tag) (hit := fun d => d = c) (fun _ _ _ hd => hd ▸ Thread.tag_invalidate_same (hd ▸ h0) (hd ▸ hc))
    (fun _ _ _ hd => congrArg TReg.tag (Thread.reg_invalidate_ne (Ne.symm hd))) ⟨c, h, rfl⟩ t

theorem Thread.tag_invalidates_of_inval {l : List Nat} {c : Nat} {t : Thread} (h : (t.reg c).tag = .inval) :
    ((l.foldl Thread.invalidate t).reg c).tag = .inval :=
  List.foldlRecOn (motive := fun u : Thread => (u.reg c).tag = .inval) l _ h fun _ hu _ _ => Thread.tag_invalidate_of_inval hu

theorem Thread.regsDiffer_invalidates (t : Thread) (l : List Nat) : t.RegsDiffer (l.foldl Thread.invalidate t) :=
  t.regsDiffer_foldl Thread.regsDiffer_invalidate l

theorem Thread.RegsDiffer.ticket {t u : Thread} (h : t.RegsDiffer u) (i : Nat) : u.ticket i = t.ticket i := by
  obtain ⟨_, _, _, _, _, rfl⟩ := h
  rfl

theorem Thread.RegsDiffer.tkpc {t u : Thread} (h : t.RegsDiffer u) : u.tkpc = t.tkpc := by
  obtain ⟨_, _, _, _, _, rfl⟩ := h
  rfl

theorem Thread.RegsDiffer.fixed {t u : Thread} (h : t.RegsDiffer u) : u.fixed = t.fixed := by
  obtain ⟨_, _, _, _, _, rfl⟩ := h
  rfl

/-- Settling a ticket leaves its operations, and of a fault its destinations and that it stands. -/
theorem Thread.ticket_settleTicket (t : Thread) (i j : Nat) : ((t.settleTicket i).ticket j).ops = (t.ticket j).ops ∧
    ((t.settleTicket i).ticket j).fault.map (·.dst) = (t.ticket j).fault.map (·.dst) := by
  unfold Thread.settleTicket
  split
  · next f hf =>
    split
    · exact ⟨rfl, rfl⟩
    · rw [Thread.ticket_setTicket, (t.regsDiffer_invalidates f.dst).ticket]
      split
      · next hj => subst hj; exact ⟨rfl, by rw [hf]; rfl⟩
      · exact ⟨rfl, rfl⟩
  · exact ⟨rfl, rfl⟩

theorem Thread.ticket_settleFaults (t : Thread) (j : Nat) : (t.settleFaults.ticket j).ops = (t.ticket j).ops ∧
    (t.settleFaults.ticket j).fault.map (·.dst) = (t.ticket j).fault.map (·.dst) :=
  List.foldlRecOn (motive := fun u : Thread => (u.ticket j).ops = (t.ticket j).ops ∧ (u.ticket j).fault.map (·.dst) = (t.ticket j).fault.map (·.dst))
    _ _ ⟨rfl, rfl⟩ fun u ⟨hops, hfault⟩ i _ => ⟨(u.ticket_settleTicket i j).1.trans hops, (u.ticket_settleTicket i j).2.trans hfault⟩

/-- Settling leaves a register that no ticket with a fault names. -/
theorem Thread.reg_settleFaults_of_miss {t : Thread} {c : Nat} (h : ∀ i f, i < 16 → (t.ticket i).fault = some f → c ∉ f.dst) :
    t.settleFaults.reg c = t.reg c := by
  refine (List.foldlRecOn (motive := fun u : Thread => u.reg c = t.reg c ∧ ∀ j, (u.ticket j).fault.map (·.dst) = (t.ticket j).fault.map (·.dst))
    _ Thread.settleTicket ⟨rfl, fun _ => rfl⟩ ?_).1
  rintro u ⟨hu, hnamed⟩ i hi
  refine ⟨?_, fun j => (u.ticket_settleTicket i j).2.trans (hnamed j)⟩
  rw [← hu]
  unfold Thread.settleTicket
  split
  · next f hf =>
    have hmiss : c ∉ f.dst := by
      have hdst := hnamed i
      rw [hf] at hdst
      obtain ⟨f', hf', hdst'⟩ := Option.map_eq_some_iff.mp hdst.symm
      exact (show f'.dst = f.dst from hdst') ▸ h i f' (List.mem_range.mp hi) hf'
    split
    · rfl
    · exact Thread.reg_invalidates_of_miss hmiss u
  · rfl

theorem Thread.tag_settleFaults_of_inval {t : Thread} {c : Nat} (h : (t.reg c).tag = .inval) : (t.settleFaults.reg c).tag = .inval := by
  refine List.foldlRecOn (motive := fun u : Thread => (u.reg c).tag = .inval) _ _ h fun u hu i _ => ?_
  unfold Thread.settleTicket
  split
  · split
    · exact hu
    · exact Thread.tag_invalidates_of_inval hu
  · exact hu

/-! ### The recognition of a trap (R41, R48, R69, R77) -/

/-- Two threads differ in registers, tickets and CR_TKPC alone. -/
def Thread.ReportsDiffer (t u : Thread) : Prop :=
  ∃ regs lnk sm vregs vpend tickets tkpc,
    u = { t with regs := regs, lnk := lnk, sm := sm, vregs := vregs, vpend := vpend, tickets := tickets, tkpc := tkpc }

theorem Thread.ReportsDiffer.refl (t : Thread) : t.ReportsDiffer t := ⟨_, _, _, _, _, _, _, rfl⟩

theorem Thread.ReportsDiffer.trans {t u v : Thread} (h : t.ReportsDiffer u) (h' : u.ReportsDiffer v) : t.ReportsDiffer v := by
  obtain ⟨_, _, _, _, _, _, _, rfl⟩ := h
  obtain ⟨_, _, _, _, _, _, _, rfl⟩ := h'
  exact ⟨_, _, _, _, _, _, _, rfl⟩

theorem Thread.RegsDiffer.reportsDiffer {t u : Thread} (h : t.RegsDiffer u) : t.ReportsDiffer u := by
  obtain ⟨_, _, _, _, _, rfl⟩ := h
  exact ⟨_, _, _, _, _, _, _, rfl⟩

theorem Thread.reportsDiffer_setTicket (t : Thread) (i : Nat) (k : Ticket) : t.ReportsDiffer (t.setTicket i k) := ⟨_, _, _, _, _, _, _, rfl⟩

theorem Thread.reportsDiffer_settleFaults (t : Thread) : t.ReportsDiffer t.settleFaults := by
  refine List.foldlRecOn (motive := t.ReportsDiffer) _ _ (.refl t) fun u hu i _ => hu.trans ?_
  unfold Thread.settleTicket
  split
  · split
    · exact .refl u
    · exact (u.regsDiffer_invalidates _).reportsDiffer.trans (Thread.reportsDiffer_setTicket _ _ _)
  · exact .refl u

theorem Thread.reportsDiffer_reportTicket (t : Thread) (i : Nat) : t.ReportsDiffer (t.reportTicket i) := by
  unfold Thread.reportTicket
  split
  · next f _ =>
    have htkpc : t.ReportsDiffer { t with tkpc := f.iaddr } := ⟨_, _, _, _, _, _, _, rfl⟩
    exact htkpc.trans ((Thread.regsDiffer_invalidates _ _).reportsDiffer.trans (Thread.reportsDiffer_setTicket _ _ _))
  · exact .refl t

/-- The ticket whose deferred fault a condition reports is reported (R40). -/
def Thread.reported (t : Thread) (c : Cond) : Thread :=
  match c.tk with
  | some i => t.reportTicket i
  | none => t

/-- The thread with its fixed-distance results committed and its faults reported and settled: what `Thread.raise` starts from. -/
def Thread.settledFor (t : Thread) (c : Cond) : Thread := (t.reported c).commitAll.settleFaults

theorem Thread.reportsDiffer_settledFor (t : Thread) (c : Cond) : Thread.ReportsDiffer { t with fixed := [] } (t.settledFor c) := by
  have hreported : t.ReportsDiffer (t.reported c) := by
    unfold Thread.reported
    split
    · exact t.reportsDiffer_reportTicket _
    · exact .refl t
  have hfixed : Thread.ReportsDiffer { t with fixed := [] } { t.reported c with fixed := [] } := by
    obtain ⟨_, _, _, _, _, _, _, h⟩ := hreported
    rw [h]
    exact ⟨_, _, _, _, _, _, _, rfl⟩
  exact hfixed.trans ((Thread.regsDiffer_commits _ _).reportsDiffer.trans (Thread.reportsDiffer_settleFaults _))

@[simp] theorem Thread.settledFor_rep (t : Thread) (c : Cond) : (t.settledFor c).rep = t.rep := by
  obtain ⟨_, _, _, _, _, _, _, h⟩ := t.reportsDiffer_settledFor c
  rw [h]
@[simp] theorem Thread.settledFor_delay (t : Thread) (c : Cond) : (t.settledFor c).delay = t.delay := by
  obtain ⟨_, _, _, _, _, _, _, h⟩ := t.reportsDiffer_settledFor c
  rw [h]
@[simp] theorem Thread.settledFor_shadow (t : Thread) (c : Cond) : (t.settledFor c).shadow = t.shadow := by
  obtain ⟨_, _, _, _, _, _, _, h⟩ := t.reportsDiffer_settledFor c
  rw [h]
@[simp] theorem Thread.settledFor_loopcnt (t : Thread) (c : Cond) : (t.settledFor c).loopcnt = t.loopcnt := by
  obtain ⟨_, _, _, _, _, _, _, h⟩ := t.reportsDiffer_settledFor c
  rw [h]
@[simp] theorem Thread.settledFor_rptResume (t : Thread) (c : Cond) : (t.settledFor c).rptResume = t.rptResume := by
  obtain ⟨_, _, _, _, _, _, _, h⟩ := t.reportsDiffer_settledFor c
  rw [h]
@[simp] theorem Thread.settledFor_mode (t : Thread) (c : Cond) : (t.settledFor c).mode = t.mode := by
  obtain ⟨_, _, _, _, _, _, _, h⟩ := t.reportsDiffer_settledFor c
  rw [h]
@[simp] theorem Thread.settledFor_estat (t : Thread) (c : Cond) : (t.settledFor c).estat = t.estat := by
  obtain ⟨_, _, _, _, _, _, _, h⟩ := t.reportsDiffer_settledFor c
  rw [h]
@[simp] theorem Thread.settledFor_epc (t : Thread) (c : Cond) : (t.settledFor c).epc = t.epc := by
  obtain ⟨_, _, _, _, _, _, _, h⟩ := t.reportsDiffer_settledFor c
  rw [h]
@[simp] theorem Thread.settledFor_ecause (t : Thread) (c : Cond) : (t.settledFor c).ecause = t.ecause := by
  obtain ⟨_, _, _, _, _, _, _, h⟩ := t.reportsDiffer_settledFor c
  rw [h]
@[simp] theorem Thread.settledFor_fixed (t : Thread) (c : Cond) : (t.settledFor c).fixed = [] := by
  obtain ⟨_, _, _, _, _, _, _, h⟩ := t.reportsDiffer_settledFor c
  rw [h]

/-- CR_EPC of a trap: the `rep` or `repi` of a repeated word (R48), the branch for a delay slot (R77). -/
def Thread.trapEpc (t : Thread) : Word :=
  match t.rep, t.delay with
  | some r, _ => r.addr
  | none, some d => d.branch
  | none, none => t.pc

theorem Thread.raise_eq (t : Thread) (c : Cond) (slotb sync byEret : Bool) :
    t.raise c slotb sync byEret = { t.settledFor c with
      run := .run, pc := t.trapEpc, delay := none, rep := none, rptResume := false
      loopcnt := (match t.rep with
        | some r => if r.fresh && sync then t.loopcnt else BitVec.ofNat 32 r.left
        | none => t.loopcnt)
      trap := some { cause := c.cause, etval := c.etval, epc := t.trapEpc, eds := t.delay.isSome,
                     rpt := (match t.rep with
                       | some r => !(r.fresh && sync) || r.joins
                       | none => t.rptResume), slotb := slotb,
                     deferred := c.tk.isSome, sync := sync, byEret := byEret }
      shadow := (match t.shadow with
        | some sh => some (if t.delay.isSome then { sh with left := sh.left + 1 } else sh)
        | none => none) } := by
  unfold Thread.raise
  extract_lets epc r u
  have hu : u = t.settledFor c := rfl
  clear_value u
  rw [hu]
  simp only [Thread.settledFor_rep, Thread.settledFor_delay, Thread.settledFor_shadow, Thread.settledFor_loopcnt, Thread.settledFor_rptResume]
  rfl


@[simp] theorem Thread.raise_mode (t : Thread) (c : Cond) (slotb sync byEret : Bool) :
    (t.raise c slotb sync byEret).mode = t.mode := by
  simp only [Thread.raise_eq, Thread.settledFor_mode]
@[simp] theorem Thread.raise_estat (t : Thread) (c : Cond) (slotb sync byEret : Bool) :
    (t.raise c slotb sync byEret).estat = t.estat := by
  simp only [Thread.raise_eq, Thread.settledFor_estat]
@[simp] theorem Thread.raise_epc (t : Thread) (c : Cond) (slotb sync byEret : Bool) :
    (t.raise c slotb sync byEret).epc = t.epc := by
  simp only [Thread.raise_eq, Thread.settledFor_epc]
@[simp] theorem Thread.raise_ecause (t : Thread) (c : Cond) (slotb sync byEret : Bool) :
    (t.raise c slotb sync byEret).ecause = t.ecause := by
  simp only [Thread.raise_eq, Thread.settledFor_ecause]
@[simp] theorem Thread.raise_fixed (t : Thread) (c : Cond) (slotb sync byEret : Bool) :
    (t.raise c slotb sync byEret).fixed = [] := by
  simp only [Thread.raise_eq, Thread.settledFor_fixed]
@[simp] theorem Thread.raise_pc (t : Thread) (c : Cond) (slotb sync byEret : Bool) : (t.raise c slotb sync byEret).pc = t.trapEpc := by
  rw [Thread.raise_eq]
@[simp] theorem Thread.raise_run (t : Thread) (c : Cond) (slotb sync byEret : Bool) : (t.raise c slotb sync byEret).run = .run := by
  rw [Thread.raise_eq]
@[simp] theorem Thread.raise_delay (t : Thread) (c : Cond) (slotb sync byEret : Bool) : (t.raise c slotb sync byEret).delay = none := by
  rw [Thread.raise_eq]
@[simp] theorem Thread.raise_rep (t : Thread) (c : Cond) (slotb sync byEret : Bool) : (t.raise c slotb sync byEret).rep = none := by
  rw [Thread.raise_eq]
theorem Thread.raise_reg (t : Thread) (c : Cond) (slotb sync byEret : Bool) (d : Nat) :
    (t.raise c slotb sync byEret).reg d = (t.settledFor c).reg d := by
  simp only [Thread.raise_eq, Thread.reg]
theorem Thread.raise_ticket (t : Thread) (c : Cond) (slotb sync byEret : Bool) (i : Nat) :
    (t.raise c slotb sync byEret).ticket i = (t.settledFor c).ticket i := by
  simp only [Thread.raise_eq, Thread.ticket]
theorem Thread.raise_tkpc (t : Thread) (c : Cond) (slotb sync byEret : Bool) : (t.raise c slotb sync byEret).tkpc = (t.settledFor c).tkpc := by
  rw [Thread.raise_eq]

/-- What a trap records of the word that meets it. -/
theorem Thread.raise_trap (t : Thread) (c : Cond) (slotb sync byEret : Bool) : (t.raise c slotb sync byEret).trap =
    some { cause := c.cause, etval := c.etval, epc := t.trapEpc, eds := t.delay.isSome,
           rpt := (match t.rep with
             | some r => !(r.fresh && sync) || r.joins
             | none => t.rptResume), slotb := slotb, deferred := c.tk.isSome, sync := sync, byEret := byEret } := by
  rw [Thread.raise_eq]

/-- CR_LOOPCNT after a trap inside a repetition: the iterations left, or untouched before the first one. -/
theorem Thread.raise_loopcnt {t : Thread} {r : RepState} (hr : t.rep = some r) (c : Cond) (slotb sync byEret : Bool) :
    (t.raise c slotb sync byEret).loopcnt = if r.fresh && sync then t.loopcnt else BitVec.ofNat 32 r.left := by
  rw [Thread.raise_eq, hr]

theorem Thread.trapEpc_of_rep {t : Thread} {r : RepState} (hr : t.rep = some r) : t.trapEpc = r.addr := by
  rw [Thread.trapEpc, hr]

theorem Thread.trapEpc_of_delay {t : Thread} {d : Delay} (hr : t.rep = none) (hd : t.delay = some d) : t.trapEpc = d.branch := by
  rw [Thread.trapEpc, hr, hd]

theorem Thread.trapEpc_of_none {t : Thread} (hr : t.rep = none) (hd : t.delay = none) : t.trapEpc = t.pc := by
  rw [Thread.trapEpc, hr, hd]

end Sys2Proof.Machine
end

section
/-! What the recognition of a trap leaves, and the interrupts a thread takes (O20). -/

namespace Sys2Proof.Machine

/-! ### Results that commit with a trap (R41, R69) -/

/-- A fixed-distance result that no ticket with a fault names stands in its register once a trap is recognised. -/
theorem Thread.reg_raise_of_fixed {t : Thread} {c : Cond} {slotb sync byEret : Bool} {q : FixedRes} (htk : c.tk = none) (hq : q ∈ t.fixed)
    (hreg : isRegCode q.dst = true) (h0 : q.dst ≠ 0) (huniq : ∀ x ∈ t.fixed, x.dst = q.dst → x = q)
    (hmiss : ∀ i fa, i < 16 → (t.ticket i).fault = some fa → q.dst ∉ fa.dst) : (t.raise c slotb sync byEret).reg q.dst = q.val := by
  have hreported : t.reported c = t := by rw [Thread.reported, htk]
  have htickets (i : Nat) : t.commitAll.ticket i = t.ticket i := (Thread.regsDiffer_commits _ _).ticket i
  rw [Thread.raise_reg, Thread.settledFor, hreported, Thread.reg_settleFaults_of_miss fun i fa hi hf => hmiss i fa hi (htickets i ▸ hf)]
  exact Thread.reg_commits_of_mem hq huniq hreg h0 _

/-! ### The interrupt that is taken (R74) -/

/-- An interrupt that a thread sees pending and may take, its EXL aside. -/
def State.readyIrq (s : State) (g i : Nat) : Bool :=
  (s.ipend g).getLsbD i && (s.thread g).estat.imask.getLsbD i && ((s.thread g).estat.ie || decide (i ≥ 4))

theorem State.readyIrq_eq_true {s : State} {g i : Nat} : s.readyIrq g i = true ↔
    (s.ipend g).getLsbD i = true ∧ (s.thread g).estat.imask.getLsbD i = true ∧ ((s.thread g).estat.ie = true ∨ 4 ≤ i) := by
  simp [State.readyIrq, and_assoc]

theorem interruptOf_eq {s : State} {g : Nat} (hexl : (s.thread g).estat.exl = false) :
    interruptOf s g = [5, 4, 3, 2, 1, 0].find? (s.readyIrq g) := by
  simp only [interruptOf, hexl, Bool.false_eq_true, if_false]
  rfl

/-- The highest of the interrupts that are ready. -/
theorem find_highest {p : Nat → Bool} {i : Nat} (hi : i < 6) (hp : p i = true) (hno : ∀ j, i < j → j < 6 → p j = false) :
    [5, 4, 3, 2, 1, 0].find? p = some i := by
  interval_cases i <;> simp [hp, hno]

theorem interruptOf_eq_some {s : State} {g i : Nat} (hexl : (s.thread g).estat.exl = false) (hi : i < 6) (hready : s.readyIrq g i = true)
    (hno : ∀ j, i < j → j < 6 → s.readyIrq g j = false) : interruptOf s g = some i := by
  rw [interruptOf_eq hexl, find_highest hi hready hno]

theorem interruptOf_eq_none {s : State} {g : Nat} (h : (s.thread g).estat.exl = true ∨ ∀ i, i < 6 → s.readyIrq g i = false) :
    interruptOf s g = none := by
  cases hexl : (s.thread g).estat.exl with
  | true => simp [interruptOf, hexl]
  | false =>
    rw [interruptOf_eq hexl, List.find?_eq_none]
    have hno := h.resolve_left (by simp [hexl])
    simp [hno]

theorem atInterruptPoint_eq_false {t : Thread}
    (h : t.delay.isSome = true ∨ t.shadow.isSome = true ∨ ∃ r, t.rep = some r ∧ r.isRepi = false) : atInterruptPoint t = false := by
  rcases h with h | h | ⟨r, hr, hrepi⟩
  · simp [atInterruptPoint, Option.isNone_eq_false_iff.mpr h]
  · simp [atInterruptPoint, Option.isNone_eq_false_iff.mpr h]
  · simp [atInterruptPoint, hr, hrepi]

theorem atInterruptPoint_eq_true {t : Thread} (hrun : t.run ≠ .idle) (htrap : t.trap = none) (hending : t.ending = false) (hdelay : t.delay = none)
    (hshadow : t.shadow = none) (hrep : ∀ r, t.rep = some r → r.isRepi = true) : atInterruptPoint t = true := by
  cases hr : t.rep with
  | none => simp [atInterruptPoint, hrun, htrap, hending, hdelay, hshadow, hr]
  | some r => simp [atInterruptPoint, hrun, htrap, hending, hdelay, hshadow, hr, hrep r hr]

theorem takeInterrupt_none {s : State} {g : Nat} (h : interruptOf s g = none ∨ atInterruptPoint (s.thread g) = false) : takeInterrupt s g = s := by
  unfold takeInterrupt
  split
  · next i hi =>
    have hpoint := h.resolve_left (by simp [hi])
    simp [hpoint]
  · rfl

theorem takeInterrupt_some {s : State} {g i : Nat} (hi : interruptOf s g = some i) (hpoint : atInterruptPoint (s.thread g) = true)
    (hsus : (s.core (coreOf g)).suspended = false) :
    takeInterrupt s g = s.setThread g ((s.thread g).raise ⟨0, 0x20 + i, 0, none⟩ false false false) := by
  simp [takeInterrupt, hi, hpoint, hsus]

/-! ### IPEND.3 and the timer (R73, R307) -/

theorem State.ipend_beacon (s : State) (g : Nat) : (s.ipend g).getLsbD 3 = true ↔
    s.isIrqThread g = true ∧ ∃ b, s.bindingOf (coreOf g) = some b ∧ (s.binding b).bcnPend = true := by
  obtain ⟨-, -, -, h, -, -⟩ := getLsbD_sources _ _ _ _ _ _
  rw [show (s.ipend g).getLsbD 3 = _ from h, Bool.and_eq_true]
  cases s.bindingOf (coreOf g) <;> simp

/-- A half's time runs on to a compare value that it has not reached. -/
theorem toNat_add_of_lt {time : BitVec 64} {cmp : BitVec 63} (h : time.toNat % 2 ^ 63 < cmp.toNat) :
    (time + BitVec.ofNat 64 (cmp.toNat - time.toNat % 2 ^ 63)).toNat % 2 ^ 63 = cmp.toNat := by
  have hcmp : cmp.toNat < 2 ^ 63 := cmp.isLt
  have htime : time.toNat < 2 ^ 64 := time.isLt
  rw [BitVec.toNat_add, BitVec.toNat_ofNat]
  omega

theorem State.time_tick {s : State} {h : Nat} (hstage : (s.half h).stage ≠ .off) (n : Nat) :
    ((s.tick n).half h).time = (s.half h).time + BitVec.ofNat 64 n := by
  unfold State.half State.tick at *
  split at hstage
  · next hz => simp [hz, hstage]
  · next hz => simp [hz, hstage]

/-- Settles O20: the fields of `Thread.raise`, the sources of IPEND, the highest interrupt that is ready, and a timer that runs on to its compare
value. -/
theorem trapAndInterruptRecognition : Obligations.TrapAndInterruptRecognition := by
  unfold Obligations.TrapAndInterruptRecognition
  refine ⟨fun t c slotb sync byEret htk => ?_, fun s g => ?_⟩
  · intro u
    refine ⟨t.raise_fixed .., t.raise_run .., t.raise_mode .., t.raise_estat .., t.raise_epc .., t.raise_ecause ..,
      fun q hq hreg h0 huniq hmiss => Thread.reg_raise_of_fixed htk hq hreg h0 huniq hmiss,
      _, t.raise_trap .., rfl, rfl, rfl, by simp [htk], t.raise_pc .., fun hrep hdelay => ?_, fun d hrep hdelay => ?_, fun q hrep => ?_⟩
    · exact ⟨Thread.trapEpc_of_none hrep hdelay, by simp [hdelay]⟩
    · exact ⟨Thread.trapEpc_of_delay hrep hdelay, by simp [hdelay]⟩
    · refine ⟨Thread.trapEpc_of_rep hrep, fun hfresh => ⟨by simp [hrep, hfresh], ?_⟩, fun hfresh hsync => ⟨by simp [hrep, hfresh, hsync], ?_⟩⟩
      · rw [Thread.raise_loopcnt hrep, hfresh]
        rfl
      · rw [Thread.raise_loopcnt hrep, hfresh, hsync]
        rfl
  · intro t c h p ready
    have hready (i : Nat) : ready i ↔ s.readyIrq g i = true := State.readyIrq_eq_true.symm
    have hnotReady {i : Nat} (hno : ¬ ready i) : s.readyIrq g i = false := Bool.eq_false_iff.mpr ((hready i).not.mp hno)
    refine ⟨?_, ?_, ?_, s.ipend_beacon g, ?_, ?_, fun i hi hrd hno hexl hrun htrap hending hdelay hshadow hrep hsus => ?_, fun hnot => ?_,
      fun hen hlt hstage => ?_⟩
    · simp only [p, State.ipend_timer, Bool.and_eq_true, decide_eq_true_eq]
      rfl
    · simp only [p, State.ipend_doorbell, Bool.and_eq_true, decide_eq_true_eq]
      rfl
    · rw [State.ipend_collective]
    · simp only [p, State.ipend_halfLink, Bool.and_eq_true, decide_eq_true_eq]
      rfl
    · simp only [p, State.ipend_power, Bool.and_eq_true, decide_eq_true_eq]
      rfl
    · have hirq := interruptOf_eq_some hexl hi ((hready i).mp hrd) fun j hj hj6 => hnotReady (hno j hj hj6)
      exact congrArg Host.Outcome.next (takeInterrupt_some hirq (atInterruptPoint_eq_true hrun htrap hending hdelay hshadow hrep) hsus)
    · refine congrArg Host.Outcome.next (takeInterrupt_none ?_)
      rcases hnot with hexl | hdelay | hshadow | hrep | hno
      · exact .inl (interruptOf_eq_none (.inl hexl))
      · exact .inr (atInterruptPoint_eq_false (.inl hdelay))
      · exact .inr (atInterruptPoint_eq_false (.inr (.inl hshadow)))
      · exact .inr (atInterruptPoint_eq_false (.inr (.inr hrep)))
      · exact .inl (interruptOf_eq_none (.inr fun i hi => hnotReady (hno i hi)))
    · have htime : ((s.tick (t.tcmp.toNat - h.time.toNat % 2 ^ 63)).half (halfOfCore c)).time.toNat % 2 ^ 63 = t.tcmp.toNat := by
        rw [State.time_tick hstage]
        exact toNat_add_of_lt hlt
      refine ⟨s.tick (t.tcmp.toNat - h.time.toNat % 2 ^ 63), ?_, htime, ?_, rfl⟩
      · have hcond : (t.tcmpEn && decide (h.time.toNat % 2 ^ 63 < t.tcmp.toNat) && decide (h.stage ≠ .off)) = true := by
          rw [hen, decide_eq_true hlt, decide_eq_true hstage]
          rfl
        exact congrArg Host.Outcome.next (if_pos hcond)
      · rw [State.ipend_timer, htime, show (s.tick _).thread g = t from rfl, hen, decide_eq_true (Nat.le_refl _)]
        rfl

end Sys2Proof.Machine
end

section
/-! Fixed-distance results, return integrity and readiness (O18). -/

namespace Sys2Proof.Machine

/-! ### Results at their distance (R36) -/

/-- The results of a thread that are due. -/
def Thread.dueResults (t : Thread) : List FixedRes := t.fixed.filter (fun r => decide (r.due ≤ t.slot))

theorem Thread.mem_dueResults {t : Thread} {r : FixedRes} : r ∈ t.dueResults ↔ r ∈ t.fixed ∧ r.due ≤ t.slot := by
  simp [Thread.dueResults]

/-- The thread without the results that are due. -/
def Thread.withoutDue (t : Thread) : Thread := { t with fixed := t.fixed.filter (fun r => !decide (r.due ≤ t.slot)) }

theorem Thread.commitDue_eq (t : Thread) : t.commitDue = t.dueResults.foldl Thread.commit1 t.withoutDue := rfl

theorem Thread.fixed_commitDue (t : Thread) : t.commitDue.fixed = t.fixed.filter (fun r => decide (t.slot < r.due)) := by
  rw [Thread.commitDue_eq, (t.withoutDue.regsDiffer_commits t.dueResults).fixed]
  refine List.filter_congr fun r _ => ?_
  rw [← decide_not]
  exact decide_eq_decide.mpr Nat.not_le

/-- A result queued for a register: the register holds PEND, and the result is the last one queued. -/
theorem Thread.queueFixed_reg {t : Thread} {rd n : Nat} {v : TReg} (hreg : isRegCode rd = true) (h0 : rd ≠ 0) :
    t.queueFixed [(rd, v, 0, n)] = { t.setReg rd ⟨.pend, (t.reg rd).val⟩ with fixed := t.fixed ++ [⟨rd, v, 0, t.slot + n⟩] } := by
  simp [Thread.queueFixed, Thread.markPend, isVCode_of_isRegCode hreg, h0]

theorem Thread.reg_queued_commitDue {t : Thread} {rd n i : Nat} {v : TReg} (hreg : isRegCode rd = true) (h0 : rd ≠ 0)
    (hfree : ∀ r ∈ t.fixed, r.dst ≠ rd) :
    let u := { t.queueFixed [(rd, v, 0, n)] with slot := t.slot + i }
    (i < n → u.commitDue.reg rd = ⟨.pend, (t.reg rd).val⟩) ∧ (n ≤ i → u.commitDue.reg rd = v) := by
  intro u
  have hfixed : u.fixed = t.fixed ++ [⟨rd, v, 0, t.slot + n⟩] := by simp only [u, Thread.queueFixed_reg hreg h0]
  have hpend : u.withoutDue.reg rd = ⟨.pend, (t.reg rd).val⟩ := by
    have hsame : u.withoutDue.reg rd = (t.setReg rd ⟨.pend, (t.reg rd).val⟩).reg rd := by
      simp only [u, Thread.withoutDue, Thread.queueFixed_reg hreg h0, Thread.reg]
    rw [hsame, Thread.reg_setReg_same h0 hreg]
  have hmem {r : FixedRes} (hr : r ∈ u.dueResults) : r ∈ t.fixed ∨ r = ⟨rd, v, 0, t.slot + n⟩ := by
    obtain ⟨hr, _⟩ := Thread.mem_dueResults.mp hr
    rw [hfixed] at hr
    simpa using hr
  refine ⟨fun hlt => ?_, fun hle => ?_⟩
  · rw [Thread.commitDue_eq, Thread.reg_commits_of_miss (fun r hr => ?_), hpend]
    rcases hmem hr with hold | rfl
    · exact hfree r hold
    · have hdue : t.slot + n ≤ t.slot + i := (Thread.mem_dueResults.mp hr).2
      omega
  · have hnew : (⟨rd, v, 0, t.slot + n⟩ : FixedRes) ∈ u.dueResults :=
      Thread.mem_dueResults.mpr ⟨by rw [hfixed]; simp, Nat.add_le_add_left hle _⟩
    refine Thread.reg_commits_of_mem hnew (fun q hq hdst => ?_) hreg h0 _
    exact (hmem hq).resolve_left fun hold => hfree q hold hdst

/-! ### Vector results (R31, R36) -/

theorem Thread.vreg_setVreg (t : Thread) (v j : Nat) (x : VReg) : (t.setVreg v x).vreg j = if j = v then x else t.vreg j := FMap.get_set _ _ _ _ _

theorem Thread.vpend_clearV (t : Thread) (v j : Nat) : (t.clearV v).vpend.getLsbD j = (t.vpend.getLsbD j && decide (j ≠ v)) := by
  rw [Thread.clearV, BitVec.getLsbD_and, BitVec.getLsbD_not, BitVec.getLsbD_ofNat, Nat.testBit_two_pow]
  by_cases hj : j < 32
  · by_cases hv : v = j <;> simp [hj, hv, eq_comm]
  · rw [BitVec.getLsbD_of_ge _ _ (Nat.le_of_not_lt hj)]
    simp

/-- What a vector register and its pending bit show. -/
def Thread.vecView (t : Thread) (v : Nat) : VReg × Bool := (t.vreg v, t.vpend.getLsbD v)

theorem Thread.vecView_setReg (t : Thread) (c : Nat) (x : TReg) (v : Nat) : (t.setReg c x).vecView v = t.vecView v := by
  unfold Thread.vecView Thread.vreg
  simp

theorem Thread.vecView_commit1_same {t : Thread} {r : FixedRes} (hr : isVCode r.dst = true) : (t.commit1 r).vecView (r.dst - 0x40) = (r.vec, false) := by
  rw [Thread.commit1, if_pos hr, Thread.vecView, Thread.vpend_clearV]
  simp [Thread.vreg, Thread.clearV, Thread.setVreg]

theorem Thread.vecView_commit1_ne {t : Thread} {r : FixedRes} {v : Nat} (h : r.dst ≠ 0x40 + v) : (t.commit1 r).vecView v = t.vecView v := by
  unfold Thread.commit1
  split
  · next hr =>
    have hge : 0x40 ≤ r.dst := by
      simp only [isVCode, Bool.and_eq_true, decide_eq_true_eq] at hr
      exact hr.1
    have hne : v ≠ r.dst - 0x40 := by omega
    have hvreg : ((t.setVreg (r.dst - 0x40) r.vec).clearV (r.dst - 0x40)).vreg v = t.vreg v := (Thread.vreg_setVreg _ _ _ _).trans (if_neg hne)
    rw [Thread.vecView, Thread.vpend_clearV, hvreg]
    simp [Thread.vecView, Thread.setVreg, hne]
  · exact Thread.vecView_setReg _ _ _ _

theorem Thread.vecView_commits_of_miss {l : List FixedRes} {v : Nat} (h : ∀ r ∈ l, r.dst ≠ 0x40 + v) (t : Thread) :
    (l.foldl Thread.commit1 t).vecView v = t.vecView v :=
  foldl_of_miss (p := fun t : Thread => t.vecView v) (fun _ r hr => Thread.vecView_commit1_ne (h r hr)) t

theorem Thread.vecView_commits_of_mem {l : List FixedRes} {r : FixedRes} (hr : r ∈ l) (h : ∀ q ∈ l, q.dst = r.dst → q = r)
    (hv : isVCode r.dst = true) (t : Thread) : (l.foldl Thread.commit1 t).vecView (r.dst - 0x40) = (r.vec, false) := by
  have hge : 0x40 ≤ r.dst := by
    simp only [isVCode, Bool.and_eq_true, decide_eq_true_eq] at hv
    exact hv.1
  refine foldl_of_hit (p := fun t : Thread => t.vecView (r.dst - 0x40)) (hit := fun q => q.dst = r.dst) (fun t q hq hd => ?_)
    (fun t q hq hd => Thread.vecView_commit1_ne (by omega)) ⟨r, hr, rfl⟩ t
  rw [h q hq hd]
  exact Thread.vecView_commit1_same hv

/-! ### Return integrity (R75) -/

section
variable {s : State} {g : Nat} {w : Word}

/-- A trap recognised at a word outside a repetition and a delay slot. -/
theorem Thread.raise_at {t : Thread} (hrep : t.rep = none) (hdelay : t.delay = none) (prio cause : Nat) (etval : Word) (byEret : Bool) :
    let u := t.raise ⟨prio, cause, etval, none⟩ false true byEret
    (u.pc = t.pc ∧ u.run = .run ∧ u.delay = none) ∧ ∃ r, u.trap = some r ∧ r.cause = cause ∧ r.etval = etval ∧ r.epc = t.pc := by
  have hepc : t.trapEpc = t.pc := Thread.trapEpc_of_none hrep hdelay
  exact ⟨⟨(t.raise_pc ..).trans hepc, t.raise_run .., t.raise_delay ..⟩, _, t.raise_trap .., rfl, rfl, hepc⟩

theorem exec_ret_integrity (h : Issues s g w .ret) (hret : (s.now g).lnk.tag ≠ .ret) (hpend : (s.now g).lnk.tag ≠ .pend) :
    exec (.ret g w) s = .next (s.setThread g ((s.now g).raise (cReturn (8 + 256 * tagCode (s.now g).lnk.tag)) false true false)) := by
  refine issueRow_trap h nofun retBody _ ?_
  have hready : (s.now g).checkReady [codeLnk] none false = none := checkReady_none (List.forall_mem_singleton.mpr (isPend_lnk hpend))
  simp only [retBody, longCtx_th, hready, hret, ne_eq, not_false_eq_true, if_true]

theorem exec_eret_integrity (h : Issues s g w .eret) (hprv : (s.now g).estat.prv ≠ 0) (hchecks : eretChecks (s.now g) ≠ 0) :
    exec (.eret g w) s = .next (s.setThread g ((s.now g).raise (cReturn (eretChecks (s.now g))) false true true)) := by
  have hbody : eretBody (longCtx s g w false) = .trap (cReturn (eretChecks (s.now g))) := by
    simp only [eretBody, longCtx_th, if_neg hprv, hchecks, ne_eq, not_false_eq_true, if_true]
  refine (issueRow_long h eretBody).trans ?_
  rw [hbody]
  simp only [finish, longCtx_f, h.op, longCtx_s, longCtx_g, longCtx_th]
  rfl

theorem b2n_eq {b : Bool} {n : Nat} (hn : n < 2) (h : n = 1 ↔ b = true) : b2n b = n := by
  cases b <;> simp [b2n] at h ⊢ <;> omega

/-- The failed checks of an `eret`, one bit each. -/
theorem eretChecks_eq {t : Thread} {v : Nat} (hv : v < 8) (h0 : v % 2 = 1 ↔ (t.estat.sprv = 2 ∨ t.estat.prv.toNat < t.estat.sprv.toNat))
    (h1 : v / 2 % 2 = 1 ↔ (t.epc.tag ≠ .ptr ∧ t.epc.tag ≠ .ret)) (h2 : v / 4 = 1 ↔ t.estat.svi = false) : eretChecks t = v := by
  have hb0 : b2n (decide (t.estat.sprv = 2) || decide (t.estat.prv.toNat < t.estat.sprv.toNat)) = v % 2 :=
    b2n_eq (by omega) (h0.trans (by simp))
  have hb1 : b2n (!(t.epc.tag == .ptr || t.epc.tag == .ret)) = v / 2 % 2 := b2n_eq (by omega) (h1.trans (by simp))
  have hb2 : b2n (!t.estat.svi) = v / 4 := b2n_eq (by omega) (h2.trans (by simp))
  rw [eretChecks, hb0, hb1, hb2]
  omega

end

/-! ### Readiness before tags (R27) -/

theorem Thread.faultOn_none {t : Thread} (h : ∀ i, i < 16 → (t.ticket i).fault = none) (c : Nat) : t.faultOn c = none := by
  rw [Thread.faultOn, List.find?_eq_none]
  intro i hi
  rw [h i (List.mem_range.mp hi)]
  exact Bool.false_ne_true

/-- The first pending register raises not ready, where no ticket has a deferred fault. -/
theorem checkRegs_pend {t : Thread} {srcs : List (Nat × Accept)} {dsts rest : List Nat} {c : Nat} (hfault : ∀ i, i < 16 → (t.ticket i).fault = none)
    (hpend : (srcs.map (·.1) ++ dsts).filter (fun c => t.isPend c) = c :: rest) : t.checkRegs srcs dsts = some (cNotReadyReg c) := by
  have hnamed : (c :: rest).filterMap t.faultOn = [] := List.filterMap_eq_nil_iff.mpr fun c _ => Thread.faultOn_none hfault c
  simp only [Thread.checkRegs, Thread.checkReady, hpend, hnamed]
  rfl

theorem checkRegs_tags {t : Thread} {srcs : List (Nat × Accept)} {dsts : List Nat}
    (h : ∀ c ∈ srcs.map (·.1) ++ dsts, t.isPend c = false) : t.checkRegs srcs dsts = t.checkTags srcs := by
  rw [Thread.checkRegs, checkReady_none h]

theorem checkTags_cons_of_mem {t : Thread} {c : Nat} {acc : Accept} {l : List (Nat × Accept)} (h : (t.reg c).tag ∈ acc) :
    t.checkTags ((c, acc) :: l) = t.checkTags l := by
  simp [Thread.checkTags, firstSome, h]

theorem checkTags_cons_of_not_mem {t : Thread} {c : Nat} {acc : Accept} {l : List (Nat × Accept)} (hc : isVCode c = false) (h : (t.reg c).tag ∉ acc) :
    t.checkTags ((c, acc) :: l) = some (cTag (t.reg c).tag c) := by
  simp [Thread.checkTags, firstSome, hc, h]

theorem cNotReadyReg_of_lt {c : Nat} (h : c < 32) : cNotReadyReg c = ⟨50, 0x03, BitVec.ofNat 64 c, none⟩ := by
  rw [cNotReadyReg, regEtval, if_pos (by omega)]

theorem cTag_of_lt {c : Nat} (h : c < 32) (tag : Tag) : cTag tag c = ⟨60, 0x02, BitVec.ofNat 64 (tagCode tag * 256 + c), none⟩ := by
  rw [cTag, regEtval, if_pos (by omega)]

theorem isPend_of_lt {c : Nat} (h : c < 32) (t : Thread) : t.isPend c = decide ((t.reg c).tag = .pend) := pend_iff t c (by omega)

theorem isVCode_of_lt {c : Nat} (h : c < 32) : isVCode c = false := by
  simp [isVCode]
  omega

section
variable {s : State} {g : Nat} {w : Word} {o : Op}

/-- The integer operations of three registers that take two INT sources. -/
def isIntPair (o : Op) : Prop := o ∈ [Op.orI, .xorI, .shl, .shr, .sra, .minI, .maxI, .mul, .mulh, .mulhu]

theorem bodyOf_mulOps : ∀ o ∈ [Op.mul, .mulh, .mulhu], bodyOf o = fixedBody (mulF o) := by
  simp only [List.forall_mem_cons]
  exact ⟨rfl, rfl, rfl, nofun⟩

theorem bodyOf_aluOps : ∀ o ∈ [Op.orI, .xorI, .shl, .shr, .sra, .minI, .maxI], bodyOf o = fixedBody (aluF o) ∧ aluAcc1 o = [.int] := by
  simp only [List.forall_mem_cons]
  exact ⟨⟨rfl, rfl⟩, ⟨rfl, rfl⟩, ⟨rfl, rfl⟩, ⟨rfl, rfl⟩, ⟨rfl, rfl⟩, ⟨rfl, rfl⟩, ⟨rfl, rfl⟩, nofun⟩

theorem fixedBody_of_isIntPair (ho : isIntPair o) : ∃ fb, bodyOf o = fixedBody fb ∧ ∀ w f t, f.form = .lr →
    ∃ dist v, fb w f t = guardLegal w f true (fixed1 t [(f.rs1, [.int]), (f.rs2, [.int])] f.rd dist v 0) := by
  have hsplit : o ∈ [Op.orI, .xorI, .shl, .shr, .sra, .minI, .maxI] ∨ o ∈ [Op.mul, .mulh, .mulhu] := List.mem_append.mp ho
  rcases hsplit with ho | ho
  · obtain ⟨hbody, hacc1⟩ := bodyOf_aluOps o ho
    have hacc2 (tag : Tag) : aluAcc2 o tag = [.int] := by
      refine if_neg fun h => ?_
      rw [h.1] at ho
      exact absurd ho (by decide)
    refine ⟨aluF o, hbody, fun w f t hform => ⟨1,
      ⟨aluTag o (t.reg f.rs1).tag (src2Of f t).tag, aluVal o (t.reg f.rs1).val (src2Of f t).val⟩, ?_⟩⟩
    have hform' : f.form ≠ .li := by simp [hform]
    simp only [aluF, hacc1, hacc2, src2CheckOf, if_neg hform']
  · exact ⟨mulF o, bodyOf_mulOps o ho, fun w f t _ => ⟨2, _, rfl⟩⟩

/-- The register checks of such a word decide its trap. -/
theorem exec_intPair_trap (ho : isIntPair o) (hform : (longFields w).form = .lr) (h : Issues s g w o) {c : Cond}
    (hc : (s.now g).checkRegs [((longFields w).rs1, [.int]), ((longFields w).rs2, [.int])] [(longFields w).rd] = some c) :
    exec (instrOf o g w) s = .next (s.setThread g ((s.now g).raise c false true false)) := by
  obtain ⟨fb, hbody, hfb⟩ := fixedBody_of_isIntPair ho
  obtain ⟨dist, v, hval⟩ := hfb w (longFields w) (s.now g) hform
  have hne : o ≠ .eret := by
    rintro rfl
    exact absurd ho (by unfold isIntPair; decide)
  rw [exec_instrOf, hbody]
  refine issueRow_trap h hne _ c ?_
  show (fb w (longFields w) (s.now g)).res (longCtx s g w false) = _
  rw [hval, guardLegal, h.legal]
  simp only [Bool.and_self, if_true, fixed1, hc, FixedOp.res]

end

/-- Settles O18: results at their distance by the fold that commits them; the integrity and readiness checks by the trap that each word's body ends in. -/
theorem resultsAndReadiness : Obligations.ResultsAndReadiness := by
  unfold Obligations.ResultsAndReadiness
  refine ⟨⟨fun t rd n i v hreg h0 hfree => Thread.reg_queued_commitDue hreg h0 hfree, fun s g => ?_⟩, fun s g w => ?_, fun s g w o => ?_⟩
  · intro t due
    have hdue {r : FixedRes} : r ∈ t.dueResults ↔ due r := Thread.mem_dueResults
    refine ⟨t.commitDue, rfl, t.fixed_commitDue, fun r hr huniq => ⟨fun hreg h0 => ?_, fun hv => ?_⟩, fun c hmiss => ?_, fun v _ hmiss => ?_, ?_⟩
    · exact Thread.reg_commits_of_mem (hdue.mpr hr) (fun q hq => huniq q (hdue.mp hq)) hreg h0 _
    · have hview := Thread.vecView_commits_of_mem (hdue.mpr hr) (fun q hq => huniq q (hdue.mp hq)) hv t.withoutDue
      exact Prod.mk.injEq .. ▸ hview
    · exact Thread.reg_commits_of_miss (fun q hq => hmiss q (hdue.mp hq)) t.withoutDue
    · have hview := Thread.vecView_commits_of_miss (fun q hq => hmiss q (hdue.mp hq)) t.withoutDue
      exact Prod.mk.injEq .. ▸ hview
    · obtain ⟨_, _, _, _, _, h⟩ := t.withoutDue.regsDiffer_commits t.dueResults
      rw [Thread.commitDue_eq, h]
      rfl
  · intro t e at' recorded bad0 bad1 hrep hdelay
    refine ⟨fun hret hpend h => ?_, fun hprv h v hv hlt h0 h1 h2 => ?_⟩
    · obtain ⟨hat, hrec⟩ := Thread.raise_at hrep hdelay 110 0x0F (BitVec.ofNat 64 (8 + 256 * tagCode t.lnk.tag)) false
      exact ⟨_, exec_ret_integrity h hret hpend, hat, hrec⟩
    · have hchecks : eretChecks t = v := eretChecks_eq hlt h0 h1 h2
      obtain ⟨hat, hrec⟩ := Thread.raise_at hrep hdelay 110 0x0F (BitVec.ofNat 64 v) true
      have hexec := exec_eret_integrity h hprv (by rw [hchecks]; exact hv)
      rw [hchecks] at hexec
      exact ⟨_, hexec, hat, hrec⟩
  · intro t f a b raised ho hform hfault h
    have hp1 : t.isPend f.rs1 = decide (a.tag = .pend) := isPend_of_lt (rs1_lt w) t
    have hp2 : t.isPend f.rs2 = decide (b.tag = .pend) := isPend_of_lt (rs2_lt w) t
    have hnotReady {c : Nat} (hc : c < 32) {rest : List Nat}
        (hpend : [f.rs1, f.rs2, f.rd].filter (fun c => t.isPend c) = c :: rest) : raised 0x03 c :=
      ⟨50, cNotReadyReg_of_lt hc ▸ exec_intPair_trap ho hform h (checkRegs_pend hfault hpend)⟩
    refine ⟨fun ha => ?_, fun ha hb => ?_, fun ha hb hd => ?_, fun ha hb hd => ?_⟩
    · exact hnotReady (rs1_lt w) (List.filter_cons_of_pos (by rw [hp1, decide_eq_true ha]))
    · refine hnotReady (rs2_lt w) (rest := [f.rd].filter (fun c => t.isPend c)) ?_
      simp [hp1, hp2, ha, hb]
    · refine hnotReady (rd_lt w) (rest := []) ?_
      simp [hp1, hp2, ha, hb, hd]
    · have htags := checkRegs_tags (t := t) (srcs := [(f.rs1, [Tag.int]), (f.rs2, [Tag.int])]) (dsts := [f.rd]) (by simp [hp1, hp2, ha, hb, hd])
      refine ⟨fun hint => ⟨60, ?_⟩, fun hint hintb => ⟨60, ?_⟩⟩
      · rw [← cTag_of_lt (rs1_lt w)]
        refine exec_intPair_trap ho hform h (htags.trans ?_)
        exact checkTags_cons_of_not_mem (isVCode_of_lt (rs1_lt w)) (by simpa using hint)
      · rw [← cTag_of_lt (rs2_lt w)]
        refine exec_intPair_trap ho hform h (htags.trans ((checkTags_cons_of_mem (List.mem_singleton.mpr hint)).trans ?_))
        exact checkTags_cons_of_not_mem (isVCode_of_lt (rs2_lt w)) (by simpa using hintb)

end Sys2Proof.Machine
end

section
/-! How a ticket ends, wakes its thread, or faults and is reported (O19). -/

namespace Sys2Proof.Machine

/-! ### The end of a ticket (R37) -/

section
variable {s : State} {g tk : Nat} {o : TOp}

theorem exec_ticketComplete {v : List TReg} {vec : List VReg} {fl : BitVec 5} (hops : ((s.thread g).ticket tk).ops = [o])
    (hrep : (s.thread g).repeating tk = false) (hfinish : o.kind.finish = .writes v vec fl) :
    exec (.ticketComplete g tk) s =
      .next (s.setThread g ((((s.thread g).setTicket tk ⟨[], ((s.thread g).ticket tk).fault⟩).writeOp o).wake)) := by
  have hcond : (((s.thread g).ticket tk).busy && ((s.thread g).ticket tk).ops.all (fun o => o.kind.finish.isWrites) &&
      !(s.thread g).repeating tk) = true := by
    simp [Ticket.busy, hops, hrep, hfinish, OpEnd.isWrites]
  refine congrArg Host.Outcome.next ((if_pos hcond).trans ?_)
  rw [hops]
  rfl

theorem Thread.writeOp_one {t : Thread} {rd : Nat} {v : TReg} {fl : BitVec 5} (hdst : o.dst = [rd]) (hfinish : o.kind.finish = .writes [v] [] fl) :
    t.writeOp o = (t.orFlags fl).setReg rd v := by
  simp only [Thread.writeOp, hfinish, hdst]
  rfl

theorem Thread.writeOp_nothing {t : Thread} (hfinish : o.kind.finish = .writes [] [] 0) : t.writeOp o = t := by
  simp only [Thread.writeOp, hfinish, List.zip_nil_right, List.foldl_nil]
  exact t.orFlags_zero

theorem Thread.wake_of_run {t : Thread} (h : t.run = .run) : t.wake = t := by
  simp [Thread.wake, h]

theorem Thread.with_run {t : Thread} (h : t.run = .run) : { t with run := .run } = t := by
  rw [← h]

/-- A parked thread goes on with the word after its `await` once its named tickets have ended well. -/
theorem Thread.wake_of_idle {t : Thread} {m : BitVec 16} (h : t.run = .park m)
    (hidle : ∀ i, i < 16 → (m = 0 ∨ m.getLsbD i = true) → t.ticketIdle i) : t.wake = { t with run := .run }.advance .seq t.shadow.isSome := by
  have hnamed (i : Nat) (hi : i ∈ ticketsNamed m.toNat) : t.ticketIdle i := by
    rw [mem_ticketsNamed, BitVec.ofNat_toNat, BitVec.setWidth_eq] at hi
    exact hidle i hi.1 hi.2
  have hfault : ¬ (ticketsNamed m.toNat).any (fun i => (t.ticket i).faulted) = true := by
    rw [List.any_eq_true]
    rintro ⟨i, hi, hf⟩
    simp [Ticket.faulted, (hnamed i hi).2] at hf
  have hbusy : ¬ (ticketsNamed m.toNat).any (fun i => (t.ticket i).busy) = true := by
    rw [List.any_eq_true]
    rintro ⟨i, hi, hb⟩
    exact Ticket.busy_eq_true.mp hb (hnamed i hi).1
  simp only [Thread.wake, h, if_neg hfault, if_neg hbusy]

/-- A parked thread issues its `await` again once a ticket it names has faulted. -/
theorem Thread.wake_of_fault {t : Thread} {m : BitVec 16} {i : Nat} (h : t.run = .park m) (hi : i < 16) (hm : m = 0 ∨ m.getLsbD i = true)
    (hf : (t.ticket i).faulted = true) : t.wake = { t with run := .run } := by
  have hnamed : i ∈ ticketsNamed m.toNat := by
    rw [mem_ticketsNamed, BitVec.ofNat_toNat, BitVec.setWidth_eq]
    exact ⟨hi, hm⟩
  have hany : (ticketsNamed m.toNat).any (fun i => (t.ticket i).faulted) = true := List.any_eq_true.mpr ⟨i, hnamed, hf⟩
  simp only [Thread.wake, h, if_pos hany]

/-! ### A ticket that fails (R40) -/

theorem exec_ticketFault {a : Access} {c rd : Nat} {v : Word} (hops : ((s.thread g).ticket tk).ops = [o]) (hkind : o.kind = .acc a)
    (hphase : a.phase = .failed c v) (hdst : o.dst = [rd]) (h0 : rd ≠ 0) (htrap : (s.thread g).trap = none) :
    exec (.ticketFault g tk) s = .next (s.setThread g ((s.thread g).setTicket tk ⟨[], some ⟨c, v, o.iaddr, [rd], false⟩⟩).wake) := by
  have hfinish : o.kind.finish = .failed c v := by simp only [hkind, TKind.finish, hphase]
  have hdsts : ([rd].eraseDups.filter (· ≠ 0)) = [rd] := by
    rw [show [rd].eraseDups = [rd] from rfl]
    simp [h0]
  show Host.Outcome.next (doTicketFault s g tk) = _
  simp only [doTicketFault, hops, firstSome, hfinish, htrap, List.flatMap_cons, List.flatMap_nil, hdst, List.append_nil, hdsts,
    Option.isSome_none, Bool.false_eq_true, if_false]

/-! ### The end of a thread (R21) -/

theorem exec_tendComplete (hending : (s.thread g).ending = true) (hops : ∀ i, i < 16 → ((s.thread g).ticket i).ops = []) :
    exec (.tendComplete g) s = .next (s.setThread g { (s.thread g).commitAll with ending := false, run := .idle }) := by
  have hall : (upto 16).all (fun i => !((s.thread g).ticket i).busy) = true := by
    rw [List.all_eq_true]
    intro i hi
    simp [Ticket.busy, hops i (List.mem_range.mp hi)]
  have hcond : ((s.thread g).ending && (upto 16).all (fun i => !((s.thread g).ticket i).busy)) = true := by rw [hending, hall]; rfl
  exact congrArg Host.Outcome.next (if_pos hcond)

end

/-! ### The report of a deferred fault (R39, R40) -/

section
variable {t : Thread} {i : Nat} {fa : TFault}

/-- The lowest of the tickets named that has a deferred fault is reported. -/
theorem checkNamed_lowest {tks : List Nat} (hi : i ∈ tks) (hf : (t.ticket i).fault = some fa) (hlow : ∀ j ∈ tks, j < i → (t.ticket j).fault = none) :
    t.checkNamed [] tks = some ⟨50, fa.cause, fa.etval, some i⟩ := by
  have hmin : (tks.filter (fun i => (t.ticket i).faulted)).min? = some i := by
    rw [List.min?_eq_some_iff]
    refine ⟨List.mem_filter.mpr ⟨hi, by simp [Ticket.faulted, hf]⟩, fun j hj => ?_⟩
    obtain ⟨hj, hfj⟩ := List.mem_filter.mp hj
    refine Nat.le_of_not_lt fun hlt => ?_
    simp [Ticket.faulted, hlow j hj hlt] at hfj
  have hlist : ([] : List Nat).filterMap t.faultOn ++ tks.filter (fun i => (t.ticket i).faulted) = tks.filter (fun i => (t.ticket i).faulted) := rfl
  simp only [Thread.checkNamed, List.filter_nil, hlist, hmin, Thread.deferredCond, hf]
  rfl

theorem Thread.tkpc_settleFaults (t : Thread) : t.settleFaults.tkpc = t.tkpc := by
  refine foldl_of_miss (p := Thread.tkpc) (fun u j _ => ?_) t
  unfold Thread.settleTicket
  split
  · split
    · rfl
    · exact (u.regsDiffer_invalidates _).tkpc
  · rfl

/-- What a report leaves of the ticket: free, its operations as they were, CR_TKPC its instruction. -/
theorem Thread.reportTicket_ticket (hf : (t.ticket i).fault = some fa) :
    (t.reportTicket i).ticket i = ⟨(t.ticket i).ops, none⟩ ∧ (t.reportTicket i).tkpc = fa.iaddr ∧ (t.reportTicket i).fixed = t.fixed := by
  simp only [Thread.reportTicket, hf]
  have h := Thread.regsDiffer_invalidates { t with tkpc := fa.iaddr } (fa.dst.filter (fun c => !(fa.settled && isVCode c)))
  exact ⟨Thread.ticket_setTicket_same _ _ _, h.tkpc, h.fixed⟩

theorem Thread.tag_reportTicket (hf : (t.ticket i).fault = some fa) {d : Nat} (hd : d ∈ fa.dst) (hreg : isRegCode d = true) (h0 : d ≠ 0) :
    ((t.reportTicket i).reg d).tag = .inval := by
  simp only [Thread.reportTicket, hf]
  refine Thread.tag_invalidates_of_mem (List.mem_filter.mpr ⟨hd, ?_⟩) h0 hreg _
  rw [isVCode_of_isRegCode hreg, Bool.and_false]
  rfl

variable {c : Cond}

theorem Thread.settledFor_reported (htk : c.tk = some i) (hf : (t.ticket i).fault = some fa) :
    ((t.settledFor c).ticket i).ops = (t.ticket i).ops ∧ ((t.settledFor c).ticket i).fault = none ∧ (t.settledFor c).tkpc = fa.iaddr := by
  have hreported : t.reported c = t.reportTicket i := by rw [Thread.reported, htk]
  obtain ⟨hticket, htkpc, -⟩ := Thread.reportTicket_ticket hf
  have hregs := Thread.regsDiffer_commits { t.reportTicket i with fixed := [] } (t.reportTicket i).fixed
  have hcommit : (t.reportTicket i).commitAll.ticket i = ⟨(t.ticket i).ops, none⟩ := (hregs.ticket i).trans hticket
  obtain ⟨hops, hfault⟩ := (t.reportTicket i).commitAll.ticket_settleFaults i
  rw [hcommit] at hops hfault
  rw [Thread.settledFor, hreported, Thread.tkpc_settleFaults]
  exact ⟨hops, Option.map_eq_none_iff.mp hfault, hregs.tkpc.trans htkpc⟩

theorem Thread.tag_settledFor (htk : c.tk = some i) (hf : (t.ticket i).fault = some fa) {d : Nat} (hd : d ∈ fa.dst) (hreg : isRegCode d = true)
    (h0 : d ≠ 0) (hfixed : ∀ q ∈ t.fixed, q.dst ≠ d) : ((t.settledFor c).reg d).tag = .inval := by
  have hreported : t.reported c = t.reportTicket i := by rw [Thread.reported, htk]
  obtain ⟨-, -, hkeeps⟩ := Thread.reportTicket_ticket hf
  rw [Thread.settledFor, hreported]
  refine Thread.tag_settleFaults_of_inval ?_
  rw [Thread.commitAll, Thread.reg_commits_of_miss (hkeeps ▸ hfixed)]
  exact Thread.tag_reportTicket hf hd hreg h0

end

/-- Settles O19: a ticket that completes by what its operation writes, one that fails by its deferred fault; `await` by the lowest fault it names. -/
theorem ticketEndsAndFaults : Obligations.TicketEndsAndFaults := by
  unfold Obligations.TicketEndsAndFaults
  refine ⟨fun s g tk o => ?_, fun s g w i fa => ?_⟩
  · intro t k idle hops htk
    refine ⟨fun hrep => ⟨fun rd v fl hdst hkind => ?_, fun hkind hrun => ?_⟩, fun a c v rd hkind hphase hdst h0 htrap hrun => ?_,
      fun g' hending hidle => exec_tendComplete hending hidle⟩
    · have hfinish : o.kind.finish = .writes [v] [] fl := by
        rcases hkind with hkind | ⟨rfl, a, hkind, hphase⟩
        · rw [hkind]
          rfl
        · simp only [hkind, TKind.finish, hphase]
      rw [exec_ticketComplete hops hrep hfinish, Thread.writeOp_one hdst hfinish]
      refine ⟨fun hrun => ?_, fun m hrun hidle => ?_⟩
      · rw [Thread.wake_of_run (by simpa using hrun)]
      · rw [Thread.wake_of_idle (m := m) (by simpa using hrun)]
        · simp
          rfl
        · intro i hi hm
          obtain ⟨hothers, hfault⟩ := hidle i hi hm
          have hticket : ((idle.orFlags fl).setReg rd v).ticket i = if i = tk then ⟨[], k.fault⟩ else t.ticket i :=
            (((idle.orFlags fl).regsDiffer_setReg rd v).ticket i).trans (t.ticket_setTicket tk i _)
          rw [Thread.ticketIdle, hticket]
          split
          · next hj =>
            subst hj
            exact ⟨rfl, hfault⟩
          · next hj => exact ⟨hothers hj, hfault⟩
    · have hfinish : o.kind.finish = .writes [] [] 0 := by
        simp only [List.mem_cons, List.not_mem_nil, or_false] at hkind
        rcases hkind with hkind | hkind | hkind | hkind <;> rw [hkind] <;> rfl
      rw [exec_ticketComplete hops hrep hfinish, Thread.writeOp_nothing hfinish, Thread.wake_of_run (by simpa using hrun)]
    · rw [exec_ticketFault hops hkind hphase hdst h0 htrap]
      rcases hrun with hrun | ⟨m, hrun, hm⟩
      · rw [Thread.wake_of_run (by simpa using hrun), Thread.with_run (by simpa using hrun)]
      · rw [Thread.wake_of_fault (by simpa using hrun) htk hm (by simp [Ticket.faulted])]
  · intro t m named hi hf hlow hrep hdelay h
    have hnamed : ∀ j, j ∈ ticketsNamed ((longFields w).x24 % 2 ^ 16) ↔ named j := fun j => by rw [mem_ticketsNamed, ofNat_mod_16]
    have hcheck := checkNamed_lowest ((hnamed i).mpr hi) hf fun j hj hlt => hlow j hlt ((hnamed j).mp hj)
    have hbody : awaitBody (longCtx s g w false) = .trap ⟨50, fa.cause, fa.etval, some i⟩ := by
      simp only [awaitBody, longCtx_f, longCtx_th]
      rw [show (s.now g).checkNamed [] _ = _ from hcheck]
    obtain ⟨hops, hfault, htkpc⟩ := Thread.settledFor_reported (c := ⟨50, fa.cause, fa.etval, some i⟩) rfl hf
    refine ⟨_, _, issueRow_trap h nofun awaitBody _ hbody, Thread.raise_trap .., rfl, rfl, rfl, Thread.trapEpc_of_none hrep hdelay, ?_, ?_, ?_,
      fun d hd hreg h0 hfixed => ?_⟩
    · rw [Thread.raise_tkpc, htkpc]
    · rw [Thread.raise_ticket, hfault]
    · rw [Thread.raise_ticket, hops]
    · rw [Thread.raise_reg]
      exact Thread.tag_settledFor rfl hf hd hreg h0 hfixed

end Sys2Proof.Machine
end

section
/-! `rep`, `repi` and the iterations they start (O15). -/

namespace Sys2Proof.Machine

/-! ### The beginning of a repetition (R48) -/

section
variable {s : State} {g : Nat} {w : Word}

/-- What `rep` or `repi` leaves: the repetition it begins, or the word after it skipped. -/
theorem leaves_repeat {o : Op} {isRepi : Bool} {n : Nat}
    (hbody : Issues s g w o → bodyOf o (longCtx s g w false) = startRepeat (longCtx s g w false) isRepi n) :
    (n ≠ 0 → Leaves s g w o (instrOf o g w) s { s.now g with rep := some ⟨(s.now g).pc, w, isRepi, n, true, (s.now g).rptResume, none⟩ }
      (.jump ((s.now g).pc + 8))) ∧
    (n = 0 → Leaves s g w o (instrOf o g w) s { s.now g with loopcnt := 0 } (.jump ((s.now g).pc + 16))) := by
  refine ⟨fun hn => leaves_of_body fun h => (hbody h).trans ?_, fun hn => leaves_of_body fun h => (hbody h).trans ?_⟩
  · simp only [startRepeat, if_neg hn]
    rfl
  · simp only [startRepeat, if_pos hn]
    rfl

theorem repBody_eq (hshadow : (s.now g).shadow = none) : repBody (longCtx s g w false) = startRepeat (longCtx s g w false) false
    (if (s.now g).rptResume then (s.now g).loopcnt.toNat else if (longFields w).x24 = 0 then 64 else (longFields w).x24) := by
  simp only [repBody, longCtx_th, longCtx_f, hshadow, Option.isSome_none, Bool.false_eq_true, if_false]
  rfl

theorem repiBody_resumed (hshadow : (s.now g).shadow = none) (hres : (s.now g).rptResume = true) :
    repiBody (longCtx s g w false) = startRepeat (longCtx s g w false) true (s.now g).loopcnt.toNat := by
  simp only [repiBody, longCtx_th, hshadow, Option.isSome_none, Bool.false_eq_true, if_false, hres, if_true]

theorem repiBody_first (hshadow : (s.now g).shadow = none) (hres : (s.now g).rptResume = false)
    (ha : ((s.now g).reg (longFields w).rs1).tag = .int) (hn : ((s.now g).reg (longFields w).rs1).val.toNat < 2 ^ 32) :
    repiBody (longCtx s g w false) = startRepeat (longCtx s g w false) true ((s.now g).reg (longFields w).rs1).val.toNat := by
  have hcheck := checkRegs_int ha
  simp only [repiBody, longCtx_th, longCtx_f, hshadow, Option.isSome_none, Bool.false_eq_true, if_false, hres, hcheck, ge_iff_le,
    if_neg (Nat.not_le.mpr hn)]

/-! ### The iterations (R48) -/

/-- The context of an iteration of a long word. -/
def repeatCtx (s : State) (g : Nat) (w : Word) (r : RepState) : Ctx := ⟨s, g, (s.thread g).iterate (r.begin w), longFields w, w, r.joins⟩

/-- What a result of an iteration leaves of the state. -/
def repeatFinish (s : State) (g : Nat) (w : Word) (r : RepState) : Res → State
  | .trap c slotb => s.setThread g (((s.thread g).iterate (r.begin w)).raise c slotb true false)
  | .ok s' th _ => if s.hasRoom s' (coreOf g) then s'.setThread g (th.iterated (r.begin w)) else s.passOver (coreOf g)

theorem doRepeat_long {r : RepState} (hrep : (s.thread g).rep = some r) (hmay : s.mayRepeat g w = true) (hp : isPair w = false)
    (hallowed : (r.fresh && repForbidden (opOf w)) = false) :
    doRepeat s g w = repeatFinish s g w r (longRes (repeatCtx s g w r) (bodyOf (opOf w))) := by
  have hfields : wordFieldsOf w = longFields w := by simp [wordFieldsOf, hp]
  have hforbidden : ¬ (r.fresh && !false && repForbidden (opOf w)) = true := by simpa using hallowed
  simp only [doRepeat, hrep, hmay, Bool.not_true, Bool.false_eq_true, if_false, hp, if_neg hforbidden, hfields]
  rfl

theorem exec_repeat_trap {r : RepState} (hrep : (s.thread g).rep = some r) (hmay : s.mayRepeat g w = true) (hp : isPair w = false)
    (hallowed : (r.fresh && repForbidden (opOf w)) = false) {c : Cond} (hres : longRes (repeatCtx s g w r) (bodyOf (opOf w)) = .trap c) :
    exec (.repeatIteration g w) s = .next (s.setThread g (((s.thread g).iterate (r.begin w)).raise c false true false)) := by
  refine congrArg Host.Outcome.next ((doRepeat_long hrep hmay hp hallowed).trans ?_)
  rw [hres]
  rfl

theorem exec_repeat_ok {r : RepState} (hrep : (s.thread g).rep = some r) (hmay : s.mayRepeat g w = true) (hp : isPair w = false)
    (hallowed : (r.fresh && repForbidden (opOf w)) = false) {th : Thread} {flow : Next}
    (hres : longRes (repeatCtx s g w r) (bodyOf (opOf w)) = .ok s th flow) :
    exec (.repeatIteration g w) s = .next (s.setThread g (th.iterated (r.begin w))) := by
  refine congrArg Host.Outcome.next ((doRepeat_long hrep hmay hp hallowed).trans ?_)
  rw [hres]
  exact if_pos (hasRoom_self _ _)

/-- A word that may not be repeated is illegal at its `rep` or `repi`. -/
theorem exec_repeat_forbidden {r : RepState} (hrep : (s.thread g).rep = some r) (hmay : s.mayRepeat g w = true) (hp : isPair w = false)
    (hfresh : r.fresh = true) (hop : repForbidden (opOf w) = true) :
    exec (.repeatIteration g w) s = .next (s.setThread g ((s.thread g).raise (cIllegal r.word) false true false)) := by
  show Host.Outcome.next (doRepeat s g w) = _
  simp only [doRepeat, hrep, hmay, hp, hfresh, hop, Bool.not_true, Bool.not_false, Bool.and_self, Bool.false_eq_true, if_false, if_true]

/-- What an iteration that traps records: the `rep` or `repi`, RPT, and in CR_LOOPCNT the iterations left. -/
theorem Thread.raise_iterate {t : Thread} {r : RepState} (hfresh : r.fresh = false) (c : Cond) :
    let u := (t.iterate r).raise c false true false
    ∃ q, u.trap = some q ∧ q.cause = c.cause ∧ q.epc = r.addr ∧ q.rpt = true ∧ u.loopcnt = BitVec.ofNat 32 r.left ∧ u.rep = none := by
  have hrep : (t.iterate r).rep = some r := rfl
  refine ⟨_, Thread.raise_trap .., rfl, Thread.trapEpc_of_rep hrep, ?_, ?_, Thread.raise_rep ..⟩
  · simp only [hrep, hfresh]
    rfl
  · rw [Thread.raise_loopcnt hrep, hfresh]
    rfl

/-! ### A repeated `add` -/

theorem longRes_add (r : RepState) (hlegal : fieldsLegal (longFields w) = true) (hop : opOf w = .add) (hp : isPair w = false) :
    longRes (repeatCtx s g w r) (bodyOf (opOf w)) = (fixed1 ((s.thread g).iterate (r.begin w))
      (((longFields w).rs1, [.int, .ptr]) :: src2CheckOf (longFields w) [.int]) (longFields w).rd 1
      ⟨((s.now g).reg (longFields w).rs1).tag, ((s.now g).reg (longFields w).rs1).val + (src2Of (longFields w) (s.now g)).val⟩ 0).res
        (repeatCtx s g w r) := by
  have hop' : (longFields w).op = .add := opEq hp hop
  rw [hop, longRes, if_neg]
  · show (aluF .add w (longFields w) ((s.thread g).iterate (r.begin w))).res (repeatCtx s g w r) = _
    rw [aluF, guardLegal, hlegal]
    rfl
  · show ¬ (!fieldsLegal (longFields w) || (_ && delayIllegal (longFields w).op)) = true
    rw [hlegal, hop']
    simp [delayIllegal, branchOp]

/-- A repetition's count and a result's queue do not meet. -/
theorem Thread.queueFixed_with (t : Thread) (rep : Option RepState) (n : BitVec 32) (e : Nat × TReg × VReg × Nat) :
    { t with rep := rep, loopcnt := n }.queueFixed [e] = { t.queueFixed [e] with rep := rep, loopcnt := n } := by
  simp only [Thread.queueFixed, List.foldl_cons, List.foldl_nil, Thread.markPend, Thread.setReg]
  repeat' split
  all_goals rfl

theorem Thread.slot_queueFixed (t : Thread) (e : Nat × TReg × VReg × Nat) : (t.queueFixed [e]).slot = t.slot := by
  simp only [Thread.queueFixed, List.foldl_cons, List.foldl_nil]
  split
  · rfl
  · exact Thread.markPend_slot _ _

/-- An iteration of `add` whose operands pass their checks. -/
theorem exec_repeat_add {r : RepState} (hrep : (s.thread g).rep = some r) (hmay : s.mayRepeat g w = true) (hp : isPair w = false)
    (hop : opOf w = .add) (hlegal : fieldsLegal (longFields w) = true) (hd : (s.now g).isPend (longFields w).rd = false)
    (ha : ((s.now g).reg (longFields w).rs1).tag = .int) (hb : (src2Of (longFields w) (s.now g)).tag = .int) :
    let u := s.now g
    let v := u.queueFixed [((longFields w).rd, ⟨.int, (u.reg (longFields w).rs1).val + (src2Of (longFields w) u).val⟩, 0, 1)]
    exec (.repeatIteration g w) s = .next (s.setThread g
      (if r.left ≤ 1 then { v with rep := none, loopcnt := 0, pc := r.addr + 16, slot := u.slot + 1 }
       else { v with rep := some { r with fresh := false, tk := none, joins := true, left := r.left - 1 },
                     loopcnt := BitVec.ofNat 32 r.left, slot := u.slot + 1 })) := by
  intro u v
  have hsrcs : ∀ e ∈ ((longFields w).rs1, [Tag.int, .ptr]) :: src2CheckOf (longFields w) [.int], u.accepts e := by
    refine List.forall_mem_cons.mpr ⟨Thread.accepts_of_lt (rs1_lt w) (by simp [u, ha]), fun e he => ?_⟩
    unfold src2CheckOf at he
    unfold src2Of at hb
    split at he
    · cases he
    · next hform =>
      rw [if_neg hform] at hb
      rw [List.mem_singleton.mp he]
      exact Thread.accepts_of_lt (rs2_lt w) (by simp [u, hb])
  have hcheck : ((s.thread g).iterate (r.begin w)).checkRegs (((longFields w).rs1, [.int, .ptr]) :: src2CheckOf (longFields w) [.int])
      [(longFields w).rd] = none := checkRegs_of_accepts hsrcs (List.forall_mem_singleton.mpr hd)
  have hres : longRes (repeatCtx s g w r) (bodyOf (opOf w)) = .ok s { v with rep := some (r.begin w), loopcnt := BitVec.ofNat 32 r.left } .seq := by
    rw [longRes_add r hlegal hop hp, ha]
    simp only [fixed1, hcheck, FixedOp.res, Thread.orFlags_zero]
    rw [show (repeatCtx s g w r).th.queueFixed _ = _ from Thread.queueFixed_with u (some (r.begin w)) (BitVec.ofNat 32 r.left) _]
    rfl
  have hallowed : (r.fresh && repForbidden (opOf w)) = false := by rw [hop, show repForbidden .add = false by decide, Bool.and_false]
  have hslot : v.slot = u.slot := Thread.slot_queueFixed _ _
  have htk : r.begin w = { r with fresh := false, tk := none } := by
    simp only [RepState.begin, hop, hp, show ticketedOps.contains Op.add = false by decide]
    rfl
  rw [exec_repeat_ok hrep hmay hp hallowed hres, htk, ← hslot]
  rfl

end

/-- Settles O15: `rep` and `repi` by `startRepeat`; an iteration by its word's body on the thread that the repetition has reached. -/
theorem repeats : Obligations.Repeats := by
  unfold Obligations.Repeats
  refine ⟨fun s g w => ?_, fun s g w r => ?_⟩
  · intro t f begins hshadow
    have hrep := repBody_eq (w := w) hshadow
    refine ⟨fun hres => ⟨?_, fun ha hn => ?_⟩, fun hres => ⟨?_, ?_⟩⟩
    · have h := leaves_repeat (o := .rep) fun _ => hrep
      rw [hres] at h
      exact h
    · have h := leaves_repeat (o := .repi) fun _ => repiBody_first hshadow hres ha hn
      rw [hres] at h
      exact h
    · have h := leaves_repeat (o := .rep) fun _ => hrep
      rw [hres] at h
      exact h
    · have h := leaves_repeat (w := w) (o := .repi) fun _ => repiBody_resumed hshadow hres
      rw [hres] at h
      exact h
  · intro t u f v hrep hmay hp
    refine ⟨fun hop hlegal hd ha hb => exec_repeat_add hrep hmay hp hop hlegal hd ha hb, fun hop hlegal hd hform ha => ?_, fun hfresh hop => ?_⟩
    · have hrs1 : isVCode f.rs1 = false := isVCode_of_lt (rs1_lt w)
      have hpend : u.isPend f.rs1 = false := not_pend_of _ _ (.inl (Nat.lt_trans (rs1_lt w) (by decide))) (by rw [ha]; decide)
      have hcheck : ((s.thread g).iterate (r.begin w)).checkRegs (((longFields w).rs1, [.int, .ptr]) :: src2CheckOf (longFields w) [.int])
          [(longFields w).rd] = some (cTag .pred (longFields w).rs1) := by
        have hnotPend : ∀ c ∈ [f.rs1, f.rd], u.isPend c = false := by simp [hpend, hd]
        have htag : (u.reg f.rs1).tag ∉ [Tag.int, .ptr] := by rw [ha]; decide
        rw [src2CheckOf, if_pos hform]
        exact (checkRegs_tags hnotPend).trans ((checkTags_cons_of_not_mem hrs1 htag).trans (by rw [ha]))
      have hallowed : (r.fresh && repForbidden (opOf w)) = false := by rw [hop, show repForbidden .add = false by decide, Bool.and_false]
      have hres : longRes (repeatCtx s g w r) (bodyOf (opOf w)) = .trap (cTag .pred f.rs1) := by
        rw [longRes_add r hlegal hop hp]
        simp only [fixed1, hcheck, FixedOp.res]
        rfl
      obtain ⟨q, htrap, hcause, hepc, hrpt, hloop, hnone⟩ := Thread.raise_iterate (t := s.thread g) (r := r.begin w) rfl (cTag .pred f.rs1)
      exact ⟨_, q, exec_repeat_trap hrep hmay hp hallowed hres, htrap, hcause, hepc, hrpt, hloop, hnone⟩
    · have hforbidden : ∀ o ∈ [Op.b, .bt, .bf, .call, .callr, .jr, .ret, .rep, .repi, .await, .mset, .csrw, .ecall, .brk, .eret, .tend],
          repForbidden o = true := by decide
      refine ⟨_, _, exec_repeat_forbidden hrep hmay hp hfresh (hforbidden _ hop), Thread.raise_trap .., rfl, Thread.trapEpc_of_rep hrep, ?_, rfl⟩
      simp [hrep, hfresh, t]

end Sys2Proof.Machine
end

section
/-! SUPPORT. What a write of bytes does, by address (R215, R216, R217, R232). -/

namespace Sys2Proof.Machine

/-! ### Lines and words -/

theorem mem_linesTouched {a n x : Nat} : x ∈ linesTouched a n ↔ n ≠ 0 ∧ a / 128 ≤ x ∧ x ≤ (a + n - 1) / 128 := by
  unfold linesTouched
  split
  · next h => simp [h]
  · next h =>
    simp only [List.mem_map, List.mem_range, ne_eq, h, not_false_eq_true, true_and]
    constructor
    · rintro ⟨i, hi, rfl⟩
      omega
    · rintro ⟨hlo, hhi⟩
      exact ⟨x - a / 128, by omega, by omega⟩

theorem mem_wordsTouched {a n x : Nat} : x ∈ wordsTouched a n ↔ n ≠ 0 ∧ a / 8 ≤ x ∧ x ≤ (a + n - 1) / 8 := by
  unfold wordsTouched
  split
  · next h => simp [h]
  · next h =>
    simp only [List.mem_map, List.mem_range, ne_eq, h, not_false_eq_true, true_and]
    constructor
    · rintro ⟨i, hi, rfl⟩
      omega
    · rintro ⟨hlo, hhi⟩
      exact ⟨x - a / 8, by omega, by omega⟩

/-- Bytes of one line touch that line alone. -/
theorem linesTouched_of_line {a n : Nat} (hn : n ≠ 0) (h : (a + n - 1) / 128 = a / 128) : linesTouched a n = [a / 128] := by
  have hone : a / 128 + 1 - a / 128 = 1 := by omega
  rw [linesTouched, if_neg hn, h, hone]
  simp

/-! ### Bytes, tags and poison -/

theorem FMap.getRun_eq {α : Type} (d : α) (m : FMap α) (k n : Nat) : FMap.getRun d m k n = (List.range n).map (fun i => FMap.get d m (k + i)) := by
  induction n generalizing k with
  | zero => rfl
  | succ n ih =>
    rw [FMap.getRun, ih, List.range_succ_eq_map, List.map_cons, List.map_map]
    refine congrArg _ (List.map_congr_left fun i _ => ?_)
    rw [Function.comp_apply, Nat.succ_eq_add_one, Nat.add_assoc, Nat.add_comm 1 i]

theorem FMap.getRun_setRun {α : Type} [DecidableEq α] (d : α) (m : FMap α) (k : Nat) (l : List α) :
    FMap.getRun d (FMap.setRun d m k l) k l.length = l := by
  rw [FMap.getRun_eq]
  refine List.ext_getElem (by simp) fun i hi hi' => ?_
  rw [List.getElem_map, List.getElem_range, FMap.get_setRun, dif_pos (by omega)]
  congr 1
  omega

theorem FMap.get_foldl_set_const {α : Type} [DecidableEq α] (d v : α) (l : List Nat) (m : FMap α) (j : Nat) :
    FMap.get d (l.foldl (fun m w => FMap.set d m w v) m) j = if j ∈ l then v else FMap.get d m j := by
  split
  · next h =>
    refine foldl_of_hit (p := fun m => FMap.get d m j) (hit := fun w => w = j) (fun m w _ hw => ?_) (fun m w _ hw => ?_) ⟨j, h, rfl⟩ m
    · rw [hw, FMap.get_set_same]
    · exact FMap.get_set_other d m w v j (Ne.symm hw)
  · next h => exact foldl_of_miss (p := fun m => FMap.get d m j) (fun m w hw => FMap.get_set_other d m w v j fun he => h (he ▸ hw)) m

section
variable (s : State) (c a : Nat) (l : List Byte)

theorem State.byte_writeBytes (x : Nat) :
    (s.writeBytes c a l).byte x = if h : a ≤ x ∧ x < a + l.length then l[x - a]'(by omega) else s.byte x := by
  rw [State.byte, State.writeBytes_mem]
  exact FMap.get_setRun _ _ _ _ _

theorem State.readBytes_writeBytes : (s.writeBytes c a l).readBytes a l.length = l := by
  rw [State.readBytes, State.writeBytes_mem]
  exact FMap.getRun_setRun _ _ _ _

theorem State.tagAt_writeBytes (ha : isPress a = true) (x : Nat) : (s.writeBytes c a l).tagAt x =
    if l ≠ [] ∧ a / 8 ≤ x / 8 ∧ x / 8 ≤ (a + l.length - 1) / 8 then 0 else s.tagAt x := by
  rw [State.tagAt, State.writeBytes_tags, if_pos ha, FMap.get_foldl_set_const]
  refine if_congr ?_ rfl rfl
  rw [mem_wordsTouched, ne_eq, List.length_eq_zero_iff]

theorem State.tags_writeBytes (ha : isPress a = false) : (s.writeBytes c a l).tags = s.tags := by
  rw [State.writeBytes_tags, ha]
  rfl

/-! ### What a write may change -/

/-- The caches and the directory that a write goes through. -/
def State.usedFor (s : State) (c a : Nat) (l : List Byte) : State := (linesTouched a l.length).foldl (State.l2Use · true) (s.invalidateL1 c a l.length)

theorem State.l2Uses_eq (s : State) (d : Bool) (l : List Nat) : ∃ l2, l.foldl (State.l2Use · d) s = { s with l2 := l2 } := by
  refine List.foldlRecOn (motive := fun t : State => ∃ l2, t = { s with l2 := l2 }) _ _ ⟨_, rfl⟩ ?_
  rintro _ ⟨l2, rfl⟩ line -
  exact ⟨_, State.l2Use_eq _ _ _⟩

theorem State.writeBytes_def : s.writeBytes c a l =
    (State.setTags { s.usedFor c a l with mem := FMap.setRun 0#8 (s.usedFor c a l).mem a l } a l.length 0).clearPoison a l.length := rfl

theorem State.writeBytes_usedFor : ∃ m tg p, s.writeBytes c a l = { s.usedFor c a l with mem := m, tags := tg, poison := p } := by
  rw [State.writeBytes_def, State.setTags_eq]
  exact ⟨_, _, _, rfl⟩

theorem State.usedFor_eq : ∃ l2, s.usedFor c a l = { s with cores := (s.invalidateL1 c a l.length).cores, l2 := l2 } := by
  obtain ⟨l2, h⟩ := (s.invalidateL1 c a l.length).l2Uses_eq true (linesTouched a l.length)
  obtain ⟨ks, hks⟩ := s.mapCores_eq (fun c' k => if c' = c then k else { k with l1 := k.l1.filter (fun x => !(linesTouched a l.length).contains x) })
  refine ⟨l2, h.trans ?_⟩
  rw [show s.invalidateL1 c a l.length = { s with cores := ks } from hks]

theorem State.writeBytes_eq : s.writeBytes c a l = { s with
    mem := (s.writeBytes c a l).mem, tags := (s.writeBytes c a l).tags, poison := (s.writeBytes c a l).poison,
    cores := (s.writeBytes c a l).cores, l2 := (s.writeBytes c a l).l2 } := by
  obtain ⟨l2, h⟩ := s.usedFor_eq c a l
  obtain ⟨m, tg, p, hwrite⟩ := s.writeBytes_usedFor c a l
  rw [hwrite, h]

theorem State.thread_writeBytes (g : Nat) : (s.writeBytes c a l).thread g = s.thread g := by
  rw [State.writeBytes_eq]
  rfl

theorem State.poison_writeBytes (x : Nat) :
    x ∈ (s.writeBytes c a l).poison ↔ x ∈ s.poison ∧ ¬ (a ≤ x * 128 ∧ x * 128 + 128 ≤ a + l.length) := by
  have hpoison : (s.writeBytes c a l).poison =
      s.poison.filter (fun l' => !(decide (a ≤ l' * 128) && decide (l' * 128 + 128 ≤ a + l.length))) := by
    obtain ⟨l2, h⟩ := s.usedFor_eq c a l
    have hused : (s.usedFor c a l).poison = s.poison := by rw [h]
    rw [State.writeBytes_def, State.clearPoison, State.setTags_poison, hused]
  rw [hpoison, List.mem_filter, Bool.not_eq_true', ← Bool.not_eq_true, Bool.and_eq_true, decide_eq_true_eq, decide_eq_true_eq]

/-! ### The caches (R216, R217) -/

theorem State.core_writeBytes (d : Nat) : (s.writeBytes c a l).core d = (s.invalidateL1 c a l.length).core d := by
  obtain ⟨l2, h⟩ := s.usedFor_eq c a l
  obtain ⟨m, tg, p, hwrite⟩ := s.writeBytes_usedFor c a l
  rw [hwrite, h]
  rfl

/-- A core that is not listed is as reset leaves it, and holds no line. -/
theorem State.core_invalidateL1 (n d : Nat) : (s.invalidateL1 c a n).core d =
    if d = c then s.core d else { s.core d with l1 := (s.core d).l1.filter (fun x => !(linesTouched a n).contains x) } := by
  rw [State.invalidateL1, State.mapCores_core]
  split
  · rfl
  · next hlisted =>
    have hreset : s.core d = Core.reset := FMap.get_of_not_mem _ hlisted
    rw [hreset]
    split <;> rfl

theorem State.l1_writeBytes (d x : Nat) : x ∈ ((s.writeBytes c a l).core d).l1 ↔
    x ∈ (s.core d).l1 ∧ (d = c ∨ l = [] ∨ x < a / 128 ∨ (a + l.length - 1) / 128 < x) := by
  rw [State.core_writeBytes, State.core_invalidateL1]
  split
  · next h => simp [h]
  · next h =>
    have hline : ¬ x ∈ linesTouched a l.length ↔ (l = [] ∨ x < a / 128 ∨ (a + l.length - 1) / 128 < x) := by
      rw [mem_linesTouched, ne_eq, List.length_eq_zero_iff]
      by_cases hl : l = []
      · simp [hl]
      · simp only [hl, not_false_eq_true, true_and, false_or]
        omega
    rw [List.mem_filter, ← hline]
    simp [h]

theorem State.core_writeBytes_rest (d : Nat) : { (s.writeBytes c a l).core d with l1 := (s.core d).l1 } = s.core d := by
  rw [State.core_writeBytes, State.core_invalidateL1]
  split <;> rfl

theorem State.isHbm_invalidateL1 (n b : Nat) : (s.invalidateL1 c a n).isHbm b = s.isHbm b := by
  obtain ⟨ks, h⟩ := s.mapCores_eq (fun c' k => if c' = c then k else { k with l1 := k.l1.filter (fun x => !(linesTouched a n).contains x) })
  rw [show s.invalidateL1 c a n = { s with cores := ks } from h]
  rfl

/-- A line that a write uses at its home slice is dirty there. -/
theorem State.l2Use_dirty {s : State} {line : Nat} (h : s.isHbm (line * 128) = true) : (s.l2Use true line).l2.contains (line, true) = true := by
  simp [State.l2Use, h]

variable {a l}

theorem State.dirtyAt_writeBytes (hl : l ≠ []) (hline : (a + l.length - 1) / 128 = a / 128) (h : s.isHbm (a / 128 * 128) = true) :
    (s.writeBytes c a l).dirtyAt a = true := by
  have hlines := linesTouched_of_line (fun h0 => hl (List.length_eq_zero_iff.mp h0)) hline
  have hl2 : (s.writeBytes c a l).l2 = ((s.invalidateL1 c a l.length).l2Use true (a / 128)).l2 := by
    obtain ⟨m, tg, p, hwrite⟩ := s.writeBytes_usedFor c a l
    rw [hwrite, State.usedFor, hlines]
    rfl
  rw [State.dirtyAt, hl2]
  exact State.l2Use_dirty (by rw [State.isHbm_invalidateL1, h])

end

end Sys2Proof.Machine
end

section
/-! An access that is performed (O24): loads, stores, tagged words, atomics. -/

namespace Sys2Proof.Machine

/-! ### The operations of `amo` (R223) -/

theorem sextNat_mod (k len : Nat) : sextNat (k % 2 ^ len) len = sextNat k len := by
  simp [sextNat]

theorem ite_mod {p : Prop} [Decidable p] {a b m : Nat} (hb : b < m) : (if p then a else b) % m = if p then a % m else b := by
  split
  · rfl
  · exact Nat.mod_eq_of_lt hb

/-- The choice of the greater, and of the smaller, of two values read as signed numbers. -/
theorem sextNat_amo_minmax (old v len : Nat) :
    sextNat ((if sextNat old len < sextNat v len then v else old) % 2 ^ len) len = max (sextNat old len) (sextNat (v % 2 ^ len) len) ∧
    sextNat ((if sextNat v len < sextNat old len then v else old) % 2 ^ len) len = min (sextNat old len) (sextNat (v % 2 ^ len) len) := by
  rw [sextNat_mod, sextNat_mod, sextNat_mod]
  constructor
  · split <;> omega
  · split <;> omega

theorem amoVal_facts {n old v cmp : Nat} (hold : old < 2 ^ (8 * n)) :
    amoVal 0 n old v cmp = (old + v % 2 ^ (8 * n)) % 2 ^ (8 * n) ∧ amoVal 1 n old v cmp = v % 2 ^ (8 * n) ∧
    amoVal 2 n old v cmp = (if old = cmp % 2 ^ (8 * n) then v % 2 ^ (8 * n) else old) ∧
    amoVal 3 n old v cmp = old &&& v % 2 ^ (8 * n) ∧ amoVal 4 n old v cmp = old ||| v % 2 ^ (8 * n) ∧
    amoVal 5 n old v cmp = old ^^^ v % 2 ^ (8 * n) ∧
    amoVal 8 n old v cmp = max old (v % 2 ^ (8 * n)) ∧ amoVal 9 n old v cmp = min old (v % 2 ^ (8 * n)) := by
  have hmod : old % 2 ^ (8 * n) = old := Nat.mod_eq_of_lt hold
  refine ⟨(Nat.add_mod_mod _ _ _).symm, rfl, ite_mod hold, ?_, ?_, ?_, ?_, ?_⟩
  · show (old &&& v) % 2 ^ (8 * n) = _
    rw [Nat.and_mod_two_pow, hmod]
  · show (old ||| v) % 2 ^ (8 * n) = _
    rw [Nat.or_mod_two_pow, hmod]
  · show (old ^^^ v) % 2 ^ (8 * n) = _
    rw [Nat.xor_mod_two_pow, hmod]
  · refine (ite_mod hold).trans ?_
    split <;> omega
  · refine (ite_mod hold).trans ?_
    split <;> omega

/-! ### The access of a ticket that is performed -/

section
variable {s : State} {g tk pa : Nat} {o : TOp} {a : Access}

/-- A translated access that nothing holds back: its ticket's one operation takes the phase that `State.perform` gives it. -/
theorem exec_memAccessPerformed {p : XPhase} {s' : State} (hops : ((s.thread g).ticket tk).ops = [o]) (hkind : o.kind = .acc a)
    (hphase : a.phase = .ready pa) (hblocked : s.blocked (coreOf g) (s.thread g) a pa = false) (hlink : s.linkHolds (coreOf g) a pa = none)
    (hperform : s.perform g a (o.dst.headD 0) pa = (p, s')) (hthread : s'.thread g = s.thread g) :
    exec (.memAccessPerformed g tk .ok) s = .next (s'.setThread g ((s.thread g).setTicket tk
      ⟨[{ o with kind := .acc { a with phase := p } }], ((s.thread g).ticket tk).fault⟩)) := by
  have hmay : s.mayPerform g a = true := by simp only [State.mayPerform, hphase, hblocked, hlink]; rfl
  have hfind : (s.thread g).findAcc tk (s.mayPerform g) = some (0, o, a) := by
    simp only [Thread.findAcc, hops, List.zipIdx_cons, List.zipIdx_nil, firstSome, hkind, hmay, if_true]
  show Host.Outcome.next (doMemAccess s g tk .ok) = _
  simp only [doMemAccess, hfind, hphase, State.settlePar, Parity.isLost, reduceCtorEq, if_false, Bool.false_eq_true, hperform, hthread]
  simp only [Thread.setPhase, Thread.setOp, hops, List.set_cons_zero]

/-- HBM and the press are no control range (R208). -/
theorem physKind_ne_ctl (hmem : s.isHbm pa = true ∨ ∃ c off, physKind s pa = .press c off) (off : Nat) : physKind s pa ≠ .ctl off := by
  intro h
  rcases hmem with hhbm | ⟨c, off', hpress⟩
  · simp [State.isHbm, h] at hhbm
  · simp [h] at hpress

/-- The failing word of bytes that lie on one line is their first word (R230, R232). -/
theorem State.badWord_of_line (s : State) {n : Nat} (h : (pa + n - 1) / 128 = pa / 128) : s.badWord .ok pa n = pa / 4 * 4 := by
  by_cases hn : n = 0
  · simp [State.badWord, linesTouched, hn]
  · simp only [State.badWord, linesTouched_of_line hn h, List.find?_cons, List.find?_nil]
    split
    · next l hl =>
      split at hl
      · cases hl
        omega
      · cases hl
    · rfl

theorem State.thread_recordFault (s : State) (u : BitVec 16) (fclass g : Nat) : (s.recordFault u fclass).thread g = s.thread g := by
  obtain ⟨_, _, _, _, h⟩ := s.recordFault_eq u fclass
  rw [h]
  rfl

variable {dst : Nat}

theorem State.perform_load {n : Nat} {sg : Bool} {tag : Tag} (hop : a.op = .load n sg tag) (hctl : ∀ off, physKind s pa ≠ .ctl off)
    (hpois : s.poisoned pa n = false) (htag : isPress pa = true → s.tagAt pa ≠ 3 ∧ s.tagAt pa ≠ 6) :
    s.perform g a dst pa = (.performed [⟨tag, extend n sg (s.readNat pa n)⟩] [], s.cached (coreOf g) true pa n) := by
  have hheld : (isPress pa && (s.tagAt pa == 3 || s.tagAt pa == 6)) = false := by
    cases hp : isPress pa with
    | false => rfl
    | true => simpa using htag hp
  simp only [State.perform, hop, hpois, hheld, Bool.false_eq_true, if_false]

theorem State.perform_load_poisoned {n : Nat} {sg : Bool} {tag : Tag} (hop : a.op = .load n sg tag) (hctl : ∀ off, physKind s pa ≠ .ctl off)
    (hpois : s.poisoned pa n = true) (hline : (pa + n - 1) / 128 = pa / 128) :
    s.perform g a dst pa = (.failed 0x10 (BitVec.ofNat 64 (pa / 4 * 4)), s.recordFault (unitOfPa s pa) 0x01) := by
  simp only [State.perform, hop, hpois, if_true, State.failPoison, State.failParity, s.badWord_of_line hline]

theorem State.perform_store {n : Nat} {v : Word} (hop : a.op = .store n v) (hctl : ∀ off, physKind s pa ≠ .ctl off) :
    s.perform g a dst pa = (.performed [] [], s.writeBytes (coreOf g) pa (leBytes n v.toNat)) := by
  simp only [State.perform, hop]
  rfl

theorem State.perform_amo {n op : Nat} {sg : Bool} {v cmp : Word} (hop : a.op = .amo n op sg v cmp) (hpois : s.poisoned pa n = false) :
    s.perform g a dst pa = (.performed [⟨.int, extend n sg (s.readNat pa n)⟩] [],
      s.writeBytes (coreOf g) pa (leBytes n (amoVal op n (s.readNat pa n) v.toNat cmp.toNat))) := by
  simp only [State.perform, hop, hpois, Bool.false_eq_true, if_false]
  rfl

theorem State.perform_loadT {tag : Tag} (hop : a.op = .loadT) (hpress : isPress pa = true) (hpois : s.poisoned pa 8 = false)
    (htag : tagOfCode (s.tagAt pa).toNat = some tag) : s.perform g a dst pa = (.performed [⟨tag, s.readWord pa⟩] [], s) := by
  simp only [State.perform, hop, AccOp.span, hpress, if_true, hpois, Bool.false_eq_true, if_false, htag, Option.getD_some]

theorem State.perform_storeT {v : TReg} (hop : a.op = .storeT v) (hpress : isPress pa = true) : s.perform g a dst pa = (.performed [] [],
    (s.writeBytes (coreOf g) pa (leBytes 8 v.val.toNat)).setTags pa 8 (BitVec.ofNat 4 (tagCode v.tag))) := by
  simp only [State.perform, hop, hpress, if_true]
  rfl

end

/-- Settles O24: each access by what `State.perform` gives; a write of bytes by address; the operations of `amo` by their values. -/
theorem accessesPerformed : Obligations.AccessesPerformed := by
  unfold Obligations.AccessesPerformed
  refine ⟨fun s g tk pa o a => ?_, fun s c a l => ?_, fun n old v cmp _ hold => ?_⟩
  · intro t c mem put hops hkind hphase hblocked hlink hmem
    have hctl := physKind_ne_ctl hmem
    have hput {p : XPhase} {s' : State} (hperform : s.perform g a (o.dst.headD 0) pa = (p, s')) (hthread : s'.thread g = s.thread g) : put s' p :=
      exec_memAccessPerformed hops hkind hphase hblocked hlink hperform hthread
    refine ⟨fun n sg tag hop hpois htag => ?_, fun n sg tag hop hpois hline => ?_, fun n v hop => ?_, fun n op sg v cmp hop hpois => ?_,
      fun hpress hpois tag htag hop => ?_, fun hpress v hop => ?_⟩
    · exact hput (State.perform_load hop hctl hpois htag) (State.thread_cached ..)
    · exact hput (State.perform_load_poisoned hop hctl hpois hline) (State.thread_recordFault ..)
    · exact hput (State.perform_store hop hctl) (State.thread_writeBytes ..)
    · exact hput (State.perform_amo hop hpois) (State.thread_writeBytes ..)
    · exact hput (State.perform_loadT hop hpress hpois htag) rfl
    · refine hput (State.perform_storeT hop hpress) ?_
      rw [State.setTags_eq]
      exact State.thread_writeBytes ..
  · intro u
    exact ⟨s.byte_writeBytes c a l, s.readBytes_writeBytes c a l, fun x ha => s.tagAt_writeBytes c a l ha x, s.tags_writeBytes c a l,
      s.poison_writeBytes c a l, s.l1_writeBytes c a l, s.core_writeBytes_rest c a l,
      fun hl hline hhbm => State.dirtyAt_writeBytes s c hl hline hhbm, s.writeBytes_eq c a l⟩
  · intro m x sg f
    obtain ⟨h0, h1, h2, h3, h4, h5, h8, h9⟩ := amoVal_facts (v := v.toNat) (cmp := cmp.toNat) hold
    exact ⟨h0, h1, h2, h3, h4, h5, sextNat_amo_minmax old v.toNat (8 * n), h8, h9⟩

end Sys2Proof.Machine
end

section
/-! SUPPORT. Where a trap entry goes and what it pushes: the reads of R64 and R65, the push of `s30` (R68), and steps 7 and 8 (R69). -/

namespace Sys2Proof

/-! ### Two writes at one key -/

section
variable {α : Type}

theorem FMap.ins_ins (m : FMap α) (k : Nat) (v w : α) : FMap.ins (FMap.ins m k v) k w = FMap.ins m k w := by
  induction m with
  | nil => simp [FMap.ins]
  | cons e t ih =>
    obtain ⟨k', v'⟩ := e
    simp only [FMap.ins]
    split
    · simp [FMap.ins]
    · split
      · simp [FMap.ins]
      · next hne hlt => simp only [FMap.ins, hne, hlt, if_false, ih]

theorem FMap.del_ins (m : FMap α) (k : Nat) (v : α) : FMap.del (FMap.ins m k v) k = FMap.del m k := by
  induction m with
  | nil => simp [FMap.ins, FMap.del]
  | cons e t ih =>
    obtain ⟨k', v'⟩ := e
    simp only [FMap.ins]
    split
    · next heq => simp [FMap.del, heq]
    · split
      · simp [FMap.del]
      · next hne _ => simp only [FMap.del, hne, if_false, ih]

/-- Of two writes at one key the second stands; in a map of any form, where the first is not of the default. -/
theorem FMap.set_set_of_ne [DecidableEq α] {d v : α} (hv : v ≠ d) (m : FMap α) (k : Nat) (w : α) :
    FMap.set d (FMap.set d m k v) k w = FMap.set d m k w := by
  simp only [FMap.set, if_neg hv, FMap.ins_ins, FMap.del_ins]

end

end Sys2Proof

namespace Sys2Proof.Machine

/-- A thread with a trap is not the default of the map of threads. -/
theorem State.setThread_setThread_of_trap {t : Thread} (ht : t.trap ≠ none) (s : State) (g : Nat) (u : Thread) :
    (s.setThread g t).setThread g u = s.setThread g u := by
  have hne : t ≠ Thread.reset := fun h => ht (h ▸ rfl)
  simp only [State.setThread, FMap.set_set_of_ne hne]

/-! ### The level and the plan of an entry (R56, R67, R70) -/

theorem isNested_eq_false {t : Thread} (h : t.estat.exl = false) (r : Trap) : isNested t r = false := by
  simp [isNested, h]

theorem routeOf_le (cause : Nat) : routeOf cause ≤ 3 := by
  unfold routeOf
  split <;> decide

theorem trapLevel_machine {t : Thread} (h : t.estat.prv = 3) (r : Trap) : trapLevel t r = 3 := by
  unfold trapLevel
  split
  · rfl
  · rw [h]
    exact Nat.max_eq_right (routeOf_le _)

/-- A cause that routes to S, from S or U and in no handler, is taken at S. -/
theorem trapLevel_supervisor {t : Thread} {r : Trap} (hexl : t.estat.exl = false) (hroute : routeOf r.cause = 1) (hprv : t.estat.prv.toNat ≤ 1) :
    trapLevel t r = 1 := by
  rw [trapLevel, isNested_eq_false hexl, hroute]
  exact Nat.max_eq_left hprv

/-- Where the entry for a trap goes: by the address table where it is used, else by the descriptor table (R67). -/
def entryPlan (s : State) (g : Nat) (r : Trap) (par : Parity) : Except EntryFail EntryPlan :=
  match (if trapLevel (s.thread g) r = 1 then addressPath s g r.cause (decide ((s.thread g).estat.prv = 0)) par else none) with
  | some p => p
  | none => descriptorPath s g r.cause (trapLevel (s.thread g) r) par

theorem entryPlan_machine {s : State} {g : Nat} {par : Parity} (h : (s.thread g).estat.prv = 3) (r : Trap) :
    entryPlan s g r par = descriptorPath s g r.cause 3 par := by
  simp [entryPlan, trapLevel_machine h]

theorem entryPlan_address {s : State} {g : Nat} {r : Trap} {par : Parity} {fromU : Bool} {p : Except EntryFail EntryPlan}
    (hlevel : trapLevel (s.thread g) r = 1) (hfrom : decide ((s.thread g).estat.prv = 0) = fromU)
    (h : addressPath s g r.cause fromU par = some p) : entryPlan s g r par = p := by
  simp only [entryPlan, hlevel, hfrom, h, if_true]

/-- Steps 6 to 8 for a plan, or the lantern for what stands in its way (R68-R71). -/
def enterBy (s : State) (g : Nat) (r : Trap) (plan : Except EntryFail EntryPlan) : State :=
  let nested := isNested (s.thread g) r
  match plan with
  | .error f => (lanternEntry (recordEntryParity s f) g r nested f .ok false).getD s
  | .ok p =>
    match switchStack s g p with
    | .error f => (lanternEntry (recordEntryParity s f) g r nested f .ok false).getD s
    | .ok s' => s'.setThread g ((s'.thread g).enter r p.level nested ⟨0, 0, false, r.deferred, BitVec.ofNat 6 r.cause⟩ r.etval p.handler)

section
variable {s : State} {g : Nat} {r : Trap}

/-- The plan by the address table, of a handler word tagged PTR and, from U, a stack slot tagged PTR (R64, R67). -/
theorem addressPath_of_ptr {cause base : Nat} {fromU : Bool} (hbase : s.tableBase (coreOf g) = some base)
    (hpois : s.poisoned (base + 8 * cause) 8 = false) (hslot : s.poisoned (base + 512 + 8 * tidOf g) 8 = false)
    (htag : s.tagAt (base + 8 * cause) = 2) (halign : (s.readWord (base + 8 * cause)).toNat % 8 = 0)
    (hslotTag : fromU = true → s.tagAt (base + 512 + 8 * tidOf g) = 2) :
    addressPath s g cause fromU .ok =
      some (.ok ⟨1, s.readWord (base + 8 * cause), if fromU then some (s.readWord (base + 512 + 8 * tidOf g) - 16) else none⟩) := by
  have hparity : entryParity s (base + 8 * cause) (base + 512 + 8 * tidOf g) fromU .ok = none := by
    simp [entryParity, hpois, hslot]
  cases fromU with
  | false => simp [addressPath, hbase, hparity, State.ptrWord, htag, halign]
  | true => simp [addressPath, hbase, hparity, State.ptrWord, htag, halign, hslotTag rfl]

section
variable {c a : Nat} (hhbm : s.isHbm a = true) (hlink : s.linkWait c a = false) (hpois : s.poisoned a 32 = false)
include hhbm hlink hpois

theorem readHandler_ptr (htag : s.readNat (a + 8) 8 = 2) : readHandler s c a .ok = .ok (s.readWord a) := by
  simp [readHandler, hhbm, hlink, hpois, State.settlePar, Parity.isLost, htag]

theorem readHandler_not_ptr (htag : s.readNat (a + 8) 8 ≠ 2) : readHandler s c a .ok = .error ⟨0x02, 2, BitVec.ofNat 64 a, false⟩ := by
  simp [readHandler, hhbm, hlink, hpois, State.settlePar, Parity.isLost, htag]

end

/-- The fields of a CTRL with PRV = 3, STK = 0 and STKSH = `k` (R65). -/
theorem fld_ctrl_machine {k : Nat} (hk : k ≤ 20) : fld (BitVec.ofNat 64 (k * 256 + 3)) 0 2 = 3 ∧ fld (BitVec.ofNat 64 (k * 256 + 3)) 2 1 = 0 ∧
    fld (BitVec.ofNat 64 (k * 256 + 3)) 8 8 = k := by
  simp only [fld, BitVec.toNat_ofNat, Nat.shiftRight_eq_div_pow]
  omega

/-- An entry at M whose handler is an aligned PTR and whose CTRL names M with no stack switch is the plan (R65, R67). -/
theorem descriptorPath_machine {cause k : Nat} {h : Word}
    (hread : readHandler s (coreOf g) ((s.core (coreOf g)).mtvdesc.toNat * 2 ^ 11 + 32 * cause) .ok = .ok h) (halign : h.toNat % 8 = 0)
    (hk : 8 ≤ k ∧ k ≤ 20)
    (hctrl : s.readWord ((s.core (coreOf g)).mtvdesc.toNat * 2 ^ 11 + 32 * cause + 24) = BitVec.ofNat 64 (k * 256 + 3)) :
    descriptorPath s g cause 3 .ok = .ok ⟨3, h, none⟩ := by
  obtain ⟨hprv, hstk, hsh⟩ := fld_ctrl_machine hk.2
  have hfields : wordFields [(3, 0), (0, 2), (k, 8)] = BitVec.ofNat 64 (k * 256 + 3) := by
    rw [wordFields_eq]
    simp only [fieldSum_cons, fieldSum_nil]
    congr 1
    omega
  have hnoStack : bitAt (BitVec.ofNat 64 (k * 256 + 3)) 2 = false := by
    simpa [hstk] using bitAt_eq_testBit_fld (BitVec.ofNat 64 (k * 256 + 3)) (lo := 2) (len := 1) (i := 0) (by decide)
  have hrange : ¬ (k < 8 ∨ 20 < k) := by omega
  simp only [descriptorPath, hread, hctrl, hprv, hstk, hsh, hfields, hnoStack]
  simp [hrange, halign]

theorem descriptorPath_error {cause level : Nat} {f : EntryFail}
    (hread : readHandler s (coreOf g) ((s.core (coreOf g)).mtvdesc.toNat * 2 ^ 11 + 32 * cause) .ok = .error f) :
    descriptorPath s g cause level .ok = .error f := by
  simp only [descriptorPath, hread]

/-! ### The push of `s30` (R68) -/

theorem isPress_of_isHbm {a : Nat} (h : s.isHbm a = true) : isPress a = false := by
  unfold State.isHbm physKind at h
  unfold isPress pressBase
  by_cases hlt : a < 0xC0000000000
  · simp only [Bool.and_eq_false_iff, decide_eq_false_iff_not]
    omega
  · simp only [if_neg hlt] at h
    split at h
    · next heq =>
      repeat' split at heq
      all_goals cases heq
    · cases h

/-- HBM and the press take a data access of a core to which no half link is missing (R208, R297). -/
theorem State.engineLands_of {c a : Nat} (va : Word) (hmem : s.isHbm a = true ∨ ∃ c' off, physKind s a = .press c' off)
    (hlink : s.linkWait c a = false) : s.engineLands c va a = .ok a := by
  unfold State.engineLands
  obtain hhbm | ⟨c', off, hpress⟩ := hmem
  · unfold State.isHbm at hhbm
    split at hhbm
    · next hkind => simp [hkind, hlink]
    · cases hhbm
  · simp [hpress, hlink]

/-- At M an address is its own translation (R55, R212). -/
theorem State.xlatQuick_at_machine (s : State) (b : Option Nat) (tc : List Leaf) (n : Need) (va : Word) :
    s.xlatQuick b tc 3 n va = .pa va.toNat := by
  simp only [State.xlatQuick, if_true]

/-- Where a push lands: the address that the translation cache gives, at M the address itself (R68). -/
theorem pushTarget_of_quick {level a : Nat} {sp : Word} (hctl : BitVec.ofNat 2 level = 3 ∨ inCtlRange sp.toNat = false)
    (hquick : s.xlatQuick (s.bindingOf (coreOf g)) (s.core (coreOf g)).tcache (BitVec.ofNat 2 level) .wr sp = .pa a)
    (hmem : s.isHbm a = true ∨ ∃ c' off, physKind s a = .press c' off) (hlink : s.linkWait (coreOf g) a = false) :
    pushTarget s g level sp = (.ok a, s) := by
  have hopen : (BitVec.ofNat 2 level ≠ 3 && inCtlRange sp.toNat) = false := by
    obtain h | h := hctl <;> simp [h]
  simp only [pushTarget, State.engineXlat, hopen, Bool.false_eq_true, if_false, State.xlat_of_quick hquick, State.engineLands_of sp hmem hlink]

theorem pushS30_press {c a : Nat} (h : isPress a = true) (v : TReg) :
    pushS30 s c a v = (s.writeNat c a 8 v.val.toNat).setTags a 8 (BitVec.ofNat 4 (tagCode v.tag)) := if_pos h

theorem pushS30_hbm {c a : Nat} (h : s.isHbm a = true) (v : TReg) : pushS30 s c a v = s.writeNat c a 16 (v.val.toNat + 2 ^ 64 * tagCode v.tag) := by
  rw [pushS30, isPress_of_isHbm h]
  rfl

theorem switchStack_pushes {p : EntryPlan} {sp : Word} {a : Nat} (hstack : p.stack = some sp) (halign : sp.toNat % 16 = 0)
    (htarget : pushTarget s g p.level sp = (.ok a, s)) :
    switchStack s g p = .ok ((pushS30 s (coreOf g) a ((s.thread g).reg 30)).setThread g ((s.thread g).setReg 30 ⟨.ptr, sp⟩)) := by
  simp [switchStack, hstack, halign, htarget]

theorem switchStack_none {p : EntryPlan} (hstack : p.stack = none) : switchStack s g p = .ok s := by
  simp only [switchStack, hstack]

/-- The thread's next update stands in the place of the switch of its `s30`. -/
theorem State.setThread_pushed (htrap : (s.thread g).trap = some r) (s' : State) (v : TReg) (u : Thread) :
    (s'.setThread g ((s.thread g).setReg 30 v)).setThread g u = s'.setThread g u :=
  State.setThread_setThread_of_trap (by simp [htrap]) s' g u

/-! ### The entry (R69) -/

theorem Thread.reg_enter (u : Thread) (level : Nat) (nested : Bool) (ec : ECause) (etval pc : Word) (code : Nat) :
    (u.enter r level nested ec etval pc).reg code = u.reg code := rfl

theorem Thread.sprv_enter (u : Thread) (level : Nat) (nested : Bool) (ec : ECause) (etval pc : Word) :
    (u.enter r level nested ec etval pc).estat.sprv = u.estat.prv := rfl

/-- Steps 7 and 8 in no shadow, for an entry that is neither nested nor the lantern's. -/
theorem Thread.enter_plain {u : Thread} (hshadow : u.shadow = none) (level cause : Nat) (etval pc : Word) :
    u.enter r level false ⟨0, 0, false, r.deferred, BitVec.ofNat 6 cause⟩ etval pc =
      { u with
        epc := ⟨.ptr, maskBits r.epc 3 47⟩, ecause := ⟨0, 0, false, r.deferred, BitVec.ofNat 6 cause⟩, etval := etval
        estat := { u.estat with rpt := r.rpt, eds := r.eds, slotb := r.slotb, msh := false, nst := false, svi := true, exl := true,
                                sprv := u.estat.prv, prv := BitVec.ofNat 2 level }
        trap := none, pc := pc, fetch := none } := by
  simp [Thread.enter, entryEstat, hshadow]

section
variable (htrap : (s.thread g).trap = some r) (hregs : (s.thread g).regTickets = false) (hsus : (s.core (coreOf g)).suspended = false)
include htrap hregs hsus

theorem exec_trapEntry_eq : exec (.trapEntry g .ok) s = .next (enterBy s g r (entryPlan s g r .ok)) := by
  show Host.Outcome.next (enterTrap s g .ok false) = _
  simp only [enterTrap, htrap, hregs, hsus, Bool.or_self, Bool.false_eq_true, if_false]
  rfl

theorem exec_trapEntry_of_plan {p : EntryPlan} {s' : State} (hplan : entryPlan s g r .ok = .ok p) (hswitch : switchStack s g p = .ok s') :
    exec (.trapEntry g .ok) s = .next (s'.setThread g ((s'.thread g).enter r p.level (isNested (s.thread g) r)
      ⟨0, 0, false, r.deferred, BitVec.ofNat 6 r.cause⟩ r.etval p.handler)) := by
  simp only [exec_trapEntry_eq htrap hregs hsus, enterBy, hplan, hswitch]

/-- An entry that something other than parity or the half link stands in the way of is the lantern's (R71). -/
theorem exec_trapEntry_of_fail {f : EntryFail} {s' : State} (hplan : entryPlan s g r .ok = .error f) (hcause : f.cause ≠ 0x10)
    (hlantern : lanternEntry s g r (isNested (s.thread g) r) f .ok false = some s') : exec (.trapEntry g .ok) s = .next s' := by
  have hparity : recordEntryParity s f = s := if_neg hcause
  simp only [exec_trapEntry_eq htrap hregs hsus, enterBy, hplan, hparity, hlantern, Option.getD_some]

end

end

end Sys2Proof.Machine
end

section
/-! Trap entry by the address table and by the descriptor table (O21). -/

namespace Sys2Proof.Machine

/-- Settles O21: each table's plan, with its stack switch, then steps 7 and 8. -/
theorem trapEntry : Obligations.TrapEntry := by
  unfold Obligations.TrapEntry
  intro s g r t c e entered htrap hregs hsus hshadow hexl
  have hnested : isNested t r = false := isNested_eq_false hexl r
  refine ⟨?_, ?_⟩
  · intro base h0F h10 h13 h24 h25 hbase hpois hslot htag halign
    have hlevel (hprv : e.prv.toNat ≤ 1) : trapLevel t r = 1 :=
      trapLevel_supervisor hexl (by simp [routeOf, h0F, h10, h13, h24, h25]) hprv
    refine ⟨fun hprv => ?_, fun a hprv hslotTag => ?_⟩
    · have hplan := entryPlan_address (hlevel (by rw [hprv]; decide)) (decide_eq_false (by rw [hprv]; decide))
        (addressPath_of_ptr hbase hpois hslot htag halign nofun)
      rw [exec_trapEntry_of_plan htrap hregs hsus hplan (switchStack_none rfl), hnested, Thread.enter_plain hshadow]
      rfl
    · intro sp hsp hctl hlink hquick hpress hkind
      have hplan := entryPlan_address (hlevel (by rw [hprv]; decide)) (decide_eq_true hprv)
        (addressPath_of_ptr hbase hpois hslot htag halign fun _ => hslotTag)
      have hswitch := switchStack_pushes (p := ⟨1, s.readWord (base + 8 * r.cause), some sp⟩) rfl hsp
        (pushTarget_of_quick (.inr hctl) hquick (.inr hkind) hlink)
      rw [exec_trapEntry_of_plan htrap hregs hsus hplan hswitch, State.setThread_pushed htrap, State.thread_setThread_same, hnested,
        Thread.enter_plain (by rw [Thread.setReg_shadow]; exact hshadow), Thread.setReg_estat, pushS30_press hpress]
      rfl
  · rintro a hprv hhbm hlink hpois htag halign ⟨k, hk8, hk20, hctrl⟩
    have hplan := (entryPlan_machine hprv r).trans
      (descriptorPath_machine (readHandler_ptr hhbm hlink hpois htag) halign ⟨hk8, hk20⟩ hctrl)
    rw [exec_trapEntry_of_plan htrap hregs hsus hplan (switchStack_none rfl), hnested, Thread.enter_plain hshadow]
    rfl

end Sys2Proof.Machine
end

section
/-! What stands in the way of an entry: the lantern, and the thread it stops (O22). -/

namespace Sys2Proof.Machine

section
variable {s : State} {g : Nat} {r : Trap} {f : EntryFail} {nested : Bool}

/-- Where the lantern pushes `s30` (R66, R68). -/
def lanternSlot (s : State) (g : Nat) : Word :=
  BitVec.ofNat 64 ((s.core (coreOf g)).lanternSp.toNat * 16) - BitVec.ofNat 64 (tidOf g * 4096 + 16)

theorem lanternSlot_aligned (s : State) (g : Nat) : (lanternSlot s g).toNat % 16 = 0 := by
  simp only [lanternSlot, BitVec.toNat_sub, BitVec.toNat_ofNat]
  omega

/-- The lantern takes the entry where its own handler is an aligned PTR and its stack takes the push (R71). -/
theorem lanternEntry_enters {h : Word} {s' : State} (hlink : f.link = false) (hlnta : (s.thread g).estat.lnta = false)
    (hread : readHandler s (coreOf g) ((s.core (coreOf g)).mtvdesc.toNat * 2 ^ 11) .ok = .ok h) (halign : h.toNat % 8 = 0)
    (hswitch : switchStack s g ⟨3, h, some (lanternSlot s g)⟩ = .ok s') :
    lanternEntry s g r nested f .ok false = some (s'.setThread g ((s'.thread g).enter r 3 nested
      ⟨BitVec.ofNat 2 f.stage, BitVec.ofNat 6 r.cause, true, false, BitVec.ofNat 6 f.cause⟩ f.addr h)) := by
  rw [lanternSlot] at hswitch
  simp only [lanternEntry, hlink, hlnta, ite_self, hread, halign, hswitch]
  rfl

/-- A thread already in the lantern is stopped (R72). -/
theorem lanternEntry_stops (hlink : f.link = false) (hlnta : (s.thread g).estat.lnta = true) :
    lanternEntry s g r nested f .ok false = some (stopThread s g) := by
  simp [lanternEntry, hlink, hlnta]

/-- A stop that no launch waits for leaves the command table as it is (R72, R324). -/
theorem stopThread_of_no_launch (h : (s.thread g).launch = none) : stopThread s g =
    (s.setThread g { s.thread g with run := .idle, trap := none, tickets := [], shadow := none, stopped := true }).recordFault
      (unitId 0 (coreOf g)) 0x01 := by
  simp only [stopThread, State.noteStop, h]

/-- The lantern's push of `s30` to HBM. -/
theorem switchStack_lantern {h : Word} (hhbm : s.isHbm (lanternSlot s g).toNat = true) (hlink : s.linkWait (coreOf g) (lanternSlot s g).toNat = false) :
    switchStack s g ⟨3, h, some (lanternSlot s g)⟩ =
      .ok ((s.writeNat (coreOf g) (lanternSlot s g).toNat 16 (((s.thread g).reg 30).val.toNat + 2 ^ 64 * tagCode ((s.thread g).reg 30).tag)).setThread g
        ((s.thread g).setReg 30 ⟨.ptr, lanternSlot s g⟩)) := by
  rw [switchStack_pushes rfl (lanternSlot_aligned s g) (pushTarget_of_quick (.inl rfl) (s.xlatQuick_at_machine ..) (.inl hhbm) hlink), pushS30_hbm hhbm]

end

/-- Settles O22: the entry's read of its handler fails, so the lantern enters by its own entry, or stops the thread. -/
theorem lantern : Obligations.Lantern := by
  unfold Obligations.Lantern
  intro s g r t c e base a sp htrap hregs hsus hprv hhbm hlink hpois htag
  have hplan := (entryPlan_machine hprv r).trans (descriptorPath_error (readHandler_not_ptr hhbm hlink hpois htag))
  refine ⟨fun hlnta hbase hbaseLink hbasePois hbaseTag halign hsp hspLink => ?_, fun hlnta hlaunch => ?_⟩
  · have henters := lanternEntry_enters (r := r) (f := ⟨0x02, 2, BitVec.ofNat 64 a, false⟩) (nested := isNested t r) rfl hlnta
      (readHandler_ptr hbase hbaseLink hbasePois hbaseTag) halign (switchStack_lantern hsp hspLink)
    rw [State.setThread_pushed htrap, State.thread_setThread_same] at henters
    refine ⟨_, exec_trapEntry_of_fail htrap hregs hsus hplan (show 0x02 ≠ 0x10 by decide) henters, rfl, ?_, rfl, rfl, ?_, rfl, rfl, rfl, rfl, rfl⟩
    · rw [Thread.reg_enter]
      exact Thread.reg_setReg_same (by decide) rfl
    · rw [Thread.sprv_enter, Thread.setReg_estat]
  · rw [exec_trapEntry_of_fail htrap hregs hsus hplan (show 0x02 ≠ 0x10 by decide) (lanternEntry_stops rfl hlnta), stopThread_of_no_launch hlaunch]

end Sys2Proof.Machine
end

section
/-! SUPPORT. The tile queue's head: when it is the next to begin, when it alone may end, and how it leaves the queue (R108, R109). -/

namespace Sys2Proof.Machine

/-! ### A core's second update -/

/-- A core with a tile instruction queued is not the default of the map of cores. -/
theorem State.setCore_setCore_of_tileQ {k : Core} (hk : k.tileQ ≠ []) (s : State) (c : Nat) (u : Core) :
    (s.setCore c k).setCore c u = s.setCore c u := by
  have hne : k ≠ Core.reset := fun h => hk (h ▸ rfl)
  simp only [State.setCore, FMap.set_set_of_ne hne]

/-! ### Memory that no agent has written (R198) -/

theorem changedWords_self (m : List Host.Cell) : changedWords m m = [] := if_pos rfl

theorem State.mixed_mem (s : State) : s.mixed s.mem = s := by
  rw [State.mixed, changedWords_self]
  rfl

theorem State.mixedFree_mem (s : State) : s.mixedFree s.mem = 0 := by
  rw [State.mixedFree, changedWords_self]
  rfl

/-! ### The ticket of an ended instruction (R109) -/

/-- A ticket whose one operation is tile work that waits gets its phase there. -/
theorem Thread.setEng_tile {t : Thread} {tk : Nat} {ia : Word} (hops : (t.ticket tk).ops = [⟨.tile .waiting, ia, []⟩]) (p : EngPhase) :
    t.setEng tk isTileWaiting .tile p = t.setTicket tk ⟨[⟨.tile p, ia, []⟩], (t.ticket tk).fault⟩ := by
  have hfind : ([⟨.tile .waiting, ia, []⟩] : List TOp).findIdx? (fun o => isTileWaiting o.kind) = some 0 := by
    simp [isTileWaiting]
  simp only [Thread.setEng, hops, hfind, Thread.setOp]
  rfl

section
variable {s : State} {c : Nat} {e : TileEntry} {rest : List TileEntry} {ia : Word}

/-- The head leaves the queue and its ticket takes the phase. -/
theorem endTile_head (hq : (s.core c).tileQ = e :: rest) (hops : ((s.thread e.g).ticket e.tk).ops = [⟨.tile .waiting, ia, []⟩]) (p : EngPhase) :
    endTile s c 0 e p = (s.setCore c { s.core c with tileQ := rest }).setThread e.g
      ((s.thread e.g).setTicket e.tk ⟨[⟨.tile p, ia, []⟩], ((s.thread e.g).ticket e.tk).fault⟩) := by
  rw [endTile, hq, List.eraseIdx_cons_zero, State.thread_setCore, Thread.setEng_tile hops]

/-- The head leaves the queue of a core that its result has changed. -/
theorem endTile_setCore {k : Core} (hq : k.tileQ = e :: rest) (hops : ((s.thread e.g).ticket e.tk).ops = [⟨.tile .waiting, ia, []⟩])
    (p : EngPhase) : endTile (s.setCore c k) c 0 e p = (s.setCore c { k with tileQ := rest }).setThread e.g
      ((s.thread e.g).setTicket e.tk ⟨[⟨.tile p, ia, []⟩], ((s.thread e.g).ticket e.tk).fault⟩) := by
  have hne : k.tileQ ≠ [] := by simp [hq]
  have hhead := endTile_head (s := s.setCore c k) (rest := rest) (by rw [State.core_setCore_same, hq]) hops p
  rwa [State.core_setCore_same, State.setCore_setCore_of_tileQ hne] at hhead

end

/-! ### The head begins (R108, R114) -/

/-- The instructions whose beginning translates no row. -/
def TileOp.movesNoRow : TileOp → Bool
  | .load _ _ _ _ _ => false
  | .store _ _ _ _ => false
  | .bank _ _ _ _ _ _ => false
  | .zero _ _ (some _) => false
  | _ => true

/-- A pass with F = 1 makes its bank active as it begins (R102). -/
def TileOp.switches : TileOp → Core → Core
  | .mma _ _ _ flip _ _ _ _ _, k => if flip then { k with act := !k.act } else k
  | _, k => k

section
variable {s : State} {c : Nat} {e : TileEntry} {rest : List TileEntry}

theorem Core.setEntry_head {k : Core} (hq : k.tileQ = e :: rest) (e' : TileEntry) : k.setEntry 0 e' = { k with tileQ := e' :: rest } := by
  rw [Core.setEntry, hq, List.set_cons_zero]

theorem tileCheck_of_movesNoRow (s : State) (c : Nat) (hrow : e.op.movesNoRow = true) : tileCheck s c e = .ok [] := by
  unfold tileCheck
  cases hop : e.op with
  | zero n cfg sc =>
    cases sc with
    | none => rfl
    | some va => simp [hop, TileOp.movesNoRow] at hrow
  | load | store | bank => simp [hop, TileOp.movesNoRow] at hrow
  | shift | mma | rel | wait => rfl

theorem Core.nextTile_head {k : Core} (hq : k.tileQ = e :: rest) (hbegun : e.begun = false) : k.nextTile = some (0, e) := by
  simp [Core.nextTile, hq, List.findIdx?_cons, hbegun, mayBegin]

section
variable (hq : (s.core c).tileQ = e :: rest) (hsus : (s.core c).suspended = false) (hbegun : e.begun = false)
include hq hsus hbegun

theorem exec_tileQueueExecute_begins (hrow : e.op.movesNoRow = true) :
    exec (.tileQueueExecute c .ok) s =
      .next (s.setCore c { e.op.switches (s.core c) with tileQ := { e with begun := true, seen := s.mem } :: rest }) := by
  show Host.Outcome.next (doTileExecute s c .ok) = _
  simp only [doTileExecute, Core.nextTile_head hq hbegun, hsus, reduceCtorEq, if_false, Bool.false_eq_true, Parity.isLost,
    tileCheck_of_movesNoRow s c hrow]
  cases hop : e.op with
  | load | bank => simp [hop, TileOp.movesNoRow] at hrow
  | mma t a b flip =>
    simp only [Core.setEntry_head hq, TileOp.switches]
    cases flip <;> rfl
  | store | shift | zero | rel | wait => simp only [Core.setEntry_head hq, TileOp.switches]

/-- A row that fails ends the head with nothing moved (R110, R114). -/
theorem exec_tileQueueExecute_rowFault {v : Word} (hcheck : tileCheck s c e = .error (.code 0x0B v)) :
    exec (.tileQueueExecute c .ok) s =
      .next ((endTile s c 0 e (.failed 0x0B v)).setCore c ((endTile s c 0 e (.failed 0x0B v)).core c).syncView) := by
  show Host.Outcome.next (doTileExecute s c .ok) = _
  simp only [doTileExecute, Core.nextTile_head hq hbegun, hsus, reduceCtorEq, if_false, Bool.false_eq_true, Parity.isLost, hcheck, failTile,
    eerrPhase, State.recordEErr]

end

/-! ### The head completes (R109) -/

theorem mayEnd_head {q : List TileEntry} (hbegun : e.begun = true) : mayEnd (e :: q) 0 = true := by
  simp [mayEnd, hbegun]

theorem mayEnd_succ {q : List TileEntry} (hq : ∀ x ∈ q, x.begun = false) (i : Nat) : mayEnd (e :: q) (i + 1) = false := by
  rw [mayEnd, List.getElem?_cons_succ]
  cases h : q[i]? with
  | none => rfl
  | some x => simp [hq x (List.mem_of_getElem? h)]

/-- With nothing behind it begun, the begun head is the one that ends, and no free value chooses it. -/
theorem endingTile_head (s : State) (hbegun : e.begun = true) (hrest : ∀ x ∈ rest, x.begun = false) : endingTile s (e :: rest) = some (0, 0) := by
  have hfilter : (upto (e :: rest).length).filter (mayEnd (e :: rest)) = [0] := by
    rw [upto, List.length_cons, List.range_succ_eq_map, List.filter_cons_of_pos (mayEnd_head hbegun), List.filter_eq_nil_iff.mpr]
    intro i hi
    obtain ⟨j, -, rfl⟩ := List.mem_map.mp hi
    simp [mayEnd_succ hrest]
  rw [endingTile, hfilter]

theorem exec_tileInstructionComplete_of_result (hq : (s.core c).tileQ = e :: rest) (hsus : (s.core c).suspended = false) (hbegun : e.begun = true)
    (hrest : ∀ x ∈ rest, x.begun = false) {s' : State} (hresult : tileResult s c e = .ok s') :
    exec (.tileInstructionComplete c) s = .next (endTile s' c 0 e (.done [])) := by
  show Host.Outcome.next (doTileComplete s c) = _
  have hfree : { s with free := s.free + 0 } = s := rfl
  simp only [doTileComplete, hq, endingTile_head s hbegun hrest, List.getElem?_cons_zero, hsus, hfree, hresult]
  rfl

end

end Sys2Proof.Machine
end

section
/-! SUPPORT. What the instruction that completes leaves in its tile or bank (R109, R118, R119, R123, R125). -/

namespace Sys2Proof.Machine

/-! ### Tiles and banks of a core -/

@[simp] theorem Core.tile_setTile_same (k : Core) (n : Nat) (t : Tile) : (k.setTile n t).tile n = t := FMap.get_set_same _ _ _ _

theorem Core.tile_setTile_other (k : Core) {n j : Nat} (t : Tile) (h : j ≠ n) : (k.setTile n t).tile j = k.tile j :=
  FMap.get_set_other _ _ _ _ _ h

@[simp] theorem Core.bank_setBank_same (k : Core) (n : Nat) (b : Bank) : (k.setBank n b).bank n = b := FMap.get_set_same _ _ _ _

theorem Core.bank_setBank_other (k : Core) {n j : Nat} (b : Bank) (h : j ≠ n) : (k.setBank n b).bank j = k.bank j :=
  FMap.get_set_other _ _ _ _ _ h

@[simp] theorem Core.tile_setBank (k : Core) (n : Nat) (b : Bank) (j : Nat) : (k.setBank n b).tile j = k.tile j := rfl

@[simp] theorem Core.bank_setTile (k : Core) (n : Nat) (t : Tile) (j : Nat) : (k.setTile n t).bank j = k.bank j := rfl

/-! ### `trel` (R126) -/

/-- One step of `trel`: the tile, or from 12 the bank, of a number in the mask is empty. -/
def Core.release (m : BitVec 14) (k : Core) (n : Nat) : Core :=
  if m.getLsbD n then (if n < 12 then k.setTile n Tile.empty else k.setBank (n - 12) Bank.empty) else k

/-- What `trel` leaves. -/
def Core.released (m : BitVec 14) (k : Core) : Core := (upto 14).foldl (Core.release m) k

theorem Core.tile_release_same {m : BitVec 14} {n : Nat} (hn : n < 12) (k : Core) :
    (Core.release m k n).tile n = if m.getLsbD n then Tile.empty else k.tile n := by
  rw [Core.release, if_pos hn]
  split <;> simp

theorem Core.tile_release_other {m : BitVec 14} {n j : Nat} (h : j ≠ n) (k : Core) : (Core.release m k j).tile n = k.tile n := by
  rw [Core.release]
  repeat' split
  · exact Core.tile_setTile_other k _ h.symm
  · exact Core.tile_setBank ..
  · rfl

theorem Core.bank_release_same {m : BitVec 14} (n : Nat) (k : Core) :
    (Core.release m k (12 + n)).bank n = if m.getLsbD (12 + n) then Bank.empty else k.bank n := by
  rw [Core.release, if_neg (show ¬ 12 + n < 12 by omega), Nat.add_sub_cancel_left]
  split <;> simp

theorem Core.bank_release_other {m : BitVec 14} {n j : Nat} (h : j ≠ 12 + n) (k : Core) : (Core.release m k j).bank n = k.bank n := by
  rw [Core.release]
  repeat' split
  · exact Core.bank_setTile ..
  · exact Core.bank_setBank_other k _ (by omega)
  · rfl

/-- A place that one step of `trel` empties, and that the others leave, is as that step leaves it. -/
theorem Core.read_released {γ : Type} {p : Core → γ} {v : γ} {m : BitVec 14} {i : Nat} (hi : i < 14)
    (hsame : ∀ k, p (Core.release m k i) = if m.getLsbD i then v else p k) (hother : ∀ j, j ≠ i → ∀ k, p (Core.release m k j) = p k) (k : Core) :
    p (Core.released m k) = if m.getLsbD i then v else p k := by
  split
  · next hm =>
    refine foldl_of_hit (hit := fun j => j = i) (fun a j _ hj => ?_) (fun a j _ hj => hother j hj a) ⟨i, List.mem_range.mpr hi, rfl⟩ k
    rw [hj, hsame, if_pos hm]
  · next hm =>
    refine foldl_of_miss (fun a j _ => ?_) k
    by_cases hj : j = i
    · rw [hj, hsame, if_neg hm]
    · exact hother j hj a

theorem Core.tile_released (m : BitVec 14) (k : Core) {n : Nat} (hn : n < 12) :
    (Core.released m k).tile n = if m.getLsbD n then Tile.empty else k.tile n :=
  Core.read_released (p := fun k => Core.tile k n) (by omega) (Core.tile_release_same hn) (fun _ hj => Core.tile_release_other hj) k

theorem Core.bank_released (m : BitVec 14) (k : Core) {n : Nat} (hn : n < 2) :
    (Core.released m k).bank n = if m.getLsbD (12 + n) then Bank.empty else k.bank n :=
  Core.read_released (p := fun k => Core.bank k n) (by omega) (Core.bank_release_same n) (fun _ hj => Core.bank_release_other hj) k

/-- `trel` changes the tiles and the banks alone. -/
theorem Core.released_eq (m : BitVec 14) (k : Core) :
    Core.released m k = { k with tiles := (Core.released m k).tiles, banks := (Core.released m k).banks } := by
  refine List.foldlRecOn (motive := fun x : Core => x = { k with tiles := x.tiles, banks := x.banks }) _ _ rfl fun x hx j _ => ?_
  rw [Core.release]
  repeat' split
  · rw [hx]; rfl
  · rw [hx]; rfl
  · exact hx

/-! ### Results (R109) -/

theorem Core.bankShown_shape {k : Core} {b : Nat} (h : (k.bank b).hold = true) : k.bankShown b (k.bank b).shape = k.bank b := by
  rw [Core.bankShown, h]
  simp

section
variable {s : State} {c : Nat} {e : TileEntry}

theorem tileResult_zero {n : Nat} {cfg : BitVec 32} (hop : e.op = .zero n cfg none) (hscl : 8 ≤ n ∨ cfgScl cfg = false) :
    tileResult s c e = .ok (s.setCore c ((s.core c).setTile n ⟨true, [], [], [], none⟩)) := by
  have hno : (decide (n < 8) && cfgScl cfg) = false := by
    obtain h | h := hscl
    · simp [Nat.not_lt.mpr h]
    · simp [h]
  simp only [tileResult, hop, hno, Bool.false_eq_true, if_false]

theorem tileResult_wait (hop : e.op = .wait) : tileResult s c e = .ok s := by
  simp only [tileResult, hop]

theorem tileResult_rel {m : BitVec 14} (hop : e.op = .rel m) : tileResult s c e = .ok (s.setCore c (Core.released m (s.core c))) := by
  simp only [tileResult, hop]
  rfl

/-- A pass over a tile, a bank and an accumulator that all hold contents draws no free value (R123). -/
theorem tileResult_mma {n a b S : Nat} {fl z : Bool} {cfg acfg : BitVec 32}
    (hop : e.op = .mma n a b fl z S cfg acfg ((s.core c).bank b).shape) (hbank : ((s.core c).bank b).hold = true)
    (htile : ((s.core c).tile n).hold = true) (hacc : z = true ∨ ((s.core c).tile (8 + a)).hold = true)
    (hscale : acfgMode acfg = 2 → ((s.core c).tile (8 + a)).scale.isSome = true) :
    let p := passTile ((s.core c).bank b) ((s.core c).tile n) ((s.core c).tile (8 + a)) s.free cfg acfg z S
    tileResult s c e = .ok (s.setCore c { (s.core c).setTile (8 + a) p.1 with sxovf := (s.core c).sxovf || p.2 }) := by
  have hwhole : (((s.core c).bank b).hold && ((s.core c).tile n).hold && (z || ((s.core c).tile (8 + a)).hold) &&
      (decide (acfgMode acfg ≠ 2) || ((s.core c).tile (8 + a)).scale.isSome)) = true := by
    simp only [hbank, htile, Bool.true_and, Bool.and_eq_true, Bool.or_eq_true, decide_eq_true_eq]
    exact ⟨hacc, Classical.or_iff_not_imp_left.mpr fun h => hscale (not_not.mp h)⟩
  simp only [tileResult, hop, Core.bankShown_shape hbank, hwhole, if_true]

/-- A load reads memory as it stands where no agent has written it since the load began (R110, R198). -/
theorem tileResult_load {n : Nat} {col : Bool} {cfg : BitVec 32} {d : Desc} {l0 : Int} {tl : Tile} {els : List Elem}
    (hseen : e.seen = s.mem) (hop : e.op = .load n col cfg d l0)
    (hload : loadTile s e c n col cfg d l0 ((s.core c).tile n) = .ok (tl, els)) :
    tileResult s c e = .ok (s.setCore c (((s.core c).setTile n tl).countOob false (oobCount els))) := by
  simp only [tileResult, hop, hseen, State.mixed_mem, State.mixedFree_mem, hload]
  rfl

end

end Sys2Proof.Machine
end

section
/-! The tile queue and the passes (O26): a lane of an accumulator after a pass, and the obligation's clauses. -/

namespace Sys2Proof.Machine

/-! ### The lanes of a pass (R121, R123) -/

/-- The tile rows that one A row of a pass spans (R121). -/
def passSpan (b : Bank) (cfg : BitVec 32) : Nat := ((arrayMode b.fmt b.planes (cfgFmt cfg)).map (·.2)).getD 1

/-- What a pass leaves in one lane, by its mode, and whether SXOVF is set. -/
def passLane (b : Bank) (t acc : Tile) (fr : Nat) (cfg acfg : BitVec 32) (z : Bool) (S i j : Nat) : BitVec 98 × Bool :=
  let q := if z then 0#98 else acc.lane (fr + 2 ^ 19) i j
  if acfgMode acfg = 2 then passSlice b t fr (acc.record fr) S i j q
  else if acfgMode acfg = 1 then (BitVec.ofNat 98 (passInt b t fr cfg i j (fld q 0 32)), false)
  else if b.fmt = fmtPsi then (BitVec.ofNat 98 (passPsi b t fr cfg (passSpan b cfg) i j (fld q 0 32)), false)
  else (BitVec.ofNat 98 (passFloat b t fr cfg i j (fld q 0 32)), false)

section
variable {b : Bank} {t acc : Tile} {fr S i j : Nat} {cfg acfg : BitVec 32} {z : Bool}

theorem passTile_lanes : (passTile b t acc fr cfg acfg z S).1.lanes =
    ((upto (cfgRows cfg / passSpan b cfg)).flatMap (fun i => (upto b.n).map (fun j => (i * 128 + j, passLane b t acc fr cfg acfg z S i j)))).foldl
      (fun m e => FMap.set 0#98 m e.1 e.2.1) [] := by
  unfold passTile passLane passSpan
  cases arrayMode b.fmt b.planes (cfgFmt cfg) <;> rfl

/-- With at most 128 columns no two lanes share a place. -/
theorem lane_passTile (hi : i < cfgRows cfg / passSpan b cfg) (hj : j < b.n) (hn : b.n ≤ 128) :
    FMap.get 0#98 (passTile b t acc fr cfg acfg z S).1.lanes (i * 128 + j) = (passLane b t acc fr cfg acfg z S i j).1 := by
  rw [passTile_lanes]
  refine foldl_of_hit (p := fun m => FMap.get 0#98 m (i * 128 + j)) (hit := fun e => e.1 = i * 128 + j) (fun m e he hkey => ?_)
    (fun m e _ hkey => FMap.get_set_other _ _ _ _ _ (Ne.symm hkey)) ⟨(i * 128 + j, passLane b t acc fr cfg acfg z S i j), ?_, rfl⟩ []
  · simp only [upto, List.mem_flatMap, List.mem_map, List.mem_range] at he
    obtain ⟨i', -, j', hj', rfl⟩ := he
    obtain ⟨rfl, rfl⟩ : i' = i ∧ j' = j := by omega
    exact FMap.get_set_same ..
  · simp only [upto, List.mem_flatMap, List.mem_map, List.mem_range]
    exact ⟨i, hi, j, hj, rfl⟩

/-- INT8 against INT8 and FP32 against FP32 take one tile row for an A row (R121). -/
theorem passSpan_eq_one {f : Nat} (hf : f = 1 ∨ f = 6) (hfmt : b.fmt = f) (hcfg : cfgFmt cfg = f) : passSpan b cfg = 1 := by
  rw [passSpan, hfmt, hcfg]
  obtain rfl | rfl := hf <;> rfl

/-! ### Operands of a pass -/

theorem Tile.lane_of_hold (h : acc.hold = true) (fr i j : Nat) : acc.lane fr i j = FMap.get 0#98 acc.lanes (i * 128 + j) := if_pos h

theorem Bank.cell_of_hold (h : b.hold = true) (fr k j : Nat) : b.cell fr k j = FMap.get 0#64 b.cells (k * 128 + j) := if_pos h

/-- The 32 bits a pass starts from: zero with Z = 1, else the accumulator's lane (R123). -/
theorem fld_passStart (hacc : z = true ∨ acc.hold = true) (fr i j : Nat) :
    fld (if z then 0#98 else acc.lane fr i j) 0 32 = if z then 0 else fld (FMap.get 0#98 acc.lanes (i * 128 + j)) 0 32 := by
  cases z with
  | true => rfl
  | false => rw [if_neg Bool.false_ne_true, if_neg Bool.false_ne_true, Tile.lane_of_hold (hacc.resolve_left Bool.false_ne_true)]

/-- Where one A row takes one tile row, its elements lie there in order (R121). -/
theorem aPlace_one {k : Nat} (hk : k < cfgRbytes cfg / (fmtBits (cfgFmt cfg) / 8)) : aPlace cfg 1 i k = (i, k) := by
  simp only [aPlace, Nat.mul_one, Nat.div_eq_of_lt hk, Nat.mod_eq_of_lt hk, Nat.add_zero]

theorem Tile.elem_of_hold (h : t.hold = true) (fr eb r x : Nat) :
    t.elem fr eb r x = leNat ((List.range eb).map (fun q => FMap.get 0#8 t.bytes (r * 256 + (x * eb + q)))) := by
  have hbyte : ∀ q, BitVec.ofNat 8 (t.byteAt fr (r * 256 + x * eb + q)) = FMap.get 0#8 t.bytes (r * 256 + (x * eb + q)) := fun q => by
    rw [Tile.byteAt, if_pos h, BitVec.ofNat_toNat, BitVec.setWidth_eq, Nat.add_assoc]
  simp only [Tile.elem, upto, hbyte]

theorem Tile.elem_byte (h : t.hold = true) (fr r x : Nat) : t.elem fr 1 r x = (FMap.get 0#8 t.bytes (r * 256 + x)).toNat := by
  simp [Tile.elem_of_hold h, leNat]

/-! ### The products of a lane (R86, R87) -/

theorem sumInt_eq_sum (l : List Int) : sumInt l = l.sum := List.sum_eq_foldl.symm

theorem foldl_add_eq_sumInt {α : Type} (f : α → Int) (l : List α) (v : Int) : l.foldl (fun a k => a + f k) v = v + sumInt (l.map f) := by
  rw [sumInt_eq_sum]
  induction l generalizing v with
  | nil => exact (Int.add_zero v).symm
  | cons x l ih => rw [List.foldl_cons, ih, List.map_cons, List.sum_cons, Int.add_assoc]

/-- INT32 mode: the exact sum of the products, modulo 2^32. -/
theorem passInt_eq (hbank : b.hold = true) (htile : t.hold = true) (hcfg : cfgFmt cfg = 1) (hk : b.k ≤ cfgRbytes cfg) (v : Nat) :
    passInt b t fr cfg i j v = (((v : Int) + sumInt ((List.range b.k).map (fun k =>
      sextNat (FMap.get 0#8 t.bytes (i * 256 + k)).toNat 8 * sextNat (FMap.get 0#64 b.cells (k * 128 + j)).toNat 8))) % 2 ^ 32).toNat := by
  rw [← foldl_add_eq_sumInt, passInt, upto]
  congr 2
  refine List.foldl_ext _ _ _ fun a k hmem => ?_
  have hplace : aPlace cfg 1 i k = (i, k) :=
    aPlace_one (by rw [hcfg]; exact Nat.lt_of_lt_of_le (List.mem_range.mp hmem) (by simpa [fmtBits] using hk))
  simp only [hplace, Tile.elem_byte htile, Bank.cell_of_hold hbank]

/-- FP32 mode: one rounded addition per product, in ascending k. -/
theorem passFloat_eq (hbank : b.hold = true) (htile : t.hold = true) (hfmt : b.fmt = 6) (hcfg : cfgFmt cfg = 6) (hk : 4 * b.k ≤ cfgRbytes cfg)
    (v : Nat) : passFloat b t fr cfg i j v = (List.range b.k).foldl (fun v k =>
      addLane v ((binary32.dec (leNat ((List.range 4).map (fun q => FMap.get 0#8 t.bytes (i * 256 + (k * 4 + q)))))).mul
        (binary32.dec (FMap.get 0#64 b.cells (k * 128 + j)).toNat))) v := by
  rw [passFloat, upto]
  refine List.foldl_ext _ _ _ fun v k hmem => ?_
  have hkb : k < b.k := List.mem_range.mp hmem
  have hwidth : fmtBits 6 / 8 = 4 := rfl
  have hplace : aPlace cfg 1 i k = (i, k) := aPlace_one (by rw [hcfg, hwidth]; omega)
  simp only [hplace, hfmt, hcfg, hwidth, Tile.elem_of_hold htile, Bank.cell_of_hold hbank]
  rfl

end

/-! ### The clauses -/

/-- The head completes with a result that changes its core alone. -/
theorem exec_tileInstructionComplete_setCore {s : State} {c : Nat} {e : TileEntry} {rest : List TileEntry} {ia : Word} {k' : Core}
    (hq : (s.core c).tileQ = e :: rest) (hsus : (s.core c).suspended = false)
    (hops : ((s.thread e.g).ticket e.tk).ops = [⟨.tile .waiting, ia, []⟩]) (hbegun : e.begun = true) (hrest : ∀ x ∈ rest, x.begun = false)
    (hresult : tileResult s c e = .ok (s.setCore c k')) (hq' : k'.tileQ = (s.core c).tileQ) :
    exec (.tileInstructionComplete c) s = .next ((s.setCore c { k' with tileQ := rest }).setThread e.g
      ((s.thread e.g).setTicket e.tk ⟨[⟨.tile (.done []), ia, []⟩], ((s.thread e.g).ticket e.tk).fault⟩)) := by
  rw [exec_tileInstructionComplete_of_result hq hsus hbegun hrest hresult, endTile_setCore (hq'.trans hq) hops]

/-- Settles O26: the head of the queue by its instruction, and a lane of a pass by its mode. -/
theorem tileQueueAndPasses : Obligations.TileQueueAndPasses := by
  unfold Obligations.TileQueueAndPasses
  refine ⟨?_, ?_⟩
  · intro s c e rest ia k t begins ended ends hq hsus hops
    refine ⟨fun hbegun => ?_, fun hbegun hrest hseen => ?_, fun n q hvec => ?_⟩
    · have hbegins {o : TileOp} (hop : e.op = o) (hrow : o.movesNoRow = true) : begins (o.switches k) := by
        subst hop
        exact exec_tileQueueExecute_begins hq hsus hbegun hrow
      refine ⟨fun a n f z cfg sh hop => hbegins hop rfl, fun n cfg hop => hbegins hop rfl, fun m hop => hbegins hop rfl, fun hop => hbegins hop rfl,
        fun n a b fl z S cfg acfg sh hop => hbegins hop rfl, fun n cfg d l0 v _ hcheck => ?_⟩
      · intro s'
        rw [exec_tileQueueExecute_rowFault hq hsus hbegun hcheck, endTile_head hq hops]
    · have hends {k' : Core} (hresult : tileResult s c e = .ok (s.setCore c k')) (hq' : k'.tileQ = k.tileQ) : ends k' :=
        exec_tileInstructionComplete_setCore hq hsus hops hbegun hrest hresult hq'
      refine ⟨fun n cfg hop hscl => hends (tileResult_zero hop hscl) rfl, fun hop => ?_, fun m hop => ?_,
        fun n a b fl z S cfg acfg hop hbank htile hacc hscale => hends (tileResult_mma hop hbank htile hacc hscale) rfl,
        fun n col cfg d l0 tl els hop hload => hends (tileResult_load hseen hop hload) rfl⟩
      · show exec _ _ = _
        rw [exec_tileInstructionComplete_of_result hq hsus hbegun hrest (tileResult_wait hop), endTile_head hq hops]
      · have heq := Core.released_eq m k
        exact ⟨Core.released m k, hends (tileResult_rel hop) (by rw [heq]), fun n => Core.tile_released m k, fun n => Core.bank_released m k, heq⟩
    · show Host.Outcome.next (startVec s c) = _
      rw [startVec, hvec]
      rfl
  · intro b t acc fr S i j cfg acfg z lane old hbank htile hacc hi hj hn
    have hlane (hspan : passSpan b cfg = 1) : lane = (passLane b t acc fr cfg acfg z S i j).1 :=
      lane_passTile (by rwa [hspan, Nat.div_one]) hj hn
    have hstart := fld_passStart hacc (fr + 2 ^ 19) i j
    refine ⟨fun hfmt hcfg hmode hk => ?_, fun hfmt hcfg hmode hk => ?_⟩
    · rw [hlane (passSpan_eq_one (.inl rfl) hfmt hcfg)]
      simp only [passLane, hmode, hstart, passInt_eq hbank htile hcfg hk]
      rfl
    · have hpsi : b.fmt ≠ fmtPsi := by rw [hfmt]; decide
      rw [hlane (passSpan_eq_one (.inr rfl) hfmt hcfg)]
      simp only [passLane, hmode, hpsi, hstart, passFloat_eq hbank htile hfmt hcfg hk]
      rfl

end Sys2Proof.Machine
end

section
/-! Tile instructions at issue (O9). -/

namespace Sys2Proof.Machine

section
variable {s : State} {g : Nat} {w : Word}

/-! ### Queued with its ticket (R102, R108) -/

/-- A tile instruction whose body queues it on a core that keeps its backlog of the vector datapath. -/
theorem leaves_of_queueTile {o : Op} {k' : Core} {op : TileOp} (hvec : k'.vecQ = (s.core (coreOf g)).vecQ)
    (hbody : bodyOf o (longCtx s g w false) = queueTile (longCtx s g w false) k' op) :
    Leaves s g w o (instrOf o g w)
      (s.setCore (coreOf g) { k' with tileQ := k'.tileQ ++ [⟨g, (longFields w).tk, (s.now g).estat.prv, op, false, []⟩] })
      ((s.now g).addOp (longFields w).tk ⟨.tile .waiting, (s.now g).pc, []⟩) .seq :=
  leaves_of_body_state (by rw [State.core_setCore_same]; exact hvec) fun _ => hbody

section
variable (ht : (s.now g).ticketIdle (longFields w).tk) {k : Core} (hk : s.core (coreOf g) = k) {n : Nat} (hn : (longFields w).x24 = n)
include ht hk

/-! ### Loads and stores through a descriptor (R112, R113, R116, R117, R125, R173, R185) -/

section
variable {d : Desc} {v : Int} (hdtag : ((s.now g).reg (longFields w).rs1).tag = .desc) (hvtag : ((s.now g).reg (longFields w).rs2).tag = .int)
  (hdesc : s.handleDesc (coreOf g) (s.now g).estat.prv ((s.now g).reg (longFields w).rs1).val = some d)
  (hv : ((s.now g).reg (longFields w).rs2).val.toInt = v)

omit hk in
include hdtag hvtag hdesc hv in
/-- An instruction whose shape, descriptor and registers pass their checks goes on with the descriptor and its first element. -/
theorem withDesc_ok {shape : Option Cond} {check : Desc → Option Nat} {go : Desc → Int → Res} {extra : List (Nat × Accept)}
    (hextra : ∀ e ∈ extra, (s.now g).accepts e) (hshape : shape = none) (hcheck : check d = none) :
    withDesc (longCtx s g w false) shape check go extra = go d v := by
  have hsrcs : ∀ e ∈ [((longFields w).rs1, [Tag.desc]), ((longFields w).rs2, [.int])] ++ extra, (s.now g).accepts e := by
    simp only [List.cons_append, List.nil_append, List.forall_mem_cons]
    exact ⟨Thread.accepts_of_lt (rs1_lt w) (by simp [hdtag]), Thread.accepts_of_lt (rs2_lt w) (by simp [hvtag]), hextra⟩
  have hfirst : firstCond [(longCtx s g w false).checkTicketed ([((longFields w).rs1, [.desc]), ((longFields w).rs2, [.int])] ++ extra) [], shape] = none :=
    firstCond_none (List.forall_mem_cons.mpr ⟨checkTicketed_none hsrcs (List.forall_mem_nil _) ht, List.forall_mem_singleton.mpr hshape⟩)
  simp only [withDesc, longCtx_f, longCtx_th, longCtx_s, longCtx_g, hfirst, hdesc, hcheck, hv]

section
variable (hrows : cfgRows (k.cfg n) ≠ 0)
include hn hdtag hvtag hdesc hv hrows

/-- A load of an operand tile: the format fits, and the blocks of its scales lie along one dimension. -/
theorem tldBody_operand {col : Bool} (hoperand : n < 8) (hfmt : loadFmtOk d.fmt (cfgFmt (k.cfg n)) = true)
    (hblocks : cfgScl (k.cfg n) = true → blockFieldsBad d (if col then d.rowLen else 1)
      (min 32 (min (tileElems n (k.cfg n)) (if col then d.tot / d.rowLen else d.rowLen))) = false) :
    tldBody col (longCtx s g w false) = queueTile (longCtx s g w false) (setEmptyView k n false) (.load n col (k.cfg n) d v) := by
  simp only [tldBody, longCtx_f, longCtx_s, longCtx_g, hk, hn, decide_eq_false (Nat.not_le.mpr hoperand), Bool.false_and, Bool.or_false]
  refine withDesc_ok ht hdtag hvtag hdesc hv (List.forall_mem_nil _) (condIf_false (decide_eq_false hrows) _) ?_
  cases hscl : cfgScl (k.cfg n) with
  | false => simp [hfmt]
  | true => simp [hfmt, hblocks hscl]

/-- A load of an accumulator: the descriptor has the raw form of the accumulator's mode, and SX96 holds a scale record. -/
theorem tldBody_accumulator (hacc : 8 ≤ n) (hfmt : d.fmt = rawForm (acfgMode (k.cfg n)))
    (hscaled : acfgMode (k.cfg n) = 2 → bitAt k.vScaled (n - 8) = true) :
    tldBody false (longCtx s g w false) = queueTile (longCtx s g w false) (setEmptyView k n false) (.load n false (k.cfg n) d v) := by
  simp only [tldBody, longCtx_f, longCtx_s, longCtx_g, hk, hn, decide_eq_true hacc, Bool.true_and]
  refine withDesc_ok ht hdtag hvtag hdesc hv (List.forall_mem_nil _) (condIf_false ?_ _) ?_
  · by_cases hmode : acfgMode (k.cfg n) = 2
    · simp [hrows, hscaled hmode]
    · simp [hrows, hmode]
  · simp [hfmt]

/-- A store of a tile that the view shows filled, through a writable descriptor of its format. -/
theorem tstBody_ok (hfull : isEmptyView k n = false) (hro : d.ro = false)
    (hfmt : d.fmt = if n < 8 then cfgFmt (k.cfg n) else acfgOfmt (k.cfg n)) (hofmt : 8 ≤ n → acfgOfmt (k.cfg n) ≠ 0) :
    tstBody (longCtx s g w false) = queueTile (longCtx s g w false) k (.store n (k.cfg n) d v) := by
  simp only [tstBody, longCtx_f, longCtx_s, longCtx_g, hk, hn]
  refine withDesc_ok ht hdtag hvtag hdesc hv (List.forall_mem_nil _) (condIf_false ?_ _) ?_
  · by_cases hacc : 8 ≤ n
    · simp [hrows, hfull, hacc, hofmt hacc]
    · simp [hrows, hfull, hacc]
  · by_cases hacc : 8 ≤ n
    · simp [hro, hfmt, hacc, Nat.not_lt.mpr hacc]
    · simp [hro, hfmt, hacc, Nat.not_le.mp hacc]

end

include hn hdtag hvtag hdesc hv in
/-- A load of the shadow bank in the shape that its word states. -/
theorem tsbBody_ok {sw : Word} {h : BankShape} (hsw : ((s.now g).reg (longFields w).rs3).val = sw)
    (hstag : ((s.now g).reg (longFields w).rs3).tag = .int) (hshape : bankShapeOf sw = some h)
    (hpsi : h.fmt = fmtPsi → d.fmt = fmtPsi ∧ h.planes ≤ d.pm1 + 1 ∧ blockFieldsBad d (if bitAt sw 31 then 1 else d.rowLen)
      (min 32 (min h.k (if bitAt sw 31 then d.rowLen else d.tot / d.rowLen))) = false)
    (hfmt : h.fmt ≠ fmtPsi → loadFmtOk d.fmt h.fmt = true) :
    tsbBody (longCtx s g w false) = queueTile (longCtx s g w false)
      { setEmptyView k (12 + k.viewShadow) false with vBanks := FMap.set BankShape.none k.vBanks k.viewShadow h }
      (.bank k.viewShadow (decide (n = k.viewActive)) h (bitAt sw 31) d v) := by
  have hextra : (s.now g).accepts ((longFields w).rs3, [.int]) := Thread.accepts_of_lt (rs3_lt w) (by simp [hstag])
  simp only [tsbBody, longCtx_f, longCtx_th, longCtx_s, longCtx_g, hk, hn, hsw, hshape]
  refine withDesc_ok ht hdtag hvtag hdesc hv (List.forall_mem_singleton.mpr hextra) rfl ?_
  by_cases hp : h.fmt = fmtPsi
  · obtain ⟨hd, hplanes, hblocks⟩ := hpsi hp
    rw [if_pos hp, if_neg (not_not_intro hd), hblocks, if_neg Bool.false_ne_true, if_neg (Nat.not_lt.mpr hplanes)]
  · rw [if_neg hp, if_pos (hfmt hp)]

end

/-! ### Instructions without a descriptor (R118-R122, R127) -/

omit hk in
theorem checkTicketed_noRegs : (longCtx s g w false).checkTicketed [] [] = none :=
  checkTicketed_none (List.forall_mem_nil _) (List.forall_mem_nil _) ht

omit hk in
/-- The checks of an instruction that names no register and passes its own. -/
theorem firstCond_noRegs {shape : Option Cond} (hshape : shape = none) :
    firstCond [(longCtx s g w false).checkTicketed [] [], shape] = none :=
  firstCond_none (List.forall_mem_cons.mpr ⟨checkTicketed_noRegs ht, List.forall_mem_singleton.mpr hshape⟩)

section
variable {x : Nat} (hx : (longFields w).x24 = x)
include hx

/-- A shift of a filled active bank that is not PSI, by less than its K, with zeros or with a fill tile of its width. -/
theorem tshiftBody_ok {q fill : Nat} {h : BankShape} (hq : x % 256 = q) (hfill : x / 256 % 8 = fill) (hh : k.shape k.viewActive = h)
    (hfull : isEmptyView k (12 + k.viewActive) = false) (hfmt : h.fmt ≠ fmtPsi) (hlo : 1 ≤ q) (hhi : q ≤ h.k - 1)
    (hrows : x / 2048 % 2 = 1 ∨ (isEmptyView k fill = false ∧ fillMatches (k.cfg fill) h = true)) :
    tshiftBody (longCtx s g w false) = queueTile (longCtx s g w false)
      { setEmptyView k (12 + k.viewShadow) false with vBanks := FMap.set BankShape.none k.vBanks k.viewShadow h }
      (.shift k.viewActive q fill (decide (x / 2048 % 2 = 1)) (k.cfg fill) h) := by
  have hrange : ¬ (q < 1 ∨ q > h.k - 1) := by omega
  have hfills : (!decide (x / 2048 % 2 = 1) && (isEmptyView k fill || !fillMatches (k.cfg fill) h)) = false := by
    rcases hrows with hzero | ⟨hfilled, hmatches⟩
    · simp [hzero]
    · simp [hfilled, hmatches]
  simp only [tshiftBody, longCtx_f, longCtx_s, longCtx_g, hk, hx, hq, hfill, hh, hfull, hfmt, hrange, hfills, Bool.false_eq_true, if_false,
    firstCond_noRegs ht rfl]

/-- A pass whose tile, bank and accumulator form a mode. -/
theorem tmmaBody_ok {n a bank sl : Nat} {flip z : Bool} (hn : x % 8 = n) (hflip : decide (x / 256 % 2 = 1) = flip) (ha : x / 16 % 4 = a)
    (hz : decide (x / 512 % 2 = 1) = z) (hsl : x / 4096 % 4 = sl) (hbank : (if flip then k.viewShadow else k.viewActive) = bank)
    (hcheck : tmmaCheck k n a bank z sl = none) :
    tmmaBody (longCtx s g w false) = queueTile (longCtx s g w false)
      { setEmptyView k (8 + a) false with vAct := if flip then !k.vAct else k.vAct }
      (.mma n a bank flip z (7 - sl) (k.cfg n) (k.cfg (8 + a)) (k.shape bank)) := by
  simp only [tmmaBody, longCtx_f, longCtx_s, longCtx_g, hk, hx, hn, hflip, ha, hz, hsl, hbank, firstCond_noRegs ht hcheck]

end

section
variable (hrows : cfgRows (k.cfg n) ≠ 0)
include hn hrows

/-- The clearing of a tile that takes no scale record. -/
theorem tzeroBody_unscaled (hsx : ¬(8 ≤ n ∧ acfgMode (k.cfg n) = 2)) (hrs1 : (longFields w).rs1 = 0) :
    tzeroBody (longCtx s g w false) = queueTile (longCtx s g w false) (setEmptyView k n false) (.zero n (k.cfg n) none) := by
  have hplain : (decide (n ≥ 8) && decide (acfgMode (k.cfg n) = 2)) = false := by simpa using hsx
  have hchecks {cd ce : Cond} : firstCond [(longCtx s g w false).checkTicketed [] [], none, condIf false cd, condIf false ce] = none := by
    rw [checkTicketed_noRegs ht]
    rfl
  simp only [tzeroBody, longCtx_f, longCtx_th, longCtx_s, longCtx_g, hk, hn, hplain, hrs1, hrows, decide_false, Bool.not_false, ne_eq, not_true_eq_false,
    Bool.and_false, Bool.false_and, Bool.false_eq_true, if_false, hchecks]

/-- The clearing of an SX96 accumulator, with the address of its scale record. -/
theorem tzeroBody_scaled {va : Word} (hacc : 8 ≤ n) (hmode : acfgMode (k.cfg n) = 2) (hva : ((s.now g).reg (longFields w).rs1).val = va)
    (htag : ((s.now g).reg (longFields w).rs1).tag = .ptr) (h16 : va.toNat % 16 = 0) (hctl : (s.now g).estat.prv = 3 ∨ ctlHit va 384 = none) :
    tzeroBody (longCtx s g w false) = queueTile (longCtx s g w false)
      { setEmptyView k n false with vScaled := k.vScaled ||| BitVec.ofNat 4 (2 ^ (n - 8)) } (.zero n (k.cfg n) (some va)) := by
  have hsx : (decide (n ≥ 8) && decide (acfgMode (k.cfg n) = 2)) = true := by simp [hacc, hmode]
  have hchecks {cd ce : Cond} : firstCond [(longCtx s g w false).checkTicketed [((longFields w).rs1, [.ptr])] [],
      privAddrCheck s g (s.now g) .tzero va 384, condIf false cd, condIf false ce] = none := by
    have hsrcs : ∀ e ∈ [((longFields w).rs1, [Tag.ptr])], (s.now g).accepts e :=
      List.forall_mem_singleton.mpr (Thread.accepts_of_lt (rs1_lt w) (by simp [htag]))
    have hpriv : privAddrCheck s g (s.now g) .tzero va 384 = none := privAddrCheck_none hctl nofun
    rw [checkTicketed_none hsrcs (List.forall_mem_nil _) ht, hpriv]
    rfl
  simp only [tzeroBody, longCtx_f, longCtx_th, longCtx_s, longCtx_g, hk, hn, hsx, hva, h16, hrows, decide_false, Bool.not_true, ne_eq, not_true_eq_false,
    Bool.and_false, Bool.false_and, Bool.false_eq_true, if_true, if_false, hchecks]
  rfl

end

include hn in
theorem trelBody_ok : trelBody (longCtx s g w false) = queueTile (longCtx s g w false)
    { k with vEmpty := k.vEmpty ||| BitVec.ofNat 14 n, vScaled := k.vScaled &&& ~~~(BitVec.ofNat 4 (n / 256)) } (.rel (BitVec.ofNat 14 n)) := by
  simp only [trelBody, longCtx_f, longCtx_s, longCtx_g, hk, hn, checkTicketed_noRegs ht]

theorem twaitBody_ok : twaitBody (longCtx s g w false) = queueTile (longCtx s g w false) k .wait := by
  simp only [twaitBody, longCtx_s, longCtx_g, hk, checkTicketed_noRegs ht]

end

end

/-- Settles O9: each instruction by its body, whose checks the hypotheses meet, and which queues it on its core. -/
theorem tileIssue : Obligations.TileIssue := by
  unfold Obligations.TileIssue
  intro s g w d t f c k n cfg l0 act sh queued ht
  refine ⟨fun hdtag hvtag hdesc => ⟨fun hrows hoperand hfmt => ⟨fun hblocks => ?_, fun hblocks => ?_⟩, fun hrows hacc hfmt hscaled => ?_,
    fun hrows hfull hro hfmt hofmt => ?_, fun h hstag hshape hpsi hfmt => ?_⟩, fun hfull hfmt hlo hhi hfill => ?_, fun flip hflip hcheck => ?_,
    fun hrows hsx hrs1 => ?_, fun hrows hacc hmode htag h16 hctl => ?_, ?_, ?_⟩
  · exact leaves_of_queueTile (o := .tld) rfl (tldBody_operand ht rfl rfl hdtag hvtag hdesc rfl hrows hoperand hfmt hblocks)
  · exact leaves_of_queueTile (o := .tldc) rfl (tldBody_operand ht rfl rfl hdtag hvtag hdesc rfl hrows hoperand hfmt hblocks)
  · exact leaves_of_queueTile (o := .tld) rfl (tldBody_accumulator ht rfl rfl hdtag hvtag hdesc rfl hrows hacc hfmt hscaled)
  · exact leaves_of_queueTile (o := .tst) rfl (tstBody_ok ht rfl rfl hdtag hvtag hdesc rfl hrows hfull hro hfmt hofmt)
  · exact leaves_of_queueTile (o := .tsb) rfl (tsbBody_ok ht rfl rfl hdtag hvtag hdesc rfl rfl hstag hshape hpsi hfmt)
  · exact leaves_of_queueTile (o := .tshift) rfl (tshiftBody_ok ht rfl rfl rfl rfl rfl hfull hfmt hlo hhi hfill)
  · exact leaves_of_queueTile (o := .tmma) rfl (tmmaBody_ok ht rfl rfl rfl hflip.symm rfl rfl rfl rfl hcheck)
  · exact leaves_of_queueTile (o := .tzero) rfl (tzeroBody_unscaled ht rfl rfl hrows hsx hrs1)
  · exact leaves_of_queueTile (o := .tzero) rfl (tzeroBody_scaled ht rfl rfl hrows hacc hmode rfl htag h16 hctl)
  · exact leaves_of_queueTile (o := .trel) rfl (trelBody_ok ht rfl rfl)
  · exact leaves_of_queueTile (o := .twait) rfl (twaitBody_ok ht rfl)

end Sys2Proof.Machine
end

section
/-! Vector arithmetic at issue (O10): the checks of a vector operation, its pumps, and its result. -/

namespace Sys2Proof.Machine

/-! ### The checks of a vector operation (R27, R137, R138) -/

theorem isVCode_codeV {v : Nat} (h : v < 32) : isVCode (codeV v) = true := by
  have hcode : 0x40 ≤ codeV v ∧ codeV v < 0x60 := by
    unfold codeV
    omega
  simp [isVCode, hcode]

theorem isVCode_of_mem_groupCodes {d n c : Nat} (h : c ∈ groupCodes d n) : isVCode c = true := by
  obtain ⟨v, hv, rfl⟩ := List.mem_map.mp h
  exact isVCode_codeV (of_decide_eq_true (List.mem_filter.mp hv).2)

theorem isVCode_of_mem_srcs {f : Fields} {n c : Nat} (h : c ∈ (vecRegs f n).srcs) : isVCode c = true := by
  have hcodes : ∀ l ∈ (vOperands f n).ops.map (fun o => groupCodes o.1 o.2), c ∈ l → isVCode c = true := by
    intro l hl hc
    obtain ⟨o, -, rfl⟩ := List.mem_map.mp hl
    exact isVCode_of_mem_groupCodes hc
  unfold vecRegs at h
  dsimp only at h
  split at h
  · obtain ⟨l, hl, hc⟩ := List.mem_flatten.mp h
    exact hcodes l (List.mem_of_mem_drop hl) hc
  · obtain ⟨l, hl, hc⟩ := List.mem_flatten.mp h
    exact hcodes l hl hc

/-- Registers that are ready and, but for vector registers, hold a tag that their operand accepts, pass both steps of R27. -/
theorem Thread.checkRegs_ready {t : Thread} {srcs : List (Nat × Accept)} {codes dsts : List Nat} (hsrcs : ∀ e ∈ srcs, t.accepts e)
    (hvec : ∀ c ∈ codes, isVCode c = true) (hcodes : ∀ c ∈ codes, t.isPend c = false) (hdsts : ∀ c ∈ dsts, t.isPend c = false) :
    t.checkRegs (srcs ++ codes.map (fun c => (c, anyTag))) dsts = none := by
  refine checkRegs_none _ _ _ (fun c hc => ?_) ?_
  · simp only [List.map_append, List.map_map, List.mem_append, List.mem_map, Function.comp_apply, exists_eq_right] at hc
    rcases hc with (⟨e, he, rfl⟩ | hc) | hc
    · obtain ⟨hscalar, hpend, htag⟩ := hsrcs e he
      exact not_pend_of t e.1 hscalar fun h => hpend (h ▸ htag)
    · exact hcodes c hc
    · exact hdsts c hc
  · induction srcs with
    | nil =>
      induction codes with
      | nil => rfl
      | cons c l ih =>
        have hrest := ih (fun x hx => hvec x (by simp [hx])) fun x hx => hcodes x (by simp [hx])
        simp only [List.nil_append] at hrest ⊢
        simp only [Thread.checkTags, List.map_cons, firstSome, hvec c (by simp), Bool.true_or, if_true]
        exact hrest
    | cons e l ih =>
      exact checkTags_cons t e.1 e.2 _ (hsrcs e (by simp)).2.2 (ih fun x hx => hsrcs x (by simp [hx]))

/-- A vector operation that is listed, whose registers are ready and whose groups meet R138. -/
theorem vecRes_ok {w : Word} {f : Fields} {t : Thread} {srcs : List (Nat × Accept)} {dsts : List Nat} {ws : List (Nat × TReg × VReg × Nat)}
    {fl : FFlags} (hfields : fieldsLegal f = true) (hlegal : vecLegal f = true) (hgroup : groupCheck f t.vgrp (vOperands f t.vgrp) = none)
    (hready : ∀ r ∈ (vecRegs f t.vgrp).srcs ++ (vecRegs f t.vgrp).dsts, t.isPend r = false) (hsrcs : ∀ e ∈ srcs, t.accepts e)
    (hdsts : ∀ c ∈ dsts, t.isPend c = false) : vecRes w f t srcs dsts ws fl =
      ⟨none, ws, fl, pumpsOf f (vOperands f t.vgrp), ((vOperands f t.vgrp).ops.headD (0, 0)).1⟩ := by
  have hregs : t.checkRegs (srcs ++ (vecRegs f t.vgrp).srcs.map (fun c => (c, anyTag))) (dsts ++ (vecRegs f t.vgrp).dsts) = none :=
    Thread.checkRegs_ready hsrcs (fun c hc => isVCode_of_mem_srcs hc) (fun c hc => hready c (List.mem_append_left _ hc)) fun c hc => by
      rcases List.mem_append.mp hc with hc | hc
      · exact hdsts c hc
      · exact hready c (List.mem_append_right _ hc)
  simp only [vecRes, guardLegal, hfields, hlegal, hregs, hgroup, Bool.and_self, if_true, minCond]

/-! ### Pumps (R139-R141) -/

theorem State.backlog_pushPumps (s : State) (g p : Nat) :
    ((s.pushPumps g [p]).core (coreOf g)).backlog = (s.core (coreOf g)).backlog + p := by
  by_cases hp : p = 0
  · simp [State.pushPumps, hp]
  · simp [State.pushPumps, hp, Core.backlog]

section
variable {s : State} {g : Nat} {w : Word}

/-- A word whose body completes and leaves no more than 24 pumps waiting. -/
theorem leaves_of_body_room {s' : State} {o : Op} {t' : Thread} {flow : Next} (hroom : (s'.core (coreOf g)).backlog ≤ 24)
    (hb : Issues s g w o → bodyOf o (longCtx s g w false) = .ok s' t' flow) : Leaves s g w o (instrOf o g w) s' t' flow := by
  intro h
  have hhas : s.hasRoom s' (coreOf g) = true := by simp [State.hasRoom, hroom]
  rw [exec_instrOf, issueRow_long h, hb h]
  simp only [finish, longCtx_g, longCtx_s, hhas, if_true]
  rfl

/-- A vector operation whose checks pass queues its pumps on its core and its results eight slots on. -/
theorem leaves_vector {o : Op} {fb : FBody} {srcs : List (Nat × Accept)} {dsts : List Nat} {ws : List (Nat × TReg × VReg × Nat)} {fl : FFlags}
    {pumps : Nat} (hbody : bodyOf o = fixedBody fb)
    (hfb : Issues s g w o → fb w (longFields w) (s.now g) = vecRes w (longFields w) (s.now g) srcs dsts ws fl)
    (hpumps : Issues s g w o → pumpsOf (longFields w) (vOperands (longFields w) (s.now g).vgrp) = pumps)
    (hlegal : vecLegal (longFields w) = true)
    (hgroup : groupCheck (longFields w) (s.now g).vgrp (vOperands (longFields w) (s.now g).vgrp) = none)
    (hready : ∀ r ∈ (vecRegs (longFields w) (s.now g).vgrp).srcs ++ (vecRegs (longFields w) (s.now g).vgrp).dsts, (s.now g).isPend r = false)
    (hroom : (s.core (coreOf g)).backlog + pumps ≤ 24)
    (hsrcs : ∀ e ∈ srcs, (s.now g).accepts e) (hdsts : ∀ c ∈ dsts, (s.now g).isPend c = false) :
    Leaves s g w o (instrOf o g w) (s.pushPumps g [pumps]) (((s.now g).queueFixed ws).orFlags fl) .seq := by
  refine leaves_of_body_room (by rwa [State.backlog_pushPumps]) fun h => ?_
  rw [hbody, fixedBody, longCtx_w, longCtx_f, longCtx_th, hfb h, vecRes_ok h.legal hlegal hgroup hready hsrcs hdsts, FixedOp.res, hpumps h]
  rfl

end

/-! ### Results (R145-R147) -/

/-- Lanes that raise no flag. -/
theorem orAll_of_quiet {l : List (Nat × FFlags)} (h : ∀ e ∈ l, e.2 = 0) : orAll l = 0 := by
  unfold orAll
  exact foldl_of_miss (p := id) (fun a e he => by rw [h e he]; exact BitVec.or_zero) 0

section
variable (w : Word) {f : Fields} (t : Thread)

theorem vaddF_lanes (hvf : vfOf f ≠ vxFormat) : vaddF w f t = vLanewise w f t := if_neg hvf

theorem vaddF_vx (hvf : vfOf f = vxFormat) :
    vaddF w f t = vecRes w f t [] [] (vWrites f.rd 4 (vxAdd (groupNat t f.rs1 4) (groupNat t f.rs2 4))) 0 := if_pos hvf

theorem vbcastF_int (hint : vfIsInt (vfOf f) = true) :
    vbcastF w f t = vecRes w f t [(f.rs1, [.int])] [] (vWrites f.rd t.vgrp (packLanes (vfWidth (vfOf f))
      (List.replicate (t.vgrp * 2048 / vfWidth (vfOf f)) ((t.reg f.rs1).val.toNat % 2 ^ vfWidth (vfOf f))))) 0 := by
  simp only [vbcastF, hint, if_true]

theorem vbcastF_float (hint : vfIsInt (vfOf f) = false) :
    let r := fCvt binary64 (vfFloat (vfOf f)) t.rm false (t.ftz && decide (vfOf f = 9)) (t.reg f.rs1).val.toNat
    vbcastF w f t = vecRes w f t [(f.rs1, [.fp64])] [] (vWrites f.rd t.vgrp (packLanes (vfWidth (vfOf f))
      (List.replicate (t.vgrp * 2048 / vfWidth (vfOf f)) r.code))) r.flags := by
  simp only [vbcastF, hint, Bool.false_eq_true, if_false]

theorem vmulwF_int (hint : vfIsInt (vfOf f) = true) :
    vmulwF w f t = vecRes w f t [] [] (vWrites f.rd (2 * t.vgrp) (packLanes (2 * vfWidth (vfOf f))
      ((List.range (t.vgrp * 2048 / vfWidth (vfOf f))).map fun i =>
        let x := laneOf (groupNat t f.rs1 t.vgrp) (vfWidth (vfOf f)) i
        let y := laneOf (groupNat t f.rs2 t.vgrp) (vfWidth (vfOf f)) i
        if vfnOf f = 1 then x * y
        else ((sextNat x (vfWidth (vfOf f)) * sextNat y (vfWidth (vfOf f))) % 2 ^ (2 * vfWidth (vfOf f))).toNat))) 0 := by
  simp only [vmulwF, hint, if_true, List.map_map]
  rw [orAll_of_quiet (by simp)]
  rfl

theorem vdotwF_int (hvf : vfOf f = 0) :
    vdotwF w f t = vecRes w f t [] [] (vWrites f.rd t.vgrp (packLanes 32 ((List.range (t.vgrp * 64)).map fun i =>
      ((sextNat (laneOf (groupNat t f.rd t.vgrp) 32 i) 32 + sumInt ((List.range 4).map fun k =>
        (if vfnOf f = 1 then (laneOf (groupNat t f.rs1 t.vgrp) 8 (4 * i + k) : Int)
          else sextNat (laneOf (groupNat t f.rs1 t.vgrp) 8 (4 * i + k)) 8) *
        sextNat (laneOf (groupNat t f.rs2 t.vgrp) 8 (4 * i + k)) 8)) % 2 ^ 32).toNat))) 0 := by
  simp only [vdotwF, hvf]
  simp only [vfIsInt, vfWidth, List.map_map]
  rw [orAll_of_quiet (by simp)]
  rfl

/-- The integer lanes that `vdotw` lists are those of 8 bits (R146). -/
theorem vfOf_vdotw (hop : f.op = .vdotw) (hlegal : vecLegal f = true) (hint : vfIsInt (vfOf f) = true) : vfOf f = 0 := by
  simp only [vecLegal, hop, vfIsInt, Bool.or_eq_true, Bool.and_eq_true, decide_eq_true_eq] at hlegal hint
  omega

/-- A lane of a floating `vdotw`: the products and the addend are summed exactly, and the sum is rounded once (R146). -/
def dotLane (vf : Nat) (rm : RMode) (a b c i : Nat) : Nat × FFlags :=
  let src := vfFloat vf
  let wd := vfWidth vf
  let ps := (List.range (32 / wd)).map (fun k => (src.dec (laneOf a wd (32 / wd * i + k)), src.dec (laneOf b wd (32 / wd * i + k))))
  let v := binary32.dec (laneOf c 32 i)
  let sum := FVal.sum rm (v :: ps.map (fun p => (p.1.mul p.2).1))
  let r := fin2 binary32 rm false (v.isSnan || ps.any (fun p => p.1.isSnan || p.2.isSnan)) (sum.1, sum.2 || ps.any (fun p => (p.1.mul p.2).2))
  (r.code, r.flags)

theorem vdotwF_float (hint : vfIsInt (vfOf f) = false) :
    let l := (List.range (t.vgrp * 64)).map
      (dotLane (vfOf f) t.rm (groupNat t f.rs1 t.vgrp) (groupNat t f.rs2 t.vgrp) (groupNat t f.rd t.vgrp))
    vdotwF w f t = vecRes w f t [] [] (vWrites f.rd t.vgrp (packLanes 32 (l.map (·.1)))) (orAll l) := by
  unfold dotLane
  simp only [vdotwF, hint, Bool.false_eq_true, if_false, List.map_map, List.any_map, Function.comp_def, upto]

theorem vredF_int (hint : vfIsInt (vfOf f) = true) :
    vredF w f t = vecRes w f t [] [f.rd] [(f.rd, ⟨.int, redInt (vfnOf f) (vfWidth (vfOf f)) ((List.range (t.vgrp * 2048 / vfWidth (vfOf f))).map
      (laneOf (groupNat t f.rs1 t.vgrp) (vfWidth (vfOf f))))⟩, 0, 8)] 0 := by
  simp only [vredF, hint, if_true, BitVec.ofNat_toNat, BitVec.setWidth_eq, upto]

end

/-! ### The obligation -/

/-- Settles O10: each operation passes the checks of `leaves_vector`, and its result is the one its lane format gives. -/
theorem vectorIssue : Obligations.VectorIssue := by
  unfold Obligations.VectorIssue
  intro s g w t f n vf fn wd a b c ops pumps lanes put lanewise hlegal hgroup hready hroom
  have hput {o : Op} {fb : FBody} {srcs : List (Nat × Accept)} {dsts : List Nat} {ws : List (Nat × TReg × VReg × Nat)} {fl : FFlags}
      (hbody : bodyOf o = fixedBody fb) (hmem : o ≠ .vld ∧ o ≠ .vst) (hfb : Issues s g w o → fb w f t = vecRes w f t srcs dsts ws fl)
      (hsrcs : ∀ e ∈ srcs, t.accepts e) (hdsts : ∀ c ∈ dsts, t.isPend c = false) : put o (instrOf o g w) ws fl :=
    leaves_vector hbody hfb (fun h => by rw [pumpsOf, h.op, if_neg (not_or.mpr hmem)]) hlegal hgroup hready hroom hsrcs hdsts
  have hlanes {o : Op} {fb : FBody} (hbody : bodyOf o = fixedBody fb) (hmem : o ≠ .vld ∧ o ≠ .vst) (hfb : fb w f t = vLanewise w f t) :
      lanewise o (instrOf o g w) :=
    hput hbody hmem (fun h => by rw [hfb, vLanewise, h.op]; rfl) (List.forall_mem_nil _) (List.forall_mem_nil _)
  have hscalar {tag : Tag} (htag : (t.reg f.rs1).tag = tag) (hpend : tag ≠ .pend) : ∀ e ∈ [(f.rs1, [tag])], t.accepts e :=
    List.forall_mem_singleton.mpr (Thread.accepts_of_lt (rs1_lt w) (by simp [htag]) (by simpa using hpend.symm))
  have hnone : ∀ e ∈ ([] : List (Nat × Accept)), t.accepts e := List.forall_mem_nil _
  have hfree : ∀ c ∈ ([] : List Nat), t.isPend c = false := List.forall_mem_nil _
  refine ⟨fun hvf => ?_, fun hvf => ?_, ?_, ?_, ?_, ?_, fun hint htag => ?_, fun hint htag => ?_, fun hint => ?_, fun hint => ?_, fun hint => ?_,
    fun hint => ?_, ?_, fun hd hint => ?_, fun hd hint => ?_⟩
  · exact hlanes (o := .vadd) rfl (by decide) (vaddF_lanes w t hvf)
  · exact hput (o := .vadd) rfl (by decide) (fun _ => vaddF_vx w t hvf) hnone hfree
  · exact hlanes (o := .vsub) rfl (by decide) rfl
  · exact hlanes (o := .vmul) rfl (by decide) rfl
  · exact hlanes (o := .vfma) rfl (by decide) rfl
  · exact hput (o := .vmov) rfl (by decide) (fun _ => rfl) hnone hfree
  · exact hput (o := .vbcast) rfl (by decide) (fun _ => vbcastF_int w t hint) (hscalar htag (by decide)) hfree
  · exact hput (o := .vbcast) rfl (by decide) (fun _ => vbcastF_float w t hint) (hscalar htag (by decide)) hfree
  · exact hput (o := .vmulw) rfl (by decide) (fun _ => vmulwF_int w t hint) hnone hfree
  · exact hput (o := .vdotw) rfl (by decide) (fun h => vdotwF_int w t (vfOf_vdotw h.op hlegal hint)) hnone hfree
  · refine hput (o := .vmulw) rfl (by decide) (fun _ => ?_) hnone hfree
    simp only [vmulwF, show vfIsInt (vfOf f) = false from hint, Bool.false_eq_true, if_false]
    rfl
  · exact hput (o := .vdotw) rfl (by decide) (fun _ => vdotwF_float w t hint) hnone hfree
  · exact hput (o := .vcvt) rfl (by decide) (fun _ => rfl) hnone hfree
  · exact hput (o := .vred) rfl (by decide) (fun _ => vredF_int w t hint) hnone (List.forall_mem_singleton.mpr hd)
  · refine hput (o := .vred) rfl (by decide) (fun _ => ?_) hnone (List.forall_mem_singleton.mpr hd)
    simp only [vredF, show vfIsInt (vfOf f) = false from hint, Bool.false_eq_true, if_false]
    rfl

end Sys2Proof.Machine
end

section
/-! Lanes and groups of vector registers, and vector loads and stores at issue (O11). -/

namespace Sys2Proof.Machine

/-! ### Lanes of an image (R136) -/

theorem packLanes_cons (w x : Nat) (l : List Nat) : packLanes w (x :: l) = x % 2 ^ w + 2 ^ w * packLanes w l := rfl

/-- Lane 0 lies lowest, and the other lanes stand above it. -/
theorem packLanes_cons_shiftRight (w x : Nat) (l : List Nat) : packLanes w (x :: l) >>> w = packLanes w l := by
  have hlow : x % 2 ^ w / 2 ^ w = 0 := Nat.div_eq_of_lt (Nat.mod_lt _ (Nat.two_pow_pos w))
  rw [packLanes_cons, Nat.shiftRight_eq_div_pow, Nat.add_mul_div_left _ _ (Nat.two_pow_pos w), hlow, Nat.zero_add]

theorem laneOf_packLanes (w i : Nat) (l : List Nat) (h : i < l.length) : laneOf (packLanes w l) w i = l[i] % 2 ^ w := by
  induction l generalizing i with
  | nil => cases h
  | cons x l ih =>
    cases i with
    | zero => simp [laneOf, packLanes_cons]
    | succ i =>
      rw [List.getElem_cons_succ, ← ih i (Nat.lt_of_succ_lt_succ h), laneOf, laneOf, Nat.mul_succ, Nat.add_comm, Nat.shiftRight_add,
        packLanes_cons_shiftRight]

/-- The pieces of an image, packed again. -/
theorem packLanes_pieces (w n img : Nat) : packLanes w ((List.range n).map fun i => img >>> (w * i)) = img % 2 ^ (w * n) := by
  induction n generalizing img with
  | zero => rw [Nat.mul_zero, Nat.pow_zero, Nat.mod_one]; rfl
  | succ n ih =>
    have hrest : ((fun i => img >>> (w * i)) ∘ Nat.succ) = fun i => (img >>> w) >>> (w * i) := by
      funext i
      rw [Function.comp_apply, Nat.mul_succ, Nat.add_comm, Nat.shiftRight_add]
    rw [List.range_succ_eq_map, List.map_cons, List.map_map, hrest, packLanes_cons, ih, Nat.mul_succ, Nat.add_comm (w * n), Nat.pow_add,
      Nat.mod_mul, Nat.shiftRight_eq_div_pow img w, Nat.mul_zero, Nat.shiftRight_zero]

/-- Words that hold the pieces of an image, read as one vector. -/
theorem foldr_pieces {w n img : Nat} {f : Nat → BitVec w} (h : ∀ i < n, f i = BitVec.ofNat w (img >>> (w * i))) :
    (List.range n).foldr (fun i acc => (f i).toNat + 2 ^ w * acc) 0 = img % 2 ^ (w * n) := by
  rw [← packLanes_pieces, packLanes, List.foldr_map]
  refine List.foldr_ext _ _ _ fun i hi acc => ?_
  rw [h i (List.mem_range.mp hi), BitVec.toNat_ofNat]

/-! ### Groups (R137) -/

/-- A group whose registers hold the pieces of an image holds the image. -/
theorem groupNat_of_pieces {t : Thread} {d n img : Nat} (h : ∀ i < n, t.vreg ((d + i) % 32) = BitVec.ofNat 2048 (img >>> (2048 * i))) :
    groupNat t d n = img % 2 ^ (2048 * n) := foldr_pieces h

/-- The result that a queued write commits. -/
def writtenRes (e : Nat × TReg × VReg × Nat) : FixedRes := ⟨e.1, e.2.1, e.2.2.1, 0⟩

theorem mem_writtenRes_vWrites {d n img : Nat} {r : FixedRes} : r ∈ (vWrites d n img).map writtenRes ↔
    ∃ i < n, r = ⟨codeV (d + i), TReg.reset, BitVec.ofNat 2048 (img >>> (2048 * i)), 0⟩ := by
  simp [vWrites, writtenRes, upto, eq_comm]

/-- A register of a group that an operation has written holds its piece of the image. -/
theorem vreg_commit_vWrites (t : Thread) {d n img i : Nat} (hd : d + n ≤ 32) (hi : i < n) :
    (((vWrites d n img).map writtenRes).foldl Thread.commit1 t).vreg (d + i) = BitVec.ofNat 2048 (img >>> (2048 * i)) := by
  have hmem := mem_writtenRes_vWrites.mpr ⟨i, hi, Eq.refl (⟨codeV (d + i), TReg.reset, BitVec.ofNat 2048 (img >>> (2048 * i)), 0⟩ : FixedRes)⟩
  have honly : ∀ q ∈ (vWrites d n img).map writtenRes, q.dst = codeV (d + i) →
      q = ⟨codeV (d + i), TReg.reset, BitVec.ofNat 2048 (img >>> (2048 * i)), 0⟩ := by
    intro q hq hdst
    obtain ⟨j, -, rfl⟩ := mem_writtenRes_vWrites.mp hq
    have hij : j = i := by
      simp only [codeV] at hdst
      omega
    rw [hij]
  have hcode : isVCode (codeV (d + i)) = true := isVCode_codeV (by omega)
  have hview := Thread.vecView_commits_of_mem hmem honly hcode t
  have hv : codeV (d + i) - 0x40 = d + i := Nat.add_sub_cancel_left _ _
  rw [hv] at hview
  exact congrArg Prod.fst hview

theorem groupNat_commit_vWrites (t : Thread) {d n img : Nat} (hd : d + n ≤ 32) :
    groupNat (((vWrites d n img).map writtenRes).foldl Thread.commit1 t) d n = img % 2 ^ (2048 * n) :=
  groupNat_of_pieces fun i hi => by rw [Nat.mod_eq_of_lt (by omega), vreg_commit_vWrites t hd hi]

/-! ### Vector loads and stores (R143) -/

section
variable {s : State} {g : Nat} {w : Word}

/-- The registers of a vector load or store pass their checks: its base, its index, and the group it reads or writes. -/
theorem checkTicketed_vecMem (load : Bool) (hbase : ((s.now g).reg (longFields w).rs1).tag = .ptr)
    (hindex : ((s.now g).reg (longFields w).rs2).tag = .int) {codes : List Nat} (hvec : ∀ c ∈ codes, isVCode c = true)
    (hready : ∀ c ∈ codes, (s.now g).isPend c = false) (ht : (s.now g).ticketIdle (longFields w).tk) :
    (longCtx s g w false).checkTicketed ([((longFields w).rs1, [.ptr]), ((longFields w).rs2, [.int])] ++
      (if load then [] else codes.map (fun c => (c, anyTag)))) (if load then codes else []) = none := by
  have hacc1 : (s.now g).accepts ((longFields w).rs1, [.ptr]) := Thread.accepts_of_lt (rs1_lt w) (by simp [hbase])
  have hacc2 : (s.now g).accepts ((longFields w).rs2, [.int]) := Thread.accepts_of_lt (rs2_lt w) (by simp [hindex])
  refine checkTicketed_ok _ _ _ rfl (List.forall_mem_append.mpr ⟨?_, ?_⟩) ?_ ht
  · exact List.forall_mem_cons.mpr ⟨.inr hacc1, List.forall_mem_singleton.mpr (.inr hacc2)⟩
  · cases load
    · exact List.forall_mem_map.mpr fun c hc => .inl ⟨hvec c hc, hready c hc⟩
    · exact List.forall_mem_nil _
  · cases load
    · exact List.forall_mem_nil _
    · exact hready

/-- A vector load or store whose checks pass puts its access on its ticket. -/
theorem vecMemBody_ok (load : Bool) {n bytes : Nat} (hn : (s.now g).vgrp = n) (hbytes : vecBytes (longFields w) n = bytes)
    (hlegal : vecLegal (longFields w) = true) (hgroup : groupCheck (longFields w) n (vOperands (longFields w) n) = none)
    (hbase : ((s.now g).reg (longFields w).rs1).tag = .ptr) (hindex : ((s.now g).reg (longFields w).rs2).tag = .int)
    (hready : ∀ r ∈ groupCodes (longFields w).rd n, (s.now g).isPend r = false) (ht : (s.now g).ticketIdle (longFields w).tk)
    (hctl : (s.now g).estat.prv = 3 ∨ ctlHit (vecAddr (longFields w) (s.now g)) bytes = none)
    (halign : (vecAddr (longFields w) (s.now g)).toNat % 64 = 0) :
    let t := s.now g
    let f := longFields w
    let va := vecAddr f t
    let a := if load then AccOp.vload n bytes else .vstore ((List.range n).map (fun i => t.vreg (f.rd + i))) bytes
    vecMemBody load (longCtx s g w false) =
      .ok s (t.addAccess f.tk a va (s.beginAccess g a va t.estat.prv) (if load then groupCodes f.rd n else [])) .seq := by
  have hchecks : firstCond [(longCtx s g w false).checkTicketed ([((longFields w).rs1, [.ptr]), ((longFields w).rs2, [.int])] ++
      (if load then [] else (groupCodes (longFields w).rd n).map (fun c => (c, anyTag)))) (if load then groupCodes (longFields w).rd n else []),
      privAddrCheck s g (s.now g) .vld (vecAddr (longFields w) (s.now g)) bytes,
      condIf (decide ((vecAddr (longFields w) (s.now g)).toNat % 64 ≠ 0)) (cMisaligned (vecAddr (longFields w) (s.now g))),
      groupCheck (longFields w) n (vOperands (longFields w) n)] = none := by
    refine firstCond_none ?_
    simp only [List.forall_mem_cons]
    exact ⟨checkTicketed_vecMem load hbase hindex (fun c => isVCode_of_mem_groupCodes) hready ht, privAddrCheck_none hctl nofun,
      condIf_false (by simp [halign]) _, hgroup, List.forall_mem_nil _⟩
  simp only [vecMemBody, longCtx_f, longCtx_th, longCtx_s, longCtx_g, hlegal, hn, hbytes, Bool.not_true, Bool.false_eq_true,
    if_false]
  split
  · next hsome => exact nomatch hchecks.symm.trans hsome
  · rfl

end

/-- Settles O11: lanes by the recursion of `packLanes`, groups by the results that commit, the accesses by `vecMemBody_ok`. -/
theorem vectorLanesAndMemory : Obligations.VectorLanesAndMemory := by
  unfold Obligations.VectorLanesAndMemory
  refine ⟨⟨fun wd i l h _ => laneOf_packLanes wd i l h, fun t d n img hd => ?_⟩, fun s g w => ?_⟩
  · have hgroup := groupNat_commit_vWrites t (img := img) hd
    rwa [List.foldl_map] at hgroup
  · intro t f n va bytes codes onto hlegal hgroup hbase hindex hready ht hctl halign
    have hbytes : vecBytes f n = bytes := by simp only [vecBytes, vfOf, bytes, Nat.mul_comm n]
    have hok (load : Bool) := vecMemBody_ok load rfl hbytes hlegal hgroup hbase hindex hready ht hctl halign
    exact ⟨leaves_of_body fun _ => hok true, leaves_of_body fun _ => hok false⟩

end Sys2Proof.Machine
end

section
/-! Chain instructions at issue (O12). -/

namespace Sys2Proof.Machine

section
variable {s : State} {g : Nat} {w : Word}

/-- A chain instruction whose body queues it on its core (R150). -/
theorem leaves_of_queueChain {o : Op} {op : ChainOp} {dst : List Nat}
    (hbody : bodyOf o (longCtx s g w false) = queueChain (longCtx s g w false) op dst) :
    Leaves s g w o (instrOf o g w)
      (s.setCore (coreOf g) { s.core (coreOf g) with
        chainQ := (s.core (coreOf g)).chainQ ++ [⟨g, (longFields w).tk, (s.now g).estat.prv, op, false, []⟩] })
      ((s.now g).addOp (longFields w).tk ⟨.chain .waiting, (s.now g).pc, dst⟩) .seq :=
  leaves_of_body_state (by rw [State.core_setCore_same]) fun _ => hbody

section
variable (ht : (s.now g).ticketIdle (longFields w).tk) (hbase : ((s.now g).reg (longFields w).rs1).tag = .ptr)
include ht hbase

/-! ### `vchain` (R151) -/

theorem vchainBody_ok : vchainBody (longCtx s g w false) =
    queueChain (longCtx s g w false) (.chain ((longFields w).x24 % 4) ((s.now g).reg (longFields w).rs1).val) [] := by
  have hcheck : (longCtx s g w false).checkTicketed [((longFields w).rs1, [.ptr])] [] = none :=
    checkTicketed_none (List.forall_mem_singleton.mpr (Thread.accepts_of_lt (rs1_lt w) (by simp [hbase]))) (List.forall_mem_nil _) ht
  simp only [vchainBody, longCtx_f, longCtx_th, hcheck]

/-! ### `vflow` (R152, R160) -/

omit ht hbase in
theorem le_of_mem_smCodes {m r : Nat} (h : r ∈ smCodes m) : 96 ≤ r := by
  obtain ⟨i, -, rfl⟩ := List.mem_map.mp h
  exact Nat.le_add_right _ _

/-- The registers of a `vflow` pass their checks: its addresses, its descriptor, and the summaries that it combines and writes. -/
theorem checkTicketed_vflow {m : Nat} {acc : Bool} (hdst : ((s.now g).reg (longFields w).rs2).tag ∈ [Tag.desc, .ptr])
    (haux : (longFields w).rs3 = 0 ∨ ((s.now g).reg (longFields w).rs3).tag = .ptr)
    (hsums : ∀ r ∈ smCodes m, ((s.now g).reg r).tag ≠ .pend ∧ (acc = true → ((s.now g).reg r).tag = .smry)) :
    (longCtx s g w false).checkTicketed ([((longFields w).rs1, [Tag.ptr]), ((longFields w).rs2, [Tag.desc, Tag.ptr])] ++
      (if (longFields w).rs3 = 0 then [] else [((longFields w).rs3, [Tag.ptr])]) ++
      (if acc then (smCodes m).map (fun c => (c, [Tag.smry])) else [])) (smCodes m) = none := by
  refine checkTicketed_none ?_ (fun c hc => not_pend_of _ c (.inr (le_of_mem_smCodes hc)) (hsums c hc).1) ht
  refine List.forall_mem_append.mpr ⟨List.forall_mem_append.mpr ⟨List.forall_mem_cons.mpr ⟨?_, List.forall_mem_singleton.mpr ?_⟩, ?_⟩, ?_⟩
  · exact Thread.accepts_of_lt (rs1_lt w) (by simp [hbase])
  · exact Thread.accepts_of_lt (rs2_lt w) hdst
  · split
    · exact List.forall_mem_nil _
    · next hne => exact List.forall_mem_singleton.mpr (Thread.accepts_of_lt (rs3_lt w) (by simp [haux.resolve_left hne]))
  · cases acc
    · exact List.forall_mem_nil _
    · exact List.forall_mem_map.mpr fun c hc => ⟨.inr (le_of_mem_smCodes hc), by simp, by simp [(hsums c hc).2 rfl]⟩

section
variable {x m : Nat} {acc : Bool} (hx : (longFields w).x24 = x) (hm : x / 2 ^ 16 % 16 = m) (hacc : decide (x / 2 ^ 20 % 2 = 1) = acc)
  (haux : (longFields w).rs3 = 0 ∨ ((s.now g).reg (longFields w).rs3).tag = .ptr)
  (hsums : ∀ r ∈ smCodes m, ((s.now g).reg r).tag ≠ .pend ∧ (acc = true → ((s.now g).reg r).tag = .smry))
include hx hm hacc haux hsums

/-- A `vflow` into the press. -/
theorem vflowBody_press (hdst : ((s.now g).reg (longFields w).rs2).tag = .ptr) : vflowBody (longCtx s g w false) =
    queueChain (longCtx s g w false) (.flow (x % 4) ((s.now g).reg (longFields w).rs1).val ((s.now g).reg (longFields w).rs2) none
      (if (longFields w).rs3 = 0 then none else some ((s.now g).reg (longFields w).rs3).val) (x / 16 % 4096 + 1) (BitVec.ofNat 4 m) acc)
      (smCodes m) := by
  have hcheck := checkTicketed_vflow (m := m) (acc := acc) ht hbase (by simp [hdst]) haux hsums
  simp only [vflowBody, longCtx_f, longCtx_th, hx, hm, hacc, hdst, reduceCtorEq, if_false]
  split
  · next hsome => exact nomatch hcheck.symm.trans hsome
  · rfl

/-- A `vflow` into a writable descriptor that fits the chain known at issue (R167, R173, R187). -/
theorem vflowBody_desc {d : Desc} (hdst : ((s.now g).reg (longFields w).rs2).tag = .desc)
    (hdesc : s.handleDesc (coreOf g) (s.now g).estat.prv ((s.now g).reg (longFields w).rs2).val = some d) (hro : d.ro = false)
    (hfault : flowIssueFault (s.core (coreOf g)) (x % 4) d = none) : vflowBody (longCtx s g w false) =
    queueChain (longCtx s g w false) (.flow (x % 4) ((s.now g).reg (longFields w).rs1).val ((s.now g).reg (longFields w).rs2) (some d)
      (if (longFields w).rs3 = 0 then none else some ((s.now g).reg (longFields w).rs3).val) (x / 16 % 4096 + 1) (BitVec.ofNat 4 m) acc)
      (smCodes m) := by
  have hcheck := checkTicketed_vflow (m := m) (acc := acc) ht hbase (by simp [hdst]) haux hsums
  simp only [vflowBody, longCtx_f, longCtx_th, longCtx_s, longCtx_g, hx, hm, hacc, hdst, hdesc, hro, hfault, if_true, Bool.false_eq_true,
    if_false]
  split
  · next hsome => exact nomatch hcheck.symm.trans hsome
  · rfl

end

end

end

/-- Settles O12: each instruction's body, whose checks the hypotheses meet, queues it on its core. -/
theorem chainIssue : Obligations.ChainIssue := by
  unfold Obligations.ChainIssue
  intro s g w t f c k slot smask acc queued flow ht hbase
  refine ⟨?_, fun haux hsums => ⟨fun hdst => ?_, fun d hdst hdesc hro hfault => ?_⟩⟩
  · exact leaves_of_queueChain (o := .vchain) (vchainBody_ok ht hbase)
  · exact leaves_of_queueChain (o := .vflow) (vflowBody_press ht hbase rfl rfl rfl haux hsums hdst)
  · exact leaves_of_queueChain (o := .vflow) (vflowBody_desc ht hbase rfl rfl rfl haux hsums hdst hdesc hro hfault)

end Sys2Proof.Machine
end

section
/-! SUPPORT. The chain queue's head: when it begins, how it leaves the queue, and the chain that a descriptor states (R150-R155, R161). -/

namespace Sys2Proof.Machine

/-! ### The ticket of an ended instruction (R151, R152) -/

/-- A core with a chain instruction queued is not the default of the map of cores. -/
theorem State.setCore_setCore_of_chainQ {k : Core} (hk : k.chainQ ≠ []) (s : State) (c : Nat) (u : Core) :
    (s.setCore c k).setCore c u = s.setCore c u := by
  have hne : k ≠ Core.reset := fun h => hk (h ▸ rfl)
  simp only [State.setCore, FMap.set_set_of_ne hne]

/-- A ticket whose one operation is chain work that waits gets its phase there. -/
theorem Thread.setEng_chain {t : Thread} {tk : Nat} {ia : Word} {dst : List Nat} (hops : (t.ticket tk).ops = [⟨.chain .waiting, ia, dst⟩])
    (p : EngPhase) : t.setEng tk isChainWaiting .chain p = t.setTicket tk ⟨[⟨.chain p, ia, dst⟩], (t.ticket tk).fault⟩ := by
  have hfind : ([⟨.chain .waiting, ia, dst⟩] : List TOp).findIdx? (fun o => isChainWaiting o.kind) = some 0 := by
    simp [isChainWaiting]
  simp only [Thread.setEng, hops, hfind, Thread.setOp]
  rfl

section
variable {s : State} {c : Nat} {e : ChainEntry} {rest : List ChainEntry} {ia : Word} {dst : List Nat}

/-- The head leaves the queue and its ticket takes the phase. -/
theorem endChain_head (hq : (s.core c).chainQ = e :: rest) (hops : ((s.thread e.g).ticket e.tk).ops = [⟨.chain .waiting, ia, dst⟩])
    (p : EngPhase) : endChain s c 0 e p = (s.setCore c { s.core c with chainQ := rest }).setThread e.g
      ((s.thread e.g).setTicket e.tk ⟨[⟨.chain p, ia, dst⟩], ((s.thread e.g).ticket e.tk).fault⟩) := by
  rw [endChain, hq, List.eraseIdx_cons_zero, State.thread_setCore, Thread.setEng_chain hops]

/-- The head leaves the queue of a core that its result has changed. -/
theorem endChain_setCore {k : Core} (hq : k.chainQ = e :: rest) (hops : ((s.thread e.g).ticket e.tk).ops = [⟨.chain .waiting, ia, dst⟩])
    (p : EngPhase) : endChain (s.setCore c k) c 0 e p = (s.setCore c { k with chainQ := rest }).setThread e.g
      ((s.thread e.g).setTicket e.tk ⟨[⟨.chain p, ia, dst⟩], ((s.thread e.g).ticket e.tk).fault⟩) := by
  have hne : k.chainQ ≠ [] := by simp [hq]
  have hhead := endChain_head (s := s.setCore c k) (rest := rest) (by rw [State.core_setCore_same, hq]) hops p
  rwa [State.core_setCore_same, State.setCore_setCore_of_chainQ hne] at hhead

/-! ### The head begins (R150, R153) -/

theorem Core.nextChain_head {k : Core} (hq : k.chainQ = e :: rest) (hbegun : e.begun = false) : k.nextChain = some (0, e) := by
  have hmay : chainMayBegin [] e.op = true := by cases hop : e.op <;> rfl
  simp [Core.nextChain, hq, List.findIdx?_cons, hbegun, hmay]

section
variable (hq : (s.core c).chainQ = e :: rest) (hsus : (s.core c).suspended = false) (hbegun : e.begun = false)
include hq hsus hbegun

/-- A head whose plan meets its checks begins. -/
theorem exec_chainQueueExecute_begins {p : Option FlowPlan} (hplan : planOf s s c e = .ok p) :
    exec (.chainQueueExecute c .ok) s = .next (s.setCore c { s.core c with chainQ := { e with begun := true, seen := s.mem } :: rest }) := by
  show Host.Outcome.next (doChainExecute s c .ok) = _
  simp only [doChainExecute, Core.nextChain_head hq hbegun, hsus, reduceCtorEq, if_false, Bool.false_eq_true, Parity.isLost, hplan, hq,
    List.set_cons_zero]

/-- A head whose checks fail ends with nothing written (R153, R161). -/
theorem exec_chainQueueExecute_fails {n : Nat} {v : Word} (hplan : planOf s s c e = .error (.code n v)) :
    exec (.chainQueueExecute c .ok) s = .next (endChain s c 0 e (.failed n v)) := by
  show Host.Outcome.next (doChainExecute s c .ok) = _
  simp only [doChainExecute, Core.nextChain_head hq hbegun, hsus, reduceCtorEq, if_false, Bool.false_eq_true, Parity.isLost, hplan, eerrPhase,
    State.recordEErr]

end

/-! ### A chain descriptor (R154, R155, R161) -/

/-- A descriptor that is not aligned, or not in the core's own press (R161). -/
theorem validateChain_misplaced {a : Word} (h : a.toNat % 256 ≠ 0 ∨ s.inOwnPress c a.toNat 256 = false) :
    validateChain s c a = .error (0xFF, 1) := by
  have h' : a.toNat % 256 ≠ 0 ∨ (!s.inOwnPress c a.toNat 256) = true := by simpa using h
  simp only [validateChain, if_pos h']

/-- What a slot that a descriptor fills holds (R154, R155). -/
theorem validateChain_ok {a : Word} {slot : ChainSlot} (h : validateChain s c a = .ok slot) :
    slot.valid = true ∧ slot.hdr = s.readWord a.toNat ∧ slot.stages.length = hdrNst slot.hdr ∧
      1 ≤ hdrNst slot.hdr ∧ hdrNst slot.hdr ≤ 6 ∧ 1 ≤ hdrRowlen slot.hdr ∧ hdrRowlen slot.hdr ≤ 4096 := by
  unfold validateChain at h
  dsimp only at h
  split at h
  · cases h
  split at h
  · cases h
  next hhdr =>
  split at h
  · cases h
  next hnst =>
  repeat' split at h
  all_goals cases h
  have hcount : 1 ≤ hdrNst (s.readWord a.toNat) ∧ hdrNst (s.readWord a.toNat) ≤ 6 := by omega
  have hrow : 1 ≤ hdrRowlen (s.readWord a.toNat) ∧ hdrRowlen (s.readWord a.toNat) ≤ 4096 := by
    simp only [Bool.or_eq_true, not_or, decide_eq_true_eq] at hhdr
    omega
  refine ⟨rfl, rfl, ?_, hcount.1, hcount.2, hrow⟩
  rw [List.length_take, List.length_map, upto, List.length_range, Nat.min_eq_left hcount.2]

/-! ### A `vchain` completes (R151) -/

/-- A core with a chain slot filled or emptied. -/
def Core.withSlot (k : Core) (n : Nat) (slot : ChainSlot) : Core := { k with slots := FMap.set ChainSlot.empty k.slots n slot }

/-- A `vchain` whose descriptor passes its checks fills its slot. -/
theorem exec_vchainComplete_fills (hq : (s.core c).chainQ = e :: rest) (hsus : (s.core c).suspended = false) (hbegun : e.begun = true)
    {n : Nat} {a : Word} (hop : e.op = .chain n a) {slot : ChainSlot} (hslot : validateChain s c a = .ok slot) :
    exec (.vchainComplete c) s = .next (endChain (s.setCore c ((s.core c).withSlot n slot)) c 0 e (.done [])) := by
  show Host.Outcome.next (doVchainComplete s c) = _
  simp [doVchainComplete, hq, List.findIdx?_cons, hbegun, hop, ChainOp.isChain, hsus, hslot, Core.withSlot]

/-- A `vchain` whose descriptor fails a check empties its slot (R161). -/
theorem exec_vchainComplete_empties (hq : (s.core c).chainQ = e :: rest) (hsus : (s.core c).suspended = false) (hbegun : e.begun = true)
    {n : Nat} {a : Word} (hop : e.op = .chain n a) {stage reason : Nat} (hfault : validateChain s c a = .error (stage, reason)) :
    exec (.vchainComplete c) s = .next (endChain (s.setCore c ((s.core c).withSlot n ChainSlot.empty)) c 0 e
      (.failed 0x0E (chainEtval n stage reason))) := by
  show Host.Outcome.next (doVchainComplete s c) = _
  simp [doVchainComplete, hq, List.findIdx?_cons, hbegun, hop, ChainOp.isChain, hsus, hfault, Core.withSlot]

end

end Sys2Proof.Machine
end

section
/-! The chain queue (O27): what a `vflow` plans, writes and sums, and the obligation's clauses. -/

namespace Sys2Proof.Machine

section
variable {s : State} {c : Nat} {e : ChainEntry} {rest : List ChainEntry} {n : Nat} {src : Word} {dr : TReg} {d : Option Desc} {aux : Option Word}
  {rows : Nat} {sm : BitVec 4} {acc : Bool}

/-! ### The plan of a `vflow` (R153, R161) -/

theorem flowPlan_empty (hslot : (FMap.get ChainSlot.empty (s.core c).slots n).valid = false) :
    flowPlan s s c e n src dr d aux rows sm = .error (.code 0x0E (chainEtval n 0xFF 9)) := by
  simp only [flowPlan, hslot, Bool.not_false, if_true]

theorem planOf_flow (hop : e.op = .flow n src dr d aux rows sm acc) : planOf s s c e = (flowPlan s s c e n src dr d aux rows sm).map some := by
  simp only [planOf, hop]

/-! ### What a `vflow` writes (R152) -/

/-- The press bytes of a plan's rows are written. -/
def State.writeRows (s : State) (c : Nat) (l : List (Nat × List Byte)) : State := l.foldl (fun s w => s.writeBytes c w.1 w.2) s

theorem State.thread_writeRows (s : State) (c : Nat) (l : List (Nat × List Byte)) (g : Nat) : (s.writeRows c l).thread g = s.thread g :=
  foldl_keeps l _ (fun s => s.thread g) (fun s w => s.thread_writeBytes c w.1 w.2 g) s

theorem State.chainQ_writeRows (s : State) (c : Nat) (l : List (Nat × List Byte)) (j : Nat) :
    ((s.writeRows c l).core j).chainQ = (s.core j).chainQ :=
  foldl_keeps l _ (fun s => (s.core j).chainQ) (fun s w => congrArg Core.chainQ (s.core_writeBytes_rest c w.1 w.2 j)) s

/-- A plan without a descriptor and without notes of SMAXP writes its rows alone. -/
theorem State.doFlow_press {p : FlowPlan} (hdesc : p.desc = none) (hnotes : ∀ w ∈ p.rows, w.notes = []) (s : State) (c : Nat) :
    s.doFlow c p = s.writeRows c p.press := by
  have hnone : p.rows.flatMap (·.notes) = [] := List.flatMap_eq_nil_iff.mpr hnotes
  rw [State.doFlow, hdesc, hnone]
  rfl

/-! ### The summaries (R159) -/

/-- The summaries that a `vflow` gives: those of its rows, each combined with the register's where ACC says so. -/
def flowSums (slot : ChainSlot) (t : Thread) (sm : BitVec 4) (acc : Bool) (rows : List RowRun) : List TReg :=
  ((List.range 4).filter (fun i => sm.getLsbD i)).map fun i =>
    let v := (summaries (hdrWf64 slot.hdr) rows).getD i 0
    ⟨.smry, BitVec.ofNat 64 (if acc then combineSm i (t.reg (codeSm i)).val.toNat v else v)⟩

theorem tag_of_mem_flowSums {slot : ChainSlot} {t : Thread} {rows : List RowRun} {v : TReg} (h : v ∈ flowSums slot t sm acc rows) :
    v.tag = .smry := by
  obtain ⟨i, -, rfl⟩ := List.mem_map.mp h
  rfl

/-- A `vflow` whose plan writes rows of the press alone completes where no agent has written memory since it began (R152, R198). -/
theorem exec_vflowComplete_press (hq : (s.core c).chainQ = e :: rest) (hsus : (s.core c).suspended = false) (hbegun : e.begun = true)
    (hop : e.op = .flow n src dr d aux rows sm acc) (hseen : e.seen = s.mem) {p : FlowPlan}
    (hplan : flowPlan s s c e n src dr d aux rows sm = .ok p) (hdesc : p.desc = none) (hnotes : ∀ w ∈ p.rows, w.notes = []) :
    let s1 := s.writeRows c p.press
    exec (.vflowComplete c) s = .next (endChain (s1.setCore c ((s1.core c).countOob true p.oob)) c 0 e
      (.done (flowSums (FMap.get ChainSlot.empty (s.core c).slots n) (s.thread e.g) sm acc p.rows))) := by
  show Host.Outcome.next (doVflowComplete s c) = _
  have hfree : { s with free := s.free + 0 } = s := rfl
  simp only [doVflowComplete, hq, List.findIdx?_cons, hbegun, hop, ChainOp.isChain, Bool.not_false, Bool.and_self, if_true,
    List.getElem?_cons_zero, hsus, Bool.false_eq_true, if_false, hseen, State.mixed_mem, State.mixedFree_mem, hfree, hplan,
    State.doFlow_press hdesc hnotes]
  rfl

end

/-! ### The clauses -/

/-- Settles O27: the head begins or fails by its plan; a `vchain` completes by what its descriptor states, a `vflow` by its rows and summaries. -/
theorem chainQueue : Obligations.ChainQueue := by
  unfold Obligations.ChainQueue
  intro s c e rest ia dst k t begins ended left hq hsus hops
  refine ⟨fun n a hop => ⟨fun hbegun => ?_, fun hbegun => ⟨fun hplace => ?_, fun slot hslot => ?_⟩⟩,
    fun n src dr d aux rows sm acc hop => ⟨fun hbegun hslot => ?_, fun p hplan => ⟨fun hbegun => ?_, fun hbegun hseen hdesc hnotes => ?_⟩⟩⟩
  · exact exec_chainQueueExecute_begins hq hsus hbegun (p := none) (by rw [planOf, hop])
  · rw [exec_vchainComplete_empties hq hsus hbegun hop (validateChain_misplaced hplace), endChain_setCore (k := k.withSlot n _) hq hops]
    rfl
  · obtain ⟨hvalid, hhdr, hlen, hlo, hhi, hrow⟩ := validateChain_ok hslot
    refine ⟨hvalid, hhdr, hlen, hlen ▸ hlo, hlen ▸ hhi, hrow.1, hrow.2, ?_⟩
    rw [exec_vchainComplete_fills hq hsus hbegun hop hslot, endChain_setCore (k := k.withSlot n slot) hq hops]
    rfl
  · rw [exec_chainQueueExecute_fails hq hsus hbegun (by rw [planOf_flow hop, flowPlan_empty hslot]; rfl), endChain_head hq hops]
    rfl
  · exact exec_chainQueueExecute_begins hq hsus hbegun (by rw [planOf_flow hop, hplan]; rfl)
  · refine ⟨flowSums (FMap.get ChainSlot.empty k.slots n) t sm acc p.rows, List.length_map _, fun v => tag_of_mem_flowSums, ?_, ?_⟩
    · rintro rfl
      rfl
    · have hq1 : (((s.writeRows c p.press).core c).countOob true p.oob).chainQ = e :: rest := (s.chainQ_writeRows c p.press c).trans hq
      have hthread : (s.writeRows c p.press).thread e.g = s.thread e.g := s.thread_writeRows c p.press e.g
      rw [exec_vflowComplete_press hq hsus hbegun hop hseen hplan hdesc hnotes, endChain_setCore hq1 (by rw [hthread]; exact hops), hthread]
      rfl

end Sys2Proof.Machine
end

section
/-! Descriptors at issue (O13): minting, reports and retirement, gathers and scatters. -/

namespace Sys2Proof.Machine

/-! ### Handles (R164) -/

/-- A handle's fields, highest first. -/
theorem handleOf_eq (gen : BitVec 24) (phys : Bool) (c tid slot : Nat) :
    handleOf gen phys c tid slot = wordFields [(gen.toNat, 32), (b2n phys, 19), (c, 10), (tid, 6), (slot, 0)] := by
  rw [handleOf, wordFields_eq, wordFields_eq]
  refine congrArg (BitVec.ofNat 64) ?_
  simp only [fieldSum_cons, fieldSum_nil]
  omega

section
variable {s : State} {g : Nat} {w : Word}

/-! ### `tdesc` (R168, R171, R172) -/

/-- `tdesc` with its record in the core's press and free of faults fills the first free slot of its thread. -/
theorem tdescBody_ok {b off slot : Nat} (hbase : ((s.now g).reg (longFields w).rs1).tag = .ptr)
    (hofftag : ((s.now g).reg (longFields w).rs2).tag = .int) (hd : (s.now g).isPend (longFields w).rd = false)
    (hbound : s.bindingOf (coreOf g) = some b) (hoff : ((s.now g).reg (longFields w).rs2).val.toNat = off) (halign : off % 64 = 0)
    (hpress : off + 128 ≤ (s.core (coreOf g)).press) (hslot : slot < 64) (hfree : ((s.core (coreOf g)).desc (tidOf g * 64 + slot)).live = none)
    (hfirst : ∀ i < slot, ((s.core (coreOf g)).desc (tidOf g * 64 + i)).live.isSome = true)
    (hrecord : recordFault (s.readRecord (coreOf g) off) ((s.now g).reg (longFields w).rs1).val
      (s.handleDesc (coreOf g) (s.now g).estat.prv ((s.readRecord (coreOf g) off).w 15))
      ((List.range 64).filter (fun i => ((s.core (coreOf g)).desc (tidOf g * 64 + i)).live.isSome)).length = none) :
    tdescBody (longCtx s g w false) =
      let k := s.core (coreOf g)
      let i := tidOf g * 64 + slot
      let phys := decide ((s.now g).estat.prv = 3)
      let r := s.readRecord (coreOf g) off
      .ok (s.setCore (coreOf g) (k.setDesc i ⟨some (r.mint ((s.now g).reg (longFields w).rs1).val
          (s.handleDesc (coreOf g) (s.now g).estat.prv (r.w 15)) phys), (k.desc i).gen⟩))
        ((s.now g).queueFixed [((longFields w).rd, ⟨.desc, handleOf (k.desc i).gen phys (coreOf g) (tidOf g) slot⟩, 0, 1)]) .seq := by
  have hcheck : (s.now g).checkRegs [((longFields w).rs1, [.ptr]), ((longFields w).rs2, [.int])] [(longFields w).rd] = none :=
    checkRegs_of_accepts (List.forall_mem_cons.mpr ⟨Thread.accepts_of_lt (rs1_lt w) (by simp [hbase]),
      List.forall_mem_singleton.mpr (Thread.accepts_of_lt (rs2_lt w) (by simp [hofftag]))⟩) (List.forall_mem_singleton.mpr hd)
  have hplace : ¬ (off % 64 ≠ 0 ∨ off + 128 > (s.core (coreOf g)).press) := by omega
  have hfind : (List.range 64).find? (fun i => ((s.core (coreOf g)).desc (tidOf g * 64 + i)).live.isNone) = some slot :=
    List.find?_range_eq_some.mpr ⟨by rw [hfree]; rfl, List.mem_range.mpr hslot, fun i hi => by simp [hfirst i hi]⟩
  simp only [tdescBody, longCtx_f, longCtx_th, longCtx_s, longCtx_g, hcheck, hbound, hoff, Option.isSome_some, if_true, if_neg hplace, upto,
    hrecord, hfind, Option.getD_some]
  rfl

/-! ### `dinfo` (R166, R188) -/

section
variable {d : Desc} (hd : (s.now g).isPend (longFields w).rd = false) (htag : ((s.now g).reg (longFields w).rs1).tag = .desc)
  (hdesc : s.handleDesc (coreOf g) (s.now g).estat.prv ((s.now g).reg (longFields w).rs1).val = some d)
include htag

include hd in
theorem checkRegs_desc : (s.now g).checkRegs [((longFields w).rs1, [.desc])] [(longFields w).rd] = none :=
  checkRegs_of_accepts (List.forall_mem_singleton.mpr (Thread.accepts_of_lt (rs1_lt w) (by simp [htag]))) (List.forall_mem_singleton.mpr hd)

include hdesc

include hd in
/-- A query leaves the descriptor as it is. -/
theorem dinfoBody_ok : dinfoBody (longCtx s g w false) =
    .ok s ((s.now g).queueFixed [((longFields w).rd, ⟨.int, dinfoVal d (longFields w).fn⟩, 0, 1)]) .seq := by
  simp only [dinfoBody, longCtx_f, longCtx_th, longCtx_s, longCtx_g, checkRegs_desc hd htag, hdesc]

include hd in
/-- A retired slot is free under its next generation. -/
theorem dinfoRetireBody_ok {i : Nat}
    (hi : fld ((s.now g).reg (longFields w).rs1).val 6 4 * 64 + fld ((s.now g).reg (longFields w).rs1).val 0 6 = i) :
    dinfoRetireBody (longCtx s g w false) =
      .ok (s.setCore (coreOf g) ((s.core (coreOf g)).setDesc i ⟨none, ((s.core (coreOf g)).desc i).gen + 1⟩))
        ((s.now g).queueFixed [((longFields w).rd, ⟨.int, 0⟩, 0, 1)]) .seq := by
  simp only [dinfoRetireBody, longCtx_f, longCtx_th, longCtx_s, longCtx_g, checkRegs_desc hd htag, hdesc, hi]

/-! ### `dgth` and `dsct` (R167, R180) -/

/-- A gather or scatter whose descriptor and buffer pass the checks at issue goes to the end of its core's queue. -/
theorem leaves_of_gatherBody {gather : Bool} {o : Op} {rows planes : Nat} (hbody : bodyOf o = gatherBody gather)
    (ht : (s.now g).ticketIdle (longFields w).tk) (hltag : ((s.now g).reg (longFields w).rs2).tag = .int)
    (hbuf : ((s.now g).reg (longFields w).rs3).tag = .ptr) (hrows : (longFields w).x24 % 2 ^ 16 + 1 = rows)
    (hplanes : (longFields w).x24 / 2 ^ 16 % 16 + 1 = planes)
    (hfault : queueDescFault s (coreOf g) d ((s.now g).reg (longFields w).rs3).val.toNat rows planes (!gather) = none) :
    Leaves s g w o (instrOf o g w)
      (s.setCore (coreOf g) { s.core (coreOf g) with descQ := (s.core (coreOf g)).descQ ++ [⟨g, (longFields w).tk, (s.now g).estat.prv, gather, d,
        ((s.now g).reg (longFields w).rs2).val.toInt, ((s.now g).reg (longFields w).rs3).val, rows, planes⟩] })
      ((s.now g).addOp (longFields w).tk ⟨.desc .waiting, (s.now g).pc, []⟩) .seq := by
  refine leaves_of_body_state (by rw [State.core_setCore_same]) fun _ => ?_
  have hcheck : (longCtx s g w false).checkTicketed [((longFields w).rs1, [.desc]), ((longFields w).rs2, [.int]), ((longFields w).rs3, [.ptr])] []
      = none := by
    refine checkTicketed_none ?_ (List.forall_mem_nil _) ht
    simp only [List.forall_mem_cons]
    exact ⟨Thread.accepts_of_lt (rs1_lt w) (by simp [htag]), Thread.accepts_of_lt (rs2_lt w) (by simp [hltag]),
      Thread.accepts_of_lt (rs3_lt w) (by simp [hbuf]), List.forall_mem_nil _⟩
  rw [hbody]
  simp only [gatherBody, longCtx_f, longCtx_th, longCtx_s, longCtx_g, hcheck, hdesc, hrows, hplanes, hfault]

end

end

/-- Settles O13: each instruction by its body, whose checks the hypotheses meet; a `tdesc` takes the slot that the search finds. -/
theorem descriptorIssue : Obligations.DescriptorIssue := by
  unfold Obligations.DescriptorIssue
  intro s g w d t f c k tid a after rows planes queued
  refine ⟨?_, fun htag hdesc => ⟨fun hd => ⟨?_, ?_⟩, fun ht hltag hbuf => ⟨fun hfault => ?_, fun hfault => ?_⟩⟩⟩
  · rintro b off slot hbase hofftag hd hbound rfl halign hpress hslot hfree hfirst r ix gen phys hrecord
    rw [← handleOf_eq]
    exact leaves_of_body_state (o := .tdesc) (by rw [State.core_setCore_same]; rfl) fun _ =>
      tdescBody_ok hbase hofftag hd hbound rfl halign hpress hslot hfree hfirst hrecord
  · exact leaves_of_body (o := .dinfo) fun _ => dinfoBody_ok hd htag hdesc
  · exact leaves_of_body_state (o := .dinfoRetire) (by rw [State.core_setCore_same]; rfl) fun _ => dinfoRetireBody_ok hd htag hdesc rfl
  · exact leaves_of_gatherBody (o := .dgth) htag hdesc rfl ht hltag hbuf rfl rfl hfault
  · exact leaves_of_gatherBody (o := .dsct) htag hdesc rfl ht hltag hbuf rfl rfl hfault

end Sys2Proof.Machine
end

section
/-! The descriptor queue (O28): what reading and writing leave beside memory, how the head leaves the queue, and the obligation's clauses. -/

namespace Sys2Proof.Machine

/-! ### The caches that an engine goes through (R212, R214-R217) -/

/-- What an engine's reads and writes may change: memory, its tags and poison, the L2, and of each core its L1, its line requests and its
translation cache. -/
structure State.CachesUsed (s t : State) : Prop where
  state : ∃ m tg p l2 ks, t = { s with mem := m, tags := tg, poison := p, l2 := l2, cores := ks }
  core : ∀ c, ∃ l1 rq tc, t.core c = { s.core c with l1 := l1, reqs := rq, tcache := tc }

namespace State

theorem CachesUsed.refl (s : State) : s.CachesUsed s := ⟨⟨_, _, _, _, _, rfl⟩, fun _ => ⟨_, _, _, rfl⟩⟩

theorem CachesUsed.trans {s t u : State} (hst : s.CachesUsed t) (htu : t.CachesUsed u) : s.CachesUsed u := by
  refine ⟨?_, fun c => ?_⟩
  · obtain ⟨m, tg, p, l2, ks, rfl⟩ := hst.state
    obtain ⟨m', tg', p', l2', ks', rfl⟩ := htu.state
    exact ⟨_, _, _, _, _, rfl⟩
  · obtain ⟨l1, rq, tc, hc⟩ := hst.core c
    obtain ⟨l1', rq', tc', hc'⟩ := htu.core c
    exact ⟨l1', rq', tc', by rw [hc', hc]⟩

theorem CachesUsed.foldl {β : Type} (l : List β) {f : State → β → State} (hf : ∀ (t : State) b, t.CachesUsed (f t b)) (s : State) :
    s.CachesUsed (l.foldl f s) :=
  List.foldlRecOn l f (CachesUsed.refl s) fun t ht b _ => ht.trans (hf t b)

theorem CachesUsed.thread {s t : State} (h : s.CachesUsed t) (g : Nat) : t.thread g = s.thread g := by
  obtain ⟨m, tg, p, l2, ks, rfl⟩ := h.state
  rfl

theorem cachesUsed_l2Use (s : State) (d : Bool) (l : Nat) : s.CachesUsed (s.l2Use d l) := by
  rw [l2Use_eq]
  exact ⟨⟨_, _, _, _, _, rfl⟩, fun _ => ⟨_, _, _, rfl⟩⟩

theorem cachesUsed_clearPoison (s : State) (a n : Nat) : s.CachesUsed (s.clearPoison a n) :=
  ⟨⟨_, _, _, _, _, rfl⟩, fun _ => ⟨_, _, _, rfl⟩⟩

theorem cachesUsed_setCore (s : State) (c : Nat) (l1 : List Nat) (rq : List (Nat × Bool)) (tc : List Leaf) :
    s.CachesUsed (s.setCore c { s.core c with l1 := l1, reqs := rq, tcache := tc }) := by
  refine ⟨⟨_, _, _, _, _, rfl⟩, fun j => ?_⟩
  rw [core_setCore]
  split
  · next h => exact ⟨l1, rq, tc, h ▸ rfl⟩
  · exact ⟨_, _, _, rfl⟩

theorem cachesUsed_request (s : State) (c : Nat) (scalar : Bool) (l : Nat) : s.CachesUsed (s.setCore c ((s.core c).request scalar l)) := by
  unfold Core.request
  split
  · exact s.cachesUsed_setCore c _ _ _
  · exact s.cachesUsed_setCore c _ _ _

theorem cachesUsed_cached (s : State) (c : Nat) (scalar : Bool) (a n : Nat) : s.CachesUsed (s.cached c scalar a n) := by
  refine CachesUsed.foldl _ (fun t l => ?_) s
  split
  · exact .refl t
  · have hl2 := t.cachesUsed_l2Use false l
    dsimp only
    split
    · exact hl2.trans (cachesUsed_request _ c scalar l)
    · exact hl2

theorem cachesUsed_writeBytes (s : State) (c a : Nat) (l : List Byte) : s.CachesUsed (s.writeBytes c a l) :=
  ⟨⟨_, _, _, _, _, s.writeBytes_eq c a l⟩, fun d => ⟨((s.writeBytes c a l).core d).l1, (s.core d).reqs, (s.core d).tcache, by
    rw [← s.core_writeBytes_rest c a l d]⟩⟩

/-- A translation fills the cache of its core, or changes nothing. -/
theorem cachesUsed_xlat (s : State) (c : Nat) (prv : BitVec 2) (n : Need) (va : Word) : s.CachesUsed (s.xlat c prv n va).2 := by
  unfold xlat
  split
  · exact .refl s
  · exact .refl s
  · split
    · exact s.cachesUsed_setCore c _ _ _
    · exact .refl s

theorem xlat_mem (s : State) (c : Nat) (prv : BitVec 2) (n : Need) (va : Word) : (s.xlat c prv n va).2.mem = s.mem := by
  unfold xlat
  split
  · rfl
  · rfl
  · split <;> rfl

/-- An engine's translation leaves what the core's translation leaves, or changes nothing. -/
theorem engineXlat_snd (s : State) (c : Nat) (prv : BitVec 2) (n : Need) (va : Word) :
    (s.engineXlat c prv n va).2 = s ∨ (s.engineXlat c prv n va).2 = (s.xlat c prv n va).2 := by
  unfold engineXlat
  split
  · exact .inl rfl
  · refine .inr ?_
    split <;> simp_all

theorem cachesUsed_engineXlat (s : State) (c : Nat) (prv : BitVec 2) (n : Need) (va : Word) : s.CachesUsed (s.engineXlat c prv n va).2 := by
  rcases s.engineXlat_snd c prv n va with h | h <;> rw [h]
  · exact .refl s
  · exact s.cachesUsed_xlat c prv n va

@[simp] theorem engineXlat_mem (s : State) (c : Nat) (prv : BitVec 2) (n : Need) (va : Word) : (s.engineXlat c prv n va).2.mem = s.mem := by
  rcases s.engineXlat_snd c prv n va with h | h <;> rw [h]
  exact s.xlat_mem c prv n va

@[simp] theorem cached_mem (s : State) (c : Nat) (scalar : Bool) (a n : Nat) : (s.cached c scalar a n).mem = s.mem := by
  rw [cached_l2_cores]

theorem cachesUsed_touch (s : State) (c : Nat) (prv : BitVec 2) (n : Need) (vas : List Word) : s.CachesUsed (s.touch c prv n vas) := by
  refine (CachesUsed.foldl _ (fun t p => t.cachesUsed_engineXlat c prv n _) s).trans (CachesUsed.foldl _ (fun t l => ?_) _)
  split
  · exact t.cachesUsed_cached c false _ 1
  · exact .refl t

@[simp] theorem touch_mem (s : State) (c : Nat) (prv : BitVec 2) (n : Need) (vas : List Word) : (s.touch c prv n vas).mem = s.mem := by
  refine (foldl_keeps _ _ State.mem (fun t l => ?_) _).trans (foldl_keeps _ _ State.mem (fun t p => t.engineXlat_mem c prv n _) s)
  split
  · exact t.cached_mem c false _ 1
  · rfl

theorem cachesUsed_doWrites (s : State) (c : Nat) (d : Desc) (l : List ElemWrite) : s.CachesUsed (s.doWrites c d l) := by
  refine CachesUsed.foldl _ (fun t w => ?_) s
  split
  · exact t.cachesUsed_writeBytes c _ _
  · exact t.cachesUsed_writeBytes c _ _

theorem cachesUsed_clearCovered (s : State) (d : Desc) (l : List ElemWrite) : s.CachesUsed (s.clearCovered d l) := by
  unfold clearCovered
  split
  · exact .refl s
  · exact CachesUsed.foldl _ (fun t _ => t.cachesUsed_clearPoison _ _) s

@[simp] theorem clearCovered_mem (s : State) (d : Desc) (l : List ElemWrite) : (s.clearCovered d l).mem = s.mem := by
  unfold clearCovered
  split
  · rfl
  · exact foldl_keeps _ (fun (t : State) (r : Nat × Nat) => t.clearPoison r.1 r.2) State.mem (fun t r => t.clearPoison_mem r.1 r.2) s

end State

/-! ### The head leaves the queue (R180, R189) -/

/-- A ticket whose one operation is descriptor work that waits gets its phase there. -/
theorem Thread.setEng_desc {t : Thread} {tk : Nat} {ia : Word} (hops : (t.ticket tk).ops = [⟨.desc .waiting, ia, []⟩]) (p : EngPhase) :
    t.setEng tk isDescWaiting .desc p = t.setTicket tk ⟨[⟨.desc p, ia, []⟩], (t.ticket tk).fault⟩ := by
  have hfind : ([⟨.desc .waiting, ia, []⟩] : List TOp).findIdx? (fun o => isDescWaiting o.kind) = some 0 := by
    simp [isDescWaiting]
  simp only [Thread.setEng, hops, hfind, Thread.setOp]
  rfl

/-- The head `e` leaves its queue, and its ticket takes the phase. -/
def State.endDesc (s : State) (c : Nat) (e : DescEntry) (rest : List DescEntry) (p : EngPhase) : State :=
  (s.setCore c { s.core c with descQ := rest }).setThread e.g ((s.thread e.g).setEng e.tk isDescWaiting .desc p)

section
variable {s : State} {c : Nat} {e : DescEntry} {rest : List DescEntry}
  (hq : (s.core c).descQ = e :: rest) (hsus : (s.core c).suspended = false)
include hq hsus

/-- A gather whose reads all succeed fills its buffer (R181). -/
theorem exec_descriptorQueueExecute_gathers (hg : e.gather = true) {bytes : List Byte} {oob : Nat} {vas : List Word}
    (hdata : gatherData s c e = .ok (bytes, oob, vas)) :
    let t := (s.touch c e.prv .rd vas).writeBytes c e.buf.toNat bytes
    exec (.descriptorQueueExecute c .ok) s = .next ((t.setCore c ((t.core c).countOob false oob)).endDesc c e rest (.done [])) := by
  show Host.Outcome.next (doDescExecute s c .ok) = _
  have hgo : ((s.core c).suspended || (descWait s c e).isSome) = false := by simp [hsus, descWait, hg, hdata, Except.map]
  simp only [doDescExecute, hq, hgo, Bool.false_eq_true, if_false, reduceCtorEq, Parity.isLost, hg, if_true, hdata]
  rfl

/-- A gather that fails a check or a translation moves nothing (R180). -/
theorem exec_descriptorQueueExecute_gatherFails (hg : e.gather = true) {x : EErr} (hdata : gatherData s c e = .error x)
    (hwaits : x.waits = none) (hrecord : ∀ t : State, t.recordEErr x = t) :
    exec (.descriptorQueueExecute c .ok) s = .next (s.endDesc c e rest (eerrPhase x false)) := by
  show Host.Outcome.next (doDescExecute s c .ok) = _
  have hgo : ((s.core c).suspended || (descWait s c e).isSome) = false := by simp [hsus, descWait, hg, hdata, Except.map, hwaits]
  simp only [doDescExecute, hq, hgo, Bool.false_eq_true, if_false, reduceCtorEq, Parity.isLost, hg, if_true, hdata, hrecord]
  rfl

/-- A scatter whose plan succeeds makes the plan's writes (R181). -/
theorem exec_descriptorQueueExecute_scatters (hg : e.gather = false) {ws sc : List ElemWrite} {oob : Nat}
    (hplan : scatterPlan s c e = .ok (ws, sc, oob)) :
    let t := ((s.doWrites c e.d ws).doWrites c { e.d with colr := 0 } sc).clearCovered e.d ws
    exec (.descriptorQueueExecute c .ok) s = .next ((t.setCore c ((t.core c).countOob true oob)).endDesc c e rest (.done [])) := by
  show Host.Outcome.next (doDescExecute s c .ok) = _
  have hgo : ((s.core c).suspended || (descWait s c e).isSome) = false := by simp [hsus, descWait, hg, hplan, Except.map]
  simp only [doDescExecute, hq, hgo, Bool.false_eq_true, if_false, reduceCtorEq, Parity.isLost, hg, hplan]
  rfl

/-- A scatter that fails a check or a translation moves nothing (R180). -/
theorem exec_descriptorQueueExecute_scatterFails (hg : e.gather = false) {x : EErr} (hplan : scatterPlan s c e = .error x)
    (hwaits : x.waits = none) (hrecord : ∀ t : State, t.recordEErr x = t) :
    exec (.descriptorQueueExecute c .ok) s = .next (s.endDesc c e rest (eerrPhase x true)) := by
  show Host.Outcome.next (doDescExecute s c .ok) = _
  have hgo : ((s.core c).suspended || (descWait s c e).isSome) = false := by simp [hsus, descWait, hg, hplan, Except.map, hwaits]
  simp only [doDescExecute, hq, hgo, Bool.false_eq_true, if_false, reduceCtorEq, Parity.isLost, hg, hplan, hrecord]
  rfl

end

section
variable {s t : State} {c : Nat} {e : DescEntry} {rest : List DescEntry} {ia : Word}
  (hops : ((s.thread e.g).ticket e.tk).ops = [⟨.desc .waiting, ia, []⟩])
include hops

theorem State.endDesc_eq (p : EngPhase) : s.endDesc c e rest p =
    (s.setCore c { s.core c with descQ := rest }).setThread e.g
      ((s.thread e.g).setTicket e.tk ⟨[⟨.desc p, ia, []⟩], ((s.thread e.g).ticket e.tk).fault⟩) := by
  rw [State.endDesc, Thread.setEng_desc hops]

/-- The head's thread after it has moved its elements. -/
theorem State.thread_endDesc (hused : s.CachesUsed t) (k : Core) (p : EngPhase) : ((t.setCore c k).endDesc c e rest p).thread e.g =
    (s.thread e.g).setTicket e.tk ⟨[⟨.desc p, ia, []⟩], ((s.thread e.g).ticket e.tk).fault⟩ := by
  have hthread : (t.setCore c k).thread e.g = s.thread e.g := hused.thread e.g
  rw [State.endDesc_eq (by rw [hthread]; exact hops), State.thread_setThread_same, hthread]

end

/-- The head's core after it has moved its elements: its queue's rest, and its out-of-bounds positions counted. -/
theorem State.core_endDesc {s t : State} (hused : s.CachesUsed t) (c : Nat) (e : DescEntry) (rest : List DescEntry) (write : Bool)
    (oob : Nat) (p : EngPhase) :
    let k := ((t.setCore c ((t.core c).countOob write oob)).endDesc c e rest p).core c
    k.descQ = rest ∧ k.oobRd = ((s.core c).countOob write oob).oobRd ∧ k.oobWr = ((s.core c).countOob write oob).oobWr := by
  obtain ⟨l1, rq, tc, hcore⟩ := hused.core c
  rw [State.endDesc, State.core_setThread, State.core_setCore_same, State.core_setCore_same, hcore]
  cases write <;> exact ⟨rfl, rfl, rfl⟩

/-! ### The clauses -/

/-- Settles O28: a gather or scatter that succeeds by what it leaves of memory, thread and core, one that fails by its phase alone. -/
theorem gathersAndScatters : Obligations.GathersAndScatters := by
  unfold Obligations.GathersAndScatters
  intro s c e rest ia k t ended hq hsus hops
  refine ⟨fun hg => ⟨fun bytes oob vas hdata => ?_, fun v hdata => ?_, fun va hdata => ?_⟩,
    fun hg => ⟨fun ws sc oob hplan => ?_, fun va hplan => ?_⟩⟩
  · have hused : s.CachesUsed ((s.touch c e.prv .rd vas).writeBytes c e.buf.toNat bytes) :=
      (s.cachesUsed_touch c e.prv .rd vas).trans (State.cachesUsed_writeBytes _ c e.buf.toNat bytes)
    refine ⟨_, exec_descriptorQueueExecute_gathers hq hsus hg hdata, fun x => ?_, State.thread_endDesc hops hused _ _,
      State.core_endDesc hused c e rest false oob _⟩
    have hbyte : (s.touch c e.prv .rd vas).byte x = s.byte x := by rw [State.byte, State.touch_mem, State.byte]
    rw [← hbyte]
    exact State.byte_writeBytes (s.touch c e.prv .rd vas) c e.buf.toNat bytes x
  · rw [exec_descriptorQueueExecute_gatherFails hq hsus hg hdata rfl (fun _ => rfl), State.endDesc_eq hops]
    rfl
  · rw [exec_descriptorQueueExecute_gatherFails hq hsus hg hdata rfl (fun _ => rfl), State.endDesc_eq hops]
    rfl
  · have hused : s.CachesUsed (((s.doWrites c e.d ws).doWrites c { e.d with colr := 0 } sc).clearCovered e.d ws) :=
      ((s.cachesUsed_doWrites c e.d ws).trans (State.cachesUsed_doWrites _ c _ sc)).trans (State.cachesUsed_clearCovered _ e.d ws)
    obtain ⟨hrest, hrd, hwr⟩ := State.core_endDesc hused c e rest true oob (.done [])
    exact ⟨_, exec_descriptorQueueExecute_scatters hq hsus hg hplan, State.clearCovered_mem _ e.d ws,
      State.thread_endDesc hops hused _ _, hrest, hwr, hrd⟩
  · rw [exec_descriptorQueueExecute_scatterFails hq hsus hg hplan rfl (fun _ => rfl), State.endDesc_eq hops]
    rfl

end Sys2Proof.Machine
end

section
/-! Partners and groups (O49): the tables that both halves hold, the entries that a load writes, and the obligation's clauses. -/

namespace Sys2Proof.Machine

/-! ### Tables that both halves hold copies of (R12, R289) -/

/-- A half takes the change where the link is UP, and the half of the keeper that makes it takes it in any case. -/
theorem State.half_ctrl_copied {s : State} {h i : Nat} (hi : i = h ∨ s.linkUp = true) (go : Half → Half) :
    ∃ owes, (s.ctrl h go).half i = { go (s.half i) with owes := owes } := by
  unfold State.ctrl
  split
  · refine ⟨(go (s.half i)).owes, ?_⟩
    unfold State.half State.bothHalves
    split <;> rfl
  · next hdown =>
    obtain rfl := hi.resolve_right hdown
    exact ⟨true, State.half_setHalf_same _ _ _⟩

/-- A half takes the change or stays as it was. -/
theorem State.half_ctrl (s : State) (h : Nat) (go : Half → Half) (i : Nat) :
    (∃ owes, (s.ctrl h go).half i = { go (s.half i) with owes := owes }) ∨ (s.ctrl h go).half i = s.half i := by
  by_cases hup : s.linkUp = true
  · exact .inl (State.half_ctrl_copied (.inr hup) go)
  · rw [State.ctrl, if_neg hup, State.half_setHalf_iff]
    split
    · next hsame => exact .inl ⟨true, by rw [State.half_eq_of_iff s hsame]⟩
    · exact .inr rfl

/-! ### The two banks of partner entries (R190, R277-R279) -/

/-- A bank of partner entries by its number. -/
def Half.bank (x : Half) (k : Bool) : FMap Partner := if k then x.partners1 else x.partners0

theorem Half.shadowBank_eq_bank (x : Half) (act : Bool) : x.shadowBank act = x.bank (!act) := by cases act <;> rfl

/-- An entry after a load: an unused one takes its names, and in the shadow bank it takes its routes (R190, R279). -/
def PartRec.entry (r : PartRec) (b : Nat) (shadow : Bool) (p : Partner) : Partner :=
  let q := if p.valid then p else { p with valid := r.valid, bind := b, dbind := r.dbind, ddev := r.ddev }
  if shadow then { q with np1 := r.np1, adpt := r.adpt, pdep := r.pdep, paths := r.paths.map (·.2) } else q

/-- In the active bank an entry keeps its routes. -/
theorem PartRec.entry_active (r : PartRec) (b : Nat) (p : Partner) :
    (r.entry b false p).np1 = p.np1 ∧ (r.entry b false p).adpt = p.adpt ∧ (r.entry b false p).paths = p.paths := by
  unfold PartRec.entry
  cases p.valid <;> exact ⟨rfl, rfl, rfl⟩

/-- In the shadow bank an entry has the routes of the record. -/
theorem PartRec.entry_shadow (r : PartRec) (b : Nat) (p : Partner) :
    (r.entry b true p).np1 = r.np1 ∧ (r.entry b true p).adpt = r.adpt ∧ (r.entry b true p).pdep = r.pdep ∧
      (r.entry b true p).paths = r.paths.map (·.2) := ⟨rfl, rfl, rfl, rfl⟩

theorem Half.get_bank_loadPartner (x : Half) (act : Bool) (b n : Nat) (r : PartRec) (k : Bool) (j : Nat) :
    FMap.get Partner.invalid ((x.loadPartner act b n r).bank k) j =
      if j = n then r.entry b (k != act) (FMap.get Partner.invalid (x.bank k) n) else FMap.get Partner.invalid (x.bank k) j := by
  cases act <;> cases k <;>
    simp only [Half.loadPartner, Half.bank, Half.setShadow, Half.shadowBank, PartRec.entry, FMap.get_set, bne_self_eq_false, Bool.false_eq_true,
      if_false, if_true, Bool.true_bne, Bool.false_bne, Bool.not_false]
  all_goals split <;> rfl

/-- The entries of a load, one after the other. -/
def Half.loadPartners (x : Half) (act : Bool) (b : Nat) (rs : List (Nat × PartRec)) : Half :=
  rs.foldl (fun x e => x.loadPartner act b e.1 e.2) x

section
variable {rs : List (Nat × PartRec)} (x : Half) (act : Bool) (b : Nat) (k : Bool)

theorem Half.get_bank_loadPartners_other {j : Nat} (hj : ∀ e ∈ rs, e.1 ≠ j) :
    FMap.get Partner.invalid ((x.loadPartners act b rs).bank k) j = FMap.get Partner.invalid (x.bank k) j :=
  foldl_of_miss (p := fun x : Half => FMap.get Partner.invalid (x.bank k) j)
    (fun x e he => (x.get_bank_loadPartner act b e.1 e.2 k j).trans (if_neg (hj e he).symm)) x

/-- Of a load that names each entry once, every entry has what its record gives. -/
theorem Half.get_bank_loadPartners_mem (hnodup : (rs.map (·.1)).Nodup) {e : Nat × PartRec} (he : e ∈ rs) :
    FMap.get Partner.invalid ((x.loadPartners act b rs).bank k) e.1 = e.2.entry b (k != act) (FMap.get Partner.invalid (x.bank k) e.1) := by
  obtain ⟨before, after, rfl⟩ := List.append_of_mem he
  rw [List.map_append, List.map_cons, List.nodup_append, List.nodup_cons] at hnodup
  obtain ⟨-, ⟨hafter, -⟩, hbefore⟩ := hnodup
  have hlast := Half.get_bank_loadPartners_other ((x.loadPartners act b before).loadPartner act b e.1 e.2) act b k (rs := after) (j := e.1)
    fun d hd heq => hafter (List.mem_map.mpr ⟨d, hd, heq⟩)
  have hfirst := Half.get_bank_loadPartners_other x act b k (rs := before) (j := e.1)
    fun d hd heq => hbefore _ (List.mem_map_of_mem hd) _ List.mem_cons_self heq
  calc FMap.get Partner.invalid ((x.loadPartners act b (before ++ e :: after)).bank k) e.1
      = FMap.get Partner.invalid ((((x.loadPartners act b before).loadPartner act b e.1 e.2).loadPartners act b after).bank k) e.1 := by
        rw [Half.loadPartners, List.foldl_append, List.foldl_cons]
        rfl
    _ = e.2.entry b (k != act) (FMap.get Partner.invalid ((x.loadPartners act b before).bank k) e.1) := by
        rw [hlast, Half.get_bank_loadPartner, if_pos rfl]
    _ = e.2.entry b (k != act) (FMap.get Partner.invalid (x.bank k) e.1) := by rw [hfirst]

end

/-- A command's records name consecutive entries (R277). -/
theorem nodup_partRecs (c : Cmd) : ((partRecs c).map (·.1)).Nodup := by
  rw [partRecs, List.map_map]
  exact List.Nodup.map (fun _ _ h => Nat.add_left_cancel h) List.nodup_range

/-- A half after a load: its entries, then the depths of the groups that use them, which leaves the banks as they are (R279). -/
def Half.loaded (x : Half) (act : Bool) (b : Nat) (rs : List (Nat × PartRec)) : Half := (x.loadPartners act b rs).redepth act b (rs.map (·.1))

section
variable {s : State} {f seq : Nat} {c : Cmd}

/-! ### `RACK` (R191; log 142) -/

theorem exec_rack (hmay : s.toStart f seq 0x06 = some c) : exec (.rack f seq) s = .next
    (if s.spans (f - 1) && !s.linkUp then s
    else (s.setBinding (f - 1) { s.binding (f - 1) with ptAct := !(s.binding (f - 1)).ptAct, flips := (s.binding (f - 1)).flips + 1 }).doneCmd c) :=
  congrArg Host.Outcome.next (State.command_of_start hmay _)

/-! ### `PARTNER_LOAD` (R190, R277-R279) -/

theorem exec_partnerLoad (hmay : s.toStart f seq 0x07 = some c) : exec (.partnerLoad f seq) s = .next
    (if !(partRecs c).all (fun e => e.2.routesOk s.devid) then s.refuseCmd c 274
    else if !(partRecs c).all (fun e => e.2.keepsName (f - 1) (FMap.get Partner.invalid (s.half (s.posterOf c)).partners0 e.1)) then
      s.refuseCmd c 189
    else (s.ctrl (s.posterOf c) (fun x => x.loaded (s.binding (f - 1)).ptAct (f - 1) (partRecs c))).doneCmd c) :=
  congrArg Host.Outcome.next (State.command_of_start hmay _)

/-- Entries that a load does not name stay as they were, in both halves and both banks. -/
theorem State.get_bank_loaded_other (s : State) (h : Nat) (act : Bool) (b : Nat) {rs : List (Nat × PartRec)} {n : Nat} (hn : ∀ e ∈ rs, e.1 ≠ n)
    (i : Nat) (k : Bool) : FMap.get Partner.invalid (((s.ctrl h (fun x => x.loaded act b rs)).half i).bank k) n =
      FMap.get Partner.invalid ((s.half i).bank k) n := by
  rcases s.half_ctrl h (fun x => x.loaded act b rs) i with ⟨owes, hhalf⟩ | hhalf
  · rw [hhalf]
    exact (s.half i).get_bank_loadPartners_other act b k hn
  · rw [hhalf]

section
variable {h i : Nat} (hi : i = h ∨ s.linkUp = true) (act : Bool) (b : Nat) {rs : List (Nat × PartRec)} (hnodup : (rs.map (·.1)).Nodup)
  {e : Nat × PartRec} (he : e ∈ rs)
include hi hnodup he

/-- A half that takes a load has in both banks what each record gives. -/
theorem State.get_bank_loaded_mem (k : Bool) : FMap.get Partner.invalid (((s.ctrl h (fun x => x.loaded act b rs)).half i).bank k) e.1 =
    e.2.entry b (k != act) (FMap.get Partner.invalid ((s.half i).bank k) e.1) := by
  obtain ⟨owes, hhalf⟩ := State.half_ctrl_copied hi (fun x => x.loaded act b rs)
  rw [hhalf]
  exact (s.half i).get_bank_loadPartners_mem act b k hnodup he

/-- The active bank keeps its routes (R190). -/
theorem State.routes_loaded_active :
    let p := FMap.get Partner.invalid (((s.ctrl h (fun x => x.loaded act b rs)).half i).bank act) e.1
    let was := FMap.get Partner.invalid ((s.half i).bank act) e.1
    p.np1 = was.np1 ∧ p.adpt = was.adpt ∧ p.paths = was.paths := by
  rw [State.get_bank_loaded_mem hi act b hnodup he, bne_self_eq_false]
  exact e.2.entry_active b _

/-- The shadow bank has the routes of the records (R279). -/
theorem State.routes_loaded_shadow :
    let p := FMap.get Partner.invalid (((s.ctrl h (fun x => x.loaded act b rs)).half i).shadowBank act) e.1
    p.np1 = e.2.np1 ∧ p.adpt = e.2.adpt ∧ p.pdep = e.2.pdep ∧ p.paths = e.2.paths.map (·.2) := by
  rw [Half.shadowBank_eq_bank, State.get_bank_loaded_mem hi act b hnodup he, show ((!act) != act) = true by cases act <;> rfl]
  exact e.2.entry_shadow b _

end

/-! ### `GROUP_SET` (R237, R238) -/

/-- A rewritten record is the new one, but for the epoch that the old one leaves. -/
theorem Group.keepEpoch_eq (g : Group) (old : Option Group) :
    g.keepEpoch old = { g with epoch := (g.keepEpoch old).epoch, opened := (g.keepEpoch old).opened } := by
  unfold Group.keepEpoch
  split
  · split <;> rfl
  · rfl

/-- A half that takes the record has it in its engine. -/
theorem State.groups_setGroup_copied {s : State} {h i : Nat} (hi : i = h ∨ s.linkUp = true) (gid : Nat) (g : Group) :
    FMap.get none ((s.setGroup h gid g).engine i).groups gid = some g := by
  obtain ⟨owes, hhalf⟩ := State.half_ctrl_copied hi
    (fun x => { x with eng := { x.eng with groups := FMap.set none x.eng.groups gid (some g) } })
  rw [State.engine, State.setGroup, hhalf]
  exact FMap.get_set_same none (s.half i).eng.groups gid (some g)

theorem State.groups_setGroup_other (s : State) (h i gid : Nat) (g : Group) {k : Nat} (hk : k ≠ gid) :
    FMap.get none ((s.setGroup h gid g).engine i).groups k = FMap.get none (s.engine i).groups k := by
  rw [State.engine, State.setGroup]
  rcases s.half_ctrl h (fun x => { x with eng := { x.eng with groups := FMap.set none x.eng.groups gid (some g) } }) i with ⟨owes, hhalf⟩ | hhalf
  · rw [hhalf]
    exact FMap.get_set_other none (s.half i).eng.groups gid (some g) k hk
  · rw [hhalf, State.engine]

/-- The record that `GROUP_SET` writes: its depth by the active bank of the poster's half, its epoch as an old record leaves it. -/
def State.groupOf (s : State) (h b : Nat) (buf : List Byte) : Group :=
  Group.keepEpoch { groupRec b buf with hdepth := (groupRec b buf).depth ((s.half h).bank (s.binding b).ptAct) }
    (FMap.get none (s.half h).eng.groups (grpGid buf))

theorem State.groupOf_eq (s : State) (h b : Nat) (buf : List Byte) : s.groupOf h b buf =
    { groupRec b buf with hdepth := (s.groupOf h b buf).hdepth, epoch := (s.groupOf h b buf).epoch, opened := (s.groupOf h b buf).opened } := by
  rw [State.groupOf, Group.keepEpoch_eq]

/-- Where no record had the number, no epoch has been opened. -/
theorem State.groupOf_fresh {s : State} {h b : Nat} {buf : List Byte} (hold : FMap.get none (s.half h).eng.groups (grpGid buf) = none) :
    (s.groupOf h b buf).epoch = none ∧ (s.groupOf h b buf).opened = false := by
  rw [State.groupOf, hold]
  exact ⟨rfl, rfl⟩

/-- What a record must meet to be written (R237, R238; log 92). -/
def State.groupFits (s : State) (h b : Nat) (buf : List Byte) : Bool :=
  grpFieldsOk buf (groupRec b buf) && (groupRec b buf).ok && decide (s.partTotal h (grpGid buf) + (groupRec b buf).parts.length ≤ 524288)
    && (FMap.get none (s.half h).eng.groups (grpGid buf)).all (fun o => decide (o.binding = b))

theorem State.groupFits_iff {s : State} {h b : Nat} {buf : List Byte} : s.groupFits h b buf = true ↔
    grpFieldsOk buf (groupRec b buf) = true ∧ (groupRec b buf).ok = true ∧
      s.partTotal h (grpGid buf) + (groupRec b buf).parts.length ≤ 524288 ∧
      ∀ o, FMap.get none (s.half h).eng.groups (grpGid buf) = some o → o.binding = b := by
  simp only [State.groupFits, Bool.and_eq_true, decide_eq_true_eq, Option.all_eq_true, and_assoc]

theorem exec_groupSet (hmay : s.toStart f seq 0x08 = some c) : exec (.groupSet f seq) s = .next
    (if !s.groupFits (s.posterOf c) (f - 1) c.buf then s.refuseCmd c 233
    else if (s.binding (f - 1)).groups ≤ s.groupCount (s.posterOf c) (f - 1) (grpGid c.buf) then s.endCmd c kNores 0 0 []
    else (s.setGroup (s.posterOf c) (grpGid c.buf) (s.groupOf (s.posterOf c) (f - 1) c.buf)).doneCmd c) :=
  congrArg Host.Outcome.next (State.command_of_start hmay _)

end

/-! ### The clauses -/

/-- Settles O49: each command by what it runs; a load by the entries of the two banks, a group's record by the copies of the two halves. -/
theorem partnersAndGroups : Obligations.PartnersAndGroups := by
  unfold Obligations.PartnersAndGroups
  intro s f seq c b x may ends done h copied
  refine ⟨fun hmay hspans hdown => ?_, fun hmay hone => ?_, fun hmay => ⟨fun hroutes => ?_, fun hroutes hnames => ?_, fun hroutes hnames => ?_⟩,
    fun hmay => ⟨fun hmisfit => ?_, fun hfits hfull => ?_, fun hfits hroom => ?_⟩⟩
  · rw [exec_rack hmay, if_pos (by rw [hspans, hdown]; rfl)]
  · have hgo : (s.spans (f - 1) && !s.linkUp) = false := Bool.and_eq_false_iff.mpr (hone.imp_right fun hup => by rw [hup]; rfl)
    show exec (.rack f seq) s = _
    rw [exec_rack hmay, hgo]
    rfl
  · show exec (.partnerLoad f seq) s = _
    rw [exec_partnerLoad hmay, hroutes]
    rfl
  · show exec (.partnerLoad f seq) s = _
    rw [exec_partnerLoad hmay, hroutes, hnames]
    rfl
  · refine ⟨s.ctrl h (fun y => y.loaded x.ptAct b (partRecs c)), ?_, fun n hn i _ => ⟨?_, ?_⟩, fun e he i hi => ?_⟩
    · show exec (.partnerLoad f seq) s = _
      rw [exec_partnerLoad hmay, hroutes, hnames]
      rfl
    · exact s.get_bank_loaded_other h x.ptAct b hn i false
    · exact s.get_bank_loaded_other h x.ptAct b hn i true
    · obtain ⟨hnp, hadpt, hpaths⟩ := State.routes_loaded_active hi.2 x.ptAct b (nodup_partRecs c) he
      exact ⟨hnp, hadpt, hpaths, State.routes_loaded_shadow hi.2 x.ptAct b (nodup_partRecs c) he⟩
  · show exec (.groupSet f seq) s = _
    rw [exec_groupSet hmay, if_pos (by simpa using mt State.groupFits_iff.mp hmisfit)]
    rfl
  · show exec (.groupSet f seq) s = _
    rw [exec_groupSet hmay, State.groupFits_iff.mpr hfits, if_neg (by decide), if_pos hfull]
    rfl
  · refine ⟨_, s.groupOf h b c.buf, ?_, fun i hi => State.groups_setGroup_copied hi.2 _ _,
      fun i _ k hk => State.groups_setGroup_other s h i _ _ hk,
      s.groupOf_eq h b c.buf, State.groupOf_fresh⟩
    show exec (.groupSet f seq) s = _
    rw [exec_groupSet hmay, State.groupFits_iff.mpr hfits, if_neg (by decide), if_neg (Nat.not_le.mpr hroom)]

end Sys2Proof.Machine
end

section
/-! SUPPORT. The operations that leave memory and the press tags as they were: the canonical form (O60) holds after them as it did before. Each
by its definition: an update of other fields, the operations it is made of, or its branches. -/

namespace Sys2Proof.Machine

/-! ### Updates, walks and choices -/

/-- An update of any fields but memory and the press tags. -/
@[simp] theorem State.mk_canonical (s : State) (build threads cores poison l2 owner granted retired gone bindings half0 half1 ports devid devValid
    flows cmds cq events evNext evWait msix recvs posted jnext fepochs deferredTests saved readPort vin present pulses free pending) :
    (State.mk build threads cores s.mem s.tags poison l2 owner granted retired gone bindings half0 half1 ports devid devValid flows cmds cq events
      evNext evWait msix recvs posted jnext fepochs deferredTests saved readPort vin present pulses free pending).canonical = s.canonical := rfl

@[simp] theorem State.ite_canonical (p : Prop) [Decidable p] (s t : State) :
    (if p then s else t).canonical = if p then s.canonical else t.canonical := apply_ite State.canonical p s t

@[simp] theorem State.foldl_canonical {β : Type} (l : List β) (f : State → β → State) (hf : ∀ s b, (f s b).canonical = s.canonical) (s : State) :
    (l.foldl f s).canonical = s.canonical := foldl_keeps l f State.canonical hf s

/-! ### Parts of the state, memory and its caches, keeper records -/

@[simp] theorem State.setThread_canonical (s : State) (g : Nat) (t : Thread) : (s.setThread g t).canonical = s.canonical := by simp [State.setThread]
@[simp] theorem State.setCore_canonical (s : State) (c : Nat) (k : Core) : (s.setCore c k).canonical = s.canonical := by simp [State.setCore]
@[simp] theorem State.setHalf_canonical (s : State) (h : Nat) (x : Half) : (s.setHalf h x).canonical = s.canonical := by simp [State.setHalf]
@[simp] theorem State.setPort_canonical (s : State) (p : Nat) (x : Port) : (s.setPort p x).canonical = s.canonical := by simp [State.setPort]
@[simp] theorem State.setBinding_canonical (s : State) (b : Nat) (x : Binding) : (s.setBinding b x).canonical = s.canonical := by
  simp [State.setBinding]

@[simp] theorem State.mapCores_canonical (s : State) (f : Nat → Core → Core) : (s.mapCores f).canonical = s.canonical := by simp [State.mapCores]
@[simp] theorem State.mapThreads_canonical (s : State) (f : Nat → Thread → Thread) : (s.mapThreads f).canonical = s.canonical := by
  simp [State.mapThreads]

@[simp] theorem State.mapBindings_canonical (s : State) (f : Nat → Binding → Binding) : (s.mapBindings f).canonical = s.canonical := by
  simp [State.mapBindings]

@[simp] theorem State.answer_canonical (s : State) (l : List Word) : (s.answer l).canonical = s.canonical := by simp [State.answer]
@[simp] theorem State.draw_canonical (s : State) : s.draw.2.canonical = s.canonical := by simp [State.draw]
@[simp] theorem State.bothHalves_canonical (s : State) (f : Half → Half) : (s.bothHalves f).canonical = s.canonical := by simp [State.bothHalves]
@[simp] theorem State.ctrl_canonical (s : State) (h : Nat) (f : Half → Half) : (s.ctrl h f).canonical = s.canonical := by simp [State.ctrl]
@[simp] theorem State.l2Use_canonical (s : State) (dirty : Bool) (line : Nat) : (s.l2Use dirty line).canonical = s.canonical := by simp [State.l2Use]
@[simp] theorem State.cached_canonical (s : State) (c : Nat) (scalar : Bool) (a n : Nat) : (s.cached c scalar a n).canonical = s.canonical := by
  simp [State.cached]

@[simp] theorem State.invalidateL1_canonical (s : State) (keep : Nat) (a n : Nat) : (s.invalidateL1 keep a n).canonical = s.canonical := by
  simp [State.invalidateL1]

@[simp] theorem State.clearPoison_canonical (s : State) (a n : Nat) : (s.clearPoison a n).canonical = s.canonical := by simp [State.clearPoison]
@[simp] theorem State.output_canonical (s : State) (p : Nat) (k : Packet) : (s.output p k).canonical = s.canonical := by simp [State.output]
@[simp] theorem State.evqFull_canonical (s : State) : s.evqFull.2.canonical = s.canonical := by
  unfold State.evqFull
  split <;> rfl

@[simp] theorem State.pushEvent_canonical (s : State) (e : EvRec) : (s.pushEvent e).canonical = s.canonical := by simp [State.pushEvent]
@[simp] theorem State.holdEvent_canonical (s : State) (e : EvRec) : (s.holdEvent e).canonical = s.canonical := by simp [State.holdEvent]
@[simp] theorem State.placeEvents_canonical (s : State) (l : List EvRec) : (s.placeEvents l).canonical = s.canonical := by simp [State.placeEvents]
@[simp] theorem State.flushEvents_canonical (s : State) : s.flushEvents.canonical = s.canonical := by simp [State.flushEvents]
@[simp] theorem State.postEvent_canonical (s : State) (e : EvRec) : (s.postEvent e).canonical = s.canonical := by simp [State.postEvent]
@[simp] theorem State.beaconIrq_canonical (s : State) (odev : BitVec 20) : (s.beaconIrq odev).canonical = s.canonical := by simp [State.beaconIrq]
@[simp] theorem State.floodBeacon_canonical (s : State) (h : Nat) (q : Packet) (fromPort : Nat) :
    (s.floodBeacon h q fromPort).canonical = s.canonical := by
  simp [State.floodBeacon]

@[simp] theorem State.enterBeacon_canonical (s : State) (h : Nat) (k : BeaconKey) (q : Packet) (fromPort : Nat) :
    (s.enterBeacon h k q fromPort).canonical = s.canonical := by
  simp [State.enterBeacon]

@[simp] theorem State.originate_canonical (s : State) (h : Nat) (k : BeaconKey) : (s.originate h k).canonical = s.canonical := by
  simp [State.originate]

@[simp] theorem State.recordFaultAt_canonical (s : State) (u : BitVec 16) (fclass : Nat) (pos : Option Nat) :
    (s.recordFaultAt u fclass pos).canonical = s.canonical := by
  simp [State.recordFaultAt]

@[simp] theorem State.recordFault_canonical (s : State) (u : BitVec 16) (fclass : Nat) : (s.recordFault u fclass).canonical = s.canonical := by
  simp [State.recordFault]

@[simp] theorem State.noteStop_canonical (s : State) (g : Nat) : (s.noteStop g).canonical = s.canonical := by
  unfold State.noteStop
  split <;> rfl

/-! ### Issuing -/

@[simp] theorem State.pushPumps_canonical (s : State) (g : Nat) (ps : List Nat) : (s.pushPumps g ps).canonical = s.canonical := by
  unfold State.pushPumps
  split <;> rfl

@[simp] theorem State.passOver_canonical (s : State) (c : Nat) : (s.passOver c).canonical = s.canonical := by simp [State.passOver]

/-- What a body's result may change: a state of the same memory as the one it met. -/
def Res.keeps (s : State) : Res → Prop
  | .trap _ _ => True
  | .ok s' _ _ => s'.canonical = s.canonical

theorem finish_canonical {x : Ctx} {r : Res} (h : r.keeps x.s) : (finish x r).canonical = x.s.canonical := by
  unfold finish
  split
  · simp
  · rw [State.ite_canonical, State.setThread_canonical, State.passOver_canonical, show _ = _ from h, ite_self]

/-! ### Registers -/

@[simp] theorem readTlStat_canonical (s : State) (c : Nat) : (readTlStat s c).2.canonical = s.canonical := by simp [readTlStat]
@[simp] theorem readVcStat_canonical (s : State) (c : Nat) : (readVcStat s c).2.canonical = s.canonical := by simp [readVcStat]
@[simp] theorem readOob_canonical (s : State) (c : Nat) : (readOob s c).2.canonical = s.canonical := by simp [readOob]
@[simp] theorem readStall_canonical (s : State) (c i : Nat) : (readStall s c i).2.canonical = s.canonical := by simp [readStall]
@[simp] theorem readParcnt_canonical (s : State) (c : Nat) : (readParcnt s c).2.canonical = s.canonical := by simp [readParcnt]
@[simp] theorem readHbStat_canonical (s : State) (n : Nat) : (readHbStat s n).2.canonical = s.canonical := by simp [readHbStat]
@[simp] theorem readRxerr_canonical (s : State) (b h : Nat) : (readRxerr s b h).2.canonical = s.canonical := by simp [readRxerr]
@[simp] theorem readBcn_canonical (s : State) (h : Nat) : (readBcn s h).2.canonical = s.canonical := by simp [readBcn]
@[simp] theorem readLinkerr_canonical (s : State) (p : Nat) : (readLinkerr s p).2.canonical = s.canonical := by simp [readLinkerr]
@[simp] theorem readCeStat_canonical (s : State) (b h : Nat) : (readCeStat s b h).2.canonical = s.canonical := by simp [readCeStat]
@[simp] theorem readDbstat_canonical (s : State) (c : Nat) : (readDbstat s c).2.canonical = s.canonical := by simp [readDbstat]
@[simp] theorem csrRead_canonical (s : State) (x : CsrAt) (n : Nat) : (csrRead s x n).2.canonical = s.canonical := by
  simp only [csrRead, apply_ite Prod.snd, State.ite_canonical, readTlStat_canonical, readVcStat_canonical, readOob_canonical, readParcnt_canonical,
    readStall_canonical, readHbStat_canonical, readRxerr_canonical, readBcn_canonical, readLinkerr_canonical, readCeStat_canonical,
    readDbstat_canonical, ite_self]

@[simp] theorem writeEpc_canonical (s : State) (g : Nat) (tag : Tag) (v : Word) : (writeEpc s g tag v).canonical = s.canonical := by simp [writeEpc]
@[simp] theorem writeEstat_canonical (s : State) (g : Nat) (v : Word) (prv : Nat) : (writeEstat s g v prv).canonical = s.canonical := by
  simp [writeEstat]

@[simp] theorem writeFflags_canonical (s : State) (g : Nat) (v : Word) : (writeFflags s g v).canonical = s.canonical := by simp [writeFflags]
@[simp] theorem writeTlStat_canonical (s : State) (c : Nat) (v : Word) : (writeTlStat s c v).canonical = s.canonical := by simp [writeTlStat]
@[simp] theorem writeStallctl_canonical (s : State) (c : Nat) (v : Word) : (writeStallctl s c v).canonical = s.canonical := by simp [writeStallctl]
@[simp] theorem writeCeBucket_canonical (s : State) (g : Nat) (v : Word) : (writeCeBucket s g v).canonical = s.canonical := by simp [writeCeBucket]
@[simp] theorem writeHlEvent_canonical (s : State) (h : Nat) (v : Word) : (writeHlEvent s h v).canonical = s.canonical := by simp [writeHlEvent]
@[simp] theorem writePwEvent_canonical (s : State) (h : Nat) (v : Word) : (writePwEvent s h v).canonical = s.canonical := by simp [writePwEvent]
@[simp] theorem writeTcmp_canonical (s : State) (g : Nat) (v : Word) : (writeTcmp s g v).canonical = s.canonical := by simp [writeTcmp]
@[simp] theorem csrWrite_canonical (s : State) (x : CsrAt) (n : Nat) (tag : Tag) (v : Word) (prv : Nat) :
    (csrWrite s x n tag v prv).canonical = s.canonical := by
  cases hcfg : tcfgDo (s.core x.c) (n - 0x1000) v <;> simp [csrWrite, hcfg]

/-! ### Translation, accesses and fetches -/

@[simp] theorem State.xlat_canonical (s : State) (c : Nat) (prv : BitVec 2) (n : Need) (va : Word) :
    (s.xlat c prv n va).2.canonical = s.canonical := by
  unfold State.xlat
  (repeat' split) <;> simp

@[simp] theorem State.engineXlat_canonical (s : State) (c : Nat) (prv : BitVec 2) (n : Need) (va : Word) :
    (s.engineXlat c prv n va).2.canonical = s.canonical := by
  rcases s.engineXlat_snd c prv n va with h | h <;> rw [h]
  exact s.xlat_canonical c prv n va

@[simp] theorem State.xlatRun_canonical (s : State) (c : Nat) (prv : BitVec 2) (nd : Need) (va : Word) (n : Nat) :
    (s.xlatRun c prv nd va n).2.canonical = s.canonical := by
  refine foldl_keeps _ _ (fun r : Except EErr (List (Nat × Nat)) × State => r.2.canonical) ?_ _
  rintro ⟨_ | l, t⟩ p
  · rfl
  · have h := t.engineXlat_canonical c prv nd (BitVec.ofNat 64 p.1)
    dsimp only
    split <;> simp_all

@[simp] theorem State.cachedPieces_canonical (s : State) (c : Nat) (l : List (Nat × Nat)) : (s.cachedPieces c l).canonical = s.canonical := by
  simp [State.cachedPieces]

@[simp] theorem State.countReplay_canonical (s : State) (c : Nat) : (s.countReplay c).canonical = s.canonical := by simp [State.countReplay]
@[simp] theorem State.failParity_canonical (s : State) (u : BitVec 16) (pa : Nat) : (s.failParity u pa).2.canonical = s.canonical := by
  simp [State.failParity]

@[simp] theorem State.failPoison_canonical (s : State) (pa n : Nat) : (s.failPoison pa n).2.canonical = s.canonical := by simp [State.failPoison]
@[simp] theorem State.failRun_canonical (s : State) (p : XPhase) (cause : Nat) (e : EErr) : (s.failRun p cause e).2.canonical = s.canonical := by
  unfold State.failRun
  split <;> simp

@[simp] theorem doWalkRead_canonical (s : State) (g tk : Nat) (par : Parity) : (doWalkRead s g tk par).canonical = s.canonical := by
  unfold doWalkRead
  dsimp only
  (repeat' split) <;> simp

@[simp] theorem doMeshFlit_canonical (s : State) (g tk : Nat) (good : Bool) : (doMeshFlit s g tk good).canonical = s.canonical := by
  unfold doMeshFlit
  split
  · rfl
  · split <;> simp

@[simp] theorem State.fetchPa_canonical (s : State) (g : Nat) (va : Word) : (s.fetchPa g va).2.canonical = s.canonical := by
  have h := s.xlat_canonical (coreOf g) (s.thread g).estat.prv .x va
  unfold State.fetchPa
  split <;> simp_all

@[simp] theorem fetchParity_canonical (s : State) (g : Nat) (t : Thread) (u : BitVec 16) (pa : Nat) :
    (fetchParity s g t u pa).canonical = s.canonical := by
  simp [fetchParity]

@[simp] theorem doFetchReturn_canonical (s : State) (g : Nat) (par : Parity) : (doFetchReturn s g par).canonical = s.canonical := by
  have h := s.fetchPa_canonical g (s.thread g).pc
  unfold doFetchReturn
  dsimp only
  split
  · split <;> simp_all
  · rfl

@[simp] theorem doTicketFault_canonical (s : State) (g tk : Nat) : (doTicketFault s g tk).canonical = s.canonical := by
  simp only [doTicketFault]
  split <;> simp

/-! ### Descriptors -/

@[simp] theorem State.touch_canonical (s : State) (c : Nat) (prv : BitVec 2) (n : Need) (vas : List Word) :
    (s.touch c prv n vas).canonical = s.canonical := by
  refine (State.foldl_canonical _ _ (fun t l => ?_) _).trans (State.foldl_canonical _ _ (fun t p => t.engineXlat_canonical c prv n _) s)
  split <;> simp

@[simp] theorem State.clearCovered_canonical (s : State) (d : Desc) (l : List ElemWrite) : (s.clearCovered d l).canonical = s.canonical := by
  simp [State.clearCovered]

@[simp] theorem State.recordEErr_canonical (s : State) (e : EErr) : (s.recordEErr e).canonical = s.canonical := by
  unfold State.recordEErr
  split <;> simp

/-! ### Tiles -/

@[simp] theorem endTile_canonical (s : State) (c i : Nat) (e : TileEntry) (p : EngPhase) : (endTile s c i e p).canonical = s.canonical := by
  simp [endTile]

@[simp] theorem failTile_canonical (s : State) (c i : Nat) (e : TileEntry) (x : EErr) : (failTile s c i e x).canonical = s.canonical := by
  simp [failTile]

@[simp] theorem doTileExecute_canonical (s : State) (c : Nat) (par : Parity) : (doTileExecute s c par).canonical = s.canonical := by
  unfold doTileExecute
  dsimp only
  (repeat' split) <;> simp

/-! ### Chains -/

@[simp] theorem endChain_canonical (s : State) (c i : Nat) (e : ChainEntry) (p : EngPhase) : (endChain s c i e p).canonical = s.canonical := by
  simp [endChain]

@[simp] theorem doChainExecute_canonical (s : State) (c : Nat) (par : Parity) : (doChainExecute s c par).canonical = s.canonical := by
  unfold doChainExecute
  dsimp only
  (repeat' split) <;> simp

@[simp] theorem doVchainComplete_canonical (s : State) (c : Nat) : (doVchainComplete s c).canonical = s.canonical := by
  unfold doVchainComplete
  dsimp only
  (repeat' split) <;> simp

/-! ### Collectives -/

@[simp] theorem State.setEngine_canonical (s : State) (h : Nat) (e : Engine) : (s.setEngine h e).canonical = s.canonical := by simp [State.setEngine]
@[simp] theorem State.setGroup_canonical (s : State) (h gid : Nat) (g : Group) : (s.setGroup h gid g).canonical = s.canonical := by
  simp [State.setGroup]

@[simp] theorem State.sendMember_canonical (s : State) (h b : Nat) (g : Group) (m : Nat) (t : PType) (rw2 : Word) (xtag : Nat) (body : Payload) :
    (s.sendMember h b g m t rw2 xtag body).canonical = s.canonical := by
  simp [State.sendMember]

@[simp] theorem State.countEnd_canonical (s : State) (h b status : Nat) : (s.countEnd h b status).canonical = s.canonical := by simp [State.countEnd]
@[simp] theorem State.countDrop_canonical (s : State) (h b : Nat) : (s.countDrop h b).canonical = s.canonical := by simp [State.countDrop]
@[simp] theorem State.failColl_canonical (s : State) (c : CollCmd) (e : EErr) (write : Bool) : (s.failColl c e write).canonical = s.canonical := by
  simp [State.failColl]

@[simp] theorem State.collRead_canonical (s : State) (c : CollCmd) (va : Word) (n : Nat) : (s.collRead c va n).2.canonical = s.canonical := by
  have h := s.xlatRun_canonical c.core c.prv .rd va n
  unfold State.collRead
  split
  · simp_all
  · split <;> simp_all

@[simp] theorem State.setBucket_canonical (s : State) (h i : Nat) (k : Bucket) : (s.setBucket h i k).canonical = s.canonical := by
  simp [State.setBucket]

@[simp] theorem State.tellClose_canonical (s : State) (h b : Nat) (g : Group) (k : CloseRec) (good : Bool) :
    (s.tellClose h b g k good).canonical = s.canonical := by
  simp [State.tellClose]

@[simp] theorem State.putClose_canonical (s : State) (h : Nat) (k : CloseRec) : (s.putClose h k).canonical = s.canonical := by simp [State.putClose]
@[simp] theorem State.watchClose_canonical (s : State) (h : Nat) (g : Group) (k : CloseRec) : (s.watchClose h g k).canonical = s.canonical := by
  simp [State.watchClose]

@[simp] theorem State.dropBucket_canonical (s : State) (h i : Nat) (k : Bucket) (status : Nat) :
    (s.dropBucket h i k status).canonical = s.canonical := by
  simp [State.dropBucket]

@[simp] theorem Run.sendTo_canonical (x : Run) (s : State) (m : Nat) (t : PType) (body : Payload) :
    (x.sendTo s m t body).canonical = s.canonical := by
  simp [Run.sendTo]

@[simp] theorem Run.contribs_canonical (x : Run) (s : State) : (x.contribs s).2.canonical = s.canonical := by
  refine foldl_keeps _ _ (fun r : Except EErr (List (List Nat)) × State => r.2.canonical) ?_ _
  rintro ⟨_ | l, t⟩ j
  · rfl
  · have h := t.collRead_canonical x.c (x.r.src + BitVec.ofNat 64 (j * x.r.cstride)) (x.r.elems * (fmtBits x.r.sfmt / 8))
    dsimp only
    split <;> simp_all

@[simp] theorem Run.announce_canonical (x : Run) (s : State) : (x.announce s).canonical = s.canonical := by simp [Run.announce]
@[simp] theorem Run.exponents_canonical (x : Run) (s : State) (contribs : List (List Nat)) : (x.exponents s contribs).2.canonical = s.canonical := by
  simp [Run.exponents]

@[simp] theorem Run.lanes_canonical (x : Run) (s : State) (contribs : List (List Nat)) : (x.lanes s contribs).2.canonical = s.canonical := by
  simp [Run.lanes]

@[simp] theorem Run.agree_canonical (x : Run) (s : State) : (x.agree s).2.canonical = s.canonical := by simp [Run.agree]
@[simp] theorem Run.put_canonical (x : Run) (s : State) : (x.put s).canonical = s.canonical := by simp [Run.put]
@[simp] theorem State.readSplit_canonical (s : State) (c : CollCmd) (g : Group) : (s.readSplit c g).2.canonical = s.canonical := by
  unfold State.readSplit
  split <;> simp

@[simp] theorem State.spoil_canonical (s : State) (h : Nat) (c : CollCmd) : (s.spoil h c).canonical = s.canonical := by simp [State.spoil]
@[simp] theorem State.dropGather_canonical (s : State) (h id : Nat) : (s.dropGather h id).canonical = s.canonical := by simp [State.dropGather]
@[simp] theorem State.putGather_canonical (s : State) (h : Nat) (x : Gather) : (s.putGather h x).canonical = s.canonical := by simp [State.putGather]
@[simp] theorem State.endGather_canonical (s : State) (h : Nat) (x : Gather) : (s.endGather h x).canonical = s.canonical := by simp [State.endGather]
@[simp] theorem State.reply_canonical (s : State) (h b n : Nat) (t : PType) (rw2 : Word) (xtag : Nat) (body : Payload) :
    (s.reply h b n t rw2 xtag body).canonical = s.canonical := by
  simp [State.reply]

@[simp] theorem State.serveRemote_canonical (s : State) (h b n gid shard p : Nat) (verify : Bool) (cmd : Nat) :
    (s.serveRemote h b n gid shard p verify cmd).canonical = s.canonical := by
  unfold State.serveRemote
  (repeat' split) <;> simp

@[simp] theorem State.dropPost_canonical (s : State) (h id : Nat) : (s.dropPost h id).canonical = s.canonical := by simp [State.dropPost]
@[simp] theorem State.putPost_canonical (s : State) (h : Nat) (p : Post) : (s.putPost h p).canonical = s.canonical := by simp [State.putPost]
@[simp] theorem State.recvMatched_canonical (s : State) (id sender bytes : Nat) : (s.recvMatched id sender bytes).canonical = s.canonical := by
  simp only [State.recvMatched]
  split <;> simp

@[simp] theorem State.bucketFor_canonical (s : State) (h gid step attempt bseq : Nat) :
    (s.bucketFor h gid step attempt bseq).2.2.2.canonical = s.canonical := by
  unfold State.bucketFor
  split <;> simp

@[simp] theorem State.sendLate_canonical (s : State) (h b : Nat) (g : Group) (k : Bucket) : (s.sendLate h b g k).canonical = s.canonical := by
  simp [State.sendLate]

@[simp] theorem State.dropColls_canonical (s : State) (b : Nat) : (s.dropColls b).canonical = s.canonical := by simp [State.dropColls]

/-! ### Traps and interrupts -/

@[simp] theorem pushTarget_canonical (s : State) (g level : Nat) (va : Word) : (pushTarget s g level va).2.canonical = s.canonical := by
  simp [pushTarget]

@[simp] theorem stopThread_canonical (s : State) (g : Nat) : (stopThread s g).canonical = s.canonical := by simp [stopThread]
@[simp] theorem recordEntryParity_canonical (s : State) (f : EntryFail) : (recordEntryParity s f).canonical = s.canonical := by
  simp [recordEntryParity]

@[simp] theorem takeInterrupt_canonical (s : State) (g : Nat) : (takeInterrupt s g).canonical = s.canonical := by
  unfold takeInterrupt
  split <;> simp

/-! ### The timer -/

@[simp] theorem State.tick_canonical (s : State) (n : Nat) : (s.tick n).canonical = s.canonical := by simp [State.tick]

/-! ### Register rows -/

theorem readAnswer_canonical {r : Word × State} {s : State} (h : r.2.canonical = s.canonical) (ok : Bool) :
    (readAnswer ok r s).canonical = s.canonical := by
  simp [readAnswer, h]

/-! ### Halting, scrubbing, snapshots -/

@[simp] theorem State.haltThreads_canonical (s : State) (p : Nat → Bool) : (s.haltThreads p).canonical = s.canonical := by simp [State.haltThreads]
@[simp] theorem State.haltBinding_canonical (s : State) (b : Nat) : (s.haltBinding b).canonical = s.canonical := by simp [State.haltBinding]
@[simp] theorem State.clearPartners_canonical (s : State) (h : Nat) (l : List (Nat × Nat)) : (s.clearPartners h l).canonical = s.canonical := by
  simp [State.clearPartners]

@[simp] theorem State.clearGroups_canonical (s : State) (h b : Nat) : (s.clearGroups h b).canonical = s.canonical := by simp [State.clearGroups]
@[simp] theorem State.notifyRollback_canonical (s : State) (b : Nat) : (s.notifyRollback b).canonical = s.canonical := by
  unfold State.notifyRollback
  split <;> simp

@[simp] theorem State.stopBinding_canonical (s : State) (b : Nat) : (s.stopBinding b).canonical = s.canonical := by simp [State.stopBinding]
@[simp] theorem State.loseReserves_canonical (s : State) (u : BitVec 16) : (s.loseReserves u).canonical = s.canonical := by simp [State.loseReserves]
@[simp] theorem doSnapshotStart_canonical (s : State) (b : Nat) (step : Word) : (doSnapshotStart s b step).canonical = s.canonical := by
  simp only [doSnapshotStart]
  split <;> simp

@[simp] theorem State.sendCellar_canonical (s : State) (b partner step : Nat) (k : Bool) (lo : Nat) (l : List Byte) :
    (s.sendCellar b partner step k lo l).canonical = s.canonical := by
  simp [State.sendCellar]

@[simp] theorem State.restoreRecord_canonical (s : State) (b : Nat) (d : SnapSlot) : (s.restoreRecord b d).canonical = s.canonical := by
  simp [State.restoreRecord]

@[simp] theorem State.restoreEpochs_canonical (s : State) (b step : Nat) : (s.restoreEpochs b step).canonical = s.canonical := by
  simp [State.restoreEpochs]

/-! ### Translation tables -/

@[simp] theorem State.flushLeaves_canonical (s : State) (b : Nat) (p : Leaf → Bool) : (s.flushLeaves b p).canonical = s.canonical := by
  simp [State.flushLeaves]

@[simp] theorem State.retranslate_canonical (s : State) (b : Nat) (hit : Nat → Bool) : (s.retranslate b hit).canonical = s.canonical := by
  simp [State.retranslate]

/-! ### The fabric -/

@[simp] theorem State.failLane_canonical (s : State) (p lane : Nat) : (s.failLane p lane).canonical = s.canonical := by simp [State.failLane]
@[simp] theorem State.countEcrc_canonical (s : State) (b h : Nat) : (s.countEcrc b h).canonical = s.canonical := by simp [State.countEcrc]
@[simp] theorem State.countUnauth_canonical (s : State) (b h : Nat) : (s.countUnauth b h).canonical = s.canonical := by simp [State.countUnauth]
@[simp] theorem doRetrainComplete_canonical (s : State) (p : Nat) (bad : Option Nat) : (doRetrainComplete s p bad).canonical = s.canonical := by
  unfold doRetrainComplete
  split <;> simp

@[simp] theorem doRotation_canonical (s : State) (p : Nat) (good : Bool) : (doRotation s p good).canonical = s.canonical := by
  unfold doRotation
  dsimp only
  (repeat' split) <;> simp

@[simp] theorem State.setFlow_canonical (s : State) (f : Flow) : (s.setFlow f).canonical = s.canonical := by simp [State.setFlow]
@[simp] theorem State.launchPacket_canonical (s : State) (h : Nat) (k : Packet) : (s.launchPacket h k).canonical = s.canonical := by
  unfold State.launchPacket
  split <;> rfl

@[simp] theorem State.outputCombining_canonical (s : State) (p : Nat) (k : Packet) : (s.outputCombining p k).canonical = s.canonical := by
  simp only [State.outputCombining]
  split <;> simp

@[simp] theorem State.popRx_canonical (s : State) (p : Nat) : (s.popRx p).canonical = s.canonical := by
  simp only [State.popRx]
  split <;> simp

@[simp] theorem doForward_canonical (s : State) (p : Nat) : (doForward s p).canonical = s.canonical := by
  unfold doForward
  (repeat' split) <;> simp

theorem State.receive_canonical (s : State) (p : Nat) (t : PType) (pick : State → Nat → Packet → Bool) {go : State → Nat → Packet → State}
    (hgo : ∀ s h k, (go s h k).canonical = s.canonical) : (s.receive p t pick go).canonical = s.canonical := by
  unfold State.receive
  dsimp only
  split
  · rfl
  · simp [hgo]

@[simp] theorem doAckfReceive_canonical (s : State) (p : Nat) : (doAckfReceive s p).canonical = s.canonical :=
  s.receive_canonical _ _ _ fun _ _ _ => State.setFlow_canonical _ _

@[simp] theorem doAckfSend_canonical (s : State) (key : FlowKey) : (doAckfSend s key).canonical = s.canonical := by
  unfold doAckfSend
  dsimp only
  (repeat' split) <;> simp

@[simp] theorem doBeaconReceive_canonical (s : State) (p : Nat) : (doBeaconReceive s p).canonical = s.canonical := by
  refine s.receive_canonical _ _ _ fun t h k => ?_
  split <;> simp

@[simp] theorem doBeaconTimeout_canonical (s : State) (h i : Nat) : (doBeaconTimeout s h i).canonical = s.canonical := by
  simp only [doBeaconTimeout]
  split <;> simp

@[simp] theorem doHelloReceive_canonical (s : State) (p : Nat) : (doHelloReceive s p).canonical = s.canonical := by
  refine s.receive_canonical _ _ _ fun t h k => ?_
  split <;> simp

/-! ### HBM -/

@[simp] theorem doHbmRead_canonical (s : State) (n line : Nat) (sev : EccSev) (lane : Option Nat) :
    (doHbmRead s n line sev lane).canonical = s.canonical := by
  unfold doHbmRead
  (repeat' split) <;> simp

/-! ### Rings and records -/

@[simp] theorem State.ringWrite_canonical (s : State) (ep f : Nat) (go : Ring → Ring) : (s.ringWrite ep f go).canonical = s.canonical := by
  simp [State.ringWrite]

@[simp] theorem State.settleRings_canonical (s : State) (f : Nat) : (s.settleRings f).canonical = s.canonical := by simp [State.settleRings]
@[simp] theorem doRingEnable_canonical (s : State) (ep f : Nat) (r : RingSel) : (doRingEnable s ep f r).canonical = s.canonical := by
  simp [doRingEnable]

@[simp] theorem doRingDisable_canonical (s : State) (ep f : Nat) (r : RingSel) : (doRingDisable s ep f r).canonical = s.canonical := by
  simp [doRingDisable]

@[simp] theorem doTailWrite_canonical (s : State) (ep f : Nat) (v : Word) : (doTailWrite s ep f v).canonical = s.canonical := by simp [doTailWrite]
@[simp] theorem doBaseWrite_canonical (s : State) (ep f : Nat) (k : RingSel) (v : Word) : (doBaseWrite s ep f k v).canonical = s.canonical := by
  simp [doBaseWrite]

@[simp] theorem doBarWrite_canonical (s : State) (ep f off : Nat) (v : Word) : (doBarWrite s ep f off v).canonical = s.canonical := by
  unfold doBarWrite
  split
  · rfl
  · split <;> simp

@[simp] theorem doRegisterWrite_canonical (s : State) (t : RegTarget) (v : Word) : (doRegisterWrite s t v).canonical = s.canonical := by
  unfold doRegisterWrite
  (repeat' split) <;> simp

@[simp] theorem State.setCmd_canonical (s : State) (c : Cmd) : (s.setCmd c).canonical = s.canonical := by simp [State.setCmd]
@[simp] theorem State.endCmd_canonical (s : State) (c : Cmd) (status : Nat) (unit : BitVec 16) (detail : Nat) (result : List Byte) :
    (s.endCmd c status unit detail result).canonical = s.canonical := by
  simp [State.endCmd]

@[simp] theorem State.doneCmd_canonical (s : State) (c : Cmd) : (s.doneCmd c).canonical = s.canonical := by simp [State.doneCmd]
@[simp] theorem State.refuseCmd_canonical (s : State) (c : Cmd) (rule : Nat) : (s.refuseCmd c rule).canonical = s.canonical := by
  simp [State.refuseCmd]

@[simp] theorem State.postRec_canonical (s : State) (h f seq : Nat) (kind : RecKind) (status : Nat) (unit : BitVec 16) (detail : Nat)
    (result : List Byte) (solo : Bool) :
    (s.postRec h f seq kind status unit detail result solo).canonical = s.canonical := by
  simp [State.postRec]

@[simp] theorem State.notify_canonical (s : State) (f : Nat) : (s.notify f).canonical = s.canonical := by
  unfold State.notify
  split <;> simp

@[simp] theorem State.finalize_canonical (s : State) (c : Cmd) : (s.finalize c).canonical = s.canonical := by simp [State.finalize]
@[simp] theorem doCommandFinal_canonical (s : State) (f seq : Nat) : (doCommandFinal s f seq).canonical = s.canonical := by
  unfold doCommandFinal
  split <;> simp

@[simp] theorem State.keyWrite_canonical (s : State) (h k : Nat) (go : KeySlot → KeySlot) : (s.keyWrite h k go).canonical = s.canonical := by
  simp [State.keyWrite]

@[simp] theorem State.keyCount_canonical (s : State) (h k : Nat) (go : KeySlot → KeySlot) : (s.keyCount h k go).canonical = s.canonical := by
  simp [State.keyCount]

@[simp] theorem State.decideAbort_canonical (s : State) (c : Cmd) : (s.decideAbort c).canonical = s.canonical := by
  unfold State.decideAbort
  (repeat' split) <;> simp

@[simp] theorem State.acceptCmd_canonical (s : State) (h : Nat) (c : Cmd) (solo : Bool) : (s.acceptCmd h c solo).canonical = s.canonical := by
  unfold State.acceptCmd
  dsimp only
  (repeat' split) <;> simp

@[simp] theorem State.rewind_canonical (s : State) (h : Nat) (gone : List Cmd) : (s.rewind h gone).canonical = s.canonical := by simp [State.rewind]
@[simp] theorem State.dropUnaccepted_canonical (s : State) (h : Nat) : (s.dropUnaccepted h).canonical = s.canonical := by simp [State.dropUnaccepted]
@[simp] theorem State.passAccepted_canonical (s : State) (h : Nat) : (s.passAccepted h).canonical = s.canonical := by simp [State.passAccepted]
@[simp] theorem State.nextEntry_canonical (s : State) (h f : Nat) : (s.nextEntry h f).canonical = s.canonical := by simp [State.nextEntry]
@[simp] theorem State.journalCmd_canonical (s : State) (h f : Nat) (e buf : List Byte) : (s.journalCmd h f e buf).canonical = s.canonical := by
  simp [State.journalCmd]

/-! ### The half link and primacy -/

@[simp] theorem State.primacyEvent_canonical (s : State) (detail : List Nat) : (s.primacyEvent detail).canonical = s.canonical := by
  simp [State.primacyEvent]

@[simp] theorem State.setHold_canonical (s : State) (h : Nat) (v : Bool) : (s.setHold h v).canonical = s.canonical := by simp [State.setHold]
@[simp] theorem State.takeHeld_canonical (s : State) (h : Nat) : (s.takeHeld h).canonical = s.canonical := by
  refine (State.setHalf_canonical _ _ _).trans (State.foldl_canonical _ _ (fun t e => ?_) s)
  split <;> simp

@[simp] theorem State.becomePrimary_canonical (s : State) (h : Nat) : (s.becomePrimary h).canonical = s.canonical := by simp [State.becomePrimary]
@[simp] theorem State.becomeFollower_canonical (s : State) (h : Nat) : (s.becomeFollower h).canonical = s.canonical := by simp [State.becomeFollower]
@[simp] theorem State.becomeSplit_canonical (s : State) (h : Nat) : (s.becomeSplit h).canonical = s.canonical := by simp [State.becomeSplit]
@[simp] theorem State.setLink_canonical (s : State) (v : LinkState) : (s.setLink v).canonical = s.canonical := by simp [State.setLink]
@[simp] theorem State.leaveUp_canonical (s : State) (v : LinkState) : (s.leaveUp v).canonical = s.canonical := by simp [State.leaveUp]
@[simp] theorem doHalfFlit_canonical (s : State) (h : Nat) (good : Bool) (c : Option Nat) : (doHalfFlit s h good c).canonical = s.canonical := by
  unfold doHalfFlit
  (repeat' split) <;> simp

@[simp] theorem State.resync_canonical (s : State) (p : Nat) (finals : Bool) : (s.resync p finals).canonical = s.canonical := by simp [State.resync]
@[simp] theorem State.mergeCounters_canonical (s : State) : s.mergeCounters.canonical = s.canonical := by simp [State.mergeCounters]
@[simp] theorem State.takeTables_canonical (s : State) (h : Nat) : (s.takeTables h).canonical = s.canonical := by simp [State.takeTables]
@[simp] theorem State.copyTables_canonical (s : State) : s.copyTables.canonical = s.canonical := by
  simp only [State.copyTables, State.bothHalves_canonical]
  split <;> simp

@[simp] theorem State.compare_canonical (s : State) (h : Nat) (r : Heartbeat) : (s.compare h r).canonical = s.canonical := by
  simp only [State.compare]
  split <;> simp

@[simp] theorem State.clearSolo_canonical (s : State) (h : Nat) (r : Heartbeat) : (s.clearSolo h r).canonical = s.canonical := by
  simp [State.clearSolo]

@[simp] theorem State.mismatch_canonical (s : State) (h : Nat) (first : Bool) (own peer : Nat) :
    (s.mismatch h first own peer).canonical = s.canonical := by
  simp [State.mismatch]

@[simp] theorem doHeartbeatReceive_canonical (s : State) (h : Nat) (good : Bool) : (doHeartbeatReceive s h good).canonical = s.canonical := by
  unfold doHeartbeatReceive
  dsimp only
  (repeat' split) <;> simp

@[simp] theorem doJournalEntry_canonical (s : State) (h : Nat) : (doJournalEntry s h).canonical = s.canonical := by
  simp only [doJournalEntry]
  split <;> simp

@[simp] theorem doJournalAck_canonical (s : State) (h : Nat) : (doJournalAck s h).canonical = s.canonical := by
  unfold doJournalAck
  dsimp only
  (repeat' split) <;> simp

@[simp] theorem doCompletion_canonical (s : State) (h : Nat) : (doCompletion s h).canonical = s.canonical := by
  unfold doCompletion
  dsimp only
  (repeat' split) <;> simp

@[simp] theorem State.complete_canonical (s : State) (c : Cmd) (at' : Nat) : (s.complete c at').canonical = s.canonical := by simp [State.complete]
@[simp] theorem State.giveWay_canonical (s : State) (h : Nat) : (s.giveWay h).canonical = s.canonical := by simp [State.giveWay]
@[simp] theorem State.claimHold_canonical (s : State) (c : Cmd) (h : Nat) : (s.claimHold c h).canonical = s.canonical := by simp [State.claimHold]
@[simp] theorem State.settleHold_canonical (s : State) (c : Cmd) (h : Nat) : (s.settleHold c h).canonical = s.canonical := by simp [State.settleHold]
@[simp] theorem doPrimacySet_canonical (s : State) (h seq : Nat) (late : Bool) : (doPrimacySet s h seq late).canonical = s.canonical := by
  unfold doPrimacySet
  split <;> simp

@[simp] theorem State.splitPrimacy_canonical (s : State) (h : Nat) (e buf : List Byte) : (s.splitPrimacy h e buf).canonical = s.canonical := by
  simp [State.splitPrimacy]

@[simp] theorem doSqRead_canonical (s : State) (h f : Nat) (e buf : List Byte) : (doSqRead s h f e buf).canonical = s.canonical := by
  unfold doSqRead
  split <;> simp

/-! ### Power and resets -/

@[simp] theorem State.powerEvent_canonical (s : State) (h : Nat) (u : BitVec 16) (b : BitVec 6) : (s.powerEvent h u b).canonical = s.canonical := by
  simp [State.powerEvent]

@[simp] theorem State.onDie_canonical (s : State) (d : Nat) (f : Half → Die → Die × BitVec 6) : (s.onDie d f).canonical = s.canonical := by
  simp [State.onDie]

/-- A module reset leaves memory with nothing listed. -/
@[simp] theorem State.resetModule_canonical (s : State) (aon : Bool) (stage : Stage') (held : Bool) :
    (s.resetModule aon stage held).canonical = true :=
  rfl

@[simp] theorem State.restartAll_canonical (s : State) : s.restartAll.canonical = s.canonical := by simp [State.restartAll]
@[simp] theorem State.pulse_canonical (s : State) (us : Nat) : (s.pulse us).2.canonical = s.canonical := by
  unfold State.pulse
  split
  · rfl
  · split <;> simp

@[simp] theorem doKeeperReturn_canonical (s : State) (h : Nat) (good : Bool) : (doKeeperReturn s h good).canonical = s.canonical := by
  simp only [doKeeperReturn]
  split <;> simp

@[simp] theorem State.loadMonitor_canonical (s : State) (h : Nat) : (s.loadMonitor h).canonical = s.canonical := by simp [State.loadMonitor]
@[simp] theorem doKeeperBoot_canonical (s : State) (h k : Nat) : (doKeeperBoot s h k).canonical = s.canonical := by
  unfold doKeeperBoot
  dsimp only
  split
  · rfl
  · split <;> simp

@[simp] theorem doRailFault_canonical (s : State) (r : Rail) (n : Nat) : (doRailFault s r n).canonical = s.canonical := by
  unfold doRailFault
  split <;> simp

@[simp] theorem doOwnerKey_canonical (s : State) (h : Nat) (pec : Bool) (wrapped : List Byte) :
    (doOwnerKey s h pec wrapped).canonical = s.canonical := by
  unfold doOwnerKey
  (repeat' split) <;> simp

@[simp] theorem doTap_canonical (s : State) (h ir : Nat) (out : List Word) : (doTap s h ir out).canonical = s.canonical := by simp [doTap]
@[simp] theorem State.abortTarget_canonical (s : State) (c : Cmd) : (s.abortTarget c).canonical = s.canonical := by
  unfold State.abortTarget
  split <;> simp

@[simp] theorem State.finalizeAll_canonical (s : State) (f : Nat) : (s.finalizeAll f).canonical = s.canonical := by
  refine State.foldl_canonical _ _ (fun t c => ?_) s
  split <;> simp

/-! ### Commands -/

@[simp] theorem State.command_canonical (s : State) (f seq opc : Nat) (run : Cmd → State) (hrun : ∀ c, (run c).canonical = s.canonical) :
    (s.command f seq opc run).canonical = s.canonical := by
  unfold State.command
  split <;> simp [hrun]

@[simp] theorem State.dispatch_canonical (s : State) (c : Cmd) (g rank count : Nat) : (s.dispatch c g rank count).canonical = s.canonical := by
  simp [State.dispatch]

@[simp] theorem State.startLaunch_canonical (s : State) (c : Cmd) : (s.startLaunch c).canonical = s.canonical := by simp [State.startLaunch]
@[simp] theorem State.endLaunch_canonical (s : State) (c : Cmd) : (s.endLaunch c).canonical = s.canonical := by simp [State.endLaunch]
@[simp] theorem doLaunch_canonical (s : State) (f seq : Nat) : (doLaunch s f seq).canonical = s.canonical := by
  unfold doLaunch
  split <;> simp

@[simp] theorem State.putSaved_canonical (s : State) (a : Nat) (v : Option Saved) : (s.putSaved a v).canonical = s.canonical := by
  simp [State.putSaved]

@[simp] theorem State.resumeCore_canonical (s : State) (v : Saved) (k : Nat) (saved : Core) : (s.resumeCore v k saved).canonical = s.canonical := by
  simp [State.resumeCore]

@[simp] theorem doResume_canonical (s : State) (f seq : Nat) : (doResume s f seq).canonical = s.canonical := by
  refine s.command_canonical _ _ _ _ fun c => ?_
  dsimp only
  split <;> simp

@[simp] theorem State.loseClient_canonical (s : State) (b n : Nat) : (s.loseClient b n).canonical = s.canonical := by simp [State.loseClient]
@[simp] theorem State.ungrant_canonical (s : State) (b : Nat) (gs : List Nat) : (s.ungrant b gs).canonical = s.canonical := by simp [State.ungrant]
@[simp] theorem doKeySet_canonical (s : State) (f seq : Nat) : (doKeySet s f seq).canonical = s.canonical := by
  refine s.command_canonical _ _ _ _ fun c => ?_
  dsimp only
  split
  · rfl
  · split <;> simp

@[simp] theorem State.testCmd_canonical (s : State) (c : Cmd) (r : Option Word) : (s.testCmd c r).canonical = s.canonical := by
  unfold State.testCmd
  split <;> rfl

@[simp] theorem State.testSpare_canonical (s : State) (c : Cmd) (r : Option Word) : (s.testSpare c r).canonical = s.canonical := by
  unfold State.testSpare
  split <;> rfl

@[simp] theorem State.testLink_canonical (s : State) (c : Cmd) (r : Option Word) : (s.testLink c r).canonical = s.canonical := by
  simp [State.testLink]

@[simp] theorem State.deferTest_canonical (s : State) (c : Cmd) : (s.deferTest c).canonical = s.canonical := by simp [State.deferTest]
@[simp] theorem State.rollCmds_canonical (s : State) (b : Nat) : (s.rollCmds b).canonical = s.canonical := by simp [State.rollCmds]
@[simp] theorem State.endRestoreCmd_canonical (s : State) (b : Nat) : (s.endRestoreCmd b).canonical = s.canonical := by simp [State.endRestoreCmd]
@[simp] theorem State.finishRestore_canonical (s : State) (b step : Nat) : (s.finishRestore b step).canonical = s.canonical := by
  simp [State.finishRestore]

@[simp] theorem State.exhausted_canonical (s : State) (u : BitVec 16) : (s.exhausted u).canonical = s.canonical := by
  simp only [State.exhausted]
  split <;> simp

end Sys2Proof.Machine
end

section
/-! SUPPORT. The operations that write memory or the press tags, and those made of them, keep the canonical form (O60). -/

namespace Sys2Proof.Machine

/-! ### Translation, accesses and fetches -/

@[simp] theorem State.canonical_perform (s : State) (g : Nat) (a : Access) (dst pa : Nat) (h : s.canonical = true) :
    (s.perform g a dst pa).2.canonical = true := by
  unfold State.perform
  cases a.op with
  | load n sg tag =>
    dsimp only
    split
    · split <;> simp [h]
    · rw [apply_ite Prod.snd, apply_ite Prod.snd]
      simp [h]
  | loadT =>
    dsimp only
    split
    · simp [h]
    · split
      · exact h
      · split
        · split <;> simp [h]
        · exact h
  | store n v =>
    dsimp only
    split
    · split <;> simp [h]
    · exact State.canonical_writeNat _ _ _ _ _ h
  | storeT v =>
    dsimp only
    split
    · exact State.canonical_setTags _ _ _ _ (State.canonical_writeNat _ _ _ _ _ h)
    · exact State.canonical_writeNat _ _ _ _ _ h
  | amo n op sg v cmp =>
    dsimp only
    split
    · simp [h]
    · exact State.canonical_writeNat _ _ _ _ _ h
  | vload n b =>
    have hrun := s.xlatRun_canonical (coreOf g) a.prv .rd a.va b
    dsimp only
    split
    · simp_all
    · split <;> simp_all
  | vstore d b =>
    have hrun := s.xlatRun_canonical (coreOf g) a.prv .wr a.va b
    dsimp only
    split <;> simp_all [State.canonical_writePieces]

@[simp] theorem canonical_doMemAccess (s : State) (g tk : Nat) (par : Parity) (h : s.canonical = true) :
    (doMemAccess s g tk par).canonical = true := by
  unfold doMemAccess
  dsimp only
  (repeat' split) <;> simp [h]

/-! ### Descriptors -/

@[simp] theorem canonical_doDescExecute (s : State) (c : Nat) (par : Parity) (h : s.canonical = true) : (doDescExecute s c par).canonical = true := by
  unfold doDescExecute
  dsimp only
  (repeat' split) <;> simp [h, State.canonical_writeBytes, State.canonical_doWrites]

/-! ### Tiles -/

theorem canonical_tileResult {s t : State} {c : Nat} {e : TileEntry} (h : s.canonical = true) (ht : tileResult s c e = .ok t) :
    t.canonical = true := by
  have hmap : ∀ {α : Type} {r : Except EErr α} {f : α → State}, (∀ a, (f a).canonical = true) → r.map f = .ok t → t.canonical = true := by
    rintro α (_ | a) f hf hr
    · cases hr
    · cases hr; exact hf a
  unfold tileResult at ht
  dsimp only at ht
  split at ht
  · exact hmap (fun _ => by simp [h]) ht
  · exact hmap (fun _ => by simp [h, State.canonical_doWrites]) ht
  · exact hmap (fun _ => by simp [h]) ht
  · cases ht; simp [h]
  · cases ht; simp [h]
  · split at ht <;> cases ht <;> simp [h]
  · exact hmap (fun _ => by simp [h]) ht
  · cases ht; simp [h]
  · cases ht; exact h

@[simp] theorem canonical_doTileComplete (s : State) (c : Nat) (h : s.canonical = true) : (doTileComplete s c).canonical = true := by
  unfold doTileComplete
  dsimp only
  split
  · exact h
  · split
    · exact h
    · split
      · exact h
      · split
        · simp [h]
        · simp [h]
        · next hr => simp [canonical_tileResult (by simp [h]) hr]

/-! ### Chains -/

@[simp] theorem State.canonical_doFlow (s : State) (c : Nat) (p : FlowPlan) (h : s.canonical = true) : (s.doFlow c p).canonical = true := by
  have hpress : (p.press.foldl (fun s w => s.writeBytes c w.1 w.2) s).canonical = true :=
    State.canonical_foldl _ _ (fun t w ht => t.canonical_writeBytes c w.1 w.2 ht) s h
  refine State.canonical_foldl _ _ (fun t n ht => State.canonical_writeNat _ _ _ _ _ (t.canonical_writeNat _ _ _ _ ht)) _ ?_
  split <;> simp [hpress, State.canonical_doWrites]

@[simp] theorem canonical_doVflowComplete (s : State) (c : Nat) (h : s.canonical = true) : (doVflowComplete s c).canonical = true := by
  unfold doVflowComplete
  dsimp only
  (repeat' split) <;> simp [h]

/-! ### Collectives -/

@[simp] theorem State.canonical_endColl (s : State) (h : Nat) (c : CollCmd) (status count : Nat) (hs : s.canonical = true) :
    (s.endColl h c status count).canonical = true := by
  simp [State.endColl, hs, State.canonical_writeNat]

@[simp] theorem State.canonical_collWrite (s : State) (c : CollCmd) (va : Word) (l : List Byte) (h : s.canonical = true) :
    (s.collWrite c va l).2.canonical = true := by
  have hrun := s.xlatRun_canonical c.core c.prv .wr va l.length
  unfold State.collWrite
  split <;> simp_all [State.canonical_writePieces]

@[simp] theorem State.canonical_finishClose (s : State) (h : Nat) (c : CollCmd) (g : Group) (k : CloseRec) (done : Bool) (hs : s.canonical = true) :
    (s.finishClose h c g k done).canonical = true := by
  simp [State.finishClose, hs]

@[simp] theorem State.canonical_settleClose (s : State) (h : Nat) (k : CloseRec) (hs : s.canonical = true) :
    (s.settleClose h k).canonical = true := by
  unfold State.settleClose
  (repeat' split) <;> simp [hs]

@[simp] theorem State.canonical_settleCloses (s : State) (h : s.canonical = true) : s.settleCloses.canonical = true :=
  State.canonical_foldl _ _ (fun t i ht => State.canonical_foldl _ _ (fun u k hu => u.canonical_settleClose i k hu) t ht) s h

@[simp] theorem State.canonical_endBucket (s : State) (h i : Nat) (k : Bucket) (status count : Nat) (hs : s.canonical = true) :
    (s.endBucket h i k status count).canonical = true := by
  unfold State.endBucket
  split <;> simp [hs]

@[simp] theorem State.canonical_failBucket (s : State) (h i : Nat) (k : Bucket) (c : CollCmd) (e : EErr) (write : Bool) (hs : s.canonical = true) :
    (s.failBucket h i k c e write).canonical = true := by
  simp [State.failBucket, hs]

@[simp] theorem Run.canonical_check (x : Run) (s : State) (h : s.canonical = true) : (x.check s).canonical = true := by
  unfold Run.check
  dsimp only
  split
  · simp [h]
  · generalize hw : s.collWrite _ _ _ = r
    have hr : r.2.canonical = true := hw ▸ s.canonical_collWrite _ _ _ h
    obtain ⟨_ | _, t⟩ := r <;> simp_all

@[simp] theorem Run.canonical_settle (x : Run) (s : State) (h : s.canonical = true) : (x.settle s).canonical = true := by simp [Run.settle, h]
@[simp] theorem Run.canonical_progress (x : Run) (s : State) (h : s.canonical = true) : (x.progress s).canonical = true := by
  unfold Run.progress
  generalize hp : (if x.r.rop = 0 then x.agree s else (x, s)) = p
  have hs : p.2.canonical = true := by rw [← hp]; split <;> simp [h]
  obtain ⟨y, t⟩ := p
  have hc := y.contribs_canonical t
  dsimp only
  split
  · split <;> simp_all
  · simp_all

@[simp] theorem State.canonical_moveBucket (s : State) (h i : Nat) (hs : s.canonical = true) : (s.moveBucket h i).canonical = true := by
  unfold State.moveBucket
  split <;> simp [hs]

@[simp] theorem State.canonical_endFormer (s : State) (gid step attempt : Nat) (h : s.canonical = true) :
    (s.endFormer gid step attempt).canonical = true := by
  refine State.canonical_foldl _ _ (fun t i ht => State.canonical_foldl _ _ (fun u k hu => ?_) t ht) s h
  split
  · split <;> simp [hu]
  · exact hu

@[simp] theorem State.canonical_endPublishes (s : State) (b gid step : Nat) (h : s.canonical = true) :
    (s.endPublishes b gid step).canonical = true := by
  refine State.canonical_foldl _ _ (fun t i ht => State.canonical_foldl _ _ (fun u c hu => ?_) t ht) s h
  split <;> simp [hu]

@[simp] theorem canonical_startOpen (s : State) (h : Nat) (c : CollCmd) (g : Group) (hs : s.canonical = true) :
    (startOpen s h c g).canonical = true := by
  have hended :
      ((s.endFormer c.gid c.step c.attempt).setGroup h c.gid { g with epoch := some (c.step, c.attempt), opened := true }).canonical = true := by
    simp [hs]
  unfold startOpen
  dsimp only
  split
  · simp [hs]
  · split <;> simp [hs, hended]

@[simp] theorem canonical_startBucket (s : State) (h : Nat) (c : CollCmd) (g : Group) (hs : s.canonical = true) :
    (startBucket s h c g).canonical = true := by
  have hread := s.readSplit_canonical c g
  unfold startBucket
  dsimp only
  split
  · simp [hs]
  · split
    · simp [hs]
    · split
      · simp [hs]
      · generalize s.readSplit c g = r at hread
        obtain ⟨_ | bytes, t⟩ := r
        · simp_all
        · have ht : t.canonical = true := hread.trans hs
          dsimp only
          generalize (if (bucketReq g c).all = true then ([] : List Nat) else (upto g.members.length).map fun m => bytesAt bytes (4 * m) 4) = lens
          split
          · simp [ht]
          · split
            · simp [ht]
            · rw [State.setEngine_canonical]
              split <;> simp [ht]

@[simp] theorem canonical_startClose (s : State) (h : Nat) (c : CollCmd) (g : Group) (hs : s.canonical = true) :
    (startClose s h c g).canonical = true := by
  simp [startClose, hs]

@[simp] theorem canonical_startPublish (s : State) (h : Nat) (c : CollCmd) (g : Group) (hs : s.canonical = true) :
    (startPublish s h c g).canonical = true := by
  simp [startPublish, hs]

@[simp] theorem canonical_doPublishProceed (s : State) (h n : Nat) (hs : s.canonical = true) : (doPublishProceed s h n).canonical = true := by
  unfold doPublishProceed
  dsimp only
  (repeat' split) <;> simp [hs]

@[simp] theorem State.canonical_finishGather (s : State) (h : Nat) (x : Gather) (elems : Nat) (hs : s.canonical = true) :
    (s.finishGather h x elems).canonical = true := by
  refine State.canonical_endColl _ _ _ _ _ (State.canonical_writeBytes _ _ _ _ ?_)
  exact State.canonical_foldl _ _ (fun t q ht => t.canonical_writeBytes _ _ _ ht) _ (by simp [hs])

@[simp] theorem State.canonical_gatherStamp (s : State) (h : Nat) (x : Gather) (stamp : List Byte) (nfmt planes len elems : Nat)
    (hs : s.canonical = true) :
    (s.gatherStamp h x stamp nfmt planes len elems).canonical = true := by
  simp [State.gatherStamp, hs]

@[simp] theorem State.canonical_gatherBytes (s : State) (h : Nat) (x : Gather) (off : Nat) (l : List Byte) (elems : Nat) (hs : s.canonical = true) :
    (s.gatherBytes h x off l elems).canonical = true := by
  simp [State.gatherBytes, hs]

@[simp] theorem canonical_startGather (s : State) (h : Nat) (c : CollCmd) (g : Group) (hs : s.canonical = true) :
    (startGather s h c g).canonical = true := by
  unfold startGather
  dsimp only
  (repeat' split) <;> simp [hs]

@[simp] theorem State.canonical_sendMoved (s : State) (id : Nat) (trunc : Bool) (h : s.canonical = true) :
    (s.sendMoved id trunc).canonical = true := by
  simp only [State.sendMoved]
  split <;> simp [h]

@[simp] theorem State.canonical_finishRecv (s : State) (p : Post) (g : Group) (h : s.canonical = true) : (s.finishRecv p g).canonical = true := by
  have hwrite := s.canonical_collWrite p.cmd p.buf (p.got.take (min p.bytes p.peerBytes)) h
  unfold State.finishRecv
  dsimp only
  split <;> split <;> simp_all

@[simp] theorem State.canonical_recvBytes (s : State) (id off : Nat) (l : List Byte) (h : s.canonical = true) :
    (s.recvBytes id off l).canonical = true := by
  unfold State.recvBytes
  dsimp only
  (repeat' split) <;> simp [h]

@[simp] theorem State.canonical_moveBytes (s : State) (h : Nat) (p : Post) (a : Announced) (g : Group) (hs : s.canonical = true) :
    (s.moveBytes h p a g).canonical = true := by
  have hread := s.collRead_canonical p.cmd p.buf (min p.bytes a.bytes)
  unfold State.moveBytes
  dsimp only
  split <;> split <;> simp_all

@[simp] theorem State.canonical_matchPosts (s : State) (h : s.canonical = true) : s.matchPosts.canonical = true := by
  refine State.canonical_foldl _ _ (fun t p ht => ?_) s h
  dsimp only
  split
  · split
    · split <;> simp [ht]
    · exact ht
  · exact ht

@[simp] theorem canonical_startPost (s : State) (h : Nat) (c : CollCmd) (g : Group) (hs : s.canonical = true) :
    (startPost s h c g).canonical = true := by
  simp [startPost, hs]

@[simp] theorem canonical_startColl (s : State) (h : Nat) (c : CollCmd) (hs : s.canonical = true) : (startColl s h c).canonical = true := by
  unfold startColl
  (repeat' split) <;> simp [hs]

@[simp] theorem canonical_doCollDequeue (s : State) (c : Nat) (h : s.canonical = true) : (doCollDequeue s c).canonical = true := by
  simp only [doCollDequeue]
  split <;> simp [h]

@[simp] theorem canonical_doBucketDequeue (s : State) (h n : Nat) (hs : s.canonical = true) : (doBucketDequeue s h n).canonical = true := by
  unfold doBucketDequeue
  split
  · exact hs
  · next x _ =>
    have hread := x.contribs_canonical s
    split
    · simp [hs]
    · split
      · exact hs
      · split
        · simp [hs]
        · split
          · split <;> simp_all
          · dsimp only
            split <;> simp_all

@[simp] theorem State.canonical_onExp (s : State) (h b : Nat) (g : Group) (sender : Option Nat) (sub : SubHdr) (step bseq : Nat) (cfg : BucketCfg)
    (l : List (BitVec 16)) (hs : s.canonical = true) :
    (s.onExp h b g sender sub step bseq cfg l).canonical = true := by
  unfold State.onExp
  dsimp only
  split
  · simp [hs]
  · split <;> simp [hs]

@[simp] theorem State.canonical_onParams (s : State) (h b : Nat) (g : Group) (gid step attempt bseq : Nat) (cfg : BucketCfg) (member : Nat)
    (hs : s.canonical = true) :
    (s.onParams h b g gid step attempt bseq cfg member).canonical = true := by
  unfold State.onParams
  dsimp only
  split
  · simp [hs]
  · split <;> simp [hs]

@[simp] theorem State.canonical_onAgreed (s : State) (h b : Nat) (g : Group) (sub : SubHdr) (step bseq : Nat) (l : List (BitVec 16))
    (hs : s.canonical = true) :
    (s.onAgreed h b g sub step bseq l).canonical = true := by
  unfold State.onAgreed
  (repeat' split) <;> simp [hs]

@[simp] theorem State.canonical_onLanes (s : State) (h b : Nat) (g : Group) (sender : Option Nat) (sub : SubHdr) (step bseq : Nat)
    (l : List VxBlock) (hs : s.canonical = true) :
    (s.onLanes h b g sender sub step bseq l).canonical = true := by
  simp [State.onLanes, hs]

@[simp] theorem State.canonical_onBucketVerdict (s : State) (h b : Nat) (g : Group) (gid step attempt bseq status : Nat) (hs : s.canonical = true) :
    (s.onBucketVerdict h b g gid step attempt bseq status).canonical = true := by
  unfold State.onBucketVerdict
  (repeat' split) <;> simp [hs]

@[simp] theorem State.canonical_hearClose (s : State) (h gid step attempt : Nat) (f : CloseRec → CloseRec) (hs : s.canonical = true) :
    (s.hearClose h gid step attempt f).canonical = true := by
  simp [State.hearClose, hs]

@[simp] theorem State.canonical_onClose (s : State) (h b : Nat) (g : Group) (gid step attempt : Nat) (x : CloseSaid) (hs : s.canonical = true) :
    (s.onClose h b g gid step attempt x).canonical = true := by
  simp [State.onClose, hs]

@[simp] theorem State.canonical_onReady (s : State) (h b : Nat) (g : Group) (gid step attempt member : Nat) (hs : s.canonical = true) :
    (s.onReady h b g gid step attempt member).canonical = true := by
  simp [State.onReady, hs]

@[simp] theorem State.canonical_onGreq (s : State) (h b n xtag : Nat) (q : GReq) (hs : s.canonical = true) :
    (s.onGreq h b n xtag q).canonical = true := by
  unfold State.onGreq
  (repeat' split) <;> simp [hs]

@[simp] theorem State.canonical_onData (s : State) (b off xtag : Nat) (body : Payload) (h : s.canonical = true) :
    (s.onData b off xtag body).canonical = true := by
  unfold State.onData
  dsimp only
  (repeat' split) <;> simp [h]

@[simp] theorem canonical_doBucketWindow (s : State) (h n : Nat) (hs : s.canonical = true) : (doBucketWindow s h n).canonical = true := by
  unfold doBucketWindow
  (repeat' split) <;> simp [hs]

@[simp] theorem canonical_doCloseWindow (s : State) (h n : Nat) (hs : s.canonical = true) : (doCloseWindow s h n).canonical = true := by
  unfold doCloseWindow
  (repeat' split) <;> simp [hs]

@[simp] theorem canonical_doPostWindow (s : State) (h n : Nat) (hs : s.canonical = true) : (doPostWindow s h n).canonical = true := by
  unfold doPostWindow
  dsimp only
  (repeat' split) <;> simp [hs]

@[simp] theorem canonical_doGatherWindow (s : State) (h n : Nat) (hs : s.canonical = true) : (doGatherWindow s h n).canonical = true := by
  unfold doGatherWindow
  split <;> simp [hs]

@[simp] theorem State.canonical_resumeEngines (s : State) (h : s.canonical = true) : s.resumeEngines.canonical = true := by
  refine State.canonical_settleCloses _ (State.canonical_matchPosts _ (State.canonical_foldl _ _ (fun t p ht => ?_) _ ?_))
  · split
    · split <;> simp [ht]
    · exact ht
  · exact State.canonical_foldl _ _ (fun t i ht => State.canonical_foldl _ _ (fun u j hu => u.canonical_moveBucket i j hu) t ht) s h

/-! ### Traps and interrupts -/

@[simp] theorem canonical_pushS30 (s : State) (c a : Nat) (v : TReg) (h : s.canonical = true) : (pushS30 s c a v).canonical = true := by
  simp [pushS30, h, State.canonical_setTags, State.canonical_writeNat]

theorem canonical_switchStack {s t : State} {g : Nat} {p : EntryPlan} (h : s.canonical = true) (ht : switchStack s g p = .ok t) :
    t.canonical = true := by
  unfold switchStack at ht
  split at ht
  · cases ht; exact h
  · next sp _ =>
    have hpush := pushTarget_canonical s g p.level sp
    split at ht
    · cases ht
    · split at ht <;> cases ht
      simp_all

theorem canonical_lanternEntry {s t : State} {g : Nat} {r : Trap} {nested : Bool} {f : EntryFail} {par : Parity} {late : Bool}
    (h : s.canonical = true)
    (ht : lanternEntry s g r nested f par late = some t) : t.canonical = true := by
  have hstop : (stopThread s g).canonical = true := by simp [h]
  unfold lanternEntry at ht
  dsimp only at ht
  split at ht
  · cases ht
  · split at ht
    · cases ht; exact hstop
    · split at ht
      · split at ht <;> cases ht; exact hstop
      · split at ht
        · cases ht; exact hstop
        · split at ht
          · split at ht <;> cases ht; exact hstop
          · next hsw =>
            cases ht
            simp [canonical_switchStack h hsw]

@[simp] theorem canonical_enterTrap (s : State) (g : Nat) (par : Parity) (late : Bool) (h : s.canonical = true) :
    (enterTrap s g par late).canonical = true := by
  have hlantern : ∀ r nested f, ((lanternEntry (recordEntryParity s f) g r nested f par late).getD s).canonical = true := fun r nested f => by
    cases hl : lanternEntry (recordEntryParity s f) g r nested f par late with
    | none => exact h
    | some t => exact canonical_lanternEntry (by simp [h]) hl
  unfold enterTrap
  dsimp only
  split
  · exact h
  · split
    · exact h
    · split
      · exact hlantern _ _ _
      · split
        · exact hlantern _ _ _
        · next hsw => simp [canonical_switchStack h hsw]

/-! ### Waiting at the half link -/

theorem firstSome_eq_some {α β : Type} {f : α → Option β} {l : List α} {b : β} (h : firstSome f l = some b) : ∃ a ∈ l, f a = some b := by
  induction l with
  | nil => cases h
  | cons x t ih =>
    unfold firstSome at h
    split at h
    · next hx => exact ⟨x, List.mem_cons_self, hx.trans h⟩
    · obtain ⟨a, ha, hb⟩ := ih h
      exact ⟨a, List.mem_cons_of_mem _ ha, hb⟩

theorem canonical_accTimeout {s t : State} {g tk : Nat} (h : s.canonical = true) (ht : accTimeout s g tk = some t) : t.canonical = true := by
  unfold accTimeout at ht
  dsimp only at ht
  split at ht <;> cases ht
  simp [h]

theorem canonical_engineTimeout {s t : State} {g tk : Nat} (h : s.canonical = true) (ht : engineTimeout s g tk = some t) : t.canonical = true := by
  obtain ⟨o, ho, rfl⟩ := firstSome_eq_some ht
  simp only [List.mem_cons, List.not_mem_nil, or_false] at ho
  rcases ho with ho | ho | ho <;> obtain ⟨w, -, hw⟩ := Option.bind_eq_some_iff.mp ho.symm <;> split at hw
  · cases hw; simp [h]
  · cases hw
  · cases hw; simp [h]
  · cases hw
  · obtain ⟨a, -, rfl⟩ := Option.map_eq_some_iff.mp hw
    simp [h]
  · cases hw

theorem canonical_collTimeout {s t : State} {g tk : Nat} (h : s.canonical = true) (ht : collTimeout s g tk = some t) : t.canonical = true := by
  unfold collTimeout at ht
  dsimp only at ht
  split at ht
  · next hq =>
    cases ht
    split at hq
    · split at hq
      · obtain ⟨a, -, rfl⟩ := Option.map_eq_some_iff.mp hq
        simp [h]
      · cases hq
    · cases hq
  · split at ht
    · next hq =>
      cases ht
      obtain ⟨i, -, hi⟩ := firstSome_eq_some hq
      split at hi
      · split at hi
        · obtain ⟨a, -, rfl⟩ := Option.map_eq_some_iff.mp hi
          simp [h]
        · cases hi
      · cases hi
    · obtain ⟨p, -, hp⟩ := firstSome_eq_some ht
      split at hp
      · obtain ⟨a, -, rfl⟩ := Option.map_eq_some_iff.mp hp
        simp [h]
      · cases hp

theorem canonical_fetchTimeout {s t : State} {g : Nat} (h : s.canonical = true) (ht : fetchTimeout s g = some t) : t.canonical = true := by
  unfold fetchTimeout at ht
  dsimp only at ht
  split at ht
  · split at ht <;> cases ht
    simp [h]
  · cases ht

theorem canonical_trapTimeout {s t : State} {g : Nat} (h : s.canonical = true) (ht : trapTimeout s g = some t) : t.canonical = true := by
  unfold trapTimeout at ht
  split at ht <;> cases ht
  exact canonical_enterTrap _ _ _ _ h

@[simp] theorem canonical_doCrossHalfTimeout (s : State) (g tk : Nat) (h : s.canonical = true) : (doCrossHalfTimeout s g tk).canonical = true := by
  unfold doCrossHalfTimeout
  cases hf : firstSome id [accTimeout s g tk, engineTimeout s g tk, collTimeout s g tk, fetchTimeout s g, trapTimeout s g] with
  | none => exact h
  | some t =>
    obtain ⟨o, ho, rfl⟩ := firstSome_eq_some hf
    simp only [List.mem_cons, List.not_mem_nil, or_false] at ho
    rcases ho with ho | ho | ho | ho | ho
    · exact canonical_accTimeout h ho.symm
    · exact canonical_engineTimeout h ho.symm
    · exact canonical_collTimeout h ho.symm
    · exact canonical_fetchTimeout h ho.symm
    · exact canonical_trapTimeout h ho.symm

/-! ### Halting, scrubbing, snapshots -/

@[simp] theorem State.canonical_scrubCore (s : State) (c : Nat) (h : s.canonical = true) : (s.scrubCore c).canonical = true :=
  State.canonical_scrubRange _ _ _ (by simp [h])

@[simp] theorem State.canonical_scrubGranule (s : State) (g : Nat) (h : s.canonical = true) : (s.scrubGranule g).canonical = true := by
  simp [State.scrubGranule, h, State.canonical_scrubRange]

@[simp] theorem State.canonical_scrubBinding (s : State) (b : Nat) (h : s.canonical = true) : (s.scrubBinding b).canonical = true :=
  State.canonical_foldl _ _ State.canonical_scrubGranule _ (State.canonical_foldl _ _ State.canonical_scrubCore s h)

@[simp] theorem canonical_doCaptureComplete (s : State) (b : Nat) (h : s.canonical = true) : (doCaptureComplete s b).canonical = true := by
  unfold doCaptureComplete
  dsimp only
  split
  · split
    · refine State.canonical_settleCloses _ ((State.sendCellar_canonical ..).trans ((State.sendCellar_canonical ..).trans ?_))
      exact (State.setBinding_canonical ..).trans (State.canonical_writeBytes _ _ _ _ h)
    · exact h
  · exact h

@[simp] theorem canonical_doDrainComplete (s : State) (b : Nat) (h : s.canonical = true) : (doDrainComplete s b).canonical = true := by
  simp only [doDrainComplete]
  split <;> simp [h]

/-! ### Translation tables -/

@[simp] theorem State.canonical_putEntry (s : State) (a : Nat) (e : Word) (h : s.canonical = true) : (s.putEntry a e).canonical = true := by
  simp [State.putEntry, h, State.canonical_writeNat]

theorem State.canonical_mapAt {s t : State} {b va tgt : Nat} {e : Word} {lv tb : Nat} (h : s.canonical = true)
    (ht : s.mapAt b va tgt e lv tb = some t) : t.canonical = true := by
  induction lv generalizing s tb with
  | zero => cases ht; simp [h]
  | succ lv ih =>
    unfold State.mapAt at ht
    dsimp only at ht
    split at ht
    · cases ht; simp [h]
    · split at ht
      · exact ih h ht
      · cases ht
      · split at ht
        · cases ht
        · exact ih (State.canonical_putEntry _ _ _ ((State.setBinding_canonical ..).trans (s.canonical_scrubRange _ _ h))) ht

theorem State.canonical_getD_mapAt (s : State) (b va tgt : Nat) (e : Word) (lv tb : Nat) (h : s.canonical = true) :
    ((s.mapAt b va tgt e lv tb).getD s).canonical = true := by
  cases ht : s.mapAt b va tgt e lv tb with
  | none => exact h
  | some t => exact State.canonical_mapAt h ht

@[simp] theorem State.canonical_unmapLeaf (s : State) (b : Nat) (l : Leaf) (h : s.canonical = true) : (s.unmapLeaf b l).canonical = true :=
  s.canonical_getD_mapAt _ _ _ _ _ _ h

@[simp] theorem State.canonical_buildTables (s : State) (b : Nat) (l : List Leaf) (h : s.canonical = true) :
    (s.buildTables b l).canonical = true := by
  unfold State.buildTables
  split
  · simp [h]
  · rw [State.retranslate_canonical]
    refine State.canonical_foldl _ _ (fun t x ht => t.canonical_getD_mapAt _ _ _ _ _ _ ht) _ ?_
    exact (State.setBinding_canonical ..).trans (s.canonical_scrubRange _ _ h)

@[simp] theorem State.canonical_unmapGranules (s : State) (b : Nat) (gs : List Nat) (h : s.canonical = true) :
    (s.unmapGranules b gs).canonical = true := by
  refine (State.retranslate_canonical _ _ _).trans ((State.flushLeaves_canonical _ _ _).trans ?_)
  exact State.canonical_foldl _ _ (fun t l ht => t.canonical_unmapLeaf b l ht) s h

@[simp] theorem State.canonical_settleTables (s : State) (b : Nat) (leaves : List Leaf) (h : s.canonical = true) :
    (s.settleTables b leaves).canonical = true := by
  simp [State.settleTables, h]

theorem State.canonical_mapApply {s t : State} {b : Nat} {rs : List MapRec} (h : s.canonical = true) (ht : s.mapApply b rs = some t) :
    t.canonical = true := by
  unfold State.mapApply at ht
  obtain ⟨u, hu, rfl⟩ := Option.map_eq_some_iff.mp ht
  rw [State.flushLeaves_canonical]
  refine List.foldlRecOn (motive := fun o : Option State => ∀ u, o = some u → u.canonical = true) rs _ ?_ ?_ u hu
  · rintro _ ⟨⟩; exact h
  · intro o ho r _ u hu
    obtain ⟨v, rfl, hv⟩ := Option.bind_eq_some_iff.mp hu
    split at hv
    · exact State.canonical_mapAt (ho v rfl) hv
    · cases hv; simp [ho v rfl]

/-! ### The fabric -/

@[simp] theorem State.canonical_moveAll (s : State) (h : Nat) (hs : s.canonical = true) : (s.moveAll h).canonical = true :=
  State.canonical_foldl _ _ (fun t i ht => t.canonical_moveBucket h i ht) s hs

@[simp] theorem canonical_doPacketInject (s : State) (h i : Nat) (hs : s.canonical = true) : (doPacketInject s h i).canonical = true := by
  unfold doPacketInject
  dsimp only
  (repeat' split) <;> simp [hs]

@[simp] theorem State.canonical_loseDrain (s : State) (b : Nat) (h : s.canonical = true) : (s.loseDrain b).canonical = true := by
  simp only [State.loseDrain]
  split <;> simp [h]

@[simp] theorem State.canonical_peerLost (s : State) (b : Nat) (t : PType) (step xtag : Nat) (body : Payload) (h : s.canonical = true) :
    (s.peerLost b t step xtag body).canonical = true := by
  unfold State.peerLost
  dsimp only
  split
  · split <;> simp [h]
  · split <;> simp [h]
  · split <;> simp [h]
  · split
    · simp [h]
    · split
      · split <;> simp [h]
      · exact h
  · refine State.canonical_foldl _ _ (fun t i ht => ?_) s h
    split
    · split <;> simp [ht]
    · exact ht
  · refine State.canonical_foldl _ _ (fun t i ht => ?_) s h
    split
    · split <;> simp [ht]
    · exact ht
  · exact h

@[simp] theorem State.canonical_waitedFlow (s : State) (k : FlowKey) (h : s.canonical = true) : (s.waitedFlow k).canonical = true := by
  unfold State.waitedFlow
  split <;> simp [h]

@[simp] theorem canonical_doRetransmit (s : State) (k : FlowKey) (psn : Nat) (h : s.canonical = true) : (doRetransmit s k psn).canonical = true := by
  unfold doRetransmit
  dsimp only
  (repeat' split) <;> simp [h]

@[simp] theorem State.canonical_onVerdict (s : State) (h : Nat) (k : Packet) (gid attempt : Nat) (v : Verdict) (hs : s.canonical = true) :
    (s.onVerdict h k gid attempt v).canonical = true := by
  unfold State.onVerdict
  (repeat' split) <;> simp [hs]

@[simp] theorem State.canonical_deliver (s : State) (h : Nat) (k : Packet) (hs : s.canonical = true) : (s.deliver h k).canonical = true := by
  unfold State.deliver
  (repeat' split) <;> simp [hs, State.canonical_writeBytes]

@[simp] theorem State.canonical_drainHeld (s : State) (h : Nat) (key : FlowKey) (n : Nat) (hs : s.canonical = true) :
    (s.drainHeld h key n).canonical = true := by
  induction n generalizing s with
  | zero => exact hs
  | succ n ih =>
    unfold State.drainHeld
    dsimp only
    split
    · exact hs
    · exact ih _ (by simp [hs])

@[simp] theorem State.canonical_flowArrive (s : State) (h : Nat) (cls : FlowClass) (k : Packet) (hs : s.canonical = true) :
    (s.flowArrive h cls k).canonical = true := by
  simp [State.flowArrive, hs]

theorem State.canonical_receive (s : State) (p : Nat) (t : PType) (pick : State → Nat → Packet → Bool) {go : State → Nat → Packet → State}
    (hgo : ∀ s h k, s.canonical = true → (go s h k).canonical = true) (h : s.canonical = true) : (s.receive p t pick go).canonical = true := by
  unfold State.receive
  dsimp only
  split
  · exact h
  · split
    · exact h
    · split
      · simp [h]
      · split <;> simp [hgo, h]

@[simp] theorem canonical_doFlowReceive (s : State) (p : Nat) (t : PType) (h : s.canonical = true) : (doFlowReceive s p t).canonical = true :=
  s.canonical_receive _ _ _ (fun _ _ _ hs => State.canonical_flowArrive _ _ _ _ hs) h

@[simp] theorem canonical_doVerdictReceive (s : State) (p : Nat) (h : s.canonical = true) : (doVerdictReceive s p).canonical = true :=
  s.canonical_receive _ _ _ (fun _ _ _ hs => State.canonical_flowArrive _ _ _ _ hs) h

@[simp] theorem canonical_doRollbackReceive (s : State) (p : Nat) (h : s.canonical = true) : (doRollbackReceive s p).canonical = true :=
  s.canonical_receive _ _ _ (fun _ _ _ hs => State.canonical_flowArrive _ _ _ _ hs) h

@[simp] theorem canonical_doExpReceive (s : State) (p : Nat) (h : s.canonical = true) : (doExpReceive s p).canonical = true := by
  refine s.canonical_receive _ _ _ (fun t i k ht => ?_) h
  split
  · split <;> simp [ht]
  · exact ht

@[simp] theorem canonical_doAgreedReceive (s : State) (p : Nat) (h : s.canonical = true) : (doAgreedReceive s p).canonical = true := by
  refine s.canonical_receive _ _ _ (fun t i k ht => ?_) h
  split
  · split <;> simp [ht]
  · exact ht

@[simp] theorem canonical_doLanesReceive (s : State) (p : Nat) (h : s.canonical = true) : (doLanesReceive s p).canonical = true := by
  refine s.canonical_receive _ _ _ (fun t i k ht => ?_) h
  split
  · split <;> simp [ht]
  · exact ht

/-! ### The half link and primacy -/

@[simp] theorem State.canonical_enterUp (s : State) (h : s.canonical = true) : s.enterUp.canonical = true := by
  simp only [State.enterUp]
  split <;> simp [h]

/-! ### Power and resets -/

@[simp] theorem State.canonical_resetHalf (s : State) (h : Nat) (stage : Stage') (held : Bool) (hs : s.canonical = true) :
    (s.resetHalf h stage held).canonical = true := by
  simp [State.resetHalf, hs, State.canonical_forget]

@[simp] theorem State.canonical_powerLoss (s : State) : s.powerLoss.canonical = true := by simp [State.powerLoss]
@[simp] theorem canonical_doModuleReset (s : State) (us : Nat) (h : s.canonical = true) : (doModuleReset s us).canonical = true := by
  simp [doModuleReset, h]

@[simp] theorem State.canonical_resetHalfNow (s : State) (h : Nat) (hs : s.canonical = true) : (s.resetHalfNow h).canonical = true := by
  simp [State.resetHalfNow, hs]

@[simp] theorem canonical_doPowerUp (s : State) (mv : Nat) (h : s.canonical = true) : (doPowerUp s mv).canonical = true := by simp [doPowerUp, h]
@[simp] theorem canonical_doVinLoss (s : State) (mv : Nat) (h : s.canonical = true) : (doVinLoss s mv).canonical = true := by simp [doVinLoss, h]
@[simp] theorem canonical_doClipBreak (s : State) : (doClipBreak s).canonical = true := by simp [doClipBreak]
@[simp] theorem canonical_doSmbusResetModule (s : State) (pec : Bool) (h : s.canonical = true) : (doSmbusResetModule s pec).canonical = true := by
  simp [doSmbusResetModule, h]

/-! ### Commands -/

@[simp] theorem State.canonical_setGrant (s : State) (b n : Nat) (gs : List Nat) (on : Bool) (h : s.canonical = true) :
    (s.setGrant b n gs on).canonical = true := by
  have hunmapped := s.canonical_unmapGranules b gs h
  unfold State.setGrant
  dsimp only
  split
  · exact State.canonical_foldl _ _ State.canonical_scrubGranule _ (by simp [hunmapped])
  · exact State.canonical_settleTables _ _ _ (State.canonical_foldl _ _ State.canonical_scrubGranule _ (by simp [hunmapped]))

theorem State.canonical_command {s : State} {f seq opc : Nat} {run : Cmd → State} (h : s.canonical = true) (hrun : ∀ c, (run c).canonical = true) :
    (s.command f seq opc run).canonical = true := by
  unfold State.command
  split
  · exact hrun _
  · exact h

@[simp] theorem canonical_doCellarGrant (s : State) (f seq : Nat) (h : s.canonical = true) : (doCellarGrant s f seq).canonical = true := by
  refine State.canonical_command h fun c => ?_
  simp [h]

@[simp] theorem canonical_doMap (s : State) (f seq : Nat) (h : s.canonical = true) : (doMap s f seq).canonical = true := by
  refine State.canonical_command h fun c => ?_
  dsimp only
  split
  · simp [h]
  · split
    · simp [h]
    · next ht => simp [State.canonical_mapApply h ht]

@[simp] theorem State.canonical_giveCores (s : State) (l : List Nat) (b : Option Nat) (press : Nat) (h : s.canonical = true) :
    (s.giveCores l b press).canonical = true :=
  State.canonical_foldl _ _ (fun t k ht => by simp [ht]) s h

@[simp] theorem State.canonical_giveGranules (s : State) (l : List Nat) (b : Option Nat) (h : s.canonical = true) :
    (s.giveGranules l b).canonical = true :=
  (State.mk_canonical _ ..).trans (State.canonical_foldl _ _ State.canonical_scrubGranule s h)

@[simp] theorem canonical_doBind (s : State) (f seq : Nat) (h : s.canonical = true) : (doBind s f seq).canonical = true := by
  refine State.canonical_command h fun c => ?_
  dsimp only
  split
  · simp [h]
  · split
    · simp [h]
    · refine (State.doneCmd_canonical ..).trans (State.canonical_buildTables _ _ _ ?_)
      simp [h]

@[simp] theorem State.canonical_moveResources (s : State) (h src dst : Nat) (r : ResList) (hs : s.canonical = true) :
    (s.moveResources h src dst r).canonical = true := by
  unfold State.moveResources
  refine State.canonical_settleTables _ _ _ ((State.clearPartners_canonical _ _ _).trans ?_)
  refine State.canonical_giveGranules _ _ _ (State.canonical_giveCores _ _ _ _ (State.canonical_settleTables _ _ _ ?_))
  simp [hs]

@[simp] theorem canonical_doUnbind (s : State) (f seq : Nat) (h : s.canonical = true) : (doUnbind s f seq).canonical = true := by
  refine State.canonical_command h fun c => ?_
  dsimp only
  split
  · simp [h]
  · have hcores := State.canonical_giveCores
    refine (State.doneCmd_canonical ..).trans ((State.setBinding_canonical ..).trans ?_)
    rw [State.mk_canonical, State.clearGroups_canonical, State.clearPartners_canonical]
    refine State.canonical_giveGranules _ _ _ (State.canonical_giveCores _ _ _ _ ?_)
    simp [h]

@[simp] theorem State.canonical_beginRestore (s : State) (b : Nat) (keepnet : Bool) (src : Option RestoreFrom) (step : Option Nat)
    (h : s.canonical = true) :
    (s.beginRestore b keepnet src step).canonical = true := by
  simp [State.beginRestore, h]

@[simp] theorem State.canonical_restoreBy (s : State) (c : Cmd) (h : s.canonical = true) : (s.restoreBy c).canonical = true := by
  simp [State.restoreBy, h]

@[simp] theorem State.canonical_writeBack (s : State) (b : Nat) (d : SnapSlot) (data : List (Word × List Byte)) (h : s.canonical = true) :
    (s.writeBack b d data).canonical = true := by
  unfold State.writeBack
  dsimp only
  rw [State.ite_canonical, State.restoreRecord_canonical, ite_self]
  refine State.canonical_foldl _ _ (fun t r ht => ?_) _ (s.canonical_buildTables b d.maps h)
  split
  · exact ht
  · next k _ =>
    have hrun := (t.xlatRun_canonical k 1 .wr r.1 r.2.length).trans ht
    generalize t.xlatRun k 1 .wr r.1 r.2.length = q at hrun
    obtain ⟨_ | ps, u⟩ := q <;> simp_all [State.canonical_writePieces]

@[simp] theorem canonical_doRestoreComplete (s : State) (b : Nat) (h : s.canonical = true) : (doRestoreComplete s b).canonical = true := by
  unfold doRestoreComplete
  split <;> simp [h]

@[simp] theorem State.canonical_repaired (s : State) (u : BitVec 16) (h : s.canonical = true) : (s.repaired u).canonical = true := by
  refine State.canonical_foldl _ _ (fun t b ht => ?_) s h
  split
  · split <;> simp [ht]
  · exact ht

@[simp] theorem State.canonical_spareCore (s : State) (c : Nat) (h : s.canonical = true) : (s.spareCore c).canonical = true := by
  simp [State.spareCore, h]

theorem State.canonical_repairUnit {s t : State} {u : BitVec 16} {r : RepairKind} (h : s.canonical = true) (ht : s.repairUnit u r = some t) :
    t.canonical = true := by
  unfold State.repairUnit at ht
  dsimp only at ht
  split at ht <;> [split at ht; split at ht; split at ht; split at ht; split at ht; skip] <;> cases ht <;> simp [h]

@[simp] theorem canonical_doRepairComplete (s : State) (u : BitVec 16) (r : RepairKind) (h : s.canonical = true) :
    (doRepairComplete s u r).canonical = true := by
  unfold doRepairComplete
  split
  · exact h
  · split
    · next hr => simp [State.canonical_repairUnit h hr]
    · simp [h]

end Sys2Proof.Machine
end

section
/-! Every step keeps memory and the press tags in canonical form (O60): the bodies of the instructions, the rows, and the step. -/

namespace Sys2Proof.Machine

/-! ### Results of a body -/

@[simp] theorem Res.keeps_trap (s : State) (c : Cond) (b : Bool) : (Res.trap c b).keeps s := trivial
@[simp] theorem Res.keeps_ok {s t : State} {th : Thread} {flow : Next} : (Res.ok t th flow).keeps s ↔ t.canonical = s.canonical := Iff.rfl
theorem Res.keeps_ite {p : Prop} [Decidable p] {s : State} {a b : Res} (ha : a.keeps s) (hb : b.keeps s) : (if p then a else b).keeps s := by
  split <;> assumption

/-! ### Bodies -/

@[simp] theorem FixedOp.res_keeps (r : FixedOp) (x : Ctx) : (r.res x).keeps x.s := by
  unfold FixedOp.res
  split <;> simp

theorem longRes_keeps {x : Ctx} {body : Body} (h : (body x).keeps x.s) : (longRes x body).keeps x.s := Res.keeps_ite trivial h

@[simp] theorem pairRes_keeps (x : Ctx) (fop : Op → FBody) (regs : Fields → Thread → SlotRegs) : (pairRes x fop regs).keeps x.s := by
  unfold pairRes
  dsimp only
  (repeat' split) <;> simp

@[simp] theorem fixedBody_keeps (fb : FBody) (x : Ctx) : (fixedBody fb x).keeps x.s := by simp [fixedBody]
@[simp] theorem calcBody_keeps (srcs : Fields → List (Nat × Accept)) (val : Fields → Thread → TReg × FFlags) (x : Ctx)
    : (calcBody srcs val x).keeps x.s := by
  unfold calcBody
  split <;> simp

@[simp] theorem memBody_keeps (srcs : Fields → List (Nat × Accept)) (dsts : Fields → List Nat) (op : Fields → Thread → AccOp) (x : Ctx)
    : (memBody srcs dsts op x).keeps x.s := by
  unfold memBody
  dsimp only
  split
  · trivial
  · exact rfl

@[simp] theorem vecMemBody_keeps (load : Bool) (x : Ctx) : (vecMemBody load x).keeps x.s := by
  unfold vecMemBody
  dsimp only
  split
  · trivial
  · split
    · trivial
    · exact rfl

@[simp] theorem tdescBody_keeps (x : Ctx) : (tdescBody x).keeps x.s := by
  unfold tdescBody
  dsimp only
  (repeat' split) <;> simp

@[simp] theorem dinfoBody_keeps (x : Ctx) : (dinfoBody x).keeps x.s := by
  unfold dinfoBody
  split
  · trivial
  · split <;> simp

@[simp] theorem dinfoRetireBody_keeps (x : Ctx) : (dinfoRetireBody x).keeps x.s := by
  unfold dinfoRetireBody
  dsimp only
  split
  · trivial
  · split <;> simp

@[simp] theorem gatherBody_keeps (gather : Bool) (x : Ctx) : (gatherBody gather x).keeps x.s := by
  unfold gatherBody
  dsimp only
  split
  · trivial
  · split
    · trivial
    · split <;> simp

@[simp] theorem queueTile_keeps (x : Ctx) (k : Core) (op : TileOp) : (queueTile x k op).keeps x.s := by simp [queueTile]
@[simp] theorem tcfgBody_keeps (x : Ctx) : (tcfgBody x).keeps x.s := by
  unfold tcfgBody
  split
  · trivial
  · split <;> simp

theorem withDesc_keeps {x : Ctx} {go : Desc → Int → Res} (hgo : ∀ d l, (go d l).keeps x.s) (shape : Option Cond) (check : Desc → Option Nat)
    (extra : List (Nat × Accept)) : (withDesc x shape check go extra).keeps x.s := by
  unfold withDesc
  split
  · trivial
  · split
    · trivial
    · split
      · trivial
      · exact hgo _ _

@[simp] theorem tldBody_keeps (col : Bool) (x : Ctx) : (tldBody col x).keeps x.s :=
  withDesc_keeps (fun _ _ => queueTile_keeps _ _ _) _ _ _

@[simp] theorem tstBody_keeps (x : Ctx) : (tstBody x).keeps x.s :=
  withDesc_keeps (fun _ _ => queueTile_keeps _ _ _) _ _ _

@[simp] theorem tsbBody_keeps (x : Ctx) : (tsbBody x).keeps x.s := by
  unfold tsbBody
  dsimp only
  refine withDesc_keeps (fun _ _ => ?_) _ _ _
  split
  · trivial
  · exact queueTile_keeps _ _ _

@[simp] theorem tshiftBody_keeps (x : Ctx) : (tshiftBody x).keeps x.s := by
  simp only [tshiftBody]
  split <;> simp

@[simp] theorem tmmaBody_keeps (x : Ctx) : (tmmaBody x).keeps x.s := by
  simp only [tmmaBody]
  split <;> simp

@[simp] theorem tzeroBody_keeps (x : Ctx) : (tzeroBody x).keeps x.s := by
  unfold tzeroBody
  dsimp only
  split
  · trivial
  · split <;> simp

@[simp] theorem trelBody_keeps (x : Ctx) : (trelBody x).keeps x.s := by
  unfold trelBody
  split <;> simp

@[simp] theorem twaitBody_keeps (x : Ctx) : (twaitBody x).keeps x.s := by
  unfold twaitBody
  split <;> simp

@[simp] theorem queueChain_keeps (x : Ctx) (op : ChainOp) (dst : List Nat) : (queueChain x op dst).keeps x.s := by simp [queueChain]
@[simp] theorem vchainBody_keeps (x : Ctx) : (vchainBody x).keeps x.s := by
  unfold vchainBody
  split <;> simp

@[simp] theorem vflowBody_keeps (x : Ctx) : (vflowBody x).keeps x.s := by
  unfold vflowBody
  dsimp only
  (repeat' split) <;> simp

@[simp] theorem collBody_keeps (op : CollOp) (x : Ctx) : (collBody op x).keeps x.s := by
  simp only [collBody]
  split <;> simp

@[simp] theorem condBranchBody_keeps (want : Bool) (x : Ctx) : (condBranchBody want x).keeps x.s := by
  unfold condBranchBody
  split <;> simp

@[simp] theorem callBody_keeps (x : Ctx) : (callBody x).keeps x.s := by
  unfold callBody
  split <;> simp

@[simp] theorem callrBody_keeps (x : Ctx) : (callrBody x).keeps x.s := by
  simp only [callrBody]
  split <;> simp

@[simp] theorem jrBody_keeps (x : Ctx) : (jrBody x).keeps x.s := by
  simp only [jrBody]
  split <;> simp

@[simp] theorem retBody_keeps (x : Ctx) : (retBody x).keeps x.s := by
  unfold retBody
  dsimp only
  split
  · trivial
  · split
    · trivial
    · split <;> simp

@[simp] theorem awaitBody_keeps (x : Ctx) : (awaitBody x).keeps x.s := by
  simp only [awaitBody]
  split <;> simp

@[simp] theorem tkpollBody_keeps (x : Ctx) : (tkpollBody x).keeps x.s := by
  simp only [tkpollBody]
  split <;> simp

@[simp] theorem startRepeat_keeps (x : Ctx) (isRepi : Bool) (n : Nat) : (startRepeat x isRepi n).keeps x.s := by
  unfold startRepeat
  split <;> simp

@[simp] theorem repBody_keeps (x : Ctx) : (repBody x).keeps x.s := by
  unfold repBody
  split <;> simp

@[simp] theorem repiBody_keeps (x : Ctx) : (repiBody x).keeps x.s := by
  unfold repiBody
  dsimp only
  (repeat' split) <;> simp

@[simp] theorem modeRes_keeps (x : Ctx) (mask : Nat) : (modeRes x mask).keeps x.s := by
  unfold modeRes
  dsimp only
  split
  · trivial
  · split
    · trivial
    · split <;> simp

@[simp] theorem csrrBody_keeps (x : Ctx) : (csrrBody x).keeps x.s := by
  unfold csrrBody
  split <;> simp

@[simp] theorem csrwBody_keeps (x : Ctx) : (csrwBody x).keeps x.s := by
  unfold csrwBody
  dsimp only
  (repeat' split) <;> simp

@[simp] theorem eretBody_keeps (x : Ctx) : (eretBody x).keeps x.s := by
  unfold eretBody
  split
  · trivial
  · split <;> simp

/-- No body writes memory: a store writes when its access is performed. -/
theorem bodyOf_keeps (o : Op) (x : Ctx) : (bodyOf o x).keeps x.s := by
  cases o <;> simp [bodyOf, divBody, fdivBody, fsqrtBody, loadBody, ldtBody, stBody, sttBody, amoBody, mbarBody, bBody, msetBody, ifenceBody,
      ecallBody,
    brkBody, tendBody]

/-! ### Words that issue -/

theorem issueLong_canonical {body : Body} (hbody : ∀ x, (body x).keeps x.s) (s : State) (g : Nat) (w : Word) (join : Bool) :
    (issueLong s g w body join).canonical = s.canonical := finish_canonical (longRes_keeps (hbody _))

theorem issuePair_canonical (s : State) (g : Nat) (w : Word) (fop : Op → FBody) (regs : Fields → Thread → SlotRegs) :
    (issuePair s g w fop regs).canonical = s.canonical := finish_canonical (pairRes_keeps _ _ _)

theorem canonical_issueRow {o : Op} {g : Nat} {w : Word} {s t : State} (hs : s.canonical = true)
    (ht : issueRow o (bodyOf o) g w s = .next t) : t.canonical = true := by
  unfold issueRow at ht
  split at ht
  · cases ht
    simp [issueLong_canonical (bodyOf_keeps o), issuePair_canonical, hs]
  · cases ht

@[simp] theorem doRepeat_canonical (s : State) (g : Nat) (w : Word) : (doRepeat s g w).canonical = s.canonical := by
  unfold doRepeat
  dsimp only
  split
  · rfl
  · next r _ =>
    split
    · rfl
    · split
      · simp
      · generalize hx : Ctx.mk s g ((s.thread g).iterate (r.begin w)) (wordFieldsOf w) w (r.begin w).joins = x
        have hr : (if isPair w then pairRes x fopOf pairRegs else longRes x (bodyOf (opOf w))).keeps x.s :=
          Res.keeps_ite (pairRes_keeps _ _ _) (longRes_keeps (bodyOf_keeps _ _))
        obtain rfl : x.s = s := by rw [← hx]
        generalize (if isPair w then pairRes x fopOf pairRegs else longRes x (bodyOf (opOf w))) = res at hr
        cases res with
        | trap c slotb => simp
        | ok t th flow => simp [Res.keeps_ok.mp hr]

/-! ### The step -/

/-- A command of the queue keeps the form, a row of an instruction and an event alike. -/
theorem canonical_exec {c : Instr} {s t : State} (hs : s.canonical = true) (ht : exec c s = .next t) : t.canonical = true := by
  cases c with
  | nop | li | add | sub | andI | orI | xorI | shl | shr | sra | minI | maxI | sel | mov | tagof | mul | mulh | mulhu | div | divu | rem | remu
  | fadd | fsub | fmul | ffma | fmin | fmax | fdiv | fsqrt | cmp | fcmp | pand | por | pnot | mkptr | ptrint | fbits | bitsf | itof | ftoi | smv
  | b | bt | bf | call | callr | jr | ret | ld | ldf | ldp | ldt | st | stt | amo | mbar | tcfg | tld | tldc | tst | tsb | tshift | tmma | tzero
  | trel | twait | vld | vst | vmov | vbcast | vadd | vsub | vmul | vfma | vmulw | vdotw | vcvt | vred | vchain | vflow | tdesc | dinfo
  | dinfoRetire | dgth | dsct | pgather | cbktOpen | cbktBucket | cbktClose | cbktPublish | csend | crecv | await | tkpoll | rep | repi | mset
  | csrr | csrw | ifence | ecall | brk | eret | tend => exact canonical_issueRow hs ht
  | fixedResultCommit | repeatIteration | fetchReturn | ticketComplete | ticketFault | tendComplete | trapEntry | interruptTaken | timerCompare =>
    cases ht
    simp [hs, doTicketComplete, doTendComplete, doTrapEntry, doTimerCompare]
  | vectorOpStart | tileQueueExecute | tileInstructionComplete | chainQueueExecute | vchainComplete | vflowComplete | descriptorQueueExecute
  | translationWalkRead | memAccessPerformed | l1LineFill | crossHalfAccessTimeout | meshFlitReceive =>
    cases ht
    simp [hs, startVec, doLineFill]
  | hbmReadReturn | hbmRefresh | fabricFlitReceive | portRetrainComplete | spareLaneRotation | packetInject | packetForward | dataReceive
  | expReceive | agreedExponentReceive | lanesReceive | verdictReceive | greqReceive | cellarReceive | beaconReceive | beaconKeyTimeout
  | helloSend | helloReceive | ackfReceive | ackfSend | packetRetransmitTimeout | portOutputStallTimeout | portDrainedEnd | queueDepthSample
  | equaliserAdapt | rollbackNoticeReceive =>
    cases ht
    simp [hs, doRefresh, doFabricFlit, onHalf, doHelloSend, doOutputStall, doDrainedEnd, doDepthSample, doEqualiser]
  | portTrainingComplete | portTrainingRetry | coreFrequencyLoop | droopTrip | droopStretchEnd | thermalLoop | powerCapLoop | thermalTrip
  | thermalTripTimeout | vinWarning | vinLossTimeout | railFault | powerUp | keeperBoot | hbmTrainingComplete | kuwickReady | endpointLinkTrained
  | pwrEnLow | pwrEnHigh | clipPresenceBreak | moduleReset | halfReset | keeperReset | keeperStandbyReturn | noKeeperTimeout | endpointReset
  | functionLevelReset | smbusTelemetry | smbusFaultRecords | smbusResetHalf | smbusResetModule | smbusRecoveryImageWrite | smbusDeviceKey
  | smbusOwnerKey | jtagBypass | jtagIdcode | jtagSamplePreload | jtagExtest | halfResetRelease | moduleResetRelease =>
    cases ht
    simp [hs, doPortTraining, doPortRetry, doFreqLoop, doDroop, doDroopEnd, doThermalLoop, onHalf, doPowerCap, doThermalTrip, doTripTimeout,
      doVinWarning, doHbmTraining, doKuwickReady, doEndpointTrained, doPwrEnLow, doPwrEnHigh, doHalfReset, doKeeperReset, doNoKeeper,
      doEndpointReset, doFlr, doTelemetry, doFaultRecords, doSmbusResetHalf, doRecoveryImage, doDeviceKey, doExtest, doHalfRelease,
      doModuleRelease]
  | heartbeatSend | heartbeatReceive | heartbeatTimeout | halfLinkFlitReceive | halfLinkRetrainComplete | halfLinkDownTimeout | halfLinkUp
  | halfLinkTrainingComplete | journalEntryReceive | journalAckReceive | completionRecordReceive =>
    cases ht
    simp [hs, onHalf, doHeartbeatSend, doHeartbeatTimeout, doLinkRetrained, doLinkDown, doLinkUp, doLinkTraining]
  | kwSqTailWrite | ringEnable | ringDisable | sqEntryRead | commandFinal | nopCommand | query | launch | abort | irqSet | rack | partnerLoad
  | groupSet | preempt | resume | cellarGrant | cellarClient | cellarRevoke | mapC | bind | rebind | unbind | primacySet | fabricIdSet | keySet
  | keyClear | eventCfg | selftest | selftestSpareOk | restore | fwUpdate | registerWrite =>
    cases ht
    simp [hs, onHalf, doNop, doQuery, doAbort, doIrqSet, doRack, doPartnerLoad, doGroupSet, doPreempt, doCellarClient, doCellarRevoke,
      doRebind, doFabricIdSet, doKeyClear, doEventCfg, doSelftest, doSelftestSpare, doRestore, doFwUpdate]
  | crEpcWrite | crEstatWrite | crFflagsWrite | tlStatRead | tlStatWrite | vcStatRead | dsOobcntRead | mcStallRead | mcStallctlClr | mcParcntRead
  | hbStatRead | ceBucketWrite | ceStatRead | skRxerrRead | skBcnRead | skLinkerrRead | hlEventWrite | pwEventWrite | pwTcmpWrite | kwDbstatRead =>
    cases ht
    simp [hs, writeWhere, readAnswer]
  | collectiveSlotDequeue | bucketDequeue | bucketWindowExpiry | closeWindowExpiry | postWindowExpiry | gatherWindowExpiry | publishProceed =>
    cases ht
    simp [hs, onHalf]
  | snapshotStart | captureComplete | drainComplete | bindingStop | repairComplete | lstepAgreement | restoreComplete | deferredSelftestResult =>
    cases ht
    simp [hs, doBindingStop, doLstepAgreement, doDeferredTest]

/-- Settles O60: the command at the front of the queue keeps the form, and so does the tick of an empty queue. -/
theorem everyStepKeepsMemoryCanonical : Obligations.EveryStepKeepsMemoryCanonical := by
  unfold Obligations.EveryStepKeepsMemoryCanonical
  intro s t hs ht
  unfold step at ht
  split at ht
  · cases ht
    simp [State.tick, hs]
  · exact canonical_exec (by simp [hs]) ht

end Sys2Proof.Machine
end

section
/-! One table read of a walk (O23). -/

namespace Sys2Proof.Machine

/-! ### How an entry is judged (R212) -/

section
variable {e : Word} {level va : Nat}

/-- The bits of an entry that must be 0. -/
def reservedClear (e : Word) : Prop := fld e 44 18 = 0 ∧ fld e 6 6 = 0 ∧ fld e 0 2 = 0

theorem walkEntry_table (hvalid : bitAt e 63 = true) (hleaf : bitAt e 62 = false) (hclear : reservedClear e) (hlevel : level ≠ 0) :
    walkEntry e level va = .table (fld e 12 32 * 4096) := by
  obtain ⟨h1, h2, h3⟩ := hclear
  simp [walkEntry, hvalid, hleaf, h1, h2, h3, hlevel]

theorem walkEntry_leaf (hvalid : bitAt e 63 = true) (hleaf : bitAt e 62 = true) (hclear : reservedClear e) (hlevel : level ≠ 3)
    (haligned : fld e 12 32 * 4096 % 2 ^ (12 + 9 * level) = 0) : walkEntry e level va = .leaf
      ⟨va / 2 ^ (12 + 9 * level) * 2 ^ (12 + 9 * level), 2 ^ (12 + 9 * level), fld e 12 32 * 4096, BitVec.ofNat 4 (fld e 2 4)⟩ := by
  obtain ⟨h1, h2, h3⟩ := hclear
  simp [walkEntry, hvalid, hleaf, h1, h2, h3, hlevel, haligned]

theorem walkEntry_bad (htable : ¬ (bitAt e 63 = true ∧ bitAt e 62 = false ∧ reservedClear e ∧ level ≠ 0))
    (hleaf : ¬ (bitAt e 63 = true ∧ bitAt e 62 = true ∧ reservedClear e ∧ level ≠ 3 ∧ fld e 12 32 * 4096 % 2 ^ (12 + 9 * level) = 0)) :
    walkEntry e level va = .bad := by
  unfold walkEntry
  dsimp only
  split
  · rfl
  · next hfields =>
    obtain ⟨hvalid, hclear⟩ : bitAt e 63 = true ∧ reservedClear e := by
      simp only [Bool.or_eq_true, Bool.not_eq_true', decide_eq_true_eq, not_or, Bool.not_eq_false, not_not] at hfields
      obtain ⟨⟨⟨h0, h1⟩, h2⟩, h3⟩ := hfields
      exact ⟨h0, h1, h2, h3⟩
    split
    · next h62 =>
      rw [if_pos]
      by_contra hsize
      rw [not_or, not_not] at hsize
      exact hleaf ⟨hvalid, h62, hclear, hsize⟩
    · next h62 =>
      rw [if_pos]
      by_contra hlevel
      exact htable ⟨hvalid, by simpa using h62, hclear, hlevel⟩

end

/-! ### Permissions of a leaf -/

theorem bitAt_perm (e : Word) {i : Nat} (hi : i < 4) : bitAt (BitVec.ofNat 4 (fld e 2 4)) i = bitAt e (2 + i) := by
  rw [bitAt_eq_testBit_fld e hi]
  simp only [bitAt, BitVec.getLsbD_ofNat, hi, decide_true, Bool.true_and]

/-- The permissions in an entry let an access go: U where its level is user, RD for a load, W for a store. -/
theorem permOk_entry_iff (e : Word) (prv : BitVec 2) (op : AccOp) : permOk (BitVec.ofNat 4 (fld e 2 4)) prv op.need = true ↔
    (prv ≠ 0 ∨ bitAt e 5 = true) ∧ (op.isLoad = true → bitAt e 2 = true) ∧ (op.isStore = true → bitAt e 3 = true) := by
  simp only [permOk, bitAt_perm e (show 0 < 4 by decide), bitAt_perm e (show 1 < 4 by decide), bitAt_perm e (show 2 < 4 by decide),
    bitAt_perm e (show 3 < 4 by decide)]
  cases op <;> simp [AccOp.isLoad, AccOp.isStore, AccOp.need]

/-- The failed permissions of a plain load or store are its own fault: only an `amo` may lack W alone (R59). -/
theorem walkFault_load {op : AccOp} (hload : op.isLoad = true) (hstore : op.isStore = false) (p : BitVec 4) (prv : BitVec 2) :
    (if lacksW p prv op.need then 0x07 else op.faultCause) = 0x06 := by
  cases op <;> simp_all [AccOp.isLoad, AccOp.isStore, AccOp.need, lacksW, AccOp.faultCause]

theorem walkFault_store {op : AccOp} (hload : op.isLoad = false) (p : BitVec 4) (prv : BitVec 2) :
    (if lacksW p prv op.need then 0x07 else op.faultCause) = 0x07 := by
  cases op <;> simp_all [AccOp.isLoad, AccOp.need, lacksW, AccOp.faultCause]

theorem AccOp.faultCause_eq (op : AccOp) : op.faultCause = if op.isLoad then 0x06 else 0x07 := by cases op <;> rfl

theorem State.isHbm_setCore (s : State) (c : Nat) (k : Core) (pa : Nat) : (s.setCore c k).isHbm pa = s.isHbm pa := by
  unfold State.isHbm
  rw [show physKind (s.setCore c k) pa = physKind s pa from rfl]

theorem State.landing_of_isHbm {s : State} {pa : Nat} (h : s.isHbm pa = true) (op : AccOp) (va : Word) : s.landing op va pa = .ready pa := by
  unfold State.isHbm at h
  unfold State.landing
  split at h
  · next hk => rw [hk]
  · cases h

/-! ### One read -/

/-- The state after an entry is judged: a leaf fills the cache. -/
def State.walked (s : State) (c : Nat) : WalkRes → State
  | .leaf l => s.setCore c ((s.core c).fillCache l)
  | _ => s

/-- The phase of an access whose walk read an entry so judged at a level. -/
def State.walkPhase (s : State) (a : Access) (level : Nat) : WalkRes → XPhase
  | .table tb => .walk (level - 1) tb
  | .leaf l => if permOk l.perm a.prv a.op.need && s.isHbm (l.apply a.va.toNat) then .ready (l.apply a.va.toNat)
      else .failed (if lacksW l.perm a.prv a.op.need then 0x07 else a.op.faultCause) a.va
  | .bad => .failed a.op.faultCause a.va

theorem Thread.findAcc_single {t : Thread} {tk : Nat} {o : TOp} {a : Access} {p : Access → Bool} (hops : (t.ticket tk).ops = [o])
    (hkind : o.kind = .acc a) (hp : p a = true) : t.findAcc tk p = some (0, o, a) := by
  simp only [Thread.findAcc, hops, List.zipIdx_cons, List.zipIdx_nil, firstSome, hkind, hp, if_true]

theorem Thread.setPhase_single {t : Thread} {tk : Nat} {o : TOp} (hops : (t.ticket tk).ops = [o]) (a : Access) (p : XPhase) :
    t.setPhase tk 0 o a p = t.setTicket tk ⟨[{ o with kind := .acc { a with phase := p } }], (t.ticket tk).fault⟩ := by
  simp only [Thread.setPhase, Thread.setOp, hops, List.set_cons_zero]

section
variable {s : State} {g tk level table : Nat} {o : TOp} {a : Access} (hops : ((s.thread g).ticket tk).ops = [o]) (hkind : o.kind = .acc a)
  (hphase : a.phase = .walk level table) (hlink : s.linkWait (coreOf g) (entryAddr table level a.va.toNat) = false)
  (hpois : s.poisoned (entryAddr table level a.va.toNat) 8 = false)
include hops hkind hphase hlink hpois

/-- A good read of a walk's table, by how its entry is judged. -/
theorem exec_translationWalkRead {r : WalkRes} (hentry : walkEntry (s.readWord (entryAddr table level a.va.toNat)) level a.va.toNat = r) :
    exec (.translationWalkRead g tk .ok) s = .next ((s.walked (coreOf g) r).setThread g ((s.thread g).setTicket tk
      ⟨[{ o with kind := .acc { a with phase := s.walkPhase a level r } }], ((s.thread g).ticket tk).fault⟩)) := by
  show Host.Outcome.next (doWalkRead s g tk .ok) = _
  rw [← Thread.setPhase_single hops]
  unfold doWalkRead
  dsimp only
  rw [Thread.findAcc_single hops hkind]
  · simp only [hphase, hlink, hpois, hentry, State.settlePar, Parity.isLost, reduceCtorEq, if_false, Bool.false_eq_true, Bool.or_self]
    cases r with
    | table tb => rfl
    | leaf l =>
      simp only [State.walkPhase, State.isHbm_setCore]
      cases hgo : permOk l.perm a.prv a.op.need && s.isHbm (l.apply a.va.toNat) with
      | false => rfl
      | true =>
        rw [if_pos rfl, State.landing_of_isHbm ((State.isHbm_setCore ..).trans (Bool.and_eq_true _ _ ▸ hgo).2)]
        rfl
    | bad => rfl
  · rw [hphase]

end

/-- Settles O23, by how the entry is judged. -/
theorem tableWalk : Obligations.TableWalk := by
  unfold Obligations.TableWalk
  intro s g tk level table o a t c va ea e ppn size zero isTable isLeaf leaf filled put needs may hops hkind hphase hlink hpois
  have hput {r : WalkRes} {p : XPhase} (hentry : walkEntry e level va = r) (hp : s.walkPhase a level r = p) : put (s.walked c r) p :=
    hp ▸ exec_translationWalkRead hops hkind hphase hlink hpois hentry
  have happly : leaf.apply va = ppn + va % size := by
    show ppn + (va - va / size * size) = _
    rw [Nat.mod_eq_sub_div_mul]
  have hmay : may ↔ (permOk leaf.perm a.prv a.op.need && s.isHbm (leaf.apply va)) = true := by
    rw [Bool.and_eq_true, permOk_entry_iff e, happly]
  have hleafEntry : isLeaf → walkEntry e level va = .leaf leaf :=
    fun ⟨hvalid, h62, hclear, hlevel, haligned⟩ => walkEntry_leaf hvalid h62 hclear hlevel haligned
  refine ⟨fun ⟨hvalid, h62, hclear, hlevel⟩ => hput (walkEntry_table hvalid h62 hclear hlevel) rfl,
    fun hleaf hgo => hput (hleafEntry hleaf) ?_,
    fun hleaf hno => ⟨fun hload hstore => hput (hleafEntry hleaf) ?_, fun hload _ => hput (hleafEntry hleaf) ?_⟩,
    fun htable hleaf => hput (walkEntry_bad htable hleaf) ?_⟩
  · show (if _ then _ else _) = _
    rw [if_pos (hmay.mp hgo), happly]
  · show (if _ then _ else _) = _
    rw [if_neg (mt hmay.mpr hno), walkFault_load hload hstore]
  · show (if _ then _ else _) = _
    rw [if_neg (mt hmay.mpr hno), walkFault_store hload]
  · show XPhase.failed _ _ = _
    rw [AccOp.faultCause_eq]

end Sys2Proof.Machine
end

section
/-! Fills of the L1, mesh flits, accesses that wait for the half link, and reads of HBM (O25). -/

namespace Sys2Proof.Machine

/-! ### A line's fill of its set (R214, R215) -/

/-- The lines of a set of the L1 that a fill of `line` meets there, the newest first. -/
def Core.sameSet (k : Core) (line : Nat) : List Nat := (k.l1.filter (· ≠ line)).filter (fun l => l % 64 = line % 64)

/-- The lines that stay when `line` is filled: the oldest of a full set goes. -/
def Core.keptLines (k : Core) (line : Nat) : List Nat :=
  if (k.sameSet line).length < 8 then k.l1.filter (· ≠ line)
  else (k.l1.filter (· ≠ line)).filter (fun l => !(((k.sameSet line).drop 7).contains l))

theorem exec_l1LineFill {s : State} {c line : Nat} (h : (s.core c).requested line = true) : exec (.l1LineFill c line .ok) s =
    .next (s.setCore c { s.core c with
      l1 := line :: (s.core c).keptLines line, reqs := (s.core c).reqs.filter (fun e => decide (e.1 ≠ line)) }) := by
  show Host.Outcome.next (doLineFill s c line .ok) = _
  simp only [doLineFill, h, if_true]
  rfl

theorem exec_l1LineFill_unrequested {s : State} {c line : Nat} (h : (s.core c).requested line = false) :
    exec (.l1LineFill c line .ok) s = .next s := by
  show Host.Outcome.next (doLineFill s c line .ok) = _
  simp only [doLineFill, h, Bool.false_eq_true, if_false]

section
variable {k : Core} {line x : Nat}

theorem Core.sameSet_eq : k.sameSet line = k.l1.filter (fun l => l ≠ line ∧ l % 64 = line % 64) := by
  simp only [Core.sameSet, List.filter_filter, Bool.decide_and, Bool.and_comm]

theorem Core.keptLines_of_room (h : (k.sameSet line).length < 8) : k.keptLines line = k.l1.filter (· ≠ line) := if_pos h

theorem Core.mem_of_mem_keptLines (h : x ∈ k.keptLines line) : x ∈ k.l1 := by
  unfold Core.keptLines at h
  split at h
  · exact List.mem_of_mem_filter h
  · exact List.mem_of_mem_filter (List.mem_of_mem_filter h)

/-- The lines of the other sets stay. -/
theorem Core.mem_keptLines_of_other_set (hx : x ∈ k.l1) (hset : x % 64 ≠ line % 64) : x ∈ k.keptLines line := by
  have hother : x ∈ k.l1.filter (· ≠ line) := List.mem_filter.mpr ⟨hx, by simpa using fun h : x = line => hset (h ▸ rfl)⟩
  have hout : x ∉ k.sameSet line := fun h => hset (by simpa using (List.mem_filter.mp h).2)
  unfold Core.keptLines
  split
  · exact hother
  · refine List.mem_filter.mpr ⟨hother, ?_⟩
    simpa using fun h => hout (List.mem_of_mem_drop h)

/-- At most seven other lines of the set stay. -/
theorem Core.length_set_keptLines_le : ((k.keptLines line).filter (fun l => l % 64 = line % 64)).length ≤ 7 := by
  unfold Core.keptLines
  split
  · next h => exact Nat.le_of_lt_succ h
  · have hcomm : ((k.l1.filter (· ≠ line)).filter (fun l => !(((k.sameSet line).drop 7).contains l))).filter (fun l => l % 64 = line % 64) =
        (k.sameSet line).filter (fun l => !(((k.sameSet line).drop 7).contains l)) := by
      exact List.filter_comm _ _ _ 
    rw [hcomm]
    calc ((k.sameSet line).filter (fun l => !(((k.sameSet line).drop 7).contains l))).length
        = (((k.sameSet line).take 7 ++ (k.sameSet line).drop 7).filter (fun l => !(((k.sameSet line).drop 7).contains l))).length := by
          rw [List.take_append_drop]
      _ = (((k.sameSet line).take 7).filter (fun l => !(((k.sameSet line).drop 7).contains l))).length := by
          rw [List.filter_append, List.filter_eq_nil_iff (l := (k.sameSet line).drop 7) |>.mpr (by simp), List.append_nil]
      _ ≤ 7 := (List.length_filter_le _ _).trans (List.length_take_le _ _)

/-- The set that holds the filled line holds at most eight. -/
theorem Core.length_set_filled_le : ((line :: k.keptLines line).filter (fun l => l % 64 = line % 64)).length ≤ 8 := by
  rw [List.filter_cons_of_pos (by simp), List.length_cons]
  exact Nat.succ_le_succ Core.length_set_keptLines_le

end

/-! ### A mesh flit, and an access that waits for the link (R229, R297) -/

section
variable {s : State} {g tk pa : Nat} {o : TOp} {a : Access}

theorem exec_meshFlit_replayed (h : (s.core (coreOf g)).meshTries < 3) : exec (.meshFlitReceive g tk false) s =
    .next (s.setCore (coreOf g) { s.core (coreOf g) with
      meshTries := (s.core (coreOf g)).meshTries + 1, parcnt := satAdd (s.core (coreOf g)).parcnt 1 }) := by
  have hne : { s.core (coreOf g) with meshTries := (s.core (coreOf g)).meshTries + 1 } ≠ Core.reset := fun he => by
    have := congrArg Core.meshTries he
    cases this
  have hfirst : doMeshFlit s g tk false = (s.setCore (coreOf g) { s.core (coreOf g) with
      meshTries := (s.core (coreOf g)).meshTries + 1 }).countReplay (coreOf g) := by
    simp only [doMeshFlit, Bool.false_eq_true, if_false, h, if_true]
  show Host.Outcome.next (doMeshFlit s g tk false) = _
  rw [hfirst, State.countReplay, State.core_setCore_same]
  simp only [State.setCore, FMap.set_set_of_ne hne]

variable (hops : ((s.thread g).ticket tk).ops = [o]) (hkind : o.kind = .acc a) (hphase : a.phase = .ready pa)
include hops hkind hphase

theorem exec_meshFlit_lost (h : 3 ≤ (s.core (coreOf g)).meshTries) : exec (.meshFlitReceive g tk false) s =
    .next (((s.setCore (coreOf g) { s.core (coreOf g) with meshTries := 0 }).setThread g ((s.thread g).setTicket tk
      ⟨[{ o with kind := .acc { a with phase := .failed 0x10 (BitVec.ofNat 64 pa) } }], ((s.thread g).ticket tk).fault⟩)).recordFault
        (unitId 6 (dieOfCore (coreOf g))) 0x01) := by
  show Host.Outcome.next (doMeshFlit s g tk false) = _
  rw [← Thread.setPhase_single hops]
  simp only [doMeshFlit, Bool.false_eq_true, if_false, Nat.not_lt.mpr h]
  rw [Thread.findAcc_single hops hkind]
  · simp only [hphase]
    rfl
  · rw [hphase]
    rfl

theorem exec_crossHalfAccessTimeout (hfar : homeHalf s pa ≠ halfOfCore (coreOf g)) (hlink : (s.half (halfOfCore (coreOf g))).link ≠ .up) :
    exec (.crossHalfAccessTimeout g tk) s = .next ((s.setThread g ((s.thread g).setTicket tk
      ⟨[{ o with kind := .acc { a with phase := .failed 0x10 (BitVec.ofNat 64 pa) } }], ((s.thread g).ticket tk).fault⟩)).recordFault 0x3000 0x01) := by
  have hwait : s.accWait (coreOf g) a = some pa := by
    simp [State.accWait, hphase, State.linkHolds, State.linkWait, hfar, hlink]
  have hfound : accTimeout s g tk = some ((s.setThread g ((s.thread g).setPhase tk 0 o a (.failed 0x10 (BitVec.ofNat 64 pa)))).recordFault
      (unitId 3 0) 0x01) := by
    unfold accTimeout
    dsimp only
    rw [Thread.findAcc_single hops hkind]
    · simp only [hwait, Option.getD_some]
    · rw [hwait]
      rfl
  show Host.Outcome.next (doCrossHalfTimeout s g tk) = _
  rw [← Thread.setPhase_single hops]
  simp only [doCrossHalfTimeout, firstSome, hfound, id, Option.getD_some]
  rfl

end

/-! ### Reads of a stack (R230, R232, R233) -/

section
variable {s : State} {n line : Nat}

theorem physKind_of_isHbm {a : Nat} (h : s.isHbm a = true) : physKind s a = .hbm (a / 2 ^ 30) := by
  unfold State.isHbm at h
  split at h
  · next g hk =>
    rw [hk]
    unfold physKind at hk
    split at hk
    · split at hk <;> cases hk
      rfl
    · split at hk
      · split at hk <;> cases hk
      · split at hk <;> cases hk
  · cases h

/-- What a read counts of its stack. -/
def Stack.counted (x : Stack) : EccSev → Stack
  | .clean => x
  | .corrected => { x with ce := satAdd x.ce 1 }
  | .uncorrectable => { x with ue := satAdd x.ue 1 }

variable (hn : stackPresent s.build n = true)
include hn

theorem exec_hbmRead_sound (sev : EccSev) (hsev : sev ≠ .uncorrectable) : exec (.hbmReadReturn n line sev none) s =
    .next (s.setHalf (halfOfStack n) ((s.half (halfOfStack n)).setHbm n (((s.half (halfOfStack n)).hbm n).counted sev))) := by
  show Host.Outcome.next (doHbmRead s n line sev none) = _
  simp only [doHbmRead, hn, Bool.not_true, Bool.false_eq_true, if_false, hsev, decide_false, Bool.false_and]
  rfl

theorem exec_hbmRead_uncorrectable (hhbm : s.isHbm (line * 128) = true) (hstack : stackOfGranule (line * 128 / 2 ^ 30) = n) :
    exec (.hbmReadReturn n line .uncorrectable none) s =
      .next ((if line ∈ s.poison then s else { s with poison := line :: s.poison }).setHalf (halfOfStack n)
        ((s.half (halfOfStack n)).setHbm n (((s.half (halfOfStack n)).hbm n).counted .uncorrectable))) := by
  show Host.Outcome.next (doHbmRead s n line .uncorrectable none) = _
  simp only [doHbmRead, hn, Bool.not_true, Bool.false_eq_true, if_false, physKind_of_isHbm hhbm, hstack, decide_true, Bool.true_and]
  by_cases hpois : line ∈ s.poison
  · simp only [List.contains_iff_mem.mpr hpois, hpois, Bool.not_true, Bool.false_eq_true, if_false, if_true]
    rfl
  · simp only [Bool.eq_false_iff.mpr (mt List.contains_iff_mem.mp hpois), hpois, Bool.not_false, if_false, if_true]
    rfl

/-- The sixteenth read of a second that a lane spoils marks it and asks for the stack's repair. -/
theorem exec_hbmRead_marked {l : Nat} (hl : l ∉ ((s.half (halfOfStack n)).hbm n).marked)
    (hnew : ∀ t ∈ FMap.get [] ((s.half (halfOfStack n)).hbm n).lanes l, (s.half (halfOfStack n)).time.toNat < t + aonSecond)
    (hcount : (FMap.get [] ((s.half (halfOfStack n)).hbm n).lanes l).length = 15) :
    exec (.hbmReadReturn n line .clean (some l)) s = .next ((s.setHalf (halfOfStack n) ((s.half (halfOfStack n)).setHbm n
      { (s.half (halfOfStack n)).hbm n with
        lanes := FMap.set [] ((s.half (halfOfStack n)).hbm n).lanes l
          (FMap.get [] ((s.half (halfOfStack n)).hbm n).lanes l ++ [(s.half (halfOfStack n)).time.toNat]),
        marked := ((s.half (halfOfStack n)).hbm n).marked ++ [l], state := 2 })).recordFaultAt (unitId 1 n) 0x01 (some l)) := by
  have htimes : within1s (FMap.get [] ((s.half (halfOfStack n)).hbm n).lanes l) (s.half (halfOfStack n)).time.toNat =
      FMap.get [] ((s.half (halfOfStack n)).hbm n).lanes l ++ [(s.half (halfOfStack n)).time.toNat] := by
    rw [within1s, List.filter_eq_self.mpr fun t ht => decide_eq_true (hnew t ht)]
  show Host.Outcome.next (doHbmRead s n line .clean (some l)) = _
  simp only [doHbmRead, hn, Bool.not_true, Bool.false_eq_true, if_false, reduceCtorEq, decide_false, Bool.false_and, htimes,
    List.length_append, hcount, List.length_singleton, ge_iff_le, le_refl, decide_true,
    Bool.eq_false_iff.mpr (mt List.contains_iff_mem.mp hl), Bool.not_false, Bool.and_self, if_true]

theorem exec_hbmRefresh (bank : Nat) : exec (.hbmRefresh n bank) s = .next (s.setHalf (halfOfStack n) ((s.half (halfOfStack n)).setHbm n
    { (s.half (halfOfStack n)).hbm n with bank := bank, recentred := ((s.half (halfOfStack n)).hbm n).recentred + 1 })) := by
  show Host.Outcome.next (doRefresh s n bank) = _
  simp only [doRefresh, hn, if_true]

end

/-- Settles O25: a fill by the lines it keeps, a flit and an access that waits by the operation they find, a read by what it counts. -/
theorem cachesTransportAndHbm : Obligations.CachesTransportAndHbm := by
  unfold Obligations.CachesTransportAndHbm
  refine ⟨fun s g tk => ?_, fun s n line => ?_⟩
  · intro t c k
    refine ⟨fun line => exec_l1LineFill_unrequested, fun line hreq => ⟨fun hroom => ?_, ?_⟩, ?_, exec_meshFlit_replayed,
      fun o a pa hops hkind hphase => ⟨exec_meshFlit_lost hops hkind hphase, exec_crossHalfAccessTimeout hops hkind hphase⟩⟩
    · rw [exec_l1LineFill hreq, Core.keptLines_of_room (Core.sameSet_eq ▸ hroom)]
    · refine ⟨_, exec_l1LineFill hreq, List.mem_cons_self, fun x hx => ?_, fun x hx hset => ?_, fun _ _ => Core.length_set_filled_le⟩
      · exact (List.mem_cons.mp hx).imp_right Core.mem_of_mem_keptLines
      · exact List.mem_cons_of_mem _ (Core.mem_keptLines_of_other_set hx hset)
    · rfl
  · intro h x put own hn
    refine ⟨exec_hbmRead_sound hn .clean (by decide), exec_hbmRead_sound hn .corrected (by decide), fun ⟨hhbm, hstack⟩ hpois => ?_,
      fun ⟨hhbm, hstack⟩ hpois => ?_, fun l hl hnew hcount => ?_, fun bank => ⟨_, exec_hbmRefresh hn bank, rfl, rfl⟩⟩
    · rw [exec_hbmRead_uncorrectable hn hhbm hstack, if_neg hpois]
      rfl
    · rw [exec_hbmRead_uncorrectable hn hhbm hstack, if_pos hpois]
      rfl
    · exact ⟨_, exec_hbmRead_marked hn hl hnew hcount, rfl, rfl, rfl⟩

end Sys2Proof.Machine
end

section
/-! SUPPORT. The collective engines resume when the half link returns: what they do leaves each half's link, events, primacy and keys (O35). -/

namespace Sys2Proof.Machine

/-! ### A half's side of the link -/

/-- What a half holds of the link, its events and its primacy. -/
def Half.linkFields (x : Half) : LinkState × Nat × BitVec 4 × PState × Word := (x.link, x.linkTries, x.event, x.pstate, x.epoch)

/-- The same, with its keys. -/
def Half.linkSide (x : Half) : (LinkState × Nat × BitVec 4 × PState × Word) × FMap KeySlot := (x.linkFields, x.keys)

/-- Both halves' sides. -/
def State.linkSides (s : State) := (s.half0.linkSide, s.half1.linkSide)

/-- An update of any fields but the halves. -/
@[simp] theorem State.mk_linkSides (s : State) (build threads cores mem tags poison l2 owner granted retired gone bindings ports devid devValid
    flows cmds cq events evNext evWait msix recvs posted jnext fepochs deferredTests saved readPort vin present pulses free pending) :
    (State.mk build threads cores mem tags poison l2 owner granted retired gone bindings s.half0 s.half1 ports devid devValid flows cmds cq events
      evNext evWait msix recvs posted jnext fepochs deferredTests saved readPort vin present pulses free pending).linkSides = s.linkSides := rfl

theorem State.setHalf_linkSides (s : State) (h : Nat) {x : Half} (hx : x.linkSide = (s.half h).linkSide) :
    (s.setHalf h x).linkSides = s.linkSides := by
  by_cases hh : h = 0 <;> simp_all [State.setHalf, State.half, State.linkSides]

@[simp] theorem State.ite_linkSides (p : Prop) [Decidable p] (s t : State) :
    (if p then s else t).linkSides = if p then s.linkSides else t.linkSides := apply_ite State.linkSides p s t

@[simp] theorem State.foldl_linkSides {β : Type} (l : List β) (f : State → β → State) (hf : ∀ s b, (f s b).linkSides = s.linkSides) (s : State) :
    (l.foldl f s).linkSides = s.linkSides := foldl_keeps l f State.linkSides hf s

/-! ### Operations whose changes are known -/

theorem State.CachesUsed.linkSides {s t : State} (h : s.CachesUsed t) : t.linkSides = s.linkSides := by
  obtain ⟨_, _, _, _, _, rfl⟩ := h.state
  rfl

theorem State.linkSides_eq_of_half {s t : State} (h : ∀ j, (t.half j).linkSide = (s.half j).linkSide) : t.linkSides = s.linkSides :=
  Prod.ext (h 0) (h 1)

theorem State.Beaconed.linkSides {s t : State} (h : s.Beaconed t) : t.linkSides = s.linkSides :=
  State.linkSides_eq_of_half fun j => by
    obtain ⟨_, _, _, hj⟩ := h.half j
    rw [hj]
    rfl

@[simp] theorem State.recordFault_linkSides (s : State) (u : BitVec 16) (fclass : Nat) : (s.recordFault u fclass).linkSides = s.linkSides := by
  refine (s.beaconed_recordFault u fclass).linkSides.trans ((State.setHalf_linkSides _ _ ?_).trans (State.mk_linkSides ..))
  rfl

@[simp] theorem State.recordEErr_linkSides (s : State) (e : EErr) : (s.recordEErr e).linkSides = s.linkSides := by
  unfold State.recordEErr
  split <;> simp

@[simp] theorem State.writeNat_linkSides (s : State) (c a n v : Nat) : (s.writeNat c a n v).linkSides = s.linkSides :=
  (State.cachesUsed_writeBytes ..).linkSides

@[simp] theorem State.writePieces_linkSides (s : State) (c : Nat) (ps : List (Nat × Nat)) (l : List Byte) :
    (s.writePieces c ps l).linkSides = s.linkSides := by
  induction ps generalizing s l with
  | nil => rfl
  | cons p ps ih => exact (ih _ _).trans (State.cachesUsed_writeBytes ..).linkSides

@[simp] theorem State.xlatRun_linkSides (s : State) (c : Nat) (prv : BitVec 2) (nd : Need) (va : Word) (n : Nat) :
    (s.xlatRun c prv nd va n).2.linkSides = s.linkSides := by
  refine foldl_keeps _ _ (fun r : Except EErr (List (Nat × Nat)) × State => r.2.linkSides) ?_ _
  rintro ⟨_ | l, t⟩ p
  · rfl
  · have h := (t.cachesUsed_engineXlat c prv nd (BitVec.ofNat 64 p.1)).linkSides
    dsimp only
    split <;> simp_all

@[simp] theorem State.setThread_linkSides (s : State) (g : Nat) (t : Thread) : (s.setThread g t).linkSides = s.linkSides := by simp [State.setThread]
@[simp] theorem State.setCore_linkSides (s : State) (c : Nat) (k : Core) : (s.setCore c k).linkSides = s.linkSides := by simp [State.setCore]
@[simp] theorem State.setEngine_linkSides (s : State) (h : Nat) (e : Engine) : (s.setEngine h e).linkSides = s.linkSides :=
  s.setHalf_linkSides h rfl

@[simp] theorem State.setGroup_linkSides (s : State) (h gid : Nat) (g : Group) : (s.setGroup h gid g).linkSides = s.linkSides := by
  unfold State.setGroup State.ctrl
  split
  · rfl
  · exact s.setHalf_linkSides h rfl

/-! ### Reads, writes and ends of a collective -/

@[simp] theorem State.collRead_linkSides (s : State) (c : CollCmd) (va : Word) (n : Nat) : (s.collRead c va n).2.linkSides = s.linkSides := by
  have h := s.xlatRun_linkSides c.core c.prv .rd va n
  unfold State.collRead
  split
  · simp_all
  · split <;> simp_all

@[simp] theorem State.collWrite_linkSides (s : State) (c : CollCmd) (va : Word) (l : List Byte) : (s.collWrite c va l).2.linkSides = s.linkSides := by
  have hrun := s.xlatRun_linkSides c.core c.prv .wr va l.length
  unfold State.collWrite
  split <;> simp_all

@[simp] theorem State.countEnd_linkSides (s : State) (h b status : Nat) : (s.countEnd h b status).linkSides = s.linkSides := by simp [State.countEnd]
@[simp] theorem State.failColl_linkSides (s : State) (c : CollCmd) (e : EErr) (write : Bool) : (s.failColl c e write).linkSides = s.linkSides := by
  simp [State.failColl]

@[simp] theorem State.endColl_linkSides (s : State) (h : Nat) (c : CollCmd) (status count : Nat) :
    (s.endColl h c status count).linkSides = s.linkSides := by
  simp [State.endColl]

@[simp] theorem State.sendMember_linkSides (s : State) (h b : Nat) (g : Group) (m : Nat) (t : PType) (rw2 : Word) (xtag : Nat) (body : Payload) :
    (s.sendMember h b g m t rw2 xtag body).linkSides = s.linkSides := by
  simp [State.sendMember]

/-! ### Closes -/

@[simp] theorem State.putClose_linkSides (s : State) (h : Nat) (k : CloseRec) : (s.putClose h k).linkSides = s.linkSides := by simp [State.putClose]
@[simp] theorem State.tellClose_linkSides (s : State) (h b : Nat) (g : Group) (k : CloseRec) (good : Bool) :
    (s.tellClose h b g k good).linkSides = s.linkSides := by
  simp [State.tellClose]

@[simp] theorem State.watchClose_linkSides (s : State) (h : Nat) (g : Group) (k : CloseRec) : (s.watchClose h g k).linkSides = s.linkSides := by
  simp [State.watchClose]

@[simp] theorem State.finishClose_linkSides (s : State) (h : Nat) (c : CollCmd) (g : Group) (k : CloseRec) (done : Bool) :
    (s.finishClose h c g k done).linkSides = s.linkSides := by
  simp [State.finishClose]

@[simp] theorem State.settleClose_linkSides (s : State) (h : Nat) (k : CloseRec) : (s.settleClose h k).linkSides = s.linkSides := by
  unfold State.settleClose
  (repeat' split) <;> simp

@[simp] theorem State.settleCloses_linkSides (s : State) : s.settleCloses.linkSides = s.linkSides :=
  State.foldl_linkSides _ _ (fun t i => State.foldl_linkSides _ _ (fun u k => u.settleClose_linkSides i k) t) s

/-! ### Buckets -/

@[simp] theorem Run.sendTo_linkSides (x : Run) (s : State) (m : Nat) (t : PType) (body : Payload) :
    (x.sendTo s m t body).linkSides = s.linkSides := by
  simp [Run.sendTo]

@[simp] theorem Run.lanes_linkSides (x : Run) (s : State) (contribs : List (List Nat)) : (x.lanes s contribs).2.linkSides = s.linkSides := by
  simp [Run.lanes]

@[simp] theorem Run.agree_linkSides (x : Run) (s : State) : (x.agree s).2.linkSides = s.linkSides := by simp [Run.agree]
@[simp] theorem State.setBucket_linkSides (s : State) (h i : Nat) (k : Bucket) : (s.setBucket h i k).linkSides = s.linkSides := by
  simp [State.setBucket]

@[simp] theorem Run.put_linkSides (x : Run) (s : State) : (x.put s).linkSides = s.linkSides := by simp [Run.put]
@[simp] theorem State.dropBucket_linkSides (s : State) (h i : Nat) (k : Bucket) (status : Nat) :
    (s.dropBucket h i k status).linkSides = s.linkSides := by
  simp [State.dropBucket]

@[simp] theorem State.endBucket_linkSides (s : State) (h i : Nat) (k : Bucket) (status count : Nat) :
    (s.endBucket h i k status count).linkSides = s.linkSides := by
  unfold State.endBucket
  split <;> simp

@[simp] theorem State.failBucket_linkSides (s : State) (h i : Nat) (k : Bucket) (c : CollCmd) (e : EErr) (write : Bool) :
    (s.failBucket h i k c e write).linkSides = s.linkSides := by
  simp [State.failBucket]

@[simp] theorem Run.contribs_linkSides (x : Run) (s : State) : (x.contribs s).2.linkSides = s.linkSides := by
  refine foldl_keeps _ _ (fun r : Except EErr (List (List Nat)) × State => r.2.linkSides) ?_ _
  rintro ⟨_ | l, t⟩ j
  · rfl
  · have h := t.collRead_linkSides x.c (x.r.src + BitVec.ofNat 64 (j * x.r.cstride)) (x.r.elems * (fmtBits x.r.sfmt / 8))
    dsimp only
    split <;> simp_all

@[simp] theorem Run.check_linkSides (x : Run) (s : State) : (x.check s).linkSides = s.linkSides := by
  unfold Run.check
  dsimp only
  split
  · simp
  · generalize hw : s.collWrite _ _ _ = r
    have hr : r.2.linkSides = s.linkSides := hw ▸ s.collWrite_linkSides _ _ _
    obtain ⟨_ | _, t⟩ := r <;> simp_all

@[simp] theorem Run.settle_linkSides (x : Run) (s : State) : (x.settle s).linkSides = s.linkSides := by simp [Run.settle]

@[simp] theorem Run.progress_linkSides (x : Run) (s : State) : (x.progress s).linkSides = s.linkSides := by
  unfold Run.progress
  generalize hp : (if x.r.rop = 0 then x.agree s else (x, s)) = p
  have hs : p.2.linkSides = s.linkSides := by rw [← hp]; split <;> simp
  obtain ⟨y, t⟩ := p
  have hc := y.contribs_linkSides t
  dsimp only
  split
  · split <;> simp_all
  · simp_all

@[simp] theorem State.moveBucket_linkSides (s : State) (h i : Nat) : (s.moveBucket h i).linkSides = s.linkSides := by
  unfold State.moveBucket
  split <;> simp

/-! ### Posts -/

@[simp] theorem State.dropPost_linkSides (s : State) (h id : Nat) : (s.dropPost h id).linkSides = s.linkSides := by simp [State.dropPost]
@[simp] theorem State.putPost_linkSides (s : State) (h : Nat) (p : Post) : (s.putPost h p).linkSides = s.linkSides := by simp [State.putPost]
@[simp] theorem State.recvMatched_linkSides (s : State) (id sender bytes : Nat) : (s.recvMatched id sender bytes).linkSides = s.linkSides := by
  simp only [State.recvMatched]
  split <;> simp

@[simp] theorem State.sendMoved_linkSides (s : State) (id : Nat) (trunc : Bool) :
    (s.sendMoved id trunc).linkSides = s.linkSides := by
  simp only [State.sendMoved]
  split <;> simp

@[simp] theorem State.finishRecv_linkSides (s : State) (p : Post) (g : Group) : (s.finishRecv p g).linkSides = s.linkSides := by
  have hwrite := s.collWrite_linkSides p.cmd p.buf (p.got.take (min p.bytes p.peerBytes))
  unfold State.finishRecv
  dsimp only
  split <;> split <;> simp_all

@[simp] theorem State.recvBytes_linkSides (s : State) (id off : Nat) (l : List Byte) : (s.recvBytes id off l).linkSides = s.linkSides := by
  unfold State.recvBytes
  dsimp only
  split
  · split
    · split <;> simp
    · rfl
  · rfl

@[simp] theorem State.moveBytes_linkSides (s : State) (h : Nat) (p : Post) (a : Announced) (g : Group) :
    (s.moveBytes h p a g).linkSides = s.linkSides := by
  have hread := s.collRead_linkSides p.cmd p.buf (min p.bytes a.bytes)
  unfold State.moveBytes
  dsimp only
  split <;> split <;> simp_all

@[simp] theorem State.matchPosts_linkSides (s : State) : s.matchPosts.linkSides = s.linkSides := by
  refine State.foldl_linkSides _ _ (fun t p => ?_) s
  dsimp only
  split
  · split
    · split <;> simp
    · rfl
  · rfl

theorem State.resumeEngines_linkSides (s : State) : s.resumeEngines.linkSides = s.linkSides := by
  simp only [State.resumeEngines, State.settleCloses_linkSides, State.matchPosts_linkSides]
  refine (State.foldl_linkSides _ _ (fun t p => ?_) _).trans (State.foldl_linkSides _ _ (fun t i => ?_) s)
  · split
    · split <;> simp
    · rfl
  · exact State.foldl_linkSides _ _ (fun u j => u.moveBucket_linkSides i j) t

end Sys2Proof.Machine
end

section
/-! The half link: its flits, its losses and its return (O35). -/

namespace Sys2Proof.Machine

/-! ### Keys (R310, R318) -/

theorem Half.key_setKey (x : Half) (k : Nat) (v : KeySlot) (j : Nat) : (x.setKey k v).key j = if j = k then v else x.key j :=
  FMap.get_set _ _ _ _ _

theorem KeySlot.ctrHi_raise (x : KeySlot) (ctr : Nat) : (x.raise ctr).ctrHi = max x.ctrHi ctr := by
  unfold KeySlot.raise
  split
  · next h => exact (max_eq_right h.le).symm
  · next h => exact (max_eq_left (Nat.not_lt.mp h)).symm

/-! ### The counters are joined (R310) -/

/-- The greater ctr_hi of a slot's two copies. -/
def State.topCtr (s : State) (k : Nat) : Nat := max (s.half0.key k).ctrHi (s.half1.key k).ctrHi

/-- One slot's copies are joined. -/
def State.mergeSlot (s : State) (k : Nat) : State :=
  s.bothHalves (fun h => h.setKey k { (h.key k).raise (s.topCtr k) with acc := max (s.half0.key k).acc (s.half1.key k).acc })

theorem State.mergeCounters_eq (s : State) : s.mergeCounters = (upto 16).foldl State.mergeSlot s := rfl

theorem State.key_mergeSlot (s : State) (k j : Nat) :
    (((s.mergeSlot k).half0.key j).ctrHi = if j = k then s.topCtr k else (s.half0.key j).ctrHi) ∧
    (((s.mergeSlot k).half1.key j).ctrHi = if j = k then s.topCtr k else (s.half1.key j).ctrHi) := by
  constructor
  · refine (congrArg KeySlot.ctrHi (Half.key_setKey s.half0 k _ j)).trans ?_
    split
    · exact (KeySlot.ctrHi_raise _ _).trans (by simp only [State.topCtr]; omega)
    · rfl
  · refine (congrArg KeySlot.ctrHi (Half.key_setKey s.half1 k _ j)).trans ?_
    split
    · exact (KeySlot.ctrHi_raise _ _).trans (by simp only [State.topCtr]; omega)
    · rfl

theorem State.topCtr_mergeSlot (s : State) (k j : Nat) : (s.mergeSlot k).topCtr j = s.topCtr j := by
  obtain ⟨h0, h1⟩ := s.key_mergeSlot k j
  rw [State.topCtr, h0, h1]
  split
  · next hj => rw [hj, max_self]
  · rfl

theorem State.ctrHi_foldl_mergeSlot (l : List Nat) (s : State) {j : Nat} (hj : j ∈ l) :
    ((l.foldl State.mergeSlot s).half0.key j).ctrHi = s.topCtr j ∧ ((l.foldl State.mergeSlot s).half1.key j).ctrHi = s.topCtr j := by
  induction l using List.reverseRecOn with
  | nil => cases hj
  | append_singleton l k ih =>
    have htop : (l.foldl State.mergeSlot s).topCtr k = s.topCtr k :=
      foldl_keeps l State.mergeSlot (State.topCtr · k) (fun t i => t.topCtr_mergeSlot i k) s
    obtain ⟨h0, h1⟩ := (l.foldl State.mergeSlot s).key_mergeSlot k j
    rw [List.foldl_concat, h0, h1]
    split
    · next hjk => rw [htop, hjk]; exact ⟨rfl, rfl⟩
    · next hjk => exact ih ((List.mem_append.mp hj).resolve_right (by simpa using hjk))

theorem State.ctrHi_mergeCounters (s : State) {k : Nat} (hk : k < 16) :
    (s.mergeCounters.half0.key k).ctrHi = s.topCtr k ∧ (s.mergeCounters.half1.key k).ctrHi = s.topCtr k :=
  State.ctrHi_foldl_mergeSlot _ s (List.mem_range.mpr hk)

theorem State.linkFields_mergeCounters (s : State) :
    s.mergeCounters.half0.linkFields = s.half0.linkFields ∧ s.mergeCounters.half1.linkFields = s.half1.linkFields :=
  ⟨foldl_keeps (upto 16) State.mergeSlot (fun t => t.half0.linkFields) (fun _ _ => rfl) s,
    foldl_keeps (upto 16) State.mergeSlot (fun t => t.half1.linkFields) (fun _ _ => rfl) s⟩

/-! ### Tables go across (R289, R296) -/

/-- `t` is `s` after tables went across: the halves' sides of the link as they were, and the slots on whose key they agree. -/
structure State.TablesCopied (s t : State) : Prop where
  fields : ∀ j, (t.half j).linkFields = (s.half j).linkFields
  key : ∀ k, (s.half0.key k).key = (s.half1.key k).key → ∀ j, (t.half j).key k = (s.half j).key k

theorem State.half_halves_agree {s : State} {k : Nat} (hk : (s.half0.key k).key = (s.half1.key k).key) (h : Nat) :
    ((s.half h).key k).key = ((s.half (1 - h)).key k).key := by
  obtain rfl | hh := Nat.eq_zero_or_pos h
  · exact hk
  · rw [State.half, if_neg hh.ne', Nat.sub_eq_zero_of_le hh]
    exact hk.symm

/-- Half `h` with its peer's partner table, group records and EVX_MODE. -/
def State.takePartners (s : State) (h : Nat) : State :=
  s.setHalf h { s.half h with
    partners0 := (s.half (1 - h)).partners0, partners1 := (s.half (1 - h)).partners1, evx := (s.half (1 - h)).evx,
    eng := { (s.half h).eng with groups := (s.half (1 - h)).eng.groups } }

/-- Half `h` takes a slot of its peer `y`. -/
def State.takeKey (h : Nat) (y : Half) (s : State) (k : Nat) : State :=
  if ((s.half h).key k).key = (y.key k).key then s else s.setHalf h ((s.half h).setKey k (y.key k))

theorem State.takeTables_eq (s : State) (h : Nat) : s.takeTables h = (upto 16).foldl (State.takeKey h (s.half (1 - h))) (s.takePartners h) := rfl

theorem State.tablesCopied_takePartners (s : State) (h : Nat) : s.TablesCopied (s.takePartners h) := by
  have hhalf : ∀ j, ((s.takePartners h).half j).linkSide = (s.half j).linkSide := fun j => by
    rw [State.takePartners, State.half_setHalf_iff]
    split
    · next hj => rw [s.half_eq_of_iff hj]; rfl
    · rfl
  exact ⟨fun j => congrArg Prod.fst (hhalf j), fun k _ j => congrArg (FMap.get KeySlot.empty · k) (congrArg Prod.snd (hhalf j))⟩

theorem State.tablesCopied_takeKey {s t : State} (ht : s.TablesCopied t) (h k : Nat) : s.TablesCopied (t.takeKey h (s.half (1 - h)) k) := by
  unfold State.takeKey
  split
  · exact ht
  · next hne =>
    constructor
    · intro j
      rw [State.half_setHalf_iff]
      split
      · next hj => rw [← ht.fields j, t.half_eq_of_iff hj]; rfl
      · exact ht.fields j
    · intro k' hagree j
      have hk' : k' ≠ k := by
        rintro rfl
        exact hne (by rw [ht.key k' hagree h]; exact State.half_halves_agree hagree h)
      rw [State.half_setHalf_iff]
      split
      · next hj => rw [Half.key_setKey, if_neg hk', ← t.half_eq_of_iff hj, ht.key k' hagree j]
      · exact ht.key k' hagree j

theorem State.tablesCopied_takeTables (s : State) (h : Nat) : s.TablesCopied (s.takeTables h) := by
  rw [State.takeTables_eq]
  exact List.foldlRecOn (motive := fun t => s.TablesCopied t) _ _ (s.tablesCopied_takePartners h) fun _ ht k _ => State.tablesCopied_takeKey ht h k

theorem State.tablesCopied_copyTables (s : State) : s.TablesCopied s.copyTables := by
  have howes : ∀ t : State, s.TablesCopied t → s.TablesCopied (t.bothHalves (fun h => { h with owes := false })) := by
    intro t ht
    have hhalf : ∀ j, (t.bothHalves (fun h => { h with owes := false })).half j = { t.half j with owes := false } := fun j => by
      unfold State.half
      split <;> rfl
    exact ⟨fun j => by rw [hhalf]; exact ht.fields j, fun k hk j => by rw [hhalf]; exact ht.key k hk j⟩
  unfold State.copyTables
  dsimp only
  refine howes _ ?_
  split
  · exact s.tablesCopied_takeTables _
  · exact ⟨fun _ => rfl, fun _ _ _ => rfl⟩

/-! ### The link is UP (R296) -/

theorem State.resync_linkSides (s : State) (p : Nat) (finals : Bool) : (s.resync p finals).linkSides = s.linkSides := by
  refine (State.setHalf_linkSides _ _ ?_).trans ((State.setHalf_linkSides _ _ ?_).trans (State.setHalf_linkSides _ _ ?_))
  all_goals rfl

/-- The link goes UP, before the counters are joined. -/
def State.raiseLink (s : State) : State := (s.setLink .up).bothHalves (fun h => { h.raise evLinkUp with linkTries := 0 })

theorem State.enterUp_linkSides (s : State) : s.enterUp.linkSides = s.copyTables.raiseLink.mergeCounters.linkSides := by
  unfold State.enterUp
  dsimp only
  rw [State.resumeEngines_linkSides]
  split
  · exact State.resync_linkSides _ _ _
  · rfl

/-- What the halves of `t` show of a link that has gone UP from `s`. -/
structure State.LinkRose (s t : State) : Prop where
  fields0 : t.half0.linkFields = (.up, 0, s.half0.event ||| 4, s.half0.pstate, s.half0.epoch)
  fields1 : t.half1.linkFields = (.up, 0, s.half1.event ||| 4, s.half1.pstate, s.half1.epoch)
  ctrHi : ∀ k, k < 16 → (s.half0.key k).key = (s.half1.key k).key →
    (t.half0.key k).ctrHi = s.topCtr k ∧ (t.half1.key k).ctrHi = s.topCtr k

theorem Half.linkFields_raise {x y : Half} (h : x.linkFields = y.linkFields) :
    ({ ({ x with link := .up } : Half).raise evLinkUp with linkTries := 0 } : Half).linkFields = (.up, 0, y.event ||| 4, y.pstate, y.epoch) := by
  simp only [Half.linkFields, Prod.mk.injEq] at h
  obtain ⟨-, -, hevent, hpstate, hepoch⟩ := h
  simp only [Half.linkFields, Half.raise, hevent, hpstate, hepoch]
  rfl

theorem State.linkRose_raiseLink {s t : State} (h : s.TablesCopied t) : s.LinkRose t.raiseLink.mergeCounters := by
  obtain ⟨hmerge0, hmerge1⟩ := t.raiseLink.linkFields_mergeCounters
  refine ⟨hmerge0.trans (Half.linkFields_raise (h.fields 0)), hmerge1.trans (Half.linkFields_raise (h.fields 1)), fun k hk hagree => ?_⟩
  have htop : t.raiseLink.topCtr k = s.topCtr k :=
    congrArg₂ max (congrArg KeySlot.ctrHi (h.key k hagree 0)) (congrArg KeySlot.ctrHi (h.key k hagree 1))
  rw [← htop]
  exact t.raiseLink.ctrHi_mergeCounters hk

theorem State.LinkRose.of_linkSides {s t u : State} (h : s.LinkRose t) (hu : u.linkSides = t.linkSides) : s.LinkRose u := by
  obtain ⟨h0, h1⟩ := Prod.ext_iff.mp hu
  have hkey : ∀ {x y : Half}, x.linkSide = y.linkSide → ∀ k, x.key k = y.key k := fun h k =>
    congrArg (FMap.get KeySlot.empty · k) (congrArg Prod.snd h)
  refine ⟨(congrArg Prod.fst h0).trans h.fields0, (congrArg Prod.fst h1).trans h.fields1, fun k hk hagree => ?_⟩
  rw [hkey h0 k, hkey h1 k]
  exact h.ctrHi k hk hagree

theorem State.linkRose_enterUp (s : State) : s.LinkRose s.enterUp :=
  (State.linkRose_raiseLink s.tablesCopied_copyTables).of_linkSides s.enterUp_linkSides

/-! ### The link's instructions -/

section
variable {s : State}

theorem exec_halfLinkFlit {h : Nat} (hh : h < 2) (good : Bool) (c : Option Nat) :
    exec (.halfLinkFlitReceive h good c) s = .next (doHalfFlit s h good c) := by
  show Host.Outcome.next (onHalf h s _) = _
  rw [onHalf, if_pos hh]

section
variable {h : Nat} (hh : h < 2) (hup : s.linkUp = true)
include hh hup

theorem doHalfFlit_good (c : Option Nat) : doHalfFlit s h true c = s.setHalf h { s.half h with linkTries := 0 } := by
  simp [doHalfFlit, hup, hh]

theorem doHalfFlit_replayed (htries : (s.half h).linkTries < 3) :
    doHalfFlit s h false none = s.setHalf h { s.half h with linkTries := (s.half h).linkTries + 1 } := by
  simp [doHalfFlit, hup, hh, htries]

/-- A flit of an access's core is counted at that core too (R229). -/
theorem doHalfFlit_replayed_core (htries : (s.half h).linkTries < 3) {c : Nat} (hc : corePresent s.build c = true) :
    doHalfFlit s h false (some c) = (s.setHalf h { s.half h with linkTries := (s.half h).linkTries + 1 }).setCore c
      { s.core c with parcnt := satAdd (s.core c).parcnt 1 } := by
  obtain ⟨a, b, hset⟩ := s.setHalf_eq h { s.half h with linkTries := (s.half h).linkTries + 1 }
  simp only [doHalfFlit, hup, Nat.not_le.mpr hh, htries, State.countReplay, Bool.not_true, Bool.false_eq_true, or_self, if_false, if_true, hset, hc]
  rfl

/-- A flit that fails three replays makes the link retrain. -/
theorem doHalfFlit_retrain (htries : 3 ≤ (s.half h).linkTries) (j : Nat) : ∃ n, (doHalfFlit s h false none).half j =
    { s.half j with link := .training, event := (s.half j).event ||| 2, lastHseq := none, linkTries := n } := by
  have hup' : (s.setHalf h { s.half h with linkTries := 0 }).linkUp = true := by
    rw [State.linkUp_setHalf s h _ (by rfl), hup]
  have hflit : doHalfFlit s h false none =
      ((s.setHalf h { s.half h with linkTries := 0 }).setLink .training).bothHalves (fun x => { x.raise evLinkDown with lastHseq := none }) := by
    simp [doHalfFlit, hup, hh, Nat.not_lt.mpr htries, State.leaveUp, hup']
  have hhalf : ∀ t : State, ((t.setLink .training).bothHalves (fun x => { x.raise evLinkDown with lastHseq := none })).half j =
      { t.half j with link := .training, event := (t.half j).event ||| 2, lastHseq := none } := fun t => by
    unfold State.half
    split <;> rfl
  rw [hflit, hhalf, State.half_setHalf_iff]
  split
  · next hj => exact ⟨0, by rw [s.half_eq_of_iff hj]⟩
  · exact ⟨_, rfl⟩

end

theorem exec_halfLinkDownTimeout (h : s.half0.link = .training) : exec .halfLinkDownTimeout s =
    .next { s with half0 := ({ s.half0 with link := .down } : Half).loseFlight { s.half1 with link := .down },
                   half1 := ({ s.half1 with link := .down } : Half).loseFlight { s.half0 with link := .down } } := by
  show Host.Outcome.next (doLinkDown s) = _
  rw [doLinkDown, if_pos h]
  rfl

theorem exec_halfLinkRetrainComplete (h : s.half0.link = .training) (h0 : s.half0.linkable = true) (h1 : s.half1.linkable = true) :
    exec .halfLinkRetrainComplete s = .next s.enterUp := by
  show Host.Outcome.next (doLinkRetrained s) = _
  rw [doLinkRetrained, if_pos ⟨h, h0, h1⟩]

section
variable (hdown : s.linkUp = false) (h0 : s.half0.linkable = true) (h1 : s.half1.linkable = true)
include hdown h0 h1

theorem exec_halfLinkUp : exec .halfLinkUp s = .next s.enterUp := by
  show Host.Outcome.next (doLinkUp s) = _
  simp [doLinkUp, hdown, h0, h1]

theorem exec_halfLinkTrainingComplete (ht0 : s.hbmTrained 0 = true) (ht1 : s.hbmTrained 1 = true) (good : Bool) :
    exec (.halfLinkTrainingComplete good) s = .next (if good then s.enterUp else s.setLink .training) := by
  show Host.Outcome.next (doLinkTraining s good) = _
  simp [doLinkTraining, hdown, h0, h1, ht0, ht1]

end

end

/-- Settles O35: each instruction by what it makes of the link; a link that goes UP by what its entry shows. -/
theorem halfLink : Obligations.HalfLink := by
  unfold Obligations.HalfLink
  intro s h x both cut raised
  have hraised : raised s.enterUp := by
    obtain ⟨h0, h1, hctr⟩ := s.linkRose_enterUp
    simp only [Half.linkFields, Prod.mk.injEq] at h0 h1
    obtain ⟨hlink0, htries0, hevent0, hpstate0, hepoch0⟩ := h0
    obtain ⟨hlink1, htries1, hevent1, hpstate1, hepoch1⟩ := h1
    exact ⟨⟨⟨hlink0, hevent0, htries0, hpstate0, hepoch0⟩, hlink1, hevent1, htries1, hpstate1, hepoch1⟩, hctr⟩
  refine ⟨fun hh hup => ⟨?_, fun htries => ⟨?_, fun c hc => ?_⟩, fun htries => ?_⟩, fun htraining => ⟨?_, fun h0 h1 => ?_⟩,
    fun hdown h0 h1 => ⟨⟨_, exec_halfLinkUp hdown h0 h1, hraised⟩, fun ht0 ht1 => ⟨⟨_, ?_, hraised⟩, ?_⟩⟩⟩
  · rw [exec_halfLinkFlit hh, doHalfFlit_good hh hup]
  · rw [exec_halfLinkFlit hh, doHalfFlit_replayed hh hup htries]
  · rw [exec_halfLinkFlit hh, doHalfFlit_replayed_core hh hup htries hc]
  · refine ⟨_, exec_halfLinkFlit hh _ _, ?_⟩
    obtain ⟨_, h0⟩ := doHalfFlit_retrain hh hup htries 0
    obtain ⟨_, h1⟩ := doHalfFlit_retrain hh hup htries 1
    have hcut : ∀ {a b : Half} {n : Nat}, b = { a with link := .training, event := a.event ||| 2, lastHseq := none, linkTries := n } → cut a b := by
      rintro a _ n rfl
      exact ⟨rfl, rfl, rfl, rfl, rfl⟩
    exact ⟨hcut h0, hcut h1⟩
  · exact ⟨_, exec_halfLinkDownTimeout htraining, ⟨⟨rfl, rfl, rfl, rfl, rfl, rfl, rfl⟩, rfl, rfl, rfl, rfl, rfl, rfl, rfl⟩, rfl, rfl⟩
  · exact ⟨_, exec_halfLinkRetrainComplete htraining h0 h1, hraised⟩
  · exact exec_halfLinkTrainingComplete hdown h0 h1 ht0 ht1 true
  · exact exec_halfLinkTrainingComplete hdown h0 h1 ht0 ht1 false

end Sys2Proof.Machine
end

section
/-! SUPPORT. What a reset of a half does, part by part: the bindings it stops, the halves, and the half's units (O41). -/

namespace Sys2Proof.Machine

theorem FMap.get_filter_key {α : Type} (d : α) (p : Nat → Bool) (m : FMap α) (k : Nat) :
    FMap.get d (m.filter (fun e => p e.1)) k = if p k then FMap.get d m k else d := by
  induction m with
  | nil => simp
  | cons e t ih =>
    obtain ⟨j, v⟩ := e
    by_cases hk : k = j <;> cases hp : p j <;> simp_all [FMap.get]

/-! ### The press bytes that a core's binding holds stay through a stop -/

theorem Core.press_viewOf (k : Core) (e : TileEntry) : (k.viewOf e).press = k.press := by
  unfold Core.viewOf
  split
  case h_6 =>
    dsimp only
    split <;> rfl
  all_goals rfl

theorem Core.press_takeBack (k : Core) (e : TileEntry) : (k.takeBack e).press = k.press := by
  unfold Core.takeBack
  split
  · split <;> rfl
  · rfl

theorem Core.press_dropWork (k : Core) (p : Nat → Bool) : (k.dropWork p).press = k.press := by
  have htake : (k.tileQ.foldl (fun k e => if p e.g then k.takeBack e else k) k).press = k.press :=
    foldl_keeps _ _ Core.press (fun a e => by split; exacts [a.press_takeBack e, rfl]) _
  exact (foldl_keeps _ Core.viewOf Core.press Core.press_viewOf _).trans htake

theorem State.press_mapCores {s : State} {f : Nat → Core → Core} (hf : ∀ c k, (f c k).press = k.press) (c : Nat) :
    ((s.mapCores f).core c).press = (s.core c).press := by
  rw [State.mapCores_core]
  split
  · exact hf _ _
  · rfl

theorem State.EnginesDiffer.core {s t : State} (h : s.EnginesDiffer t) (c : Nat) : t.core c = s.core c := by
  obtain ⟨_, _, rfl⟩ := h.rest
  rfl

theorem State.press_haltBinding (s : State) (b c : Nat) : ((s.haltBinding b).core c).press = (s.core c).press := by
  have hthreads : (s.mapThreads (fun g t => if s.onBinding b g then t.halt else t)).core c = s.core c := by
    obtain ⟨_, heq⟩ := s.mapThreads_eq (fun g t => if s.onBinding b g then t.halt else t)
    rw [heq]
    rfl
  rw [State.haltBinding, (State.enginesDiffer_dropColls _ b).core c]
  refine (State.press_mapCores (fun _ _ => by rfl) c).trans ?_
  rw [State.haltThreads, State.press_mapCores fun _ k => k.press_dropWork _, hthreads]

theorem State.press_stopBinding (s : State) (b c : Nat) : ((s.stopBinding b).core c).press = (s.core c).press := by
  cases hstop : (s.binding b).stop with
  | true =>
    rw [State.stopBinding_stopped hstop]
    split <;> rfl
  | false =>
    rw [State.stopBinding_running hstop, (State.enginesDiffer_notifyRollback _ b).core c, State.core_setBinding, State.press_haltBinding]

/-! ### The bindings that a reset of a half stops (R361) -/

/-- A binding stopped by a reset. -/
def State.stopByReset (s : State) (b : Nat) : State :=
  (s.stopBinding b).setBinding b { (s.stopBinding b).binding b with byReset := !(s.binding b).stop || (s.binding b).byReset }

/-- Every live binding that holds a unit of half `h` stops. -/
def State.stopHeld (s : State) (h : Nat) : State :=
  (s.liveBindings.filter (fun b => s.holdsAny b (fun c => decide (halfOfCore c = h)) (fun g => decide (halfOfStack (stackOfGranule g) = h)))).foldl
    State.stopByReset s

theorem State.unitsKept_stopHeld (s : State) (h : Nat) : s.UnitsKept (s.stopHeld h) :=
  .foldl _ (fun t b => (t.unitsKept_stopBinding b).trans (State.unitsKept_setBinding _ _ _)) s

theorem State.press_stopHeld (s : State) (h c : Nat) : ((s.stopHeld h).core c).press = (s.core c).press :=
  foldl_keeps _ State.stopByReset (fun t => (t.core c).press) (fun t b => t.press_stopBinding b c) s

theorem State.stopHeld_of_no_live {s : State} (hlive : ∀ b, (s.binding b).live = false) (h : Nat) : s.stopHeld h = s := by
  have hnone : s.liveBindings = [] := List.filter_eq_nil_iff.mpr fun b _ => by simp [hlive b]
  rw [State.stopHeld, hnone]
  rfl

/-! ### Changes of the halves alone -/

/-- `t` is `s` but for the halves. -/
def State.SameButHalves (s t : State) : Prop := ∃ h0 h1, t = { s with half0 := h0, half1 := h1 }

theorem State.SameButHalves.refl (s : State) : s.SameButHalves s := ⟨_, _, rfl⟩

theorem State.SameButHalves.setHalf {s t : State} (ht : s.SameButHalves t) (h : Nat) (x : Half) : s.SameButHalves (t.setHalf h x) := by
  obtain ⟨_, _, rfl⟩ := ht
  obtain ⟨_, _, heq⟩ := State.setHalf_eq _ h x
  exact ⟨_, _, heq⟩

theorem State.SameButHalves.leaveUp {s t : State} (ht : s.SameButHalves t) (v : LinkState) : s.SameButHalves (t.leaveUp v) := by
  obtain ⟨_, _, rfl⟩ := ht
  unfold State.leaveUp State.setLink State.bothHalves
  split <;> exact ⟨_, _, rfl⟩

/-! ### The halves of a half's reset (R360-R362) -/

/-- The commands that only the journal of half `h` held are gone, its link is DOWN, and its wire HOLD falls. -/
def State.halfLost (s : State) (h : Nat) : State :=
  (State.leaveUp { s with cmds := s.cmds.filter fun c =>
    !(decide (c.half = h) && c.phase != CmdPhase.final && !(s.half (1 - h)).journal.contains c.jseq) } .down).setHold h false

/-- Half `h` is reset, and what was in flight to its peer is lost. -/
def State.resetHalves (s : State) (h : Nat) (stage : Stage') (held : Bool) : State :=
  let t := (s.halfLost h).setHalf h { ((s.halfLost h).half h).afterReset true with
    stage := stage, inReset := held, leftReset := true, peerHold := (s.half (1 - h)).hold }
  t.setHalf (1 - h) ((t.half (1 - h)).loseFlight (s.half h))

/-- A binding's counters of half `h` are cleared. -/
def Binding.clearCounters (h : Nat) (x : Binding) : Binding := { x with unauth := FMap.set 0 x.unauth h 0, ecrc := FMap.set 0 x.ecrc h 0 }

/-- A core as a reset of half `h` leaves it. -/
def Core.resetIn (h c : Nat) (k : Core) : Core := if halfOfCore c = h then k.afterReset else k

/-- The ports of half `h` are reset. -/
def State.resetPorts (s : State) (h : Nat) : State :=
  let t := (upto 12).foldl (fun s i => s.setPort (12 * h + i) (s.port (12 * h + i)).afterReset) s
  t.setPort (24 + h) (t.port (24 + h)).afterReset

/-- The cores, threads, ports and memory of half `h` are reset, and its counters of each binding. -/
def State.resetUnits (s : State) (h : Nat) : State :=
  let t := (s.mapBindings (fun _ => Binding.clearCounters h)).mapCores (Core.resetIn h)
  (State.resetPorts { t with threads := t.threads.filter (fun e => halfOfCore (coreOf e.1) ≠ h) } h).forget h

theorem State.resetHalf_eq (s : State) (h : Nat) (stage : Stage') (held : Bool) :
    s.resetHalf h stage held = ((s.stopHeld h).resetHalves h stage held).resetUnits h := rfl

section
variable (s : State) (h : Nat) (stage : Stage') (held : Bool)

theorem State.half_leaveUp (v : LinkState) (j : Nat) :
    ∃ l e q, (s.leaveUp v).half j = { s.half j with link := l, event := e, lastHseq := q } := by
  unfold State.leaveUp State.setLink State.bothHalves
  split
  · unfold State.half
    split <;> exact ⟨_, _, _, rfl⟩
  · unfold State.half
    split <;> exact ⟨_, _, _, rfl⟩

theorem State.half_setHold (v : Bool) (j : Nat) : ∃ own peer, (s.setHold h v).half j = { s.half j with hold := own, peerHold := peer } := by
  rw [State.setHold, State.half_setHalf_iff]
  split
  · next hj => exact ⟨_, _, by rw [State.half_setHalf_far, s.half_eq_of_iff hj]⟩
  · rw [State.half_setHalf_iff]
    split
    · next hj => exact ⟨_, _, by rw [s.half_eq_of_iff hj]⟩
    · exact ⟨_, _, rfl⟩

theorem State.half_halfLost (j : Nat) : ∃ l e q own peer, (s.halfLost h).half j =
    { s.half j with link := l, event := e, lastHseq := q, hold := own, peerHold := peer } := by
  obtain ⟨own, peer, hhold⟩ := State.half_setHold (State.leaveUp { s with cmds := s.cmds.filter fun c =>
    !(decide (c.half = h) && c.phase != CmdPhase.final && !(s.half (1 - h)).journal.contains c.jseq) } .down) h false j
  obtain ⟨l, e, q, hleave⟩ := State.half_leaveUp { s with cmds := s.cmds.filter fun c =>
    !(decide (c.half = h) && c.phase != CmdPhase.final && !(s.half (1 - h)).journal.contains c.jseq) } .down j
  exact ⟨l, e, q, own, peer, by rw [State.halfLost, hhold, hleave]; rfl⟩

/-- The halves and the commands alone change. -/
theorem State.resetHalves_rest : ∃ l, State.SameButHalves { s with cmds := l } (s.resetHalves h stage held) :=
  ⟨_, ((((State.SameButHalves.refl _).leaveUp _).setHalf _ _).setHalf _ _).setHalf _ _ |>.setHalf _ _⟩

/-- The reset half: what survives of it, in the stage it starts from. -/
theorem State.half_resetHalves (hh : h < 2) : (s.resetHalves h stage held).half h =
    { (s.half h).afterReset true with stage := stage, inReset := held, leftReset := true, peerHold := (s.half (1 - h)).hold } := by
  obtain ⟨_, _, _, _, _, hlost⟩ := s.half_halfLost h h
  rw [State.resetHalves, State.half_setHalf_other _ _ (by omega) hh (by omega), State.half_setHalf_same, hlost]
  rfl

/-- The other half keeps its primacy and its journal. -/
theorem State.half_resetHalves_far : ((s.resetHalves h stage held).half (1 - h)).pstate = (s.half (1 - h)).pstate ∧
    ((s.resetHalves h stage held).half (1 - h)).journal = (s.half (1 - h)).journal := by
  obtain ⟨_, _, _, _, _, hlost⟩ := s.half_halfLost h (1 - h)
  rw [State.resetHalves, State.half_setHalf_same, State.half_setHalf_far, hlost]
  exact ⟨rfl, rfl⟩

end

/-! ### The units of a half's reset -/

section
variable (s : State) (h : Nat)

theorem State.port_foldl_afterReset (a : Nat) (l : List Nat) (p : Nat) :
    (l.foldl (fun s i => s.setPort (a + i) (s.port (a + i)).afterReset) s).port p =
      if ∃ i ∈ l, p = a + i then (s.port p).afterReset else s.port p := by
  induction l generalizing s with
  | nil => simp
  | cons i l ih =>
    rw [List.foldl_cons, ih, State.port_setPort]
    by_cases hi : p = a + i
    · subst hi
      simp only [if_true, List.mem_cons, exists_eq_or_imp, true_or]
      split <;> rfl
    · simp [hi]

theorem State.resetPorts_eq : ∃ m, s.resetPorts h = { s with ports := m } := by
  have hfold : ∃ m, (upto 12).foldl (fun s i => s.setPort (12 * h + i) (s.port (12 * h + i)).afterReset) s = { s with ports := m } := by
    refine List.foldlRecOn (motive := fun t : State => ∃ m, t = { s with ports := m }) _ _ ⟨_, rfl⟩ ?_
    rintro _ ⟨m, rfl⟩ i -
    exact ⟨_, rfl⟩
  obtain ⟨m, hm⟩ := hfold
  rw [State.resetPorts, hm]
  exact ⟨_, rfl⟩

theorem State.port_resetPorts {p : Nat} (hp : p < 24) (hhalf : p / 12 = h) : (s.resetPorts h).port p = (s.port p).afterReset := by
  rw [State.resetPorts, State.port_setPort, if_neg (by omega), State.port_foldl_afterReset, if_pos]
  exact ⟨p - 12 * h, List.mem_range.mpr (by omega), by omega⟩

theorem State.port_forget (p : Nat) : (s.forget h).port p = s.port p := rfl

/-- What a reset of a half's units changes. -/
theorem State.resetUnits_eq : ∃ ps, s.resetUnits h = State.forget { s with
    bindings := (s.mapBindings (fun _ => Binding.clearCounters h)).bindings
    cores := ((s.mapBindings (fun _ => Binding.clearCounters h)).mapCores (Core.resetIn h)).cores
    threads := s.threads.filter (fun e => halfOfCore (coreOf e.1) ≠ h), ports := ps } h := by
  obtain ⟨bs, hbs⟩ := s.mapBindings_eq (fun _ => Binding.clearCounters h)
  obtain ⟨ks, hks⟩ := State.mapCores_eq { s with bindings := bs } (Core.resetIn h)
  obtain ⟨ps, hps⟩ := State.resetPorts_eq { s with
    bindings := bs, cores := ks, threads := s.threads.filter (fun e => halfOfCore (coreOf e.1) ≠ h) } h
  refine ⟨ps, ?_⟩
  rw [State.resetUnits, hbs, hks]
  exact congrArg (State.forget · h) hps

theorem State.half_resetUnits (j : Nat) : (s.resetUnits h).half j = s.half j := by
  obtain ⟨_, heq⟩ := s.resetUnits_eq h
  rw [heq]
  rfl

theorem State.byte_resetUnits (a : Nat) : (s.resetUnits h).byte a = if inHalf h a then 0 else s.byte a := by
  obtain ⟨_, heq⟩ := s.resetUnits_eq h
  rw [heq]
  refine (FMap.get_filter_key 0#8 (fun a => !inHalf h a) s.mem a).trans ?_
  cases inHalf h a <;> rfl

theorem State.thread_resetUnits (g : Nat) :
    (s.resetUnits h).thread g = if halfOfCore (coreOf g) = h then Thread.reset else s.thread g := by
  obtain ⟨_, heq⟩ := s.resetUnits_eq h
  rw [heq]
  refine (FMap.get_filter_key Thread.reset (fun g => decide (halfOfCore (coreOf g) ≠ h)) s.threads g).trans ?_
  by_cases hg : halfOfCore (coreOf g) = h <;> simp [hg, State.thread]

/-- A core of the half is reset, bound as it was; one that is not listed is as reset leaves it. -/
theorem State.core_resetUnits {c : Nat} (hc : halfOfCore c = h) :
    (s.resetUnits h).core c = (s.core c).afterReset ∨ (s.resetUnits h).core c = s.core c ∧ s.core c = Core.reset := by
  obtain ⟨_, heq⟩ := s.resetUnits_eq h
  obtain ⟨bs, hbs⟩ := s.mapBindings_eq (fun _ => Binding.clearCounters h)
  have hcore : (s.resetUnits h).core c = ((s.mapBindings (fun _ => Binding.clearCounters h)).mapCores (Core.resetIn h)).core c := by
    rw [heq]
    rfl
  rw [hcore, hbs, State.mapCores_core]
  split
  · exact .inl (if_pos hc)
  · next hlisted => exact .inr ⟨rfl, FMap.get_of_not_mem _ hlisted⟩

theorem State.binding_resetUnits (b : Nat) :
    (s.resetUnits h).binding b = (s.binding b).clearCounters h ∨ (s.resetUnits h).binding b = Binding.empty := by
  obtain ⟨_, heq⟩ := s.resetUnits_eq h
  have hbinding : (s.resetUnits h).binding b = (s.mapBindings (fun _ => Binding.clearCounters h)).binding b := by
    rw [heq]
    rfl
  rw [hbinding, State.binding_mapBindings]
  split
  · exact .inl rfl
  · next hlisted => exact .inr (FMap.get_of_not_mem _ hlisted)

theorem State.port_resetUnits {p : Nat} (hp : p < 24) (hhalf : p / 12 = h) : (s.resetUnits h).port p = (s.port p).afterReset := by
  obtain ⟨bs, hbs⟩ := s.mapBindings_eq (fun _ => Binding.clearCounters h)
  obtain ⟨ks, hks⟩ := State.mapCores_eq { s with bindings := bs } (Core.resetIn h)
  rw [State.resetUnits, hbs, hks, State.port_forget, State.port_resetPorts _ h hp hhalf]
  rfl

end

/-! ### A half's reset as a whole -/

theorem Half.key_keysAfterReset (x : Half) {k : Nat} (hk : k < 16) : FMap.get KeySlot.empty x.keysAfterReset k = (x.key k).afterReset := by
  have hfold := FMap.get_foldl_set KeySlot.empty (fun k => (x.key k).afterReset) ((upto 16).map (fun k => (k, ()))) [] k
  rw [List.foldl_map, if_pos (by simpa [upto] using hk)] at hfold
  exact hfold

theorem Half.afterReset_eng (x : Half) (e : Engine) (aon : Bool) : ({ x with eng := e } : Half).afterReset aon = x.afterReset aon := rfl

section
variable (s : State) {h : Nat} (stage : Stage') (held : Bool)

theorem State.half_resetHalf (hh : h < 2) : ∃ peer, (s.resetHalf h stage held).half h =
    { (s.half h).afterReset true with stage := stage, inReset := held, leftReset := true, peerHold := peer } := by
  obtain ⟨e, he⟩ := (s.unitsKept_stopHeld h).half h
  rw [State.resetHalf_eq, State.half_resetUnits, State.half_resetHalves _ _ _ _ hh, he, Half.afterReset_eng]
  exact ⟨_, rfl⟩

theorem State.half_resetHalf_far : ((s.resetHalf h stage held).half (1 - h)).pstate = (s.half (1 - h)).pstate ∧
    ((s.resetHalf h stage held).half (1 - h)).journal = (s.half (1 - h)).journal := by
  obtain ⟨e, he⟩ := (s.unitsKept_stopHeld h).half (1 - h)
  rw [State.resetHalf_eq, State.half_resetUnits]
  obtain ⟨hpstate, hjournal⟩ := (s.stopHeld h).half_resetHalves_far h stage held
  rw [hpstate, hjournal, he]
  exact ⟨rfl, rfl⟩

theorem State.thread_resetHalf {g : Nat} (hg : halfOfCore (coreOf g) = h) : (s.resetHalf h stage held).thread g = Thread.reset := by
  rw [State.resetHalf_eq, State.thread_resetUnits, if_pos hg]

theorem State.byte_resetHalf {a : Nat} (ha : inHalf h a = true) : (s.resetHalf h stage held).byte a = 0 := by
  rw [State.resetHalf_eq, State.byte_resetUnits, if_pos ha]

/-- A core of the half: its work is gone, its binding, its window and its place stay. -/
theorem State.core_resetHalf {c : Nat} (hc : halfOfCore c = h) :
    ((s.resetHalf h stage held).core c).binding = (s.core c).binding ∧ ((s.resetHalf h stage held).core c).tileQ = [] ∧
    ((s.resetHalf h stage held).core c).slots = [] ∧ ((s.resetHalf h stage held).core c).tvbase = 0 ∧
    ((s.resetHalf h stage held).core c).press = (s.core c).press ∧ ((s.resetHalf h stage held).core c).phys = (s.core c).phys := by
  obtain ⟨l, h0, h1, hhalves⟩ := (s.stopHeld h).resetHalves_rest h stage held
  have hcore : ((s.stopHeld h).resetHalves h stage held).core c = (s.stopHeld h).core c := by rw [hhalves]; rfl
  have hplace := (s.unitsKept_stopHeld h).place c
  have hpress := s.press_stopHeld h c
  simp only [Core.place, Prod.mk.injEq] at hplace
  obtain ⟨hphys, hbinding⟩ := hplace
  rw [← hphys, ← hbinding, ← hpress, State.resetHalf_eq, ← hcore]
  obtain hreset | ⟨hsame, hreset⟩ := ((s.stopHeld h).resetHalves h stage held).core_resetUnits h hc
  · rw [hreset]
    exact ⟨rfl, rfl, rfl, rfl, rfl, rfl⟩
  · rw [hsame, hreset]
    exact ⟨rfl, rfl, rfl, rfl, rfl, rfl⟩

theorem State.binding_resetHalf (b : Nat) : FMap.get 0 ((s.resetHalf h stage held).binding b).unauth h = 0 ∧
    FMap.get 0 ((s.resetHalf h stage held).binding b).ecrc h = 0 := by
  rw [State.resetHalf_eq]
  obtain hclear | hempty := ((s.stopHeld h).resetHalves h stage held).binding_resetUnits h b
  · rw [hclear]
    simp [Binding.clearCounters]
  · rw [hempty]
    exact ⟨rfl, rfl⟩

theorem State.port_resetHalf {p : Nat} (hp : p < 24) (hhalf : p / 12 = h) :
    (s.resetHalf h stage held).port p = { Port.reset with dead := (s.port p).dead } := by
  obtain ⟨l, h0, h1, hhalves⟩ := (s.stopHeld h).resetHalves_rest h stage held
  have hports : ((s.stopHeld h).resetHalves h stage held).port p = s.port p := by
    rw [hhalves]
    exact congrArg (FMap.get Port.reset · p) (s.unitsKept_stopHeld h).ports
  rw [State.resetHalf_eq, State.port_resetUnits _ _ hp hhalf, hports]
  rfl

section
variable {s} (hlive : ∀ b, (s.binding b).live = false)
include hlive

/-- With no live binding the other half's threads and memory stay. -/
theorem State.thread_resetHalf_far {g : Nat} (hg : halfOfCore (coreOf g) ≠ h) : (s.resetHalf h stage held).thread g = s.thread g := by
  obtain ⟨l, h0, h1, hhalves⟩ := s.resetHalves_rest h stage held
  rw [State.resetHalf_eq, State.stopHeld_of_no_live hlive, State.thread_resetUnits, if_neg hg, hhalves]
  rfl

theorem State.byte_resetHalf_far {a : Nat} (ha : inHalf h a = false) : (s.resetHalf h stage held).byte a = s.byte a := by
  obtain ⟨l, h0, h1, hhalves⟩ := s.resetHalves_rest h stage held
  rw [State.resetHalf_eq, State.stopHeld_of_no_live hlive, State.byte_resetUnits, ha, hhalves]
  rfl

end

end

end Sys2Proof.Machine
end

section
/-! What each reset reaches and what it leaves (O41). -/

namespace Sys2Proof.Machine

/-! ### The reset of one half (R318, R360-R362) -/

/-- What a reset that keeps the AON domain leaves of a half: `b` is the half after it, `a` before. -/
structure Half.WasReset (a b : Half) : Prop where
  aon : b.time = a.time ∧ b.epoch = a.epoch ∧ b.pwrEn = a.pwrEn
  reset : b.pstate = .split ∧ b.event = 0 ∧ b.journal = [] ∧ b.rings = [] ∧ b.keyTable = [] ∧ b.eng = Engine.reset ∧ b.faults = []
  kept : b.flash = { a.flash with running := none } ∧ b.linkSpares = a.linkSpares
  keys : b.keys = a.keysAfterReset

theorem Half.wasReset_afterReset (x : Half) : x.WasReset (x.afterReset true) :=
  ⟨⟨rfl, rfl, rfl⟩, ⟨rfl, rfl, rfl, rfl, rfl, rfl, rfl⟩, ⟨rfl, rfl⟩, rfl⟩

theorem Half.WasReset.key {a b : Half} (h : a.WasReset b) {k : Nat} (hk : k < 16) :
    (b.key k).key = (a.key k).key ∧ (b.key k).mark = (a.key k).mark ∧ (b.key k).ctrHi = (a.key k).mark + 4096 := by
  rw [Half.key, h.keys, Half.key_keysAfterReset a hk]
  exact ⟨rfl, rfl, rfl⟩

theorem State.wasReset_resetHalf (s : State) {h : Nat} (stage : Stage') (held : Bool) (hh : h < 2) :
    (s.half h).WasReset ((s.resetHalf h stage held).half h) := by
  obtain ⟨_, hhalf⟩ := s.half_resetHalf stage held hh
  rw [hhalf]
  exact ⟨(s.half h).wasReset_afterReset.aon, (s.half h).wasReset_afterReset.reset, (s.half h).wasReset_afterReset.kept, rfl⟩

theorem exec_halfReset_short {s : State} {h us : Nat} (hus : us < 500) : exec (.halfReset h us) s = .next s := by
  show Host.Outcome.next (onHalf h s (doHalfReset s h us)) = _
  simp [onHalf, doHalfReset, State.pulse, hus]

section
variable {s : State} {h : Nat} (hh : h < 2)
include hh

theorem exec_halfReset {us : Nat} (hon : (s.half h).stage ≠ .off) (hus : 1000 ≤ us) : exec (.halfReset h us) s =
    .next ((s.resetHalf h .waitEn true).setHalf h { (s.resetHalf h .waitEn true).half h with pin := true }) := by
  show Host.Outcome.next (onHalf h s (doHalfReset s h us)) = _
  have hshort : ¬ us < 500 := by omega
  simp [onHalf, hh, doHalfReset, State.powered, hon, State.pulse, hshort, hus]

theorem exec_noKeeperTimeout (hstage : (s.half h).stage = .ready) (h0 : (s.half h).keeper0 ≠ .active) (h1 : (s.half h).keeper1 ≠ .active) :
    exec (.noKeeperTimeout h) s = .next ((s.resetHalf h .waitEn true).setHalf h ((s.resetHalf h .waitEn true).half h).restart) := by
  show Host.Outcome.next (onHalf h s (doNoKeeper s h)) = _
  simp [onHalf, hh, doNoKeeper, hstage, Half.keeperUp, h0, h1, State.resetHalfNow]

theorem exec_halfResetRelease (hpin : (s.half h).pin = true) : exec (.halfResetRelease h) s = .next (s.setHalf h (s.half h).restart) := by
  show Host.Outcome.next (onHalf h s (doHalfRelease s h)) = _
  simp [onHalf, hh, doHalfRelease, hpin]

/-! ### Keepers (R330) -/

theorem exec_keeperReset_active (hstage : (s.half h).stage = .ready) (h0 : (s.half h).keeper0 = .active) (h1 : (s.half h).keeper1 = .standby) :
    exec (.keeperReset h 0) s = .next (s.setHalf h { s.half h with keeper0 := .booting, keeper1 := .active }) := by
  show Host.Outcome.next (onHalf h s (doKeeperReset s h 0)) = _
  simp [onHalf, hh, doKeeperReset, hstage, Half.keeper, Half.setKeeper, h0, h1]

theorem exec_keeperStandbyReturn (h0 : (s.half h).keeper0 = .booting) (h1 : (s.half h).keeper1 = .active) (good : Bool) :
    exec (.keeperStandbyReturn h good) s = .next (if good && (s.half h).flash.bootable then s.setHalf h { s.half h with keeper0 := .standby }
      else (s.setHalf h { s.half h with keeper0 := .out }).recordFault (unitId 4 (2 * h)) 0x01) := by
  show Host.Outcome.next (onHalf h s (doKeeperReturn s h good)) = _
  simp [onHalf, hh, doKeeperReturn, h0, h1, Half.setKeeper]

end

theorem imageOk_iff (f : Flash) (m : Image) : imageOk f m = true ↔
    m.sigOk = true ∧ m.key < 4 ∧ Config.keyRevoked m.key = false ∧ f.fuseMin ≤ m.version ∧ m.size ≤ 64 * 2 ^ 20 := by
  simp [imageOk, and_assoc]

/-- The ROM tries both banks, whichever is ACTIVE. -/
theorem Flash.bootable_iff (f : Flash) : f.bootable = true ↔ imageOk f f.bankA = true ∨ imageOk f f.bankB = true := by
  cases hactive : f.active <;> simp [Flash.bootable, Flash.bank, hactive, or_comm]

/-! ### The reset of the module -/

section
variable {s : State}

theorem exec_moduleReset_short {us : Nat} (hus : us < 500) : exec (.moduleReset us) s = .next s := by
  show Host.Outcome.next (doModuleReset s us) = _
  simp [doModuleReset, State.pulse, hus]

theorem exec_moduleReset {us : Nat} (hon : s.half0.stage ≠ .off) (hus : 1000 ≤ us) :
    exec (.moduleReset us) s = .next (s.resetModule true .waitEn true) := by
  show Host.Outcome.next (doModuleReset s us) = _
  have hshort : ¬ us < 500 := by omega
  simp [doModuleReset, State.powered, State.half, hon, State.pulse, hshort, hus]

theorem State.core_resetModule (s : State) (aon : Bool) (stage : Stage') (held : Bool) (c : Nat) :
    (s.resetModule aon stage held).core c = { Core.reset with phys := (s.core c).phys } := by
  show FMap.get Core.reset (s.cores.foldr (fun e m => FMap.set Core.reset m e.1 { Core.reset with phys := e.2.phys }) []) c =
    { Core.reset with phys := (FMap.get Core.reset s.cores c).phys }
  induction s.cores with
  | nil => rfl
  | cons e l ih =>
    rw [List.foldr_cons, FMap.get_set, ih, FMap.get]
    split <;> rfl

theorem exec_moduleResetRelease (h0 : s.half0.inReset = true) (h1 : s.half1.inReset = true) (hp0 : s.half0.promote = true)
    (hp1 : s.half1.promote = true) : exec .moduleResetRelease s = .next s.restartAll := by
  show Host.Outcome.next (doModuleRelease s) = _
  simp [doModuleRelease, h0, h1, hp0, hp1]

theorem State.half_bothHalves (s : State) (f : Half → Half) (i : Nat) : (s.bothHalves f).half i = f (s.half i) := by
  unfold State.half
  split <;> rfl

/-! ### The reset of a function (R363) -/

theorem State.mem_of_cmd {t : State} {f seq : Nat} {d : Cmd} (h : t.cmd f seq = some d) : d ∈ t.cmds ∧ d.func = f := by
  have hd : t.cmds.find? (fun c => decide (c.func = f ∧ c.seq = seq)) = some d := h
  have hnamed := List.find?_some hd
  exact ⟨List.mem_of_find?_eq_some hd, (of_decide_eq_true hnamed).1⟩

/-- Commands of a function that are over are neither aborted nor posted again. -/
theorem State.flr_of_final {t : State} {n : Nat} (hfinal : ∀ c ∈ t.cmds, c.func = n → c.phase = .final) :
    ((t.cmds.filter (fun c => decide (c.func = n))).foldl State.abortTarget t).finalizeAll n = t := by
  have habort : (t.cmds.filter (fun c => decide (c.func = n))).foldl State.abortTarget t = t := by
    refine List.foldlRecOn (motive := fun u => u = t) _ _ rfl ?_
    rintro _ rfl c hc
    obtain ⟨hmem, hfunc⟩ := List.mem_filter.mp hc
    rw [State.abortTarget, hfinal c hmem (of_decide_eq_true hfunc)]
  rw [habort, State.finalizeAll]
  refine List.foldlRecOn (motive := fun u => u = t) _ _ rfl ?_
  rintro _ rfl c -
  split
  · next d hd =>
    obtain ⟨hmem, hfunc⟩ := State.mem_of_cmd hd
    rw [hfinal d hmem hfunc, if_neg (by decide)]
  · rfl

theorem exec_functionLevelReset {n : Nat} (h1 : 1 ≤ n) (h64 : n ≤ 64) (hover : ∀ c ∈ s.cmds, c.func = n → c.phase = .journalled ∨ c.phase = .final) :
    exec (.functionLevelReset n) s = .next (State.bothHalves { s with
      cmds := s.cmds.filter (fun (c : Cmd) => !(decide (c.func = n) && c.phase == CmdPhase.journalled)) } (fun h => h.setRing n Ring.reset)) := by
  have hfinal : ∀ c ∈ s.cmds.filter (fun (c : Cmd) => !(decide (c.func = n) && c.phase == CmdPhase.journalled)), c.func = n → c.phase = .final := by
    intro c hc hfunc
    obtain ⟨hmem, hleft⟩ := List.mem_filter.mp hc
    refine (hover c hmem hfunc).resolve_left fun hj => ?_
    simp [hfunc, hj] at hleft
  show Host.Outcome.next (doFlr s n) = _
  rw [doFlr, if_neg (by simp [funcOk]; omega)]
  dsimp only
  rw [State.flr_of_final (t := { s with
    cmds := s.cmds.filter (fun (c : Cmd) => !(decide (c.func = n) && c.phase == CmdPhase.journalled)) }) hfinal]

end

/-- Settles O41: a half's reset by what it makes of each part, the others by what they set. -/
theorem resets : Obligations.Resets := by
  unfold Obligations.Resets
  intro s h us x y good wasReset reached
  have hwasReset {a b : Half} (hr : a.WasReset b) : wasReset a b := by
    have hkey := fun k (hk : k < 16) => hr.key hk
    obtain ⟨⟨htime, hepoch, -⟩, ⟨hpstate, hevent, hjournal, hrings, hkeyTable, heng, hfaults⟩, ⟨hflash, hspares⟩, -⟩ := hr
    exact ⟨htime, hepoch, hpstate, hevent, hjournal, hrings, hkeyTable, heng, hfaults, hflash, hspares, hkey⟩
  have hreached {z : Half} (hz : x.WasReset z) : reached ((s.resetHalf h .waitEn true).setHalf h z) := by
    have hmem : ∀ a, ((s.resetHalf h .waitEn true).setHalf h z).byte a = (s.resetHalf h .waitEn true).byte a :=
      fun a => congrArg (FMap.get 0#8 · a) (State.setHalf_mem _ _ _)
    refine ⟨?_, fun g hg => ?_, fun c hc => ?_, fun b => ?_, fun p hp hhalf => ?_, fun a ha => ?_⟩
    · rw [State.half_setHalf_same]
      exact hwasReset hz
    · rw [State.thread_setHalf, State.thread_resetHalf s _ _ hg]
    · rw [State.core_setHalf]
      exact s.core_resetHalf _ _ hc
    · rw [State.binding_setHalf]
      exact s.binding_resetHalf _ _ b
    · rw [State.port_setHalf, s.port_resetHalf _ _ hp hhalf]
    · rw [hmem, s.byte_resetHalf _ _ ha]
  have hgood : x.flash.bootable = true ↔ good x.flash.bankA ∨ good x.flash.bankB := by
    rw [Flash.bootable_iff, imageOk_iff, imageOk_iff]
  refine ⟨fun hh hon => ⟨exec_halfReset_short, fun hus => ?_, fun hstage h0 h1 => ?_, exec_keeperReset_active hh,
      fun h0 h1 => ⟨fun hbank => ?_, fun b hbad => ?_⟩⟩,
    fun hh hpin => exec_halfResetRelease hh hpin, fun hon => ⟨exec_moduleReset_short, fun hus => ?_⟩, fun h0 h1 hp0 hp1 => ?_,
    fun n h1 h64 hover => ?_⟩
  · have hreset := s.wasReset_resetHalf .waitEn true hh
    obtain ⟨_, hhalf⟩ := s.half_resetHalf .waitEn true hh
    refine ⟨_, exec_halfReset hh hon hus, hreached ⟨hreset.aon, hreset.reset, hreset.kept, hreset.keys⟩, ?_, ?_, fun hlive => ?_⟩
    · rw [State.half_setHalf_same, hhalf]
    · rw [State.half_setHalf_same]
    · obtain ⟨hpstate, hjournal⟩ := s.half_resetHalf_far (h := h) .waitEn true
      refine ⟨?_, ?_, fun a ha => ?_, fun g hg => ?_⟩
      · rw [State.half_setHalf_far, hpstate]
      · rw [State.half_setHalf_far, hjournal]
      · rw [State.byte, State.setHalf_mem]
        exact State.byte_resetHalf_far _ _ hlive ha
      · rw [State.thread_setHalf, State.thread_resetHalf_far _ _ hlive (by omega)]
  · have hreset := s.wasReset_resetHalf .waitEn true hh
    refine ⟨_, exec_noKeeperTimeout hh hstage h0 h1, hreached ⟨hreset.aon, hreset.reset, hreset.kept, hreset.keys⟩, ?_⟩
    rw [State.half_setHalf_same, Half.restart, hreset.aon.2.2]
  · rw [exec_keeperStandbyReturn hh h0 h1, hgood.mpr hbank]
    rfl
  · rw [exec_keeperStandbyReturn hh h0 h1, if_neg]
    rw [Bool.and_eq_true, hgood]
    rintro ⟨rfl, hbank⟩
    exact hbad.elim (by decide) fun ⟨hA, hB⟩ => hbank.elim hA hB
  · have hreset (a : Half) : wasReset a { a.afterReset true with stage := .waitEn, inReset := true, promote := true } :=
      hwasReset ⟨a.wasReset_afterReset.aon, a.wasReset_afterReset.reset, a.wasReset_afterReset.kept, rfl⟩
    exact ⟨_, exec_moduleReset hon hus, hreset _, hreset _, rfl, s.core_resetModule true .waitEn true, rfl, rfl, rfl, rfl, rfl, rfl, rfl⟩
  · refine ⟨_, exec_moduleResetRelease h0 h1 hp0 hp1, fun i _ => ?_⟩
    rw [State.restartAll, State.half_bothHalves]
    exact ⟨rfl, rfl⟩
  · refine ⟨_, exec_functionLevelReset h1 h64 hover, fun i _ => ?_, rfl⟩
    rw [State.half_bothHalves]
    refine ⟨Half.ring_setRing_same .., fun j hj => ?_⟩
    rw [Half.ring_setRing_other _ _ hj]
    rfl

end Sys2Proof.Machine
end

section
/-! SUPPORT. The collective engines: each by its number, messages handed to the fabric in a row, and what the end of a command changes (R242, R263). -/

namespace Sys2Proof.Machine

/-! ### The engines by number -/

section
variable (s : State) (h j : Nat) (e : Engine)

/-- 0 names the engine of half 0, and every other number that of half 1. -/
theorem State.engine_setEngine : (s.setEngine h e).engine j = if (j = 0 ↔ h = 0) then e else s.engine j := by
  rw [State.engine, State.setEngine, State.half_setHalf_iff]
  split <;> rfl

@[simp] theorem State.engine_setEngine_same : (s.setEngine h e).engine h = e := by rw [State.engine_setEngine, if_pos Iff.rfl]

@[simp] theorem State.engine_setEngine_far : (s.setEngine h e).engine (1 - h) = s.engine (1 - h) := by
  rw [State.engine_setEngine, if_neg (by omega)]

theorem State.engine_eq_of_iff {h j : Nat} (hj : j = 0 ↔ h = 0) : s.engine j = s.engine h := congrArg Half.eng (s.half_eq_of_iff hj)

theorem State.setEngine_eq_of_iff {h j : Nat} (hj : j = 0 ↔ h = 0) : s.setEngine j e = s.setEngine h e := by
  simp only [State.setEngine, State.setHalf, State.half, hj]

@[simp] theorem State.setEngine_engine : s.setEngine h (s.engine h) = s := by
  unfold State.setEngine State.setHalf State.engine State.half
  split <;> rfl

@[simp] theorem State.setEngine_setEngine (e' : Engine) : (s.setEngine h e).setEngine h e' = s.setEngine h e' := by
  unfold State.setEngine State.setHalf State.half
  split <;> simp_all

@[simp] theorem State.setEngine_mem : (s.setEngine h e).mem = s.mem := State.setHalf_mem ..
@[simp] theorem State.setEngine_threads : (s.setEngine h e).threads = s.threads := State.setHalf_threads ..
@[simp] theorem State.setEngine_recvs : (s.setEngine h e).recvs = s.recvs := State.setHalf_recvs ..
@[simp] theorem State.binding_setEngine (b : Nat) : (s.setEngine h e).binding b = s.binding b := State.binding_setHalf ..

@[simp] theorem State.engine_setCore (c : Nat) (k : Core) : (s.setCore c k).engine j = s.engine j := rfl
@[simp] theorem State.engine_setThread (g : Nat) (t : Thread) : (s.setThread g t).engine j = s.engine j := rfl
@[simp] theorem State.engine_setPort (p : Nat) (x : Port) : (s.setPort p x).engine j = s.engine j := rfl
@[simp] theorem State.engine_setFlow (f : Flow) : (s.setFlow f).engine j = s.engine j := rfl

end

/-! ### A group by what it is read from -/

theorem State.group_congr {s t : State} {h b gid : Nat} (hgroups : (t.engine h).groups = (s.engine h).groups)
    (hstop : (t.binding b).stop = (s.binding b).stop) : t.group h b gid = s.group h b gid := by
  simp only [State.group, hgroups, hstop]

/-- A change of an engine that leaves its groups leaves what a binding finds of them. -/
theorem State.group_setEngine (s : State) {h : Nat} {e : Engine} (he : e.groups = (s.engine h).groups) (j b gid : Nat) :
    (s.setEngine h e).group j b gid = s.group j b gid := by
  refine State.group_congr ?_ (by rw [State.binding_setEngine])
  rw [State.engine_setEngine]
  split
  · next hj => rw [he, s.engine_eq_of_iff hj]
  · rfl

theorem Group.isOpen_iff (g : Group) (step attempt : Nat) : g.isOpen step attempt = true ↔ g.opened = true ∧ g.epoch = some (step, attempt) := by
  simp [Group.isOpen]

theorem Member.observes_iff (m : Member) : m.observes = true ↔ m.role = 2 := decide_eq_true_iff

theorem Member.observes_eq_false {m : Member} (h : m.role ≠ 2) : m.observes = false := decide_eq_false h

theorem pairLt_iff (a b : Nat × Nat) : pairLt a b = true ↔ a.1 < b.1 ∨ (a.1 = b.1 ∧ a.2 < b.2) := by simp [pairLt]

/-! ### Messages handed to the fabric (R281) -/

/-- Messages join an engine's outbox, in order. -/
def State.hand (s : State) (h : Nat) (l : List OutMsg) : State := s.setEngine h { s.engine h with outbox := (s.engine h).outbox ++ l }

/-- The messages that carry one body to members of a group. -/
def toMembers (b : Nat) (g : Group) (t : PType) (rw2 : Word) (xtag : Nat) (body : Payload) (l : List Nat) : List OutMsg :=
  l.map (fun m => ⟨b, (g.members.getD m ⟨0, 0, 0⟩).partner, t, rw2, BitVec.ofNat 16 xtag, body⟩)

@[simp] theorem State.hand_nil (s : State) (h : Nat) : s.hand h [] = s := by
  rw [State.hand, List.append_nil]
  exact s.setEngine_engine h

theorem State.hand_hand (s : State) (h : Nat) (l l' : List OutMsg) : (s.hand h l).hand h l' = s.hand h (l ++ l') := by simp [State.hand]

theorem State.sendMember_eq_hand (s : State) (h b : Nat) (g : Group) (m : Nat) (t : PType) (rw2 : Word) (xtag : Nat) (body : Payload) :
    s.sendMember h b g m t rw2 xtag body = s.hand h (toMembers b g t rw2 xtag body [m]) := rfl

/-- A walk that hands messages over hands them over as one list. -/
theorem State.foldl_hand {β : Type} (l : List β) {f : State → β → State} {h : Nat} {msgs : β → List OutMsg}
    (hf : ∀ (t : State) x, f t x = t.hand h (msgs x)) (s : State) : l.foldl f s = s.hand h (l.flatMap msgs) := by
  induction l generalizing s with
  | nil => exact (s.hand_nil h).symm
  | cons x l ih => rw [List.foldl_cons, hf, ih, State.hand_hand, List.flatMap_cons]

theorem State.foldl_sendMember (l : List Nat) (s : State) (h b : Nat) (g : Group) (t : PType) (rw2 : Word) (xtag : Nat) (body : Payload) :
    l.foldl (fun s m => s.sendMember h b g m t rw2 xtag body) s = s.hand h (toMembers b g t rw2 xtag body l) := by
  rw [State.foldl_hand l (fun u m => u.sendMember_eq_hand h b g m t rw2 xtag body)]
  exact congrArg (s.hand h) (List.map_eq_flatMap ..).symm

/-! ### The end of a command (R241, R242, R263) -/

/-- A thread whose collective command has ended: the operation is done, and CIRQ is raised where the record asks. -/
def Thread.collDone (t : Thread) (c : CollCmd) : Thread :=
  { t.setEng c.tk isCollWaiting .coll (.done []) with cirq := (t.setEng c.tk isCollWaiting .coll (.done [])).cirq || c.irq }

theorem Thread.setEng_cases (t : Thread) (tk : Nat) (isKind : TKind → Bool) (mk : EngPhase → TKind) (p : EngPhase) :
    t.setEng tk isKind mk p = t ∨ ∃ i o, t.setEng tk isKind mk p = t.setOp tk i o := by
  unfold Thread.setEng
  split
  · split
    · exact .inr ⟨_, _, rfl⟩
    · exact .inl rfl
  · exact .inl rfl

@[simp] theorem Thread.cirq_setEng (t : Thread) (tk : Nat) (isKind : TKind → Bool) (mk : EngPhase → TKind) (p : EngPhase) :
    (t.setEng tk isKind mk p).cirq = t.cirq := by
  obtain h | ⟨i, o, h⟩ := t.setEng_cases tk isKind mk p <;> rw [h]
  rfl

theorem Thread.ticket_setEng_other (t : Thread) {tk j : Nat} (hj : j ≠ tk) (isKind : TKind → Bool) (mk : EngPhase → TKind) (p : EngPhase) :
    (t.setEng tk isKind mk p).ticket j = t.ticket j := by
  obtain h | ⟨i, o, h⟩ := t.setEng_cases tk isKind mk p <;> rw [h]
  exact FMap.get_set_other _ _ _ _ _ hj

theorem State.countEnd_eq (s : State) (h b status : Nat) : s.countEnd h b status = s.setEngine h { s.engine h with
    late := if status = 4 then FMap.set 0 (s.engine h).late b (satAdd (FMap.get 0#16 (s.engine h).late b) 1) else (s.engine h).late } := by
  unfold State.countEnd
  by_cases hlate : status = 4
  · simp [hlate, stLate]
  · simp [hlate, stLate, State.setEngine_engine s h]

section
variable (s : State) (h : Nat) (c : CollCmd) (status count : Nat)

/-- A command that ends writes CSTAT beside its record, ends the operation of its ticket, and is counted where it is LATE. -/
theorem State.endColl_eq : s.endColl h c status count =
    ((s.writeNat 512 (c.recAt.toNat + 8) 8 (status + count * 2 ^ 24)).setThread c.g ((s.thread c.g).collDone c)).setEngine h { s.engine h with
      late := if status = 4 then FMap.set 0 (s.engine h).late c.b (satAdd (FMap.get 0#16 (s.engine h).late c.b) 1) else (s.engine h).late } := by
  have hthread : (s.writeNat 512 (c.recAt.toNat + 8) 8 (status + count * 2 ^ 24)).thread c.g = s.thread c.g := s.thread_writeBytes ..
  have hengine : (s.writeNat 512 (c.recAt.toNat + 8) 8 (status + count * 2 ^ 24)).engine h = s.engine h := by
    rw [State.writeNat, State.writeBytes_eq]
    rfl
  rw [State.endColl, State.countEnd_eq, hthread, State.engine_setThread, hengine, Thread.collDone]

@[simp] theorem State.endColl_mem : (s.endColl h c status count).mem =
    FMap.setRun 0#8 s.mem (c.recAt.toNat + 8) (leBytes 8 (status + count * 2 ^ 24)) := by
  rw [State.endColl_eq, State.setEngine_mem]
  exact s.writeNat_mem ..

theorem State.thread_endColl (g : Nat) : (s.endColl h c status count).thread g = if g = c.g then (s.thread c.g).collDone c else s.thread g := by
  have hthreads : (s.endColl h c status count).thread g =
      ((s.writeNat 512 (c.recAt.toNat + 8) 8 (status + count * 2 ^ 24)).setThread c.g ((s.thread c.g).collDone c)).thread g := by
    rw [State.endColl_eq]
    exact congrArg (FMap.get Thread.reset · g) (State.setEngine_threads ..)
  rw [hthreads, State.thread_setThread]
  exact ite_congr rfl (fun _ => rfl) fun _ => s.thread_writeBytes ..

theorem State.engine_endColl_same : (s.endColl h c status count).engine h = { s.engine h with
    late := if status = 4 then FMap.set 0 (s.engine h).late c.b (satAdd (FMap.get 0#16 (s.engine h).late c.b) 1) else (s.engine h).late } := by
  rw [State.endColl_eq, State.engine_setEngine_same]

/-- Only the count of LATE ends may change in an engine. -/
theorem State.engine_endColl (j : Nat) : ∃ l, (s.endColl h c status count).engine j = { s.engine j with late := l } := by
  by_cases hj : j = 0 ↔ h = 0
  · exact ⟨_, by rw [State.engine_eq_of_iff _ hj, State.engine_endColl_same, s.engine_eq_of_iff hj]⟩
  · refine ⟨(s.engine j).late, ?_⟩
    rw [State.endColl_eq, State.engine_setEngine, if_neg hj, State.writeNat, State.writeBytes_eq]
    rfl

@[simp] theorem State.binding_endColl (b : Nat) : (s.endColl h c status count).binding b = s.binding b := by
  rw [State.endColl_eq, State.binding_setEngine, State.writeNat, State.writeBytes_eq]
  rfl

@[simp] theorem State.endColl_recvs : (s.endColl h c status count).recvs = s.recvs := by
  rw [State.endColl_eq, State.setEngine_recvs, State.writeNat, State.writeBytes_eq]
  rfl

/-- A command's end leaves what a binding finds of the groups. -/
theorem State.group_endColl (j b gid : Nat) : (s.endColl h c status count).group j b gid = s.group j b gid := by
  obtain ⟨l, hl⟩ := s.engine_endColl h c status count j
  exact State.group_congr (by rw [hl]) (by rw [State.binding_endColl])

end

/-! ### Starting a command (R239, R242) -/

section
variable {s : State} {c : Nat} {m : CollCmd} {rest : List CollCmd} (hq : (s.core c).collQ = m :: rest)
include hq

theorem exec_collectiveSlotDequeue_waits (hwaits : s.mayStart (halfOfCore c) m = false) : exec (.collectiveSlotDequeue c) s = .next s := by
  show Host.Outcome.next (doCollDequeue s c) = _
  simp [doCollDequeue, hq, hwaits]

theorem exec_collectiveSlotDequeue_starts (hmay : s.mayStart (halfOfCore c) m = true) : exec (.collectiveSlotDequeue c) s =
    .next (startColl (s.setCore c { s.core c with collQ := rest }) (halfOfCore c) m) := by
  show Host.Outcome.next (doCollDequeue s c) = _
  simp [doCollDequeue, hq, hmay]

end

theorem State.mayStart_iff (s : State) (h : Nat) (m : CollCmd) : s.mayStart h m = true ↔
    (s.engine h).inFlight < 4096 ∧ (m.op = .send ∨ m.op = .recv → (s.engine h).unmatched < 4096) ∧ (s.freeId h).isSome = true ∧
      (m.op = .openE → s.cutOff m.b = false) ∧ s.startWaits h m = none := by
  simp [State.mayStart, and_assoc, imp_iff_not_or]

end Sys2Proof.Machine
end

section
/-! Opening an epoch (O43): what settling a CLOSE leaves of the buckets, the former buckets that end, and the obligation's clauses (R243, R245). -/

namespace Sys2Proof.Machine

/-! ### The buckets of an engine, in flight and ended -/

/-- The buckets in flight and the ended ones of engine `j`. -/
def State.bucketSide (s : State) (j : Nat) : List Bucket × List EndedBucket := ((s.engine j).buckets, (s.engine j).ended)

theorem State.bucketSide_setEngine (s : State) (h j : Nat) (e : Engine) :
    (s.setEngine h e).bucketSide j = if (j = 0 ↔ h = 0) then (e.buckets, e.ended) else s.bucketSide j := by
  rw [State.bucketSide, State.engine_setEngine]
  split <;> rfl

/-- A change of an engine apart from its buckets. -/
theorem State.bucketSide_setEngine_kept (s : State) {h : Nat} {e : Engine} (he : (e.buckets, e.ended) = s.bucketSide h) (j : Nat) :
    (s.setEngine h e).bucketSide j = s.bucketSide j := by
  rw [State.bucketSide_setEngine]
  split
  · next hj => rw [he, State.bucketSide, State.bucketSide, s.engine_eq_of_iff hj]
  · rfl

section
variable (s : State) (h j : Nat)

@[simp] theorem State.bucketSide_ite (p : Prop) [Decidable p] (t : State) :
    (if p then s else t).bucketSide j = if p then s.bucketSide j else t.bucketSide j := apply_ite (State.bucketSide · j) p s t

@[simp] theorem State.bucketSide_foldl {β : Type} (l : List β) (f : State → β → State) (hf : ∀ t b, (f t b).bucketSide j = t.bucketSide j) :
    (l.foldl f s).bucketSide j = s.bucketSide j := foldl_keeps l f (State.bucketSide · j) hf s

@[simp] theorem State.bucketSide_endColl (c : CollCmd) (status count : Nat) : (s.endColl h c status count).bucketSide j = s.bucketSide j := by
  obtain ⟨l, hl⟩ := s.engine_endColl h c status count j
  rw [State.bucketSide, hl]
  rfl

@[simp] theorem State.bucketSide_sendMember (b : Nat) (g : Group) (m : Nat) (t : PType) (rw2 : Word) (xtag : Nat) (body : Payload) :
    (s.sendMember h b g m t rw2 xtag body).bucketSide j = s.bucketSide j := s.bucketSide_setEngine_kept (by rfl) j

@[simp] theorem State.bucketSide_putClose (k : CloseRec) : (s.putClose h k).bucketSide j = s.bucketSide j := s.bucketSide_setEngine_kept (by rfl) j

@[simp] theorem State.bucketSide_setGroup (gid : Nat) (g : Group) : (s.setGroup h gid g).bucketSide j = s.bucketSide j := by
  rw [State.setGroup, State.bucketSide, State.engine]
  obtain ⟨owes, hhalf⟩ | hhalf := s.half_ctrl h (fun x => { x with eng := { x.eng with groups := FMap.set none x.eng.groups gid (some g) } }) j <;>
    rw [hhalf] <;> rfl

@[simp] theorem State.bucketSide_tellClose (b : Nat) (g : Group) (k : CloseRec) (good : Bool) :
    (s.tellClose h b g k good).bucketSide j = s.bucketSide j := by simp [State.tellClose]

/-- The CLOSE records of an engine change apart from its buckets. -/
@[simp] theorem State.bucketSide_setCloses (cl : List CloseRec) (cd : List (Nat × Nat)) :
    (s.setEngine h { s.engine h with closes := cl, closed := cd }).bucketSide j = s.bucketSide j := s.bucketSide_setEngine_kept (by rfl) j

@[simp] theorem State.bucketSide_watchClose (g : Group) (k : CloseRec) : (s.watchClose h g k).bucketSide j = s.bucketSide j := by
  simp [State.watchClose]

@[simp] theorem State.bucketSide_finishClose (c : CollCmd) (g : Group) (k : CloseRec) (done : Bool) :
    (s.finishClose h c g k done).bucketSide j = s.bucketSide j := by
  simp [State.finishClose]

@[simp] theorem State.bucketSide_settleClose (k : CloseRec) : (s.settleClose h k).bucketSide j = s.bucketSide j := by
  unfold State.settleClose
  (repeat' split) <;> simp

@[simp] theorem State.bucketSide_settleCloses : s.settleCloses.bucketSide j = s.bucketSide j :=
  State.bucketSide_foldl _ _ _ _ fun t i => State.bucketSide_foldl t j _ _ fun u k => u.bucketSide_settleClose i j k

/-- A bucket that ends leaves its place, and is remembered with its status. -/
theorem State.bucketSide_endBucket (i : Nat) (k : Bucket) (status count : Nat) : (s.endBucket h i k status count).bucketSide j =
    if (j = 0 ↔ h = 0) then ((s.engine h).buckets.eraseIdx i, ⟨k.gid, k.step, k.attempt, k.bseq, status⟩ :: (s.engine h).ended)
    else s.bucketSide j := by
  have hdrop := s.bucketSide_setEngine h j { s.engine h with
    buckets := (s.engine h).buckets.eraseIdx i, ended := ⟨k.gid, k.step, k.attempt, k.bseq, status⟩ :: (s.engine h).ended }
  refine Eq.trans ?_ hdrop
  rw [State.endBucket, State.bucketSide_settleCloses]
  split
  · split
    · exact (State.bucketSide_setEngine_kept _ (by rfl) j).trans (State.bucketSide_endColl ..)
    · exact State.bucketSide_endColl ..
  · rfl

end

/-! ### The former buckets end (R243) -/

/-- What names a bucket. -/
def Bucket.name (k : Bucket) : Nat × Nat × Nat × Nat := (k.gid, k.step, k.attempt, k.bseq)

theorem Bucket.key_eq_name (k : Bucket) : (fun y : Bucket => y.key k.gid k.step k.attempt k.bseq) = (· == k.name) ∘ Bucket.name := by
  funext y
  rw [Function.comp_apply, Bool.eq_iff_iff, beq_iff_eq]
  simp [Bucket.key, Bucket.name]

section
variable (gid step attempt : Nat)

/-- A name of a former epoch: the group's, of another pair. -/
def isFormer (n : Nat × Nat × Nat × Nat) : Bool := decide (n.1 = gid ∧ ¬ (n.2.1 = step ∧ n.2.2.1 = attempt))

/-- One bucket in the walk of `State.endFormer`. -/
def State.endIfFormer (h : Nat) (s : State) (k : Bucket) : State :=
  if k.gid = gid ∧ ¬ (k.step = step ∧ k.attempt = attempt) then
    (match (s.engine h).buckets.findIdx? (fun y => y.key k.gid k.step k.attempt k.bseq) with
      | some i => s.endBucket h i k stEpoch 0
      | none => s)
  else s

theorem State.endFormer_eq (s : State) : s.endFormer gid step attempt =
    [0, 1].foldl (fun s h => (s.engine h).buckets.foldl (State.endIfFormer gid step attempt h) s) s := rfl

section
variable (s : State) (h : Nat) (k : Bucket)

/-- The walk over one engine leaves the other engine's buckets. -/
theorem State.bucketSide_endIfFormer_far {j : Nat} (hj : ¬ (j = 0 ↔ h = 0)) :
    (s.endIfFormer gid step attempt h k).bucketSide j = s.bucketSide j := by
  unfold State.endIfFormer
  split
  · split
    · rw [State.bucketSide_endBucket, if_neg hj]
    · rfl
  · rfl

theorem State.names_endIfFormer : ((s.endIfFormer gid step attempt h k).engine h).buckets.map Bucket.name =
    if isFormer gid step attempt k.name then ((s.engine h).buckets.map Bucket.name).erase k.name else (s.engine h).buckets.map Bucket.name := by
  have hformer : (k.gid = gid ∧ ¬ (k.step = step ∧ k.attempt = attempt)) ↔ isFormer gid step attempt k.name = true := decide_eq_true_iff.symm
  unfold State.endIfFormer
  simp only [hformer]
  split
  · rw [List.erase_eq_eraseP', List.eraseP_map, ← Bucket.key_eq_name, List.eraseP_eq_eraseIdx]
    split
    · next i hi =>
      have hside := s.bucketSide_endBucket h h i k stEpoch 0
      rw [if_pos Iff.rfl] at hside
      rw [hi, show ((s.endBucket h i k stEpoch 0).engine h).buckets = (s.engine h).buckets.eraseIdx i from congrArg Prod.fst hside]
    · next hnone => rw [hnone]
  · rfl

/-- A bucket stays in flight, or is remembered with EPOCH. -/
theorem State.endIfFormer_keeps {n : Nat × Nat × Nat × Nat}
    (hn : n ∈ (s.engine h).buckets.map Bucket.name ∨ ⟨n.1, n.2.1, n.2.2.1, n.2.2.2, 6⟩ ∈ (s.engine h).ended) :
    n ∈ ((s.endIfFormer gid step attempt h k).engine h).buckets.map Bucket.name ∨
      ⟨n.1, n.2.1, n.2.2.1, n.2.2.2, 6⟩ ∈ ((s.endIfFormer gid step attempt h k).engine h).ended := by
  have hnames := s.names_endIfFormer gid step attempt h k
  have hended : ((s.endIfFormer gid step attempt h k).engine h).ended = (s.engine h).ended ∧
        ((s.endIfFormer gid step attempt h k).engine h).buckets = (s.engine h).buckets ∨
      ((s.endIfFormer gid step attempt h k).engine h).ended = ⟨k.gid, k.step, k.attempt, k.bseq, 6⟩ :: (s.engine h).ended := by
    unfold State.endIfFormer
    split
    · split
      · next i hi =>
        have hside := s.bucketSide_endBucket h h i k stEpoch 0
        rw [if_pos Iff.rfl] at hside
        exact .inr (congrArg Prod.snd hside)
      · exact .inl ⟨rfl, rfl⟩
    · exact .inl ⟨rfl, rfl⟩
  obtain ⟨hended, hbuckets⟩ | hended := hended
  · rwa [hended, hbuckets]
  · rw [hended, hnames]
    by_cases hk : n = k.name
    · exact .inr (by rw [hk]; exact List.mem_cons_self)
    · refine hn.imp (fun hm => ?_) (List.mem_cons_of_mem _)
      split
      · exact (List.mem_erase_of_ne hk).mpr hm
      · exact hm

/-- The walk over an engine ends every former bucket of it. -/
theorem State.names_endFormer_half : ((((s.engine h).buckets.foldl (State.endIfFormer gid step attempt h) s).engine h).buckets.map Bucket.name) =
    ((s.engine h).buckets.map Bucket.name).diff (((s.engine h).buckets.map Bucket.name).filter (isFormer gid step attempt)) := by
  rw [List.diff_eq_foldl, List.foldl_filter, List.foldl_map]
  exact (List.foldl_hom (fun t : State => (t.engine h).buckets.map Bucket.name) fun t k => (t.names_endIfFormer gid step attempt h k).symm).symm

theorem State.not_former_endFormer_half {y : Bucket}
    (hy : y ∈ (((s.engine h).buckets.foldl (State.endIfFormer gid step attempt h) s).engine h).buckets) : isFormer gid step attempt y.name = false := by
  have hname := List.mem_map_of_mem (f := Bucket.name) hy
  rw [State.names_endFormer_half, ← List.count_pos_iff, List.count_diff] at hname
  rw [← Bool.not_eq_true]
  intro hformer
  rw [List.count_filter hformer] at hname
  omega

/-- The walk over one engine. -/
def State.endFormerIn (s : State) (h : Nat) : State := (s.engine h).buckets.foldl (State.endIfFormer gid step attempt h) s

theorem State.bucketSide_endFormerIn_far {j : Nat} (hj : ¬ (j = 0 ↔ h = 0)) :
    (s.endFormerIn gid step attempt h).bucketSide j = s.bucketSide j :=
  State.bucketSide_foldl s j _ _ fun t k => t.bucketSide_endIfFormer_far gid step attempt h k hj

theorem State.ended_endFormerIn {y : Bucket} (hy : y ∈ (s.engine h).buckets) (hformer : isFormer gid step attempt y.name = true) :
    ⟨y.gid, y.step, y.attempt, y.bseq, 6⟩ ∈ ((s.endFormerIn gid step attempt h).engine h).ended := by
  have hkept : y.name ∈ ((s.endFormerIn gid step attempt h).engine h).buckets.map Bucket.name ∨
      ⟨y.gid, y.step, y.attempt, y.bseq, 6⟩ ∈ ((s.endFormerIn gid step attempt h).engine h).ended := by
    rw [State.endFormerIn]
    exact List.foldlRecOn (motive := fun t : State => y.name ∈ (t.engine h).buckets.map Bucket.name ∨
      ⟨y.gid, y.step, y.attempt, y.bseq, 6⟩ ∈ (t.engine h).ended) _ _ (.inl (List.mem_map_of_mem hy))
      fun t ht k _ => t.endIfFormer_keeps gid step attempt h k (n := y.name) ht
  refine hkept.resolve_left fun hname => ?_
  obtain ⟨z, hz, hzy⟩ := List.mem_map.mp hname
  have hnot := s.not_former_endFormer_half gid step attempt h hz
  rw [hzy, hformer] at hnot
  cases hnot

end

variable (s : State) {j : Nat} (hj : j < 2)
include hj

/-- No bucket of a former epoch stays in flight, and those that were have ended with EPOCH. -/
theorem State.bucketSide_endFormer : (∀ y ∈ ((s.endFormer gid step attempt).engine j).buckets, isFormer gid step attempt y.name = false) ∧
    ∀ y ∈ (s.engine j).buckets, isFormer gid step attempt y.name = true →
      ⟨y.gid, y.step, y.attempt, y.bseq, 6⟩ ∈ ((s.endFormer gid step attempt).engine j).ended := by
  have heq : s.endFormer gid step attempt = (s.endFormerIn gid step attempt 0).endFormerIn gid step attempt 1 := rfl
  have hj' : j = 0 ∨ j = 1 := by omega
  rw [heq]
  obtain rfl | rfl := hj'
  · have hfar := (s.endFormerIn gid step attempt 0).bucketSide_endFormerIn_far gid step attempt 1 (j := 0) (by simp)
    rw [show (((s.endFormerIn gid step attempt 0).endFormerIn gid step attempt 1).engine 0).buckets = _ from congrArg Prod.fst hfar,
      show (((s.endFormerIn gid step attempt 0).endFormerIn gid step attempt 1).engine 0).ended = _ from congrArg Prod.snd hfar]
    exact ⟨fun y => s.not_former_endFormer_half gid step attempt 0, fun y => s.ended_endFormerIn gid step attempt 0⟩
  · have hfar := s.bucketSide_endFormerIn_far gid step attempt 0 (j := 1) (by simp)
    refine ⟨fun y => State.not_former_endFormer_half gid step attempt _ 1, fun y hy => State.ended_endFormerIn gid step attempt _ 1 ?_⟩
    rwa [show ((s.endFormerIn gid step attempt 0).engine 1).buckets = _ from congrArg Prod.fst hfar]

end

theorem State.endFormer_linkSides (s : State) (gid step attempt : Nat) : (s.endFormer gid step attempt).linkSides = s.linkSides := by
  refine State.foldl_linkSides _ _ (fun t h => State.foldl_linkSides _ _ (fun u k => ?_) t) s
  split
  · split
    · exact u.endBucket_linkSides _ _ _ _ _
    · rfl
  · rfl

theorem State.linkUp_of_linkSides {s t : State} (h : t.linkSides = s.linkSides) : t.linkUp = s.linkUp := by
  have hlink : t.half0.link = s.half0.link := congrArg (fun x => x.1.1.1) h
  rw [State.linkUp, State.linkUp, hlink]

/-! ### PUBLISH commands that an OPEN ends (R257) -/

theorem State.endPublishes_keeps {γ : Type} (s : State) (b gid step j : Nat) (p : Engine → γ)
    (hp : ∀ (e : Engine) pubs late, p { e with publishes := pubs, late := late } = p e) :
    p ((s.endPublishes b gid step).engine j) = p (s.engine j) := by
  refine foldl_keeps _ _ (fun t : State => p (t.engine j)) (fun t h => foldl_keeps _ _ (fun u : State => p (u.engine j)) (fun u c => ?_) t) s
  split
  · obtain ⟨l, hl⟩ := (u.setEngine h { u.engine h with publishes := (u.engine h).publishes.erase c }).engine_endColl h c stEpoch 0 j
    rw [hl, State.engine_setEngine]
    split
    · next hj => rw [u.engine_eq_of_iff hj]; exact hp (u.engine h) _ l
    · exact hp (u.engine j) _ l
  · rfl

/-! ### OPEN (R243) -/

theorem State.startWaits_openE (s : State) (h : Nat) {m : CollCmd} (hop : m.op = .openE) : s.startWaits h m = none := by
  unfold State.startWaits
  split
  · rfl
  · rw [hop]

section
variable {s : State} {h : Nat} {m : CollCmd} {g : Group} (hrole : g.me.role ≠ 2)
include hrole

theorem startOpen_passed (habove : ¬ ∀ q, g.epoch = some q → q.1 < m.step ∨ (q.1 = m.step ∧ q.2 < m.attempt)) :
    startOpen s h m g = s.endColl h m 6 0 := by
  simp only [not_forall] at habove
  obtain ⟨q, hq, hlt⟩ := habove
  have hnot : pairLt q (m.step, m.attempt) = false := by rw [← Bool.not_eq_true, pairLt_iff]; exact hlt
  simp [startOpen, Member.observes_eq_false hrole, hq, hnot, stEpoch]

theorem startOpen_above (habove : ∀ q, g.epoch = some q → q.1 < m.step ∨ (q.1 = m.step ∧ q.2 < m.attempt)) :
    startOpen s h m g = (((s.endFormer m.gid m.step m.attempt).setGroup h m.gid { g with epoch := some (m.step, m.attempt), opened := true }).endPublishes
      m.b m.gid m.step).endColl h m 1 0 := by
  cases hepoch : g.epoch with
  | none => simp [startOpen, Member.observes_eq_false hrole, hepoch, stDone]
  | some q =>
    have hlt : pairLt q (m.step, m.attempt) = true := (pairLt_iff _ _).mpr (habove q hepoch)
    simp [startOpen, Member.observes_eq_false hrole, hepoch, hlt, stDone]

end

/-- Settles O43: the state that OPEN leaves before its end is what ending the former buckets, writing the group, and ending
overtaken PUBLISH commands make of it. -/
theorem openingAnEpoch : Obligations.OpeningAnEpoch := by
  unfold Obligations.OpeningAnEpoch
  intro s c m rest g k h taken isAbove former hq hfree hid hop
  have hwaits := s.startWaits_openE h hop
  refine ⟨fun hcut => exec_collectiveSlotDequeue_waits hq ?_, fun hcut hg hrole => ?_⟩
  · rw [← Bool.not_eq_true, State.mayStart_iff]
    exact fun ⟨_, _, _, hopen, _⟩ => by rw [hopen hop] at hcut; cases hcut
  have hmay : s.mayStart h m = true := (s.mayStart_iff h m).mpr ⟨hfree, by rw [hop]; simp, hid, fun _ => hcut, hwaits⟩
  have hexec : exec (.collectiveSlotDequeue c) s = .next (startOpen taken h m g) := by
    rw [exec_collectiveSlotDequeue_starts hq hmay]
    simp only [startColl, hop]
    rw [hg]
  rw [hexec]
  refine ⟨fun habove => by rw [startOpen_passed hrole habove], fun habove => ⟨_, by rw [startOpen_above hrole habove], ?_⟩⟩
  have hformer : ∀ y : Bucket, former y ↔ isFormer m.gid m.step m.attempt y.name = true := fun _ => decide_eq_true_iff.symm
  have hside := fun i => State.bucketSide_setGroup (taken.endFormer m.gid m.step m.attempt) h i m.gid { g with epoch := some (m.step, m.attempt), opened := true }
  refine ⟨fun i _ hcopied => ?_, fun i hi y hy => ?_, fun i hi y hy hyf => ?_⟩
  · rw [State.endPublishes_keeps _ _ _ _ _ Engine.groups fun _ _ _ => rfl]
    refine State.groups_setGroup_copied (hcopied.imp_right fun hup => ?_) _ _
    rw [State.linkUp_of_linkSides (taken.endFormer_linkSides _ _ _)]
    exact hup
  · rw [State.endPublishes_keeps _ _ _ _ _ Engine.buckets fun _ _ _ => rfl, show Engine.buckets _ = _ from congrArg Prod.fst (hside i)] at hy
    rw [hformer, (taken.bucketSide_endFormer m.gid m.step m.attempt hi).1 y hy]
    exact Bool.false_ne_true
  · rw [State.endPublishes_keeps _ _ _ _ _ Engine.ended fun _ _ _ => rfl, show Engine.ended _ = _ from congrArg Prod.snd (hside i)]
    exact (taken.bucketSide_endFormer m.gid m.step m.attempt hi).2 y hy ((hformer y).mp hyf)

end Sys2Proof.Machine
end

section
/-! SUPPORT. How each command of a collective queue starts (R239, R242-R245, R247, R256-R258, R261). -/

namespace Sys2Proof.Machine

section
variable {t : State} {h : Nat} {m : CollCmd} {g : Group}

theorem startColl_of_no_group (hg : t.group h m.b m.gid = none) : startColl t h m = t.endColl h m 8 0 := by
  rw [startColl, hg]
  rfl

section
variable (hg : t.group h m.b m.gid = some g)
include hg

theorem startColl_bucket (hop : m.op = .bucket) : startColl t h m = startBucket t h m g := by simp only [startColl, hg, hop]
theorem startColl_close (hop : m.op = .close) : startColl t h m = startClose t h m g := by simp only [startColl, hg, hop]
theorem startColl_publish (hop : m.op = .publish) : startColl t h m = startPublish t h m g := by simp only [startColl, hg, hop]
theorem startColl_gather (hop : m.op = .gather) : startColl t h m = startGather t h m g := by simp only [startColl, hg, hop]
theorem startColl_send (hop : m.op = .send) : startColl t h m = startPost t h m g := by simp only [startColl, hg, hop]
theorem startColl_recv (hop : m.op = .recv) : startColl t h m = startPost t h m g := by simp only [startColl, hg, hop]

end

/-! ### BUCKET (R244, R247, R251) -/

/-- The split that a record names, from the bytes read. -/
def splitOf (g : Group) (r : BucketReq) (l : List Byte) : List Nat := if r.all then [] else (upto g.members.length).map (fun i => bytesAt l (4 * i) 4)

/-- A split that sums to the bucket, with nothing for an observer (R247, R248). -/
def splitFits (g : Group) (r : BucketReq) (split : List Nat) : Prop :=
  split.sum = r.elems ∧ ∀ i, i < g.members.length → (g.members.getD i ⟨0, 0, 0⟩).role = 2 → split.getD i 0 = 0

/-- A bucket whose record is good takes its place (R251), or ends as records of others have ended it (R244). -/
def State.queueBucket (t : State) (h : Nat) (m : CollCmd) (bseq : Nat) (split : List Nat) : State :=
  match t.endedStatus m.gid m.step m.attempt bseq with
  | some st => t.endColl h m st 0
  | none =>
    let old := match t.findBucket m.gid m.step m.attempt bseq with
      | some (h', i) => ((t.engine h').buckets.getD i (Bucket.placeholder m.gid m.step m.attempt bseq),
          t.setEngine h' { t.engine h' with buckets := (t.engine h').buckets.eraseIdx i })
      | none => (Bucket.placeholder m.gid m.step m.attempt bseq, t)
    old.2.setEngine h { old.2.engine h with buckets := (old.2.engine h).buckets ++ [{ old.1 with cmd := some m, split := split }] }

section
variable {bseq : Nat} {split : List Nat}

theorem State.queueBucket_ended {st : Nat} (hended : t.endedStatus m.gid m.step m.attempt bseq = some st) :
    t.queueBucket h m bseq split = t.endColl h m st 0 := by
  rw [State.queueBucket, hended]

theorem State.queueBucket_new (hended : t.endedStatus m.gid m.step m.attempt bseq = none) (hnone : t.findBucket m.gid m.step m.attempt bseq = none) :
    t.queueBucket h m bseq split = t.setEngine h { t.engine h with
      buckets := (t.engine h).buckets ++ [{ Bucket.placeholder m.gid m.step m.attempt bseq with cmd := some m, split := split }] } := by
  rw [State.queueBucket, hended, hnone]

theorem State.queueBucket_known {i j : Nat} {k : Bucket} (hended : t.endedStatus m.gid m.step m.attempt bseq = none)
    (hfound : t.findBucket m.gid m.step m.attempt bseq = some (i, j)) (hk : (t.engine i).buckets[j]? = some k) :
    let u := t.setEngine i { t.engine i with buckets := (t.engine i).buckets.eraseIdx j }
    t.queueBucket h m bseq split = u.setEngine h { u.engine h with buckets := (u.engine h).buckets ++ [{ k with cmd := some m, split := split }] } := by
  intro u
  rw [State.queueBucket, hended, hfound]
  dsimp only
  rw [List.getD_eq_getElem?_getD, hk]
  rfl

end

theorem startBucket_observer (hrole : g.me.role = 2) : startBucket t h m g = t.endColl h m 7 0 := if_pos ((Member.observes_iff _).mpr hrole)

section
variable (hrole : g.me.role ≠ 2)
include hrole

theorem startBucket_passed (hnow : ¬ (g.opened = true ∧ g.epoch = some (m.step, m.attempt))) :
    startBucket t h m g = (t.spoil h m).endColl h m 6 0 := by
  have hopen : g.isOpen m.step m.attempt = false := by rw [← Bool.not_eq_true, Group.isOpen_iff]; exact hnow
  simp [startBucket, Member.observes_eq_false hrole, hopen, stEpoch]

variable (hnow : g.opened = true ∧ g.epoch = some (m.step, m.attempt))
include hnow

theorem startBucket_bad (hok : (bucketReq g m).ok = false) : startBucket t h m g = (t.spoil h m).endColl h m 8 0 := by
  simp [startBucket, Member.observes_eq_false hrole, (Group.isOpen_iff _ _ _).mpr hnow, hok, stConfig]

variable (hok : (bucketReq g m).ok = true)
include hok

theorem startBucket_unread {er : EErr} {u : State} (hread : t.readSplit m g = (.error er, u)) :
    startBucket t h m g = (u.spoil h m).failColl m er false := by
  simp [startBucket, Member.observes_eq_false hrole, (Group.isOpen_iff _ _ _).mpr hnow, hok, hread]

theorem startBucket_read {l : List Byte} {u : State} (hread : t.readSplit m g = (.ok l, u)) {split : List Nat} (hsplit : split = splitOf g (bucketReq g m) l) :
    ((bucketReq g m).all = false → ¬ splitFits g (bucketReq g m) split → startBucket t h m g = (u.spoil h m).endColl h m 8 0) ∧
    ((bucketReq g m).all = true ∨ splitFits g (bucketReq g m) split → startBucket t h m g = u.queueBucket h m (bucketReq g m).bseq split) := by
  have hstart : startBucket t h m g = if !(bucketReq g m).all && (decide (split.foldl (· + ·) 0 ≠ (bucketReq g m).elems) ||
      (upto g.members.length).any (fun m => (g.members.getD m ⟨0, 0, 0⟩).observes && decide (split.getD m 0 ≠ 0))) then (u.spoil h m).endColl h m 8 0
      else u.queueBucket h m (bucketReq g m).bseq split := by
    unfold startBucket
    rw [Member.observes_eq_false hrole, (Group.isOpen_iff _ _ _).mpr hnow, hsplit]
    dsimp only
    rw [hok, hread]
    rfl
  have hfits : (decide (split.foldl (· + ·) 0 ≠ (bucketReq g m).elems) ||
      (upto g.members.length).any (fun m => (g.members.getD m ⟨0, 0, 0⟩).observes && decide (split.getD m 0 ≠ 0))) = false ↔ splitFits g (bucketReq g m) split := by
    rw [← List.sum_eq_foldl, splitFits, Bool.or_eq_false_iff, List.any_eq_false]
    simp [upto, Member.observes]
  rw [hstart]
  refine ⟨fun hall hbad => if_pos ?_, fun hgood => if_neg ?_⟩
  · rw [hall, ← hfits, Bool.not_eq_false] at *
    exact hbad
  · rw [Bool.not_eq_true, Bool.and_eq_false_iff, hfits, Bool.not_eq_false']
    exact hgood

end

/-! ### CLOSE (R244, R245) -/

theorem startClose_observer (hrole : g.me.role = 2) : startClose t h m g = t.endColl h m 7 0 := if_pos ((Member.observes_iff _).mpr hrole)

section
variable (hrole : g.me.role ≠ 2)
include hrole

theorem startClose_passed (hnow : ¬ (g.opened = true ∧ g.epoch = some (m.step, m.attempt))) : startClose t h m g = t.endColl h m 6 0 := by
  have hopen : g.isOpen m.step m.attempt = false := by rw [← Bool.not_eq_true, Group.isOpen_iff]; exact hnow
  simp [startClose, Member.observes_eq_false hrole, hopen, stEpoch]

theorem startClose_first (hnow : g.opened = true ∧ g.epoch = some (m.step, m.attempt)) (h0 : (t.engine 0).closes = [])
    (h1 : (t.engine 1).closes = []) : startClose t h m g =
      (t.setEngine h { t.engine h with closes := [⟨some m, m.gid, m.step, m.attempt, false, [], []⟩] }).settleCloses := by
  have hcloses : ∀ j, (t.engine j).closes = [] := fun j => by
    by_cases hj : j = 0
    · rw [hj, h0]
    · rw [t.engine_eq_of_iff (show j = 0 ↔ 1 = 0 by omega), h1]
  have hfar : t.setEngine (1 - h) { t.engine (1 - h) with
      closes := (t.engine (1 - h)).closes.filter (fun x => !x.key m.gid m.step m.attempt) } = t := by
    rw [hcloses, List.filter_nil]
    exact (congrArg (t.setEngine (1 - h)) (by rw [← hcloses (1 - h)])).trans (t.setEngine_engine (1 - h))
  unfold startClose
  rw [Member.observes_eq_false hrole, (Group.isOpen_iff _ _ _).mpr hnow]
  dsimp only
  rw [hfar, h0, h1, hcloses]
  rfl

end

/-- A CLOSE of which nothing has been heard waits while a bucket of its attempt is in flight and another, or this member, has not said (R245). -/
theorem State.settleClose_waits {k : CloseRec} (hcmd : k.cmd = some m) (hg : t.group h m.b k.gid = some g) (hopen : t.bucketsOpen g k = true)
    (hcomplete : k.complete g = false) : t.settleClose h k = t.putClose h k := by
  simp [State.settleClose, hcmd, hg, hopen, hcomplete]

/-- A member that issues CLOSE has not said how it stands. -/
theorem CloseRec.complete_of_unsaid {k : CloseRec} (hrole : g.me.role = 1) (hself : g.self < g.members.length) (hsaid : k.said = []) :
    k.complete g = false := by
  have hcloser : g.self ∈ closers g := by
    rw [closers, List.mem_filter, upto, List.mem_range]
    exact ⟨hself, decide_eq_true hrole⟩
  rw [CloseRec.complete, List.all_eq_false]
  exact ⟨g.self, hcloser, by simp [hsaid]⟩

/-- A record that is put where it is the only one leaves the state. -/
theorem State.putClose_only {k : CloseRec} (hcloses : (t.engine h).closes = [k]) : t.putClose h k = t := by
  have hmap : [k].map (fun x => if x.key k.gid k.step k.attempt then k else x) = [k] := by simp
  rw [State.putClose, hcloses, hmap, ← hcloses]
  exact t.setEngine_engine h

/-- Settling the only CLOSE, which waits, leaves the state. -/
theorem State.settleCloses_of_waiting {k : CloseRec} (hcloses : (t.engine h).closes = [k]) (hfar : (t.engine (1 - h)).closes = [])
    (hwaits : ∀ j, (j = 0 ↔ h = 0) → t.settleClose j k = t.putClose j k) : t.settleCloses = t := by
  refine List.foldlRecOn (motive := fun u : State => u = t) [0, 1] _ rfl ?_
  rintro _ rfl j hj
  by_cases hjh : j = 0 ↔ h = 0
  · have honly : (State.engine _ j).closes = [k] := (congrArg Engine.closes (State.engine_eq_of_iff _ hjh)).trans hcloses
    rw [honly, List.foldl_cons, List.foldl_nil, hwaits j hjh, State.putClose_only honly]
  · have hj1 : j = 0 ↔ 1 - h = 0 := by
      simp only [List.mem_cons, List.not_mem_nil, or_false] at hj
      omega
    rw [State.engine_eq_of_iff _ hj1, hfar, List.foldl_nil]

theorem State.group_eq_of_iff (t : State) {h j : Nat} (hj : j = 0 ↔ h = 0) (b gid : Nat) : t.group j b gid = t.group h b gid := by
  rw [State.group, State.group, t.engine_eq_of_iff hj]

theorem State.bucketsOpen_of_mem {k : CloseRec}
    (hbucket : ∃ b ∈ (t.engine h).buckets, b.cmd.isSome = true ∧ b.gid = k.gid ∧ b.step = k.step ∧ b.attempt = k.attempt) :
    t.bucketsOpen g k = true := by
  obtain ⟨b, hb, hcmd, hkey⟩ := hbucket
  have hmem : b ∈ (t.engine 0).buckets ++ (t.engine 1).buckets := by
    rw [List.mem_append]
    by_cases hh : h = 0
    · exact .inl (hh ▸ hb)
    · exact .inr (by rwa [← t.engine_eq_of_iff (show h = 0 ↔ 1 = 0 by omega)])
  exact List.any_eq_true.mpr ⟨b, hmem, by simp [hcmd, hkey]⟩

/-- The first CLOSE of an attempt waits while a bucket of it that this member has issued is in flight (R245). -/
theorem startClose_waits (hg : t.group h m.b m.gid = some g) (hrole : g.me.role = 1) (hself : g.self < g.members.length)
    (hnow : g.opened = true ∧ g.epoch = some (m.step, m.attempt)) (h0 : (t.engine 0).closes = []) (h1 : (t.engine 1).closes = [])
    (hbucket : ∃ b ∈ (t.engine h).buckets, b.cmd.isSome = true ∧ b.gid = m.gid ∧ b.step = m.step ∧ b.attempt = m.attempt) :
    startClose t h m g = t.setEngine h { t.engine h with closes := [⟨some m, m.gid, m.step, m.attempt, false, [], []⟩] } := by
  rw [startClose_first (by omega) hnow h0 h1]
  refine State.settleCloses_of_waiting (h := h) (by rw [State.engine_setEngine_same]) ?_ fun j hj => State.settleClose_waits (m := m) (g := g) rfl ?_ ?_
    (CloseRec.complete_of_unsaid hrole hself rfl)
  · rw [State.engine_setEngine_far]
    obtain hh | hh : 1 - h = 0 ∨ 1 - h = 1 := by omega
    · rw [hh, h0]
    · rw [hh, h1]
  · rw [State.group_setEngine _ (by rfl), t.group_eq_of_iff hj]
    exact hg
  · refine State.bucketsOpen_of_mem (h := h) ?_
    rw [State.engine_setEngine_same]
    exact hbucket

/-! ### PUBLISH (R256, R257) -/

/-- The published copy of a shard is of this step or a later one. -/
def State.copyUpTo (t : State) (b gid shard step : Nat) : Bool :=
  match t.publishedOf b gid shard with
  | some p => decide (step ≤ p.step)
  | none => false

theorem State.copyUpTo_iff {b gid shard step : Nat} : t.copyUpTo b gid shard step = true ↔ ∃ p, t.publishedOf b gid shard = some p ∧ step ≤ p.step := by
  unfold State.copyUpTo
  split
  · next p hp => simp [hp]
  · next hnone => simp [hnone]

/-- A later step than this one has been opened. -/
def Group.openedPast (g : Group) (step : Nat) : Bool :=
  match g.epoch with
  | some p => decide (step < p.1)
  | none => false

theorem Group.openedPast_iff {step : Nat} : g.openedPast step = true ↔ ∃ p, g.epoch = some p ∧ step < p.1 := by
  unfold Group.openedPast
  split
  · next p hp => simp [hp]
  · next hnone => simp [hnone]

theorem startPublish_bad (hok : publishOk g m = false) : startPublish t h m g = t.endColl h m 8 0 := by
  simp [startPublish, hok, stConfig]

section
variable (hok : publishOk g m = true)
include hok

theorem startPublish_notOwner (howner : (g.parts.getD m.shard ⟨0, 0⟩).owner ≠ g.self) : startPublish t h m g = t.endColl h m 7 0 := by
  rw [startPublish, hok, if_pos howner]
  rfl

variable (howner : (g.parts.getD m.shard ⟨0, 0⟩).owner = g.self)
include howner

theorem startPublish_of_owner : startPublish t h m g =
    if t.copyUpTo m.b m.gid m.shard m.step || (!t.closedStep m.gid m.step && g.openedPast m.step) then t.endColl h m 6 0
    else t.setEngine h { t.engine h with publishes := (t.engine h).publishes ++ [m] } := by
  rw [startPublish, hok, if_neg (not_not.mpr howner)]
  rfl

theorem startPublish_passed (hpassed : (∃ p, t.publishedOf m.b m.gid m.shard = some p ∧ m.step ≤ p.step) ∨
    (t.closedStep m.gid m.step = false ∧ ∃ p, g.epoch = some p ∧ m.step < p.1)) : startPublish t h m g = t.endColl h m 6 0 := by
  rw [startPublish_of_owner hok howner, if_pos]
  rwa [Bool.or_eq_true, Bool.and_eq_true, Bool.not_eq_true', State.copyUpTo_iff, Group.openedPast_iff]

theorem startPublish_waits (hnew : ∀ p, t.publishedOf m.b m.gid m.shard = some p → p.step < m.step)
    (hdue : t.closedStep m.gid m.step = true ∨ ∀ p, g.epoch = some p → p.1 ≤ m.step) :
    startPublish t h m g = t.setEngine h { t.engine h with publishes := (t.engine h).publishes ++ [m] } := by
  rw [startPublish_of_owner hok howner, if_neg]
  rw [Bool.or_eq_true, Bool.and_eq_true, Bool.not_eq_true', State.copyUpTo_iff, Group.openedPast_iff]
  rintro (⟨p, hp, hle⟩ | ⟨hclosed, p, hp, hlt⟩)
  · exact Nat.not_le.mpr (hnew p hp) hle
  · obtain hdue | hdue := hdue
    · rw [hdue] at hclosed
      cases hclosed
    · exact Nat.not_lt.mpr (hdue p hp) hlt

end

/-! ### `pgather` (R258) -/

/-- A gather record out of range (R258), as the start of a `pgather` judges it. -/
def gatherBad (t : State) (g : Group) (m : CollCmd) : Bool :=
  !decide (m.shard < g.parts.length ∧ m.dst % 64 = 0 ∧ m.std % 16 = 0) || decide (m.field 28 4 / 1024 ≠ 0)
      || decide (m.field 28 4 / 128 % 2 ≠ 0) || !t.inOwnPress m.core m.std 16 || !t.inOwnPress m.core m.dst 0

theorem gatherBad_iff : gatherBad t g m = true ↔ g.parts.length ≤ m.shard ∨ m.dst % 64 ≠ 0 ∨ m.std % 16 ≠ 0 ∨ m.field 28 4 / 1024 ≠ 0 ∨
    m.field 28 4 / 128 % 2 ≠ 0 ∨ t.inOwnPress m.core m.std 16 = false ∨ t.inOwnPress m.core m.dst 0 = false := by
  simp only [gatherBad, Bool.or_eq_true, Bool.not_eq_true', decide_eq_true_eq, decide_eq_false_iff_not, not_and_or, Nat.not_lt, or_assoc, ne_eq]

theorem startGather_bad (hbad : gatherBad t g m = true) : startGather t h m g = t.endColl h m 8 0 := if_pos hbad

section
variable (hfits : ¬ gatherBad t g m = true)
include hfits

theorem startGather_far {id : Nat} (hid : t.freeId h = some id) (howner : (g.parts.getD m.shard ⟨0, 0⟩).owner ≠ g.self) : startGather t h m g =
    (t.setEngine h { (t.engine h).giveId id with gathers := (t.engine h).gathers ++ [⟨m, id, true, m.gid, m.shard, none, 0, 0, 0, []⟩] }).sendMember
      h m.b g (g.parts.getD m.shard ⟨0, 0⟩).owner .greq (wordAt m.shard) id (.greq (.gather m.gid m.shard m.gplanes m.verify id)) := by
  refine (if_neg hfits).trans ((if_neg howner).trans ?_)
  rw [hid]
  rfl

variable (howner : (g.parts.getD m.shard ⟨0, 0⟩).owner = g.self)
include howner

theorem startGather_unpublished (hnone : t.publishedOf m.b m.gid m.shard = none) : startGather t h m g = t.endColl h m 9 0 := by
  refine (if_neg hfits).trans ((if_pos howner).trans ?_)
  rw [hnone]
  rfl

theorem startGather_own {id : Nat} (hid : t.freeId h = some id) {p : Published} {stamp l : List Byte}
    (hp : t.publishedOf m.b m.gid m.shard = some p) (hserve : t.serve p (g.parts.getD m.shard ⟨0, 0⟩).elems m.gplanes m.verify = .ok (stamp, l)) :
    let x : Gather := ⟨m, id, true, m.gid, m.shard, none, 0, 0, 0, l⟩
    startGather t h m g = (t.setEngine h { t.engine h with gathers := (t.engine h).gathers ++ [x] }).gatherStamp h x stamp p.nfmt p.planes l.length
      (g.parts.getD m.shard ⟨0, 0⟩).elems := by
  intro x
  refine (if_neg hfits).trans ((if_pos howner).trans ?_)
  rw [hp, hid]
  dsimp only
  rw [hserve]
  rfl

end

/-! ### `csend` and `crecv` (R261) -/

/-- With no send posted nothing matches. -/
theorem State.matchPosts_of_no_sends (hposts : ∀ i, i < 2 → ∀ p ∈ (t.engine i).posts, p.cmd.op ≠ .send) : t.matchPosts = t := by
  refine List.foldlRecOn (motive := fun u : State => u = t) _ _ rfl ?_
  rintro _ rfl p0 -
  dsimp only
  split
  · next p hp =>
    have hmem := List.mem_of_find?_eq_some hp
    have hsend : p.cmd.op ≠ .send := by
      by_cases hi : idHalf p0.id = 0
      · exact hposts 0 (by omega) p (hi ▸ hmem)
      · exact hposts 1 (by omega) p (by rwa [State.engine_eq_of_iff _ (show 1 = 0 ↔ idHalf p0.id = 0 by omega)])
    exact if_neg fun h => hsend h.1
  · rfl

/-- With no receive announced nothing matches. -/
theorem State.matchPosts_of_no_recvs (hrecvs : t.recvs = []) : t.matchPosts = t := by
  refine List.foldlRecOn (motive := fun u : State => u = t) _ _ rfl ?_
  rintro _ rfl p0 -
  dsimp only
  split
  · split
    · rw [hrecvs]
      split
      · next hfound => cases hfound
      · rfl
    · rfl
  · rfl

/-- A post record out of range (R261). -/
def badPost (g : Group) (m : CollCmd) : Prop := g.members.length ≤ m.peer ∨ 2 ^ 16 ≤ m.tag ∨ m.nbytes = 0 ∨ 2 ^ 32 < m.nbytes

/-- A post takes its place in the engine under a fresh number. -/
def State.posting (t : State) (h : Nat) (m : CollCmd) (id : Nat) : State :=
  { t.setEngine h { (t.engine h).giveId id with
      posts := (t.engine h).posts ++ [⟨m, id, t.posted, m.gid, m.peer, m.tag, m.buf, m.nbytes, none, 0, []⟩] } with posted := t.posted + 1 }

@[simp] theorem State.posting_recvs (t : State) (h : Nat) (m : CollCmd) (id : Nat) : (t.posting h m id).recvs = t.recvs := State.setEngine_recvs ..

theorem startPost_bad (hbad : badPost g m) : startPost t h m g = t.endColl h m 8 0 := by
  refine if_pos ?_
  rw [Bool.not_eq_true', decide_eq_false_iff_not]
  unfold badPost at hbad
  omega

section
variable (hgood : ¬ badPost g m) {id : Nat} (hid : t.freeId h = some id)
include hgood hid

theorem startPost_good : startPost t h m g = if m.op = .send then (t.posting h m id).matchPosts
    else if m.peer = g.self then State.matchPosts { t.posting h m id with recvs := t.recvs ++ [(⟨m.b, m.gid, g.self, m.tag, m.nbytes, id⟩ : Announced)] }
    else (t.posting h m id).sendMember h m.b g m.peer .greq 0 id (.greq (.recv m.gid g.self m.tag m.nbytes id)) := by
  have hrange : ¬ (!decide (m.peer < g.members.length ∧ m.tag < 2 ^ 16 ∧ 1 ≤ m.nbytes ∧ m.nbytes ≤ 2 ^ 32)) = true := by
    rw [Bool.not_eq_true', decide_eq_false_iff_not]
    unfold badPost at hgood
    omega
  refine (if_neg hrange).trans ?_
  rw [hid, ← t.posting_recvs h m id]
  rfl

theorem startPost_send (hop : m.op = .send) (hrecvs : t.recvs = []) : startPost t h m g = t.posting h m id := by
  rw [startPost_good hgood hid, if_pos hop, State.matchPosts_of_no_recvs (by rw [State.posting_recvs, hrecvs])]

theorem startPost_far (hop : m.op = .recv) (hpeer : m.peer ≠ g.self) : startPost t h m g =
    (t.posting h m id).sendMember h m.b g m.peer .greq 0 id (.greq (.recv m.gid g.self m.tag m.nbytes id)) := by
  rw [startPost_good hgood hid, if_neg (by simp [hop]), if_neg hpeer]

/-- A receive from this member waits while this device has no send. -/
theorem startPost_self (hop : m.op = .recv) (hpeer : m.peer = g.self) (hposts : ∀ i, i < 2 → ∀ p ∈ (t.engine i).posts, p.cmd.op ≠ .send) :
    startPost t h m g = { t.posting h m id with recvs := t.recvs ++ [(⟨m.b, m.gid, g.self, m.tag, m.nbytes, id⟩ : Announced)] } := by
  rw [startPost_good hgood hid, if_neg (by simp [hop]), if_pos hpeer]
  refine State.matchPosts_of_no_sends fun i hi p hp => ?_
  have hengine : p ∈ ((t.setEngine h { (t.engine h).giveId id with
      posts := (t.engine h).posts ++ [⟨m, id, t.posted, m.gid, m.peer, m.tag, m.buf, m.nbytes, none, 0, []⟩] }).engine i).posts := hp
  rw [State.engine_setEngine] at hengine
  split at hengine
  · next hih =>
    rw [List.mem_append, List.mem_singleton, ← t.engine_eq_of_iff hih] at hengine
    obtain hold | rfl := hengine
    · exact hposts i hi p hold
    · simp [hop]
  · exact hposts i hi p hengine

end

end

end Sys2Proof.Machine
end

section
/-! Collective commands (O44): each start, and what an end writes (R241, R242, R263). -/

namespace Sys2Proof.Machine

/-! ### What an end writes -/

theorem leNat_leBytes (n v : Nat) : leNat (leBytes n v) = v % 256 ^ n := by
  induction n generalizing v with
  | zero => simp [leBytes, leNat, Nat.mod_one]
  | succ n ih =>
    have hbyte : (BitVec.ofNat 8 (v % 256)).toNat = v % 256 := (BitVec.toNat_ofNat _ _).trans (Nat.mod_mod v 256)
    rw [leBytes, leNat, ih, hbyte, Nat.pow_succ', Nat.mod_mul]

section
variable (s : State) (h : Nat) (c : CollCmd) (status count : Nat)

theorem State.readNat_endColl (hstatus : status < 2 ^ 24) (hcount : count < 2 ^ 40) :
    (s.endColl h c status count).readNat (c.recAt.toNat + 8) 8 = status + count * 2 ^ 24 := by
  have hrun := FMap.getRun_setRun 0#8 s.mem (c.recAt.toNat + 8) (leBytes 8 (status + count * 2 ^ 24))
  rw [length_leBytes] at hrun
  rw [State.readNat, State.readBytes, State.endColl_mem, hrun, leNat_leBytes, Nat.mod_eq_of_lt (by omega)]

theorem State.byte_endColl {a : Nat} (ha : a < c.recAt.toNat + 8 ∨ c.recAt.toNat + 8 + 8 ≤ a) : (s.endColl h c status count).byte a = s.byte a := by
  rw [State.byte, State.endColl_mem, FMap.get_setRun, dif_neg (by rw [length_leBytes]; omega)]
  rfl

theorem State.late_endColl : FMap.get 0#16 ((s.endColl h c status count).engine h).late c.b =
    if status = 4 then satAdd (FMap.get 0#16 (s.engine h).late c.b) 1 else FMap.get 0#16 (s.engine h).late c.b := by
  rw [State.engine_endColl_same]
  by_cases hlate : status = 4
  · simp only [hlate, if_true]
    exact FMap.get_set_same ..
  · simp only [hlate, if_false]

end

/-- Settles O44: the first part clause by clause from how each command starts, the second from what an end writes. -/
theorem collectiveCommands : Obligations.CollectiveCommands := by
  unfold Obligations.CollectiveCommands
  refine ⟨?_, ?_⟩
  · intro s c m rest g k h taken e spoilt ends r isNow post badPost'
    refine ⟨fun hq => ?_, fun hq hfull => ?_, fun hq hwaits => ?_, fun id hq hfree hid hstart hposts hopen => ?_⟩
    · show Host.Outcome.next (doCollDequeue s c) = _
      simp only [doCollDequeue]
      rw [show (s.core c).collQ = [] from hq]
    · refine exec_collectiveSlotDequeue_waits hq ?_
      rw [← Bool.not_eq_true, State.mayStart_iff]
      exact fun ⟨hfree, _⟩ => Nat.not_le.mpr hfree hfull
    · refine exec_collectiveSlotDequeue_waits hq ?_
      rw [← Bool.not_eq_true, State.mayStart_iff]
      rintro ⟨_, hunmatched, hid, _, hstart⟩
      obtain hw | hw | ⟨hop, hw⟩ := hwaits
      · exact hw hstart
      · rw [hw] at hid
        cases hid
      · exact Nat.not_le.mpr (hunmatched hop) hw
    have hexec : exec (.collectiveSlotDequeue c) s = .next (startColl taken h m) :=
      exec_collectiveSlotDequeue_starts hq ((s.mayStart_iff h m).mpr ⟨hfree, hposts, by rw [hid]; rfl, hopen, hstart⟩)
    have hid' : taken.freeId h = some id := hid
    dsimp only [ends, spoilt]
    rw [hexec]
    refine ⟨fun hg => congrArg _ (startColl_of_no_group hg),
      fun hg => ⟨fun hop => ?_, fun hop => ?_, fun hop => ?_, fun hop => ?_, fun hop => ?_, fun hop => ?_⟩⟩
    · rw [startColl_bucket hg hop]
      refine ⟨fun hrole => congrArg _ (startBucket_observer hrole), fun hrole hnow => congrArg _ (startBucket_passed hrole hnow),
        fun hrole hnow hok => congrArg _ (startBucket_bad hrole hnow hok), fun split t hrole hnow hok hsplit => ?_, fun er t hrole hnow hok hall hread => ?_⟩
      · obtain ⟨l, hread, hl⟩ : ∃ l, taken.readSplit m g = (.ok l, t) ∧ split = splitOf g r l := by
          obtain ⟨hall, hnil, rfl⟩ | ⟨l, hall, hread, hl⟩ := hsplit
          · exact ⟨[], if_pos hall, hnil.trans (if_pos hall).symm⟩
          · have hnot : ¬ (bucketReq g m).all = true := by rw [show (bucketReq g m).all = false from hall]; decide
            exact ⟨l, (if_neg hnot).trans hread, hl.trans (if_neg hnot).symm⟩
        obtain ⟨hmisfit, hfit⟩ := startBucket_read hrole hnow hok hread hl
        refine ⟨fun hall hbad => congrArg _ (hmisfit hall hbad), fun hgood => ?_⟩
        rw [hfit hgood]
        exact ⟨fun st hended => congrArg _ (State.queueBucket_ended hended), fun hended hnone => congrArg _ (State.queueBucket_new hended hnone),
          fun i j kk hended hfound hkk => congrArg _ (State.queueBucket_known hended hfound hkk)⟩
      · have hnot : ¬ (bucketReq g m).all = true := by rw [show (bucketReq g m).all = false from hall]; decide
        exact congrArg _ (startBucket_unread hrole hnow hok ((if_neg hnot).trans hread))
    · rw [startColl_close hg hop]
      exact ⟨fun hrole => congrArg _ (startClose_observer hrole), fun hrole hnow => congrArg _ (startClose_passed hrole hnow),
        fun _ hnow h0 h1 hbucket hrole hself => congrArg _ (startClose_waits hg hrole hself hnow h0 h1 hbucket)⟩
    · rw [startColl_publish hg hop]
      exact ⟨fun hok => congrArg _ (startPublish_bad hok), fun hok howner => congrArg _ (startPublish_notOwner hok howner),
        fun hok howner hpassed => congrArg _ (startPublish_passed hok howner hpassed),
        fun hok howner hnew hdue => congrArg _ (startPublish_waits hok howner hnew hdue)⟩
    · rw [startColl_gather hg hop]
      refine ⟨fun hbad => congrArg _ (startGather_bad (gatherBad_iff.mpr hbad)), fun h1 h2 h3 h4 h5 h6 h7 => ?_⟩
      have hfits : ¬ gatherBad taken g m = true := by
        rw [gatherBad_iff, h6, h7]
        simp only [not_or, not_not, Nat.not_le, Bool.true_eq_false, not_false_eq_true, and_true]
        exact ⟨h1, h2, h3, h4, h5⟩
      exact ⟨fun howner => congrArg _ (startGather_far hfits hid' howner), fun howner hnone => congrArg _ (startGather_unpublished hfits howner hnone),
        fun p stamp l howner hp hserve => congrArg _ (startGather_own hfits howner hid' hp hserve)⟩
    · rw [startColl_recv hg hop]
      exact ⟨fun hbad => congrArg _ (startPost_bad hbad), fun hgood hpeer => congrArg _ (startPost_far hgood hid' hop hpeer),
        fun hgood hpeer hsends => congrArg _ (startPost_self hgood hid' hop hpeer hsends)⟩
    · rw [startColl_send hg hop]
      exact ⟨fun hbad => congrArg _ (startPost_bad hbad), fun hgood hrecvs => congrArg _ (startPost_send hgood hid' hop hrecvs)⟩
  · intro s h m status count hstatus hcount s' at'
    refine ⟨s.readNat_endColl h m status count hstatus hcount, fun a ha => s.byte_endColl h m status count ha, ?_, fun g hg => ?_, fun tk htk => ?_,
      s.late_endColl h m status count⟩
    · rw [State.thread_endColl, if_pos rfl, Thread.collDone, Thread.cirq_setEng]
    · rw [State.thread_endColl, if_neg hg]
    · rw [State.thread_endColl, if_pos rfl]
      exact Thread.ticket_setEng_other _ htk _ _ _

end Sys2Proof.Machine
end

section
/-! SUPPORT. Passes of a bucket (R251-R253): what reading contributions leaves, messages sent on the way, and what a pass makes of a bucket. -/

namespace Sys2Proof.Machine

/-! ### What an engine's reading leaves -/

section
variable {s t : State}

theorem State.CachesUsed.engine (h : s.CachesUsed t) (j : Nat) : t.engine j = s.engine j := by
  obtain ⟨m, tg, p, l2, ks, rfl⟩ := h.state
  rfl

theorem State.CachesUsed.threads (h : s.CachesUsed t) : t.threads = s.threads := by
  obtain ⟨m, tg, p, l2, ks, rfl⟩ := h.state
  rfl

end

/-- `t` is `s` but for the caches that engines read through. -/
def State.ReadFrom (s t : State) : Prop := s.CachesUsed t ∧ t.mem = s.mem

theorem State.ReadFrom.refl (s : State) : s.ReadFrom s := ⟨.refl s, rfl⟩

theorem State.ReadFrom.trans {s t u : State} (hst : s.ReadFrom t) (htu : t.ReadFrom u) : s.ReadFrom u :=
  ⟨hst.1.trans htu.1, htu.2.trans hst.2⟩

section
variable (s : State)

theorem State.readFrom_xlatRun (c : Nat) (prv : BitVec 2) (nd : Need) (va : Word) (n : Nat) : s.ReadFrom (s.xlatRun c prv nd va n).2 := by
  refine List.foldlRecOn (motive := fun r : Except EErr (List (Nat × Nat)) × State => s.ReadFrom r.2) _ _ (.refl s) ?_
  rintro ⟨_ | l, t⟩ ht p -
  · exact ht
  · have hread : t.ReadFrom (t.engineXlat c prv nd (BitVec.ofNat 64 p.1)).2 := ⟨t.cachesUsed_engineXlat .., t.engineXlat_mem ..⟩
    dsimp only
    split <;> next heq => exact ht.trans (by rw [heq] at hread; exact hread)

theorem State.readFrom_collRead (c : CollCmd) (va : Word) (n : Nat) : s.ReadFrom (s.collRead c va n).2 := by
  have hrun := s.readFrom_xlatRun c.core c.prv .rd va n
  unfold State.collRead
  split
  · next heq =>
    rw [heq] at hrun
    exact hrun
  · next heq =>
    rw [heq] at hrun
    split <;> exact hrun

theorem Run.readFrom_contribs (x : Run) : s.ReadFrom (x.contribs s).2 := by
  refine List.foldlRecOn (motive := fun r : Except EErr (List (List Nat)) × State => s.ReadFrom r.2) _ _ (.refl s) ?_
  rintro ⟨_ | l, t⟩ ht j -
  · exact ht
  · have hread := t.readFrom_collRead x.c (x.r.src + BitVec.ofNat 64 (j * x.r.cstride)) (x.r.elems * (fmtBits x.r.sfmt / 8))
    dsimp only
    split <;> next heq => exact ht.trans (by rw [heq] at hread; exact hread)

end

/-! ### Messages on the way -/

/-- `t` is `s` but for messages that engine `h` has handed to the fabric. -/
def State.Handed (h : Nat) (s t : State) : Prop := ∃ l, t = s.hand h l

theorem State.Handed.refl (h : Nat) (s : State) : s.Handed h s := ⟨[], (s.hand_nil h).symm⟩

theorem State.Handed.trans {h : Nat} {s t u : State} (hst : s.Handed h t) (htu : t.Handed h u) : s.Handed h u := by
  obtain ⟨l, rfl⟩ := hst
  obtain ⟨l', rfl⟩ := htu
  exact ⟨_, s.hand_hand h l l'⟩

theorem State.Handed.foldl {β : Type} {h : Nat} (l : List β) {f : State → β → State} (hf : ∀ (t : State) b, t.Handed h (f t b)) (s : State) :
    s.Handed h (l.foldl f s) :=
  List.foldlRecOn (motive := fun t : State => s.Handed h t) _ _ (.refl h s) fun t ht b _ => ht.trans (hf t b)

theorem State.Handed.ite {h : Nat} (p : Prop) [Decidable p] {s t u : State} (ht : s.Handed h t) (hu : s.Handed h u) :
    s.Handed h (if p then t else u) := by
  split
  · exact ht
  · exact hu

section
variable (x : Run) (s : State)

theorem Run.handed_sendTo (m : Nat) (t : PType) (body : Payload) : s.Handed x.h (x.sendTo s m t body) := ⟨_, rfl⟩

theorem Run.handed_announce : s.Handed x.h (x.announce s) :=
  .ite _ (.foldl _ (fun t _ => x.handed_sendTo t _ _ _) s) (.refl _ s)

theorem Run.handed_exponents (cs : List (List Nat)) : s.Handed x.h (x.exponents s cs).2 :=
  .ite _ (.refl _ s) (.foldl _ (fun t _ => .foldl _ (fun u _ => x.handed_sendTo u _ _ _) t) s)

theorem Run.handed_lanes (cs : List (List Nat)) : s.Handed x.h (x.lanes s cs).2 :=
  .ite _ (.refl _ s) (.foldl _ (fun t _ => .foldl _ (fun u _ => x.handed_sendTo u _ _ _) t) s)

theorem Run.handed_agree : s.Handed x.h (x.agree s).2 :=
  .foldl _ (fun t _ => .foldl _ (fun u _ => x.handed_sendTo u _ _ _) t) s

end

/-! ### What a pass makes of a bucket -/

theorem nodup_blocksOf (rg : Nat × Nat) : (blocksOf rg).Nodup := by
  unfold blocksOf
  split
  · exact List.nodup_nil
  · exact List.Nodup.map (fun _ _ h => Nat.add_right_cancel h) List.nodup_range

section
variable {β : Type} (l : List β) (k : Bucket) (n : Nat) (key : β → Nat)

theorem Bucket.foldl_addExp_eq (e : β → BitVec 16) : ∃ m, l.foldl (fun k x => k.addExp (key x) (e x) n) k = { k with expIn := m } := by
  refine List.foldlRecOn (motive := fun y : Bucket => ∃ m, y = { k with expIn := m }) _ _ ⟨_, rfl⟩ ?_
  rintro _ ⟨m, rfl⟩ x -
  exact ⟨_, rfl⟩

theorem Bucket.foldl_addLanes_eq (v : β → VxBlock) : ∃ m, l.foldl (fun k x => k.addLanes (key x) (v x) n) k = { k with sums := m } := by
  refine List.foldlRecOn (motive := fun y : Bucket => ∃ m, y = { k with sums := m }) _ _ ⟨_, rfl⟩ ?_
  rintro _ ⟨m, rfl⟩ x -
  exact ⟨_, rfl⟩

theorem Bucket.foldl_setAgreed_eq (e : β → BitVec 16) : ∃ m, l.foldl (fun k x => k.setAgreed (key x) (e x)) k = { k with agreed := m } := by
  refine List.foldlRecOn (motive := fun y : Bucket => ∃ m, y = { k with agreed := m }) _ _ ⟨_, rfl⟩ ?_
  rintro _ ⟨m, rfl⟩ x -
  exact ⟨_, rfl⟩

end

/-- A walk over blocks that counts `n` for each counts it for every mention of a block. -/
theorem foldl_counts {f : Bucket → Nat → Bucket} {read : Bucket → Nat → Nat} {n : Nat}
    (hf : ∀ k j b, read (f k j) b = read k b + if b = j then n else 0) (l : List Nat) (k : Bucket) (b : Nat) :
    read (l.foldl f k) b = read k b + n * l.count b := by
  induction l generalizing k with
  | nil => rfl
  | cons j l ih =>
    rw [List.foldl_cons, ih, hf, List.count_cons]
    by_cases hj : b = j
    · rw [if_pos hj, if_pos (beq_iff_eq.mpr hj.symm), Nat.mul_succ]
      omega
    · rw [if_neg hj, if_neg (by simpa using Ne.symm hj), Nat.add_zero, Nat.add_zero]

section
variable (l : List Nat) (k : Bucket) (n b : Nat)

theorem Bucket.expOf_addExp (e : BitVec 16) (j : Nat) :
    (k.addExp j e n).expOf b = if b = j then (maxExp (k.expOf j).1 e, (k.expOf j).2 + n) else k.expOf b := FMap.get_set ..

theorem Bucket.count_foldl_addExp (e : Nat → BitVec 16) :
    ((l.foldl (fun k b => k.addExp b (e b) n) k).expOf b).2 = (k.expOf b).2 + n * l.count b := by
  refine foldl_counts (read := fun k b => (k.expOf b).2) (fun k j b => ?_) l k b
  rw [Bucket.expOf_addExp]
  split
  · next hj => rw [hj]
  · rfl

theorem SumBlock.ncon_add (x : SumBlock) (v : VxBlock) : (x.add v n).ncon = x.ncon + n := by
  unfold SumBlock.add
  split
  · rfl
  · split <;> rfl

theorem Bucket.sum_addLanes (v : VxBlock) (j : Nat) : (k.addLanes j v n).sum b = if b = j then (k.sum j).add v n else k.sum b := FMap.get_set ..

theorem Bucket.count_foldl_addLanes (v : Nat → VxBlock) :
    ((l.foldl (fun k b => k.addLanes b (v b) n) k).sum b).ncon = (k.sum b).ncon + n * l.count b := by
  refine foldl_counts (read := fun k b => (k.sum b).ncon) (fun k j b => ?_) l k b
  rw [Bucket.sum_addLanes]
  split
  · next hj => rw [hj, SumBlock.ncon_add]
  · rfl

theorem Bucket.agreedAt_setAgreed (e : BitVec 16) (j : Nat) : (k.setAgreed j e).agreedAt b = if b = j then some e else k.agreedAt b :=
  FMap.get_set none k.agreed j (some e) b

variable {l b} in
theorem Bucket.agreedAt_foldl_setAgreed_other (e : Nat → BitVec 16) (hb : b ∉ l) :
    (l.foldl (fun k b => k.setAgreed b (e b)) k).agreedAt b = k.agreedAt b := by
  refine List.foldlRecOn (motive := fun y : Bucket => y.agreedAt b = k.agreedAt b) _ _ rfl fun y hy j hj => ?_
  have hne : b ≠ j := fun h => hb (h ▸ hj)
  rw [Bucket.agreedAt_setAgreed, if_neg hne, hy]

end

/-! ### The run of a bucket -/

section
variable {s : State} {h n : Nat} {x : Run}

theorem State.liveRun_eq_some (hrun : s.liveRun h n = some x) : (s.engine h).buckets[n]? = some x.k ∧ x.k.cmd = some x.c ∧
    s.group h x.c.b x.k.gid = some x.g ∧ x = ⟨h, n, x.k, x.c, x.g, bucketReq x.g x.c⟩ := by
  unfold State.liveRun at hrun
  split at hrun
  · next k hk =>
    split at hrun
    · next c hc =>
      obtain ⟨g, hg, rfl⟩ := Option.map_eq_some_iff.mp hrun
      exact ⟨hk, hc, hg, rfl⟩
    · cases hrun
  · cases hrun

theorem State.moveBucket_of_no_cmd {k : Bucket} (hk : (s.engine h).buckets[n]? = some k) (hcmd : k.cmd = none) : s.moveBucket h n = s := by
  have hrun : s.liveRun h n = none := by simp [State.liveRun, hk, hcmd]
  rw [State.moveBucket, hrun]

end

section
variable (x : Run) (s : State)

/-- An owner agrees blocks of its own only. -/
theorem Run.agree_fst : ∃ m, (x.agree s).1 = { x with k := { x.k with agreed := m } } ∧
    ∀ b, b ∉ x.ownBlocks → ({ x.k with agreed := m } : Bucket).agreedAt b = x.k.agreedAt b := by
  obtain ⟨m, hm⟩ := Bucket.foldl_setAgreed_eq
    (x.ownBlocks.filter (fun b => (x.k.agreedAt b).isNone && decide ((x.k.expOf b).2 = x.g.total))) x.k (fun b => b) (fun b => (x.k.expOf b).1)
  refine ⟨m, congrArg (fun k => { x with k := k }) hm, fun b hb => ?_⟩
  rw [← hm]
  exact Bucket.agreedAt_foldl_setAgreed_other x.k _ fun hmem => hb (List.mem_filter.mp hmem).1

/-- A bucket in its exponent pass stays in it while a block of another owner has not been agreed (R252). -/
theorem Run.progress_waits (hrop : x.r.rop = 0) (hphase : x.k.phase = .exponent) (hccnt : x.g.me.ccnt ≠ 0)
    (hblock : ∃ b, b < x.r.nblk ∧ x.k.agreedAt b = none ∧ b ∉ x.ownBlocks) :
    ∃ t m, s.Handed x.h t ∧ x.progress s = t.setBucket x.h x.i { x.k with agreed := m } ∧
      ∀ b, b ∉ x.ownBlocks → ({ x.k with agreed := m } : Bucket).agreedAt b = x.k.agreedAt b := by
  obtain ⟨m, hfst, hother⟩ := x.agree_fst s
  refine ⟨_, m, x.handed_agree s, ?_, hother⟩
  obtain ⟨b, hb, hnone, hown⟩ := hblock
  have hnot : ¬ (upto x.r.nblk).all (fun b => (({ x.k with agreed := m } : Bucket).agreedAt b).isSome) = true := by
    rw [Bool.not_eq_true, List.all_eq_false]
    exact ⟨b, List.mem_range.mpr hb, by rw [hother b hown, hnone]; decide⟩
  have hagree : x.agree s = ({ x with k := { x.k with agreed := m } }, (x.agree s).2) := Prod.ext hfst rfl
  rw [Run.progress, if_pos hrop, hagree]
  dsimp only
  rw [if_neg (fun h => h.2.elim hccnt hnot), Run.settle, if_pos (by rw [hphase]; decide)]
  rfl

/-- An owner stays in its sum pass while contributions to a block are missing (R252). -/
theorem Run.settle_waits (hphase : x.k.phase = .sum) (hblock : ∃ b ∈ x.ownBlocks, (x.k.sum b).ncon ≠ x.g.total) : x.settle s = x.put s := by
  obtain ⟨b, hb, hncon⟩ := hblock
  have hsome : ¬ x.ownBlocks.isEmpty = true := by
    rw [List.isEmpty_iff]
    exact List.ne_nil_of_mem hb
  have hnot : ¬ (x.told && x.ownBlocks.all (fun b => decide ((x.k.sum b).ncon = x.g.total))) = true := by
    rw [Bool.and_eq_true, List.all_eq_true]
    exact fun h => hncon (of_decide_eq_true (h.2 b hb))
  rw [Run.settle, if_neg (by rw [hphase]; decide), if_neg hsome, if_neg hnot]

theorem Run.nodup_ownBlocks : x.ownBlocks.Nodup := nodup_blocksOf _

variable (cs : List (List Nat))

/-- The exponent of a block that this member enters (R252). -/
def Run.expSent (b : Nat) : BitVec 16 := (cs.map (fun codes => blockExp x.r.sfmt codes b)).foldl maxExp 0x8000#16

/-- The lanes of a block that this member enters (R252, R253). -/
def Run.lanesSent (b : Nat) : VxBlock :=
  if x.r.rop = 0 then blockLanes x.r.sfmt cs ((x.k.agreedAt b).getD 0x8000) b else blockExtreme x.r.sfmt (decide (x.r.rop = 1)) cs b

/-- The exponent pass enters this member's contributions to its own blocks. -/
theorem Run.exponents_fst (hccnt : x.g.me.ccnt ≠ 0) : ∃ k, (x.exponents s cs).1 = { x with k := k } ∧
    (∃ m, k = { x.k with phase := .exponent, expIn := m }) ∧ ∀ b ∈ x.ownBlocks, (k.expOf b).2 = (x.k.expOf b).2 + x.g.me.ccnt := by
  have hfst : (x.exponents s cs).1 =
      { x with k := { x.ownBlocks.foldl (fun k b => k.addExp b (x.expSent cs b) x.g.me.ccnt) x.k with phase := .exponent } } := by
    rw [Run.exponents, if_neg hccnt]
    rfl
  refine ⟨_, hfst, ?_, fun b hb => ?_⟩
  · obtain ⟨m, hm⟩ := Bucket.foldl_addExp_eq x.ownBlocks x.k x.g.me.ccnt (fun b => b) (x.expSent cs)
    exact ⟨m, by rw [hm]⟩
  · have hfold := Bucket.count_foldl_addExp x.ownBlocks x.k x.g.me.ccnt b (x.expSent cs)
    rw [List.count_eq_one_of_mem x.nodup_ownBlocks hb, Nat.mul_one] at hfold
    exact hfold

/-- The sum pass enters this member's lanes in its own blocks. -/
theorem Run.lanes_fst : ∃ k, (x.lanes s cs).1 = { x with k := k } ∧
    (∃ m, k = { x.k with phase := .sum, sums := m }) ∧ ∀ b ∈ x.ownBlocks, (k.sum b).ncon = (x.k.sum b).ncon + x.g.me.ccnt := by
  by_cases hccnt : x.g.me.ccnt = 0
  · refine ⟨{ x.k with phase := .sum }, ?_, ⟨x.k.sums, rfl⟩, fun b _ => by rw [hccnt]; rfl⟩
    rw [Run.lanes, if_pos hccnt]
  · have hfst : (x.lanes s cs).1 =
        { x with k := { x.ownBlocks.foldl (fun k b => k.addLanes b (x.lanesSent cs b) x.g.me.ccnt) x.k with phase := .sum } } := by
      rw [Run.lanes, if_neg hccnt]
      rfl
    refine ⟨_, hfst, ?_, fun b hb => ?_⟩
    · obtain ⟨m, hm⟩ := Bucket.foldl_addLanes_eq x.ownBlocks x.k x.g.me.ccnt (fun b => b) (x.lanesSent cs)
      exact ⟨m, by rw [hm]⟩
    · have hfold := Bucket.count_foldl_addLanes x.ownBlocks x.k x.g.me.ccnt b (x.lanesSent cs)
      rw [List.count_eq_one_of_mem x.nodup_ownBlocks hb, Nat.mul_one] at hfold
      exact hfold

end

end Sys2Proof.Machine
end

section
/-! Events of the collective engine (O45): a bucket leaves QUEUED, windows expire, and a PUBLISH proceeds (R245, R251-R253, R255, R257, R260, R261). -/

namespace Sys2Proof.Machine

/-! ### A bucket leaves QUEUED (R251-R253) -/

/-- A bucket's place after reading and sending. -/
theorem State.setBucket_handed {s u t : State} {h : Nat} (hread : s.ReadFrom u) (hsent : u.Handed h t) (n : Nat) (k : Bucket) :
    ((t.setBucket h n k).engine h).buckets = (s.engine h).buckets.set n k ∧ (t.setBucket h n k).mem = s.mem ∧
      (t.setBucket h n k).threads = s.threads := by
  obtain ⟨l, rfl⟩ := hsent
  refine ⟨?_, ?_, ?_⟩
  · rw [State.setBucket, State.engine_setEngine_same, State.hand, State.engine_setEngine_same, hread.1.engine]
  · rw [State.setBucket, State.setEngine_mem, State.hand, State.setEngine_mem, hread.2]
  · rw [State.setBucket, State.setEngine_threads, State.hand, State.setEngine_threads, hread.1.threads]

/-- Buckets of a group that have left QUEUED in an engine (R251). -/
def State.activeBuckets (s : State) (h gid : Nat) : Nat :=
  ((s.engine h).buckets.filter (fun k => k.cmd.isSome && decide (k.gid = gid) && decide (k.phase ≠ .queued))).length

section
variable {s : State} {h n : Nat} {x : Run} (hrun : s.liveRun h n = some x)
include hrun

theorem doBucketDequeue_active (hphase : x.k.phase ≠ .queued) : doBucketDequeue s h n = s.moveBucket h n := by
  rw [doBucketDequeue, hrun]
  exact if_pos hphase

variable (hphase : x.k.phase = .queued)
include hphase

theorem doBucketDequeue_full (hfull : 16 ≤ s.activeBuckets h x.k.gid) : doBucketDequeue s h n = s := by
  rw [doBucketDequeue, hrun]
  exact (if_neg (not_not.mpr hphase)).trans (if_pos hfull)

variable (hroom : s.activeBuckets h x.k.gid < 16)
include hroom

theorem doBucketDequeue_mismatch (hmismatch : x.mismatch = true) : doBucketDequeue s h n = s.endBucket h n x.k 8 0 := by
  rw [doBucketDequeue, hrun]
  exact (if_neg (not_not.mpr hphase)).trans ((if_neg (Nat.not_le.mpr hroom)).trans (if_pos hmismatch))

variable (hmatch : x.mismatch = false) {cs : List (List Nat)} (hread : (x.contribs s).1 = .ok cs)
include hmatch hread

theorem doBucketDequeue_reads : doBucketDequeue s h n =
    if x.r.rop = 0 then (x.exponents (x.announce (x.contribs s).2) cs).1.progress (x.exponents (x.announce (x.contribs s).2) cs).2
    else (x.lanes (x.announce (x.contribs s).2) cs).1.settle (x.lanes (x.announce (x.contribs s).2) cs).2 := by
  have hcontribs : x.contribs s = (.ok cs, (x.contribs s).2) := Prod.ext hread rfl
  rw [doBucketDequeue, hrun]
  refine (if_neg (not_not.mpr hphase)).trans ((if_neg (Nat.not_le.mpr hroom)).trans ((if_neg (by rw [hmatch]; decide)).trans ?_))
  rw [hcontribs]

/-- The exponent pass of a member that contributes and has not heard on every block (R252). -/
theorem doBucketDequeue_exponents (hrop : x.r.rop = 0) (hccnt : x.g.me.ccnt ≠ 0)
    (hblock : ∃ b, b < x.r.nblk ∧ x.k.agreedAt b = none ∧ b ∉ x.ownBlocks) :
    ∃ t m a, (∃ u, s.ReadFrom u ∧ u.Handed h t) ∧ doBucketDequeue s h n = t.setBucket h n { x.k with phase := .exponent, expIn := m, agreed := a } ∧
      (∀ b ∈ x.ownBlocks, (({ x.k with expIn := m } : Bucket).expOf b).2 = (x.k.expOf b).2 + x.g.me.ccnt) ∧
      ∀ b, b ∉ x.ownBlocks → ({ x.k with agreed := a } : Bucket).agreedAt b = x.k.agreedAt b := by
  obtain ⟨-, -, -, hx⟩ := State.liveRun_eq_some hrun
  have hxh : x.h = h := by rw [hx]
  have hxi : x.i = n := by rw [hx]
  obtain ⟨_, hfst, ⟨m, rfl⟩, hcount⟩ := x.exponents_fst (x.announce (x.contribs s).2) cs hccnt
  obtain ⟨t, a, hsent, hprogress, hother⟩ := Run.progress_waits { x with k := { x.k with phase := .exponent, expIn := m } }
    (x.exponents (x.announce (x.contribs s).2) cs).2 hrop rfl hccnt hblock
  refine ⟨t, m, a, ⟨_, x.readFrom_contribs s, ?_⟩, ?_, hcount, hother⟩
  · exact hxh ▸ ((x.handed_announce _).trans (x.handed_exponents _ cs)).trans hsent
  · rw [doBucketDequeue_reads hrun hphase hroom hmatch hread, if_pos hrop, hfst, hprogress]
    exact congrArg₂ (t.setBucket · · _) hxh hxi

/-- The sum pass of an owner that has not every contribution (R253). -/
theorem doBucketDequeue_lanes (hrop : x.r.rop ≠ 0) (hblock : ∃ b ∈ x.ownBlocks, (x.k.sum b).ncon + x.g.me.ccnt ≠ x.g.total) :
    ∃ t m, (∃ u, s.ReadFrom u ∧ u.Handed h t) ∧ doBucketDequeue s h n = t.setBucket h n { x.k with phase := .sum, sums := m } ∧
      ∀ b ∈ x.ownBlocks, (({ x.k with sums := m } : Bucket).sum b).ncon = (x.k.sum b).ncon + x.g.me.ccnt := by
  obtain ⟨-, -, -, hx⟩ := State.liveRun_eq_some hrun
  have hxh : x.h = h := by rw [hx]
  have hxi : x.i = n := by rw [hx]
  obtain ⟨_, hfst, ⟨m, rfl⟩, hcount⟩ := x.lanes_fst (x.announce (x.contribs s).2) cs
  have hmissing : ∃ b ∈ x.ownBlocks, (({ x.k with sums := m } : Bucket).sum b).ncon ≠ x.g.total := by
    obtain ⟨b, hb, hne⟩ := hblock
    exact ⟨b, hb, fun h => hne ((hcount b hb).symm.trans h)⟩
  have hsettle := Run.settle_waits { x with k := { x.k with phase := .sum, sums := m } } (x.lanes (x.announce (x.contribs s).2) cs).2 rfl hmissing
  refine ⟨(x.lanes (x.announce (x.contribs s).2) cs).2, m, ⟨_, x.readFrom_contribs s, ?_⟩, ?_, hcount⟩
  · exact hxh ▸ (x.handed_announce _).trans (x.handed_lanes _ cs)
  · rw [doBucketDequeue_reads hrun hphase hroom hmatch hread, if_neg hrop, hfst, hsettle]
    exact congrArg₂ (State.setBucket _ · · _) hxh hxi

end

/-! ### WINDOW of a bucket (R255) -/

/-- The LATE verdicts to the other members that contribute. -/
theorem State.sendLate_eq (s : State) (h b : Nat) (g : Group) (k : Bucket) : s.sendLate h b g k =
    s.hand h (toMembers b g .verdict (wordAt k.step) k.bseq (.verdict k.gid k.attempt (.bucket 4))
      ((upto g.members.length).filter (fun m => decide (m ≠ g.self) && decide ((g.members.getD m ⟨0, 0, 0⟩).ccnt ≠ 0)))) :=
  State.foldl_sendMember _ s h b g .verdict _ _ _

section
variable {s : State} {h n : Nat}

section
variable {x : Run} (hrun : s.liveRun h n = some x)
include hrun

theorem doBucketWindow_owner (hown : x.ownBlocks ≠ []) (hbegun : x.k.phase ≠ .queued ∨ x.k.heard ≠ []) :
    doBucketWindow s h n = (s.sendLate h x.c.b x.g x.k).endBucket h n x.k 4 0 := by
  obtain ⟨hk, -, -, -⟩ := State.liveRun_eq_some hrun
  rw [doBucketWindow, hk, hrun]
  refine if_pos ?_
  simpa [hown] using hbegun

theorem doBucketWindow_other (hown : x.ownBlocks = []) : doBucketWindow s h n =
    if x.g.me.ccnt ≠ 0 ∧ x.r.rop = 0 ∧ ∃ b, b < x.r.nblk ∧ x.k.agreedAt b = none then s.endBucket h n x.k 4 0 else s := by
  obtain ⟨hk, -, -, -⟩ := State.liveRun_eq_some hrun
  rw [doBucketWindow, hk, hrun]
  refine (if_neg (by simp [hown])).trans (if_congr ?_ rfl rfl)
  simp [upto]

end

theorem FMap.find?_of_get {α : Type} {d v : α} {m : FMap α} {k : Nat} (h : FMap.get d m k = v) (hv : v ≠ d) :
    m.find? (fun e => decide (e.1 = k)) = some (k, v) := by
  induction m with
  | nil => exact absurd h.symm hv
  | cons e t ih =>
    obtain ⟨j, w⟩ := e
    rw [FMap.get] at h
    by_cases hj : k = j
    · subst hj
      rw [if_pos rfl] at h
      simp [h]
    · rw [if_neg hj] at h
      rw [List.find?_cons_of_neg (by simpa using Ne.symm hj), ih h]

/-- A bucket that only records have reached. -/
theorem doBucketWindow_unissued {k : Bucket} {g : Group} (hk : (s.engine h).buckets[n]? = some k) (hrun : s.liveRun h n = none)
    (hg : FMap.get none (s.engine h).groups k.gid = some g) : doBucketWindow s h n = (s.sendLate h g.binding g k).endBucket h n k 4 0 := by
  rw [doBucketWindow, hk, hrun]
  dsimp only
  rw [FMap.find?_of_get hg (Option.some_ne_none g)]
  rfl

end

/-! ### WINDOW of a CLOSE (R245) -/

@[simp] theorem State.setGroup_mem (s : State) (h gid : Nat) (g : Group) : (s.setGroup h gid g).mem = s.mem := by
  rw [State.setGroup, State.ctrl, apply_ite State.mem, State.setHalf_mem]
  exact ite_self _

@[simp] theorem State.setGroup_threads (s : State) (h gid : Nat) (g : Group) : (s.setGroup h gid g).threads = s.threads := by
  rw [State.setGroup, State.ctrl, apply_ite State.threads, State.setHalf_threads]
  exact ite_self _

/-- A half that takes a record changes its groups alone. -/
theorem State.engine_setGroup_copied {s : State} {h i : Nat} (hi : i = h ∨ s.linkUp = true) (gid : Nat) (g : Group) :
    (s.setGroup h gid g).engine i = { s.engine i with groups := FMap.set none (s.engine i).groups gid (some g) } := by
  obtain ⟨owes, hhalf⟩ := State.half_ctrl_copied hi
    (fun x => { x with eng := { x.eng with groups := FMap.set none x.eng.groups gid (some g) } })
  rw [State.engine, State.setGroup, hhalf]
  rfl

/-- What the failure of a CLOSE tells the others (R245, R350). -/
def closeFailed (s : State) (b : Nat) (g : Group) (k : CloseRec) : List OutMsg :=
  toMembers b g .verdict (wordAt k.step) 0 (.verdict k.gid k.attempt (.close k.nbkt false g.self))
    (((closers g).filter (· ≠ g.self)) ++ (if s.cellarGid b k.gid then observers g else []))

/-- A CLOSE that fails: the others are told, its record goes, and its epoch is over. -/
def State.failClose (s : State) (h b : Nat) (g : Group) (k : CloseRec) : State :=
  let t := s.setEngine h { s.engine h with
    outbox := (s.engine h).outbox ++ closeFailed s b g k, closes := (s.engine h).closes.filter (fun y => !y.key k.gid k.step k.attempt) }
  if g.epoch = some (k.step, k.attempt) then t.setGroup h k.gid { g with opened := false } else t

section
variable {s : State} {h n : Nat}

theorem doCloseWindow_eq {k : CloseRec} {c : CollCmd} {g : Group} (hk : (s.engine h).closes[n]? = some k) (hcmd : k.cmd = some c)
    (hg : s.group h c.b k.gid = some g) : doCloseWindow s h n = (s.failClose h c.b g k).endColl h c 5 0 := by
  have htell : s.tellClose h c.b g k false = s.hand h (closeFailed s c.b g k) := State.foldl_sendMember _ s h c.b g .verdict _ _ _
  rw [doCloseWindow, hk]
  dsimp only
  rw [hcmd]
  dsimp only
  rw [hg]
  dsimp only
  rw [htell, State.finishClose, State.hand, State.engine_setEngine_same]
  dsimp only
  rw [State.setEngine_setEngine]
  rfl

variable (s h) (b : Nat) (g : Group) (k : CloseRec)

theorem State.failClose_mem : (s.failClose h b g k).mem = s.mem := by
  unfold State.failClose
  dsimp only
  split <;> simp

theorem State.failClose_threads : (s.failClose h b g k).threads = s.threads := by
  unfold State.failClose
  dsimp only
  split <;> simp

theorem State.engine_failClose : ∃ m, (s.failClose h b g k).engine h = { s.engine h with
    groups := m, outbox := (s.engine h).outbox ++ closeFailed s b g k, closes := (s.engine h).closes.filter (fun y => !y.key k.gid k.step k.attempt) } := by
  unfold State.failClose
  dsimp only
  split
  · rw [State.engine_setGroup_copied (.inl rfl), State.engine_setEngine_same]
    exact ⟨_, rfl⟩
  · rw [State.engine_setEngine_same]
    exact ⟨_, rfl⟩

variable {s h}

theorem State.groups_failClose {i : Nat} (hi : i = h ∨ s.linkUp = true) (hepoch : g.epoch = some (k.step, k.attempt)) :
    FMap.get none ((s.failClose h b g k).engine i).groups k.gid = some { g with opened := false } := by
  rw [State.failClose, if_pos hepoch]
  refine State.groups_setGroup_copied (hi.imp_right fun hup => ?_) _ _
  rw [State.linkUp_of_linkSides (State.setEngine_linkSides ..), hup]

end

/-! ### WINDOW of a post and of a `pgather` (R260, R261) -/

section
variable {s : State} {h n : Nat}

theorem doPostWindow_matched {p : Post} (hp : (s.engine h).posts[n]? = some p) (hmatched : p.matched ≠ none) : doPostWindow s h n = s := by
  rw [doPostWindow, hp]
  exact if_pos (Option.isSome_iff_ne_none.mpr hmatched)

theorem doPostWindow_unmatched {p : Post} {g : Group} (hp : (s.engine h).posts[n]? = some p) (hmatched : p.matched = none)
    (hg : s.group h p.cmd.b p.gid = some g) :
    let gone := (s.dropPost h p.id).endColl h p.cmd 4 0
    doPostWindow s h n = if p.cmd.op = .send then gone
      else if p.peer = g.self then { gone with recvs := s.recvs.filter (fun a => a.cmd != p.id) }
      else gone.sendMember h p.cmd.b g p.peer .greq 0 p.id (.greq (.withdraw p.gid g.self p.id)) := by
  intro gone
  have hgroup : gone.group h p.cmd.b p.gid = some g := by
    rw [State.group_endColl, State.dropPost, State.group_setEngine _ (by rfl), hg]
  have hrecvs : gone.recvs = s.recvs := by rw [State.endColl_recvs, State.dropPost, State.setEngine_recvs]
  rw [doPostWindow, hp, ← hrecvs]
  refine (if_neg (by rw [hmatched]; decide)).trans ?_
  dsimp only
  rw [show ((s.dropPost h p.id).endColl h p.cmd stLate 0).group h p.cmd.b p.gid = some g from hgroup]
  rfl

theorem doGatherWindow_eq {x : Gather} (hx : (s.engine h).gathers[n]? = some x) :
    doGatherWindow s h n = if x.live then (s.endGather h x).endColl h x.cmd 4 0 else s := by
  rw [doGatherWindow, hx]
  rfl

theorem State.endGather_eq (x : Gather) : s.endGather h x = s.setEngine h { s.engine h with
    gathers := if x.whole then (s.engine h).gathers.filter (fun y => y.id != x.id)
      else (s.engine h).gathers.map (fun y => if y.id = x.id then { x with live := false } else y) } := by
  unfold State.endGather
  split <;> rfl

end

/-! ### A PUBLISH proceeds (R257) -/

theorem State.closedStep_iff (s : State) (gid step : Nat) :
    s.closedStep gid step = true ↔ (gid, step) ∈ (s.engine 0).closed ∨ (gid, step) ∈ (s.engine 1).closed := by
  rw [State.closedStep, Bool.or_eq_true, List.contains_iff_mem, List.contains_iff_mem]
  rfl

/-- A shard's copy is taken back in both engines. -/
def State.unpublish (s : State) (b gid shard : Nat) : State :=
  [0, 1].foldl (fun s h => s.setEngine h { s.engine h with
    published := (s.engine h).published.filter (fun x => !decide (x.b = b ∧ x.gid = gid ∧ x.shard = shard)) }) s

section
variable (s : State) (b gid shard : Nat)

theorem State.unpublish_mem : (s.unpublish b gid shard).mem = s.mem := by simp [State.unpublish]

theorem State.unpublish_threads : (s.unpublish b gid shard).threads = s.threads := by simp [State.unpublish]

theorem State.engine_unpublish {j : Nat} (hj : j < 2) : (s.unpublish b gid shard).engine j = { s.engine j with
    published := (s.engine j).published.filter (fun x => !decide (x.b = b ∧ x.gid = gid ∧ x.shard = shard)) } := by
  have hj' : j = 0 ∨ j = 1 := by omega
  obtain rfl | rfl := hj' <;> simp [State.unpublish, State.engine_setEngine]

/-- The copy that takes the place of a shard's is the one that is found. -/
theorem State.publishedOf_published {h : Nat} (hh : h < 2) {p : Published} (hp : p.b = b ∧ p.gid = gid ∧ p.shard = shard) :
    ((s.unpublish b gid shard).setEngine h { (s.unpublish b gid shard).engine h with
      published := ((s.unpublish b gid shard).engine h).published ++ [p] }).publishedOf b gid shard = some p := by
  have hgone : ∀ l : List Published, (l.filter (fun x => !decide (x.b = b ∧ x.gid = gid ∧ x.shard = shard))).find?
      (fun x => decide (x.b = b ∧ x.gid = gid ∧ x.shard = shard)) = none := fun l => by
    rw [List.find?_eq_none]
    intro x hx
    rw [Bool.not_eq_true, ← Bool.not_eq_true']
    exact (List.mem_filter.mp hx).2
  have hh' : h = 0 ∨ h = 1 := by omega
  rw [State.publishedOf, List.find?_append, State.engine_setEngine, State.engine_setEngine]
  obtain rfl | rfl := hh'
  · rw [if_pos Iff.rfl, s.engine_unpublish _ _ _ (by omega), List.find?_append, hgone]
    simp [hp]
  · rw [if_neg (by decide), if_pos Iff.rfl, s.engine_unpublish _ _ _ (by omega), s.engine_unpublish _ _ _ (by omega), List.find?_append, hgone, hgone]
    simp [hp]

end

/-- The copy that a PUBLISH record names, before its digest. -/
def CollCmd.copy (c : CollCmd) : Published :=
  ⟨c.b, c.gid, c.shard, c.step, 0, wordAt (c.field 32 8), c.field 40 8, wordAt (c.field 48 8), (publishFlags c).1, (publishFlags c).2, c.core, c.prv⟩

/-- A copy is published with the digest of its bytes. -/
def State.publish (s : State) (h : Nat) (c : CollCmd) (bytes : List Byte) : State :=
  (s.unpublish c.b c.gid c.shard).setEngine h { (s.unpublish c.b c.gid c.shard).engine h with
    published := ((s.unpublish c.b c.gid c.shard).engine h).published ++ [{ c.copy with digest := crc32c bytes }] }

/-- The digest of a copy is taken where it can be read; `s` is the state in which the PUBLISH still waits. -/
def State.takeDigest (s took : State) (h : Nat) (c : CollCmd) (g : Group) : State :=
  match took.readCopy c.copy (copyPieces c.copy (g.parts.getD c.shard ⟨0, 0⟩).elems (publishFlags c).2) with
  | .error e => if e.waits.isSome then s else took.failColl c e false
  | .ok bytes => (took.publish h c bytes).endColl h c 1 0

section
variable {s : State} {h n : Nat} {c : CollCmd} (hc : (s.engine h).publishes[n]? = some c)
include hc

theorem doPublishProceed_open (hopen : s.closedStep c.gid c.step = false) : doPublishProceed s h n = s := by
  rw [doPublishProceed, hc]
  exact if_pos (by rw [hopen]; rfl)

theorem doPublishProceed_closed (hclosed : s.closedStep c.gid c.step = true) {g : Group} (hg : s.group h c.b c.gid = some g) :
    let took := s.setEngine h { s.engine h with publishes := (s.engine h).publishes.eraseIdx n }
    doPublishProceed s h n = if s.copyUpTo c.b c.gid c.shard c.step then took.endColl h c 6 0 else s.takeDigest took h c g := by
  intro took
  have hgroup : took.group h c.b c.gid = some g := by rw [State.group_setEngine _ (by rfl), hg]
  have hpublished : ∀ j, (took.engine j).published = (s.engine j).published := fun j => by
    rw [State.engine_setEngine]
    split
    · next hj => rw [s.engine_eq_of_iff hj]
    · rfl
  have hcopies : took.copyUpTo c.b c.gid c.shard c.step = s.copyUpTo c.b c.gid c.shard c.step := by
    simp only [State.copyUpTo, State.publishedOf, hpublished]
  rw [doPublishProceed, hc, ← hcopies]
  refine (if_neg (by rw [hclosed]; decide)).trans ?_
  dsimp only
  rw [hgroup]
  rfl

end

/-! ### The obligation -/

section
variable {s : State} {h : Nat} (hh : h < 2) (n : Nat)
include hh

theorem exec_bucketDequeue : exec (.bucketDequeue h n) s = .next (doBucketDequeue s h n) := congrArg _ (onHalf_of_lt hh _ _)
theorem exec_bucketWindowExpiry : exec (.bucketWindowExpiry h n) s = .next (doBucketWindow s h n) := congrArg _ (onHalf_of_lt hh _ _)
theorem exec_closeWindowExpiry : exec (.closeWindowExpiry h n) s = .next (doCloseWindow s h n) := congrArg _ (onHalf_of_lt hh _ _)
theorem exec_postWindowExpiry : exec (.postWindowExpiry h n) s = .next (doPostWindow s h n) := congrArg _ (onHalf_of_lt hh _ _)
theorem exec_gatherWindowExpiry : exec (.gatherWindowExpiry h n) s = .next (doGatherWindow s h n) := congrArg _ (onHalf_of_lt hh _ _)
theorem exec_publishProceed : exec (.publishProceed h n) s = .next (doPublishProceed s h n) := congrArg _ (onHalf_of_lt hh _ _)

end

/-- Settles O45: each event by what its operation makes of the engine. -/
theorem collectiveEvents : Obligations.CollectiveEvents := by
  unfold Obligations.CollectiveEvents
  intro s h n hh e late
  rw [exec_bucketDequeue hh, exec_bucketWindowExpiry hh, exec_closeWindowExpiry hh, exec_postWindowExpiry hh, exec_gatherWindowExpiry hh,
    exec_publishProceed hh]
  refine ⟨fun x hrun => ?_, fun k g hk hrun hg => ?_, fun k c g hk hcmd hg => ?_, fun p hp hmatched => congrArg _ (doPostWindow_matched hp hmatched),
    fun p g hp hmatched hg => ?_, fun x hx => ?_, fun c g hc hg => ?_⟩
  · intro active setTo ready
    have hset : ∀ {t : State} {k' : Bucket}, (∃ u, s.ReadFrom u ∧ u.Handed h t) → doBucketDequeue s h n = t.setBucket h n k' →
        k'.cmd = x.k.cmd → k'.heard = x.k.heard → setTo (t.setBucket h n k') k' := by
      rintro t k' ⟨u, hread, hsent⟩ heq hcmd hheard
      obtain ⟨hbuckets, hmem, hthreads⟩ := State.setBucket_handed hread hsent n k'
      exact ⟨congrArg _ heq, hbuckets, hmem, hthreads, hcmd, hheard⟩
    refine ⟨fun hphase => congrArg _ (doBucketDequeue_active hrun hphase), fun hphase hfull => congrArg _ (doBucketDequeue_full hrun hphase hfull),
      fun hready hmis => congrArg _ (doBucketDequeue_mismatch hrun hready.1 hready.2 hmis), fun hready hmatch hread => ?_, fun hown hbegun => ?_,
      fun hown hnone => ?_, fun hown hccnt hrop => ?_⟩
    · obtain ⟨hphase, hroom⟩ := hready
      obtain ⟨cs, hread⟩ := hread
      refine ⟨fun hrop hccnt hblock => ?_, fun hrop hblock => ?_⟩
      · obtain ⟨t, m, a, hsent, heq, hcount, hother⟩ := doBucketDequeue_exponents hrun hphase hroom hmatch hread hrop hccnt hblock
        exact ⟨_, _, hset hsent heq rfl rfl, rfl, hcount, hother⟩
      · obtain ⟨t, m, hsent, heq, hcount⟩ := doBucketDequeue_lanes hrun hphase hroom hmatch hread hrop hblock
        exact ⟨_, _, hset hsent heq rfl rfl, rfl, hcount⟩
    · exact ⟨_, congrArg _ (doBucketWindow_owner hrun hown hbegun), _, rfl, s.sendLate_eq h x.c.b x.g x.k⟩
    · rw [doBucketWindow_other hrun hown, if_neg]
      exact fun ⟨hccnt, hrop, _⟩ => hnone.elim hccnt fun hne => hne hrop
    · rw [doBucketWindow_other hrun hown]
      refine ⟨fun hblock => congrArg _ (if_pos ⟨hccnt, hrop, hblock⟩), fun hall => congrArg _ (if_neg ?_)⟩
      rintro ⟨-, -, b, hb, hnone⟩
      exact absurd (hall b hb) (by rw [hnone]; decide)
  · exact ⟨_, congrArg _ (doBucketWindow_unissued hk hrun hg), _, rfl, s.sendLate_eq h g.binding g k⟩
  · obtain ⟨m, hengine⟩ := s.engine_failClose h c.b g k
    refine ⟨_, congrArg _ (doCloseWindow_eq hk hcmd hg), s.failClose_mem h c.b g k, s.failClose_threads h c.b g k, by rw [hengine], by rw [hengine],
      fun j hj hself => ?_, fun hepoch i _ hcopied => State.groups_failClose c.b g k hcopied hepoch⟩
    rw [hengine]
    exact List.mem_append_right _ (List.mem_map.mpr ⟨j, List.mem_append_left _ (List.mem_filter.mpr ⟨hj, decide_eq_true hself⟩), rfl⟩)
  · intro gone
    rw [doPostWindow_unmatched hp hmatched hg]
    exact ⟨fun hop => congrArg _ (if_pos hop), fun hop hpeer => congrArg _ ((if_neg (by rw [hop]; decide)).trans (if_pos hpeer)),
      fun hop hpeer => congrArg _ ((if_neg (by rw [hop]; decide)).trans (if_neg hpeer))⟩
  · rw [doGatherWindow_eq hx, State.endGather_eq]
    exact ⟨fun hlive => by rw [hlive]; rfl, fun hlive => by rw [hlive]; rfl⟩
  · intro closed took fl p
    have hclosed : closed → s.closedStep c.gid c.step = true := (s.closedStep_iff c.gid c.step).mpr
    have hnew : (∀ q, s.publishedOf c.b c.gid c.shard = some q → q.step < c.step) → s.copyUpTo c.b c.gid c.shard c.step = false := fun hlt => by
      rw [← Bool.not_eq_true, State.copyUpTo_iff]
      exact fun ⟨q, hq, hle⟩ => Nat.not_le.mpr (hlt q hq) hle
    refine ⟨fun hopen => congrArg _ (doPublishProceed_open hc ?_), fun er hcl hlt hread => ?_, fun bytes hcl hlt hread => ?_, fun hcl hpassed => ?_⟩
    · rw [← Bool.not_eq_true, State.closedStep_iff]
      exact hopen
    · rw [doPublishProceed_closed hc (hclosed hcl) hg, hnew hlt, State.takeDigest,
        show State.readCopy _ c.copy (copyPieces c.copy _ _) = _ from hread]
      rfl
    · rw [doPublishProceed_closed hc (hclosed hcl) hg, hnew hlt, State.takeDigest,
        show State.readCopy _ c.copy (copyPieces c.copy _ _) = _ from hread]
      refine ⟨took.publish h c bytes, rfl, ?_, ?_, ?_, took.publishedOf_published c.b c.gid c.shard hh ⟨rfl, rfl, rfl⟩⟩
      · rw [State.publish, State.setEngine_mem, State.unpublish_mem, State.setEngine_mem]
      · rw [State.publish, State.setEngine_threads, State.unpublish_threads, State.setEngine_threads]
      · rw [State.publish, State.engine_setEngine_same, took.engine_unpublish _ _ _ hh, State.engine_setEngine_same]
    · rw [doPublishProceed_closed hc (hclosed hcl) hg, State.copyUpTo_iff.mpr hpassed]
      rfl

end Sys2Proof.Machine
end

section
/-! Packets of other members (O46): acceptance and order, records at a bucket, verdicts, notices and requests (R244, R249, R251, R252, R255, R261, R273, R352). -/

namespace Sys2Proof.Machine

/-! ### Acceptance and order (R272, R273) -/

/-- A packet that has arrived whole and is accepted goes to its engine. -/
theorem State.receive_accepted {s : State} {p : Nat} {k : Packet} {rest : List Packet} (hq : (s.port p).rxQ = k :: rest)
    (hhere : k.hops.length ≤ k.hidx) (hcrc : k.crcOk = true) {pick : State → Nat → Packet → Bool} (hpick : pick s (portHalf p) k = true)
    (haccepts : (s.popRx p).accepts (portHalf p) k = true) (go : State → Nat → Packet → State) :
    s.receive p k.ptype pick go = go (s.popRx p) (portHalf p) k := by
  have harrived : s.arrived p k.ptype = some k := by simp [State.arrived, hq, hhere]
  simp [State.receive, harrived, hpick, hcrc, haccepts]

/-- Packets of the flows between engines are accepted from a partner. -/
theorem State.accepts_of_partner {s : State} {h : Nat} {k : Packet} (htype : k.ptype = .greq ∨ k.ptype = .verdict)
    (hpartner : s.partnerNo h k.dbind k.sdev k.sbind ≠ none) : s.accepts h k = true := by
  have hsome : (s.partnerNo h k.dbind k.sdev k.sbind).isSome = true := Option.isSome_iff_ne_none.mpr hpartner
  unfold State.accepts
  obtain h | h := htype <;> rw [h] <;> exact hsome

/-- Records are accepted for a group that the binding has. -/
theorem State.accepts_of_group {s : State} {h gid : Nat} {k : Packet} {g : Group} (htype : k.ptype = .exp ∨ k.ptype = .lanes)
    (hgid : packetGid k = some gid) (hg : s.group h k.dbind gid = some g) : s.accepts h k = true := by
  have hany : (packetGid k).any (fun g => (s.group h k.dbind g).isSome) = true := by rw [hgid, Option.any_some, hg]; rfl
  unfold State.accepts
  obtain h | h := htype <;> rw [h] <;> exact hany

/-- What a packet in order leaves of its flow. -/
def Flow.took (f : Flow) (k : Packet) : Flow := { f with sinceAck := f.sinceAck + 1, lastPath := k.path, lastCong := k.cong, expPsn := f.expPsn + 1 }

/-- A packet in order is delivered, and nothing that was held follows. -/
theorem State.flowArrive_inOrder {s : State} {h : Nat} {cls : FlowClass} {k : Packet} (hpsn : k.psn = (s.flow ⟨k.dbind, k.sdev, k.sbind, cls⟩).expPsn)
    (hheld : (s.flow ⟨k.dbind, k.sdev, k.sbind, cls⟩).held = []) :
    s.flowArrive h cls k = (s.setFlow ((s.flow ⟨k.dbind, k.sdev, k.sbind, cls⟩).took k)).deliver h k := by
  exact (if_pos hpsn).trans (congrArg (State.drainHeld _ h _) (congrArg List.length hheld))

/-! ### Walks over the blocks of a record -/

/-- A walk over consecutive blocks changes each by its entry, and no other. -/
theorem foldl_zipIdx_read {α γ : Type} {f : Bucket → Nat → α → Bucket} {read : Bucket → Nat → γ} {upd : α → γ → γ}
    (hf : ∀ k j a b, read (f k j a) b = if b = j then upd a (read k j) else read k b) (blk : Nat) (l : List α) (i : Nat) (k : Bucket) (b : Nat) :
    read ((l.zipIdx i).foldl (fun k e => f k (blk + e.2) e.1) k) b =
      if h : blk + i ≤ b ∧ b < blk + i + l.length then upd (l[b - (blk + i)]'(by omega)) (read k b) else read k b := by
  induction l generalizing i k with
  | nil => simp
  | cons a l ih =>
    rw [List.zipIdx_cons, List.foldl_cons, ih, hf]
    by_cases hb : b = blk + i
    · subst hb
      rw [dif_neg (by omega), if_pos rfl, dif_pos (by simp)]
      simp
    · rw [if_neg hb]
      by_cases hin : blk + i ≤ b ∧ b < blk + i + (a :: l).length
      · have hlen : b < blk + (i + 1) + l.length := by rw [List.length_cons] at hin; omega
        have hsub : b - (blk + i) = b - (blk + (i + 1)) + 1 := by omega
        rw [dif_pos ⟨by omega, hlen⟩, dif_pos hin]
        simp only [hsub, List.getElem_cons_succ]
      · rw [dif_neg hin, dif_neg (by rw [List.length_cons] at hin; omega)]

section
variable {blk n : Nat} {k : Bucket} {i : Nat}

theorem Bucket.expOf_foldl_zipIdx {l : List (BitVec 16)} (hi : i < l.length) :
    (l.zipIdx.foldl (fun k e => k.addExp (blk + e.2) e.1 n) k).expOf (blk + i) = (maxExp (k.expOf (blk + i)).1 l[i], (k.expOf (blk + i)).2 + n) := by
  rw [foldl_zipIdx_read (f := fun k j a => k.addExp j a n) (read := Bucket.expOf) (upd := fun a r => (maxExp r.1 a, r.2 + n)) (fun k j a b => k.expOf_addExp n b a j),
    dif_pos (by omega)]
  simp

theorem Bucket.sum_foldl_zipIdx {l : List VxBlock} (hi : i < l.length) :
    (l.zipIdx.foldl (fun k e => k.addLanes (blk + e.2) e.1 n) k).sum (blk + i) = (k.sum (blk + i)).add l[i] n := by
  rw [foldl_zipIdx_read (f := fun k j a => k.addLanes j a n) (read := Bucket.sum) (upd := fun a r => r.add a n) (fun k j a b => k.sum_addLanes n b a j),
    dif_pos (by omega)]
  simp

theorem Bucket.agreedAt_foldl_zipIdx (l : List (BitVec 16)) (k : Bucket) (b : Nat) : (l.zipIdx.foldl (fun k e => k.setAgreed (blk + e.2) e.1) k).agreedAt b =
    if h : blk ≤ b ∧ b < blk + l.length then some (l[b - blk]'(by omega)) else k.agreedAt b :=
  foldl_zipIdx_read (f := fun k j a => k.setAgreed j a) (read := Bucket.agreedAt) (upd := fun a _ => some a) (fun k j a b => k.agreedAt_setAgreed b a j) blk l 0 k b

end

/-- The first lanes of a block (R95): with residues they stand as they came, without them side by side. -/
theorem SumBlock.empty_add (v : VxBlock) (n : Nat) : SumBlock.empty.add v n = ⟨v.lanes, v.res, v.nanf, n⟩ ∨
    (v.res = [] ∧ (SumBlock.empty.add v n).lanes = v.lanes ∧ (SumBlock.empty.add v n).ncon = n) := by
  by_cases hres : v.res = []
  · exact .inr ⟨hres, by simp [SumBlock.add, SumBlock.empty, hres], by simp [SumBlock.add, SumBlock.empty, hres]⟩
  · exact .inl (by simp [SumBlock.add, SumBlock.empty, hres])

/-! ### Records at an engine (R244, R249, R252) -/

theorem State.recordLive_iff (s : State) (g : Group) (gid step attempt bseq : Nat) : s.recordLive g gid step attempt bseq = true ↔
    g.opened = true ∧ g.epoch = some (step, attempt) ∧ s.endedStatus gid step attempt bseq = none := by
  rw [State.recordLive, Bool.and_eq_true, Group.isOpen_iff, Option.isNone_iff_eq_none, and_assoc]

section
variable {s : State} {h b : Nat} {g : Group} {gid step attempt bseq : Nat}

/-- A state with no bucket at this member finds none. -/
theorem State.findBucket_fresh (h0 : (s.engine 0).buckets = []) (h1 : (s.engine 1).buckets = []) : s.findBucket gid step attempt bseq = none := by
  rw [State.findBucket, h0, h1]
  rfl

theorem State.buckets_fresh (h0 : (s.engine 0).buckets = []) (h1 : (s.engine 1).buckets = []) (j : Nat) : (s.engine j).buckets = [] := by
  by_cases hj : j = 0
  · rw [hj, h0]
  · rw [s.engine_eq_of_iff (show j = 0 ↔ 1 = 0 by omega), h1]

/-- The only bucket of this member is found in its engine. -/
theorem State.findBucket_only {k : Bucket} (hh : h < 2) (honly : (s.engine h).buckets = [k]) (hfar : (s.engine (1 - h)).buckets = [])
    (hkey : k.key gid step attempt bseq = true) : s.findBucket gid step attempt bseq = some (h, 0) := by
  have hh' : h = 0 ∨ h = 1 := by omega
  obtain rfl | rfl := hh'
  · simp [State.findBucket, honly, List.findIdx?_cons, hkey]
  · simp [State.findBucket, honly, hfar, List.findIdx?_cons, hkey]

/-- A bucket put in the place of an engine's only one. -/
theorem State.setBucket_only (k k' : Bucket) : (s.setEngine h { s.engine h with buckets := [k] }).setBucket h 0 k' =
    s.setEngine h { s.engine h with buckets := [k'] } := by
  rw [State.setBucket, State.engine_setEngine_same, State.setEngine_setEngine]
  rfl

/-- A bucket that this member has not issued does not run. -/
theorem State.liveRun_put {k : Bucket} (hcmd : k.cmd = none) : (s.setEngine h { s.engine h with buckets := [k] }).liveRun h 0 = none := by
  rw [State.liveRun, State.engine_setEngine_same]
  simp [hcmd]

theorem State.moveBucket_put {k : Bucket} (hcmd : k.cmd = none) :
    (s.setEngine h { s.engine h with buckets := [k] }).moveBucket h 0 = s.setEngine h { s.engine h with buckets := [k] } := by
  rw [State.moveBucket, State.liveRun_put hcmd]

/-- The bucket that a first record makes. -/
theorem State.bucketFor_fresh (h0 : (s.engine 0).buckets = []) (h1 : (s.engine 1).buckets = []) :
    s.bucketFor h gid step attempt bseq = (h, 0, Bucket.placeholder gid step attempt bseq,
      s.setEngine h { s.engine h with buckets := [Bucket.placeholder gid step attempt bseq] }) := by
  rw [State.bucketFor, State.findBucket_fresh h0 h1, State.buckets_fresh h0 h1]
  rfl

/-- A verdict on a bucket of another pair is dropped and counted (R244). -/
theorem State.onBucketVerdict_dead (hdead : s.recordLive g gid step attempt bseq = false) (status : Nat) :
    s.onBucketVerdict h b g gid step attempt bseq status = s.countDrop h b := if_pos (by rw [hdead]; rfl)

/-- A verdict on a bucket that nothing has reached is remembered (R244, R255). -/
theorem State.onBucketVerdict_fresh (hlive : s.recordLive g gid step attempt bseq = true) (h0 : (s.engine 0).buckets = [])
    (h1 : (s.engine 1).buckets = []) (status : Nat) : s.onBucketVerdict h b g gid step attempt bseq status =
      s.setEngine h { s.engine h with ended := ⟨gid, step, attempt, bseq, status⟩ :: (s.engine h).ended } := by
  refine (if_neg (by rw [hlive]; decide)).trans ?_
  rw [State.findBucket_fresh h0 h1]

end

section
variable {s : State} {h b : Nat} {g : Group} {sub : SubHdr} {step bseq : Nat}

section
variable (hdead : s.recordLive g sub.gid step sub.attempt bseq = false)
include hdead

theorem State.onExp_dead (sender : Option Nat) (cfg : BucketCfg) (l : List (BitVec 16)) :
    s.onExp h b g sender sub step bseq cfg l = s.countDrop h b := if_pos (by rw [hdead]; rfl)

theorem State.onAgreed_dead (l : List (BitVec 16)) : s.onAgreed h b g sub step bseq l = s.countDrop h b := if_pos (by rw [hdead]; rfl)

theorem State.onLanes_dead (sender : Option Nat) (l : List VxBlock) : s.onLanes h b g sender sub step bseq l = s.countDrop h b :=
  if_pos (by rw [hdead]; rfl)

end

variable (hlive : s.recordLive g sub.gid step sub.attempt bseq = true)
include hlive

section
variable (h0 : (s.engine 0).buckets = []) (h1 : (s.engine 1).buckets = [])
include h0 h1

/-- Agreed exponents of a bucket that this member does not have are dropped and counted. -/
theorem State.onAgreed_fresh (l : List (BitVec 16)) : s.onAgreed h b g sub step bseq l = s.countDrop h b := by
  refine (if_neg (by rw [hlive]; decide)).trans ?_
  rw [State.findBucket_fresh h0 h1]

section
variable {sender : Option Nat} {heard : List Nat} (hheard : addHeard [] sender = heard)
include hheard

theorem State.onExp_fresh (cfg : BucketCfg) (l : List (BitVec 16)) : s.onExp h b g sender sub step bseq cfg l =
    s.setEngine h { s.engine h with buckets := [l.zipIdx.foldl (fun k e => k.addExp (sub.blk + e.2) e.1 sub.ncon)
      { Bucket.placeholder sub.gid step sub.attempt bseq with heard := heard, cfgs := [cfg] }] } := by
  subst heard
  obtain ⟨m, hm⟩ := Bucket.foldl_addExp_eq l.zipIdx
    { Bucket.placeholder sub.gid step sub.attempt bseq with heard := addHeard [] sender, cfgs := [cfg] } sub.ncon (fun e => sub.blk + e.2) (·.1)
  refine (if_neg (by rw [hlive]; decide)).trans ?_
  rw [State.bucketFor_fresh h0 h1]
  dsimp only
  rw [State.setBucket_only, State.liveRun_put]
  · rfl
  · exact congrArg Bucket.cmd hm

theorem State.onLanes_fresh (l : List VxBlock) : s.onLanes h b g sender sub step bseq l =
    s.setEngine h { s.engine h with buckets := [l.zipIdx.foldl (fun k e => k.addLanes (sub.blk + e.2) e.1 sub.ncon)
      { Bucket.placeholder sub.gid step sub.attempt bseq with heard := heard }] } := by
  subst heard
  obtain ⟨m, hm⟩ := Bucket.foldl_addLanes_eq l.zipIdx
    { Bucket.placeholder sub.gid step sub.attempt bseq with heard := addHeard [] sender } sub.ncon (fun e => sub.blk + e.2) (·.1)
  refine (if_neg (by rw [hlive]; decide)).trans ?_
  rw [State.bucketFor_fresh h0 h1]
  dsimp only
  rw [State.setBucket_only]
  exact State.moveBucket_put (congrArg Bucket.cmd hm)

end

end

theorem State.onAgreed_known {k : Bucket} (hh : h < 2) (honly : (s.engine h).buckets = [k]) (hfar : (s.engine (1 - h)).buckets = [])
    (hcmd : k.cmd = none) (hkey : k.key sub.gid step sub.attempt bseq = true) (l : List (BitVec 16)) : s.onAgreed h b g sub step bseq l =
      s.setEngine h { s.engine h with buckets := [l.zipIdx.foldl (fun k e => k.setAgreed (sub.blk + e.2) e.1) k] } := by
  obtain ⟨m, hm⟩ := Bucket.foldl_setAgreed_eq l.zipIdx k (fun e => sub.blk + e.2) (·.1)
  refine (if_neg (by rw [hlive]; decide)).trans ?_
  rw [State.findBucket_only hh honly hfar hkey]
  have hput (k' : Bucket) : s.setBucket h 0 k' = s.setEngine h { s.engine h with buckets := [k'] } := by rw [State.setBucket, honly]; rfl
  dsimp only
  rw [honly]
  refine (congrArg (State.moveBucket · h 0) (hput _)).trans (State.moveBucket_put ?_)
  exact (congrArg Bucket.cmd hm).trans hcmd

end

end Sys2Proof.Machine
end

section
/-! What another member's packet does (O46), one equation for each kind of packet, and the obligation. -/

namespace Sys2Proof.Machine

theorem State.group_popRx {s : State} {p : Nat} {k : Packet} {rest : List Packet} (hq : (s.port p).rxQ = k :: rest) :
    (s.popRx p).group = s.group := by
  rw [State.popRx_cons hq]
  rfl

theorem State.onVerdict_bucket {s : State} {h : Nat} {k : Packet} {g : Group} {gid attempt status : Nat} (hg : s.group h k.dbind gid = some g) :
    s.onVerdict h k gid attempt (.bucket status) = s.onBucketVerdict h k.dbind g gid k.rw2.toNat attempt k.xtag.toNat status := by
  rw [State.onVerdict, hg]

/-- A receive that another member announces while nothing is posted here is kept. -/
theorem State.deliver_recv {s : State} {h : Nat} {k : Packet} {gid member tag bytes cmd : Nat} (htype : k.ptype = .greq)
    (hbody : k.body = .greq (.recv gid member tag bytes cmd)) (hpartner : s.partnerNo h k.dbind k.sdev k.sbind ≠ none)
    (h0 : (s.engine 0).posts = []) (h1 : (s.engine 1).posts = []) :
    s.deliver h k = { s with recvs := s.recvs ++ [⟨k.dbind, gid, member, tag, bytes, cmd⟩] } := by
  obtain ⟨n, hn⟩ := Option.ne_none_iff_exists'.mp hpartner
  rw [State.deliver, htype, hbody]
  dsimp only
  rw [hn]
  refine State.matchPosts_of_no_sends fun i hi q hmem => ?_
  have hmem : q ∈ (s.engine i).posts := hmem
  have hi' : i = 0 ∨ i = 1 := by omega
  obtain rfl | rfl := hi'
  · exact absurd (h0 ▸ hmem) List.not_mem_nil
  · exact absurd (h1 ▸ hmem) List.not_mem_nil

section
variable {s : State} {p : Nat} {k : Packet} {rest : List Packet} (hq : (s.port p).rxQ = k :: rest) (hhere : k.hops.length ≤ k.hidx) (hcrc : k.crcOk = true)
include hq hhere hcrc

/-! ### Records of a group -/

section
variable {g : Group} {sub : SubHdr} (hg : s.group (portHalf p) k.dbind sub.gid = some g)
include hg

section
variable {crc : BitVec 32} {elems rop : Nat} {l : List (BitVec 16)} (htype : k.ptype = .exp) (hbody : k.body = .exps sub crc elems rop l)
include htype hbody

theorem exec_expReceive (howner : sub.owner = g.self) : exec (.expReceive p) s =
    .next ((s.popRx p).onExp (portHalf p) k.dbind g (s.memberOf (portHalf p) k.dbind g k.sdev k.sbind) sub k.rw2.toNat k.xtag.toNat ⟨elems, rop, crc, 0⟩ l) := by
  have hpop : (s.popRx p).group (portHalf p) k.dbind sub.gid = some g := by rw [State.group_popRx hq, hg]
  show Host.Outcome.next (doExpReceive s p) = _
  rw [doExpReceive, ← htype, State.receive_accepted hq hhere hcrc (by simp [toOwner, hbody, hg, howner])
    (State.accepts_of_group (.inl htype) (by rw [packetGid, hbody]) hpop), hbody]
  dsimp only
  rw [hpop, State.popRx_cons hq]
  rfl

theorem exec_agreedExponentReceive (howner : sub.owner ≠ g.self) : exec (.agreedExponentReceive p) s =
    .next ((s.popRx p).onAgreed (portHalf p) k.dbind g sub k.rw2.toNat k.xtag.toNat l) := by
  have hpop : (s.popRx p).group (portHalf p) k.dbind sub.gid = some g := by rw [State.group_popRx hq, hg]
  show Host.Outcome.next (doAgreedReceive s p) = _
  rw [doAgreedReceive, ← htype, State.receive_accepted hq hhere hcrc (by simp [toOwner, hbody, hg, howner])
    (State.accepts_of_group (.inl htype) (by rw [packetGid, hbody]) hpop), hbody]
  dsimp only
  rw [hpop]

end

theorem exec_lanesReceive {l : List VxBlock} (htype : k.ptype = .lanes) (hbody : k.body = .lanes sub l) : exec (.lanesReceive p) s =
    .next ((s.popRx p).onLanes (portHalf p) k.dbind g (s.memberOf (portHalf p) k.dbind g k.sdev k.sbind) sub k.rw2.toNat k.xtag.toNat l) := by
  have hpop : (s.popRx p).group (portHalf p) k.dbind sub.gid = some g := by rw [State.group_popRx hq, hg]
  show Host.Outcome.next (doLanesReceive s p) = _
  rw [doLanesReceive, ← htype, State.receive_accepted hq hhere hcrc rfl
    (State.accepts_of_group (.inr htype) (by rw [packetGid, hbody]) hpop), hbody]
  dsimp only
  rw [hpop, State.popRx_cons hq]
  rfl

end

/-! ### Packets of a flow -/

section
variable (hpartner : s.partnerNo (portHalf p) k.dbind k.sdev k.sbind ≠ none)
include hpartner

/-- A packet in order from a partner is handed to its engine. -/
theorem State.receive_flow {cls : FlowClass} (htype : k.ptype = .greq ∨ k.ptype = .verdict) {pick : State → Nat → Packet → Bool}
    (hpick : pick s (portHalf p) k = true) (hpsn : k.psn = (s.flow ⟨k.dbind, k.sdev, k.sbind, cls⟩).expPsn)
    (hheld : (s.flow ⟨k.dbind, k.sdev, k.sbind, cls⟩).held = []) : s.receive p k.ptype pick (fun s h k => s.flowArrive h cls k) =
      ((s.popRx p).setFlow ((s.flow ⟨k.dbind, k.sdev, k.sbind, cls⟩).took k)).deliver (portHalf p) k := by
  have hflow : (s.popRx p).flow = s.flow := by rw [State.popRx_cons hq]; rfl
  have haccepts : (s.popRx p).accepts (portHalf p) k = true :=
    State.accepts_of_partner htype (by rw [State.popRx_cons hq]; exact hpartner)
  rw [State.receive_accepted hq hhere hcrc hpick haccepts, State.flowArrive_inOrder (by rw [hflow]; exact hpsn) (by rw [hflow]; exact hheld), hflow]

section
variable {gid attempt : Nat} {v : Verdict} (htype : k.ptype = .verdict) (hbody : k.body = .verdict gid attempt v)
  (hpsn : k.psn = (s.flow ⟨k.dbind, k.sdev, k.sbind, .verdict⟩).expPsn) (hheld : (s.flow ⟨k.dbind, k.sdev, k.sbind, .verdict⟩).held = [])
include htype hbody hpsn hheld

theorem exec_verdictReceive (hv : isNotice k.body = false) : exec (.verdictReceive p) s =
    .next (((s.popRx p).setFlow ((s.flow ⟨k.dbind, k.sdev, k.sbind, .verdict⟩).took k)).onVerdict (portHalf p) k gid attempt v) := by
  show Host.Outcome.next (doVerdictReceive s p) = _
  rw [doVerdictReceive, ← htype, State.receive_flow hq hhere hcrc hpartner (.inr htype) (by rw [isRollback, hv]; rfl) hpsn hheld, State.deliver, htype, hbody]

theorem exec_rollbackNoticeReceive (hv : isNotice k.body = true) : exec (.rollbackNoticeReceive p) s =
    .next (((s.popRx p).setFlow ((s.flow ⟨k.dbind, k.sdev, k.sbind, .verdict⟩).took k)).onVerdict (portHalf p) k gid attempt v) := by
  show Host.Outcome.next (doRollbackReceive s p) = _
  rw [doRollbackReceive, ← htype, State.receive_flow hq hhere hcrc hpartner (.inr htype) (by rw [isRollback, hv]) hpsn hheld, State.deliver, htype, hbody]

end

theorem exec_greqReceive_recv {gid member tag bytes cmd : Nat} (htype : k.ptype = .greq) (hbody : k.body = .greq (.recv gid member tag bytes cmd))
    (hpsn : k.psn = (s.flow ⟨k.dbind, k.sdev, k.sbind, .dataGreq⟩).expPsn) (hheld : (s.flow ⟨k.dbind, k.sdev, k.sbind, .dataGreq⟩).held = [])
    (h0 : (s.engine 0).posts = []) (h1 : (s.engine 1).posts = []) : exec (.greqReceive p) s =
      .next { (s.popRx p).setFlow ((s.flow ⟨k.dbind, k.sdev, k.sbind, .dataGreq⟩).took k) with recvs := s.recvs ++ [⟨k.dbind, gid, member, tag, bytes, cmd⟩] } := by
  show Host.Outcome.next (s.receive p .greq anyPacket (fun s h k => s.flowArrive h .dataGreq k)) = _
  rw [← htype, State.receive_flow hq hhere hcrc hpartner (.inl htype) rfl hpsn hheld, State.popRx_cons hq]
  exact congrArg Host.Outcome.next (State.deliver_recv htype hbody hpartner h0 h1)

end

end

/-- A binding that runs is stopped (R352). -/
theorem State.phase_stopBinding_running {s : State} {b : Nat} (h : (s.binding b).stop = false) : ((s.stopBinding b).binding b).phase = .stopped := by
  obtain ⟨_, _, heq⟩ := (State.enginesDiffer_notifyRollback
    ((s.haltBinding b).setBinding b { ((s.haltBinding b).binding b).abandon with stop := true, phase := .stopped }) b).rest
  rw [State.stopBinding_running h, heq]
  show (((s.haltBinding b).setBinding b _).binding b).phase = _
  rw [State.binding_setBinding_same]

section
variable {β : Type} (l : List β) (k : Bucket) (n : Nat) (key : β → Nat)

theorem Bucket.foldl_addExp_self (e : β → BitVec 16) : l.foldl (fun k x => k.addExp (key x) (e x) n) k =
    { k with expIn := (l.foldl (fun k x => k.addExp (key x) (e x) n) k).expIn } := by
  obtain ⟨m, hm⟩ := Bucket.foldl_addExp_eq l k n key e
  rw [hm]

theorem Bucket.foldl_addLanes_self (v : β → VxBlock) : l.foldl (fun k x => k.addLanes (key x) (v x) n) k =
    { k with sums := (l.foldl (fun k x => k.addLanes (key x) (v x) n) k).sums } := by
  obtain ⟨m, hm⟩ := Bucket.foldl_addLanes_eq l k n key v
  rw [hm]

theorem Bucket.foldl_setAgreed_self (e : β → BitVec 16) : l.foldl (fun k x => k.setAgreed (key x) (e x)) k =
    { k with agreed := (l.foldl (fun k x => k.setAgreed (key x) (e x)) k).agreed } := by
  obtain ⟨m, hm⟩ := Bucket.foldl_setAgreed_eq l k key e
  rw [hm]

end

/-- Settles O46: `receive` hands each accepted packet to its engine's rule, and `recordLive` is the statement's `live`. A record that is not live counts one
drop; at a member that has no bucket of it, a live one is the walk of its blocks over a placeholder. -/
theorem collectiveReceives : Obligations.CollectiveReceives := by
  unfold Obligations.CollectiveReceives
  intro s p k rest g sub crc elems rop h popped step bseq live dropped e fresh new sender heard blank key f inOrder seen grouped hp hq hhere hcrc
  have hh : h < 2 := by
    show portHalf p < 2
    rw [portHalf, if_pos hp]
    omega
  have hpop : s.popRx p = popped := State.popRx_cons hq
  have hheard : addHeard [] sender = heard := by
    show addHeard [] sender = match sender with | some m => [m] | none => []
    cases sender <;> rfl
  have hopen {a : Nat} (hl : live a) : popped.recordLive g sub.gid step a bseq = true := (popped.recordLive_iff g sub.gid step a bseq).mpr hl
  have hshut {a : Nat} (hn : ¬ live a) : popped.recordLive g sub.gid step a bseq = false :=
    Bool.eq_false_iff.mpr fun ho => hn ((popped.recordLive_iff g sub.gid step a bseq).mp ho)
  refine ⟨fun l hg htype hbody => ⟨fun howner => ?_, fun howner => ?_⟩, fun l hg htype hbody => ?_, fun attempt st hg htype hbody hin => ?_,
    fun gid attempt m htype hbody hin hrun => ?_, fun gid member tag bytes cmd htype hbody hpsn hheld hpartner h0 h1 => ?_⟩
  · rw [exec_expReceive hq hhere hcrc hg htype hbody howner, hpop]
    refine ⟨fun hn => congrArg Host.Outcome.next (State.onExp_dead (hshut hn) ..), fun hl hf => ⟨_, congrArg Host.Outcome.next
      (State.onExp_fresh (hopen hl) hf.1 hf.2 hheard ..), Bucket.foldl_addExp_self .., fun i hi => ?_⟩⟩
    rw [Bucket.expOf_foldl_zipIdx hi]
    exact ⟨Nat.zero_add _, rfl⟩
  · rw [exec_agreedExponentReceive hq hhere hcrc hg htype hbody howner, hpop]
    refine ⟨fun hn => congrArg Host.Outcome.next (State.onAgreed_dead (hshut hn) ..), fun hl hf => congrArg Host.Outcome.next
      (State.onAgreed_fresh (hopen hl) hf.1 hf.2 ..), fun kk hl honly hfar hcmd hkey => ⟨_, congrArg Host.Outcome.next
      (State.onAgreed_known (hopen hl) hh honly hfar hcmd hkey ..), Bucket.foldl_setAgreed_self .., fun i hi => ?_, fun b hb => ?_⟩⟩
    · rw [Bucket.agreedAt_foldl_zipIdx, dif_pos (by omega)]
      simp
    · rw [Bucket.agreedAt_foldl_zipIdx, dif_neg (by omega)]
  · rw [exec_lanesReceive hq hhere hcrc hg htype hbody, hpop]
    refine ⟨fun hn => congrArg Host.Outcome.next (State.onLanes_dead (hshut hn) ..), fun hl hf => ⟨_, congrArg Host.Outcome.next
      (State.onLanes_fresh (hopen hl) hf.1 hf.2 hheard ..), Bucket.foldl_addLanes_self .., fun i hi => ?_⟩⟩
    rw [Bucket.sum_foldl_zipIdx hi]
    exact SumBlock.empty_add _ _
  · obtain ⟨hpsn, hheld, hpartner⟩ := hin
    rw [exec_verdictReceive hq hhere hcrc hpartner htype hbody hpsn hheld (by rw [hbody]; rfl), hpop]
    have hbucket := State.onVerdict_bucket (s := seen) (h := h) (attempt := attempt) (status := st) hg
    exact ⟨fun hn => congrArg Host.Outcome.next (hbucket.trans (State.onBucketVerdict_dead (s := seen) (hshut hn) _)),
      fun hl hf => congrArg Host.Outcome.next (hbucket.trans (State.onBucketVerdict_fresh (s := seen) (hopen hl) hf.1 hf.2 _))⟩
  · obtain ⟨hpsn, hheld, hpartner⟩ := hin
    refine ⟨_, exec_rollbackNoticeReceive hq hhere hcrc hpartner htype hbody hpsn hheld (by rw [hbody]; rfl), ?_⟩
    rw [hpop]
    have hseen : (State.binding seen k.dbind).stop = false := hrun
    refine ⟨State.stop_stopBinding seen _, State.phase_stopBinding_running hseen, fun t ht => ?_,
      fun t ht => State.thread_stopBinding_other seen ht, State.stopBinding_mem seen _⟩
    exact (congrArg Thread.run (State.thread_stopBinding_running hseen t)).trans (State.run_haltBinding ht)
  · rw [exec_greqReceive_recv hq hhere hcrc hpartner htype hbody hpsn hheld h0 h1, hpop]
    rfl

end Sys2Proof.Machine
end

section
/-! SUPPORT. Ports and flows: a port with nothing to send, the flit it sends, a port that is not UP beside a beacon, and reading a flow back
(R266, R268, R272, R286). -/

namespace Sys2Proof.Machine

/-! ### What a port sends (R266, R268) -/

/-- The ECRC of a packet does not cover itself. -/
@[simp] theorem Packet.crcOk_sealed (k : Packet) : k.sealed.crcOk = true := beq_self_eq_true k.crc

/-- A port with an empty output queue has nothing to send. -/
theorem Port.pump_of_outQ_nil {x : Port} (hout : x.outQ = []) : x.pump = x := by
  have hchoose : x.choose = (x, []) := by
    obtain ⟨⟩ := x
    subst hout
    rfl
  have hnone : cdiv (contentOf []) 240 = 0 := by decide
  rw [Port.pump, hchoose, hnone]
  rfl

/-- A flit takes the next SEQ, acknowledges, carries the NAK that is due, and stays for a replay. -/
theorem Port.sendFlit_eq (x : Port) (content : List Byte) : ∃ (g : Flit) (m : FMap Nat),
    x.sendFlit content = { x with txSeq := x.txSeq + 1, nakDue := false, owed := m, replayBuf := x.replayBuf ++ [g], wire := x.wire ++ [g] } ∧
      g.seq = x.txSeq ∧ g.ack = x.rxSeq - 1 ∧ g.nak = x.nakDue ∧ g.content = content ++ List.replicate (240 - content.length) 0#8 :=
  ⟨_, _, rfl, rfl, rfl, rfl, rfl⟩

/-- A packet that a port with an empty queue can send goes out whole, in one flit where it fits one. -/
theorem Port.pump_lone {x : Port} {k : Packet} (hout : x.outQ = []) (hsends : Port.sendsNow { x with outQ := [] } [] k = true)
    (hone : cdiv (packetContent k) 240 = 1) (hfit : k.bytes.length ≤ 240) :
    Port.pump { x with outQ := x.outQ ++ [k] } =
      Port.sendFlit { x with outQ := [], credits := FMap.set 0 x.credits (packetVc k) (x.credit (packetVc k) - packetUnits k) } k.bytes := by
  have hlen : contentOf [k] = packetContent k := Nat.zero_add _
  have htake : (([k].map Packet.bytes).flatten.drop (240 * 0)).take 240 = k.bytes := by simpa using hfit
  have hchoose := Port.choose_lone (x := { x with outQ := x.outQ ++ [k] }) (by rw [hout]; rfl) hsends
  simp only [Port.pump, hchoose, hlen, hone, Port.sendBytes, upto, List.range_one, List.foldl_cons, List.foldl_nil, htake]
  rfl

/-! ### A port that is not UP (R286) -/

/-- No beacon goes out of a port that is not UP. -/
theorem State.port_floodBeacon_of_not_up {s : State} {p : Nat} (hdown : (s.port p).state ≠ .up) (h : Nat) (q : Packet) (fromPort : Nat) :
    (s.floodBeacon h q fromPort).port p = s.port p := by
  obtain hq | hq := Nat.lt_or_ge q.hidx 15
  · rw [State.floodBeacon_eq_foldl s h fromPort hq]
    refine List.foldlRecOn (motive := fun t : State => t.port p = s.port p) _ _ rfl fun t ht i _ => ?_
    by_cases hi : p = i
    · subst hi
      rw [State.port_carryBeacon_same, if_neg fun hc => hdown (ht ▸ hc.2.1), ht]
    · rw [State.port_carryBeacon_other t hi, ht]
  · rw [State.floodBeacon_spent s h fromPort hq]

theorem State.port_originate_of_not_up {s : State} {p : Nat} (hdown : (s.port p).state ≠ .up) (h : Nat) (k : BeaconKey) :
    (s.originate h k).port p = s.port p := by
  have hirq (t : State) (d : BitVec 20) : (t.beaconIrq d).port p = t.port p := congrArg (FMap.get Port.reset · p) (t.beaconIrq_ports d)
  have hflood (x : Half) (q : Packet) : ((s.setHalf h x).floodBeacon h q 24).port p = s.port p := by
    rw [State.port_floodBeacon_of_not_up (by rwa [State.port_setHalf]), State.port_setHalf]
  unfold State.originate State.enterBeacon
  dsimp only
  split
  · rw [State.port_setHalf]
  · split
    · rw [State.port_setHalf, State.port_setHalf]
    · split
      · rw [hirq, hflood]
      · rw [hflood]

/-! ### A port written twice -/

theorem State.setPort_setPort_of_ne {x : Port} (hx : x ≠ Port.reset) (s : State) (p : Nat) (y : Port) :
    (s.setPort p x).setPort p y = s.setPort p y := by
  simp only [State.setPort, FMap.set_set_of_ne hx]

/-! ### Flows (R272) -/

theorem State.key_flow (s : State) (k : FlowKey) : (s.flow k).key = k := by
  unfold State.flow
  cases hfound : s.flows.find? (fun f => decide (f.key = k)) with
  | none => rfl
  | some f =>
    have hkey := List.find?_some hfound
    exact of_decide_eq_true hkey

/-- The flow that was written is the one that its key finds. -/
theorem State.flow_setFlow_same (s : State) {f : Flow} {k : FlowKey} (hk : f.key = k) : (s.setFlow f).flow k = f := by
  subst hk
  have hreplaced (l : List Flow) (hany : l.any (fun g => g.key = f.key) = true) :
      (l.map (fun g => if g.key = f.key then f else g)).find? (fun g => decide (g.key = f.key)) = some f := by
    induction l with
    | nil => cases hany
    | cons g l ih =>
      by_cases hg : g.key = f.key
      · simp [hg]
      · rw [List.map_cons, if_neg hg, List.find?_cons_of_neg (by simpa using hg)]
        exact ih (by simpa [hg] using hany)
  unfold State.flow State.setFlow
  dsimp only
  split
  · next hany => rw [hreplaced _ hany]; rfl
  · next hnone =>
    rw [List.find?_append, List.find?_eq_none.mpr fun g hg => by
      simpa using fun he => hnone (List.any_eq_true.mpr ⟨g, hg, decide_eq_true he⟩)]
    simp

end Sys2Proof.Machine
end

section
/-! Flits of a port (O29): what a flit that arrives does to its port, by whether it is good and in order, and the rotation of lanes
(R266, R268-R270, R304). -/

namespace Sys2Proof.Machine

/-! ### A flit that is not taken (R268, R270; log 132) -/

/-- The times of replays within a second that a lane counts, once one more is counted (R270; log 91). -/
def State.replayTimes (s : State) (p lane : Nat) : List Nat :=
  within1s (FMap.get [] (s.port p).laneErr lane) (s.half (portHalf p)).time.toNat

/-- A port that has answered a flit of this lane with a NAK. -/
def State.nakked (s : State) (p lane : Nat) : Port :=
  Port.sendNak { s.port p with laneErr := FMap.set [] (s.port p).laneErr lane (s.replayTimes p lane) }

theorem length_within1s_le (l : List Nat) (now : Nat) : (within1s l now).length ≤ l.length + 1 := by
  rw [within1s, List.length_append]
  exact Nat.succ_le_succ (List.length_filter_le _ _)

theorem length_within1s_of_recent {l : List Nat} {now : Nat} (h : ∀ t ∈ l, now < t + aonSecond) : (within1s l now).length = l.length + 1 := by
  rw [within1s, List.filter_eq_self.mpr fun t ht => decide_eq_true (h t ht), List.length_append, List.length_singleton]

/-- A failed lane takes its port out of service, and leaves the mask of active lanes. -/
theorem State.port_failLane (s : State) (p lane : Nat) : (s.failLane p lane).port p =
    { s.port p with state := .failed, retraining := false, tries := 0, lfail := satAdd (s.port p).lfail 1,
                    lmask := (s.port p).lmask &&& ~~~(BitVec.ofNat 5 (2 ^ lane)) } := by
  unfold State.failLane
  dsimp only
  rw [State.port_originate_of_not_up, State.port_setHalf, State.port_setPort_same]
  rw [State.port_setHalf, State.port_setPort_same]
  exact PortState.noConfusion

section
variable {s : State} {p : Nat} {f : Flit} (hp : p < 24) (htrained : (s.port p).trained = true) (hidle : (s.port p).retraining = false)
include hp htrained hidle

theorem doFabricFlit_bad (hcrc : f.crcOk = false) (hasked : (s.port p).awaiting = false ∨ f.seq = (s.port p).rxSeq) :
    doFabricFlit s p f =
      if 16 ≤ (s.replayTimes p f.lane).length then (s.setPort p (s.nakked p f.lane)).failLane p f.lane else s.setPort p (s.nakked p f.lane) := by
  have hgo : ((s.port p).awaiting && f.seq != (s.port p).rxSeq) = false := by
    obtain h | h := hasked <;> simp [h]
  rw [doFabricFlit]
  dsimp only
  rw [if_neg (by simp [htrained, hidle, hp]), if_pos (by simp [hcrc]), if_neg (by simp [hgo])]
  rfl

omit hp in
theorem doFabricFlit_bad_awaiting (hcrc : f.crcOk = false) (hwait : (s.port p).awaiting = true) (hseq : f.seq ≠ (s.port p).rxSeq) :
    doFabricFlit s p f = s := by
  simp [doFabricFlit, htrained, hidle, hcrc, hwait, hseq]

theorem doFabricFlit_outOfOrder (hcrc : f.crcOk = true) (hseq : f.seq ≠ (s.port p).rxSeq) :
    doFabricFlit s p f = if (s.port p).awaiting then s else s.setPort p (s.port p).sendNak := by
  simp [doFabricFlit, htrained, hidle, hcrc, hseq, Nat.not_le.mpr hp]

end

/-! ### The flit that is taken (R266, R268) -/

/-- The control word of a flit frees what it acknowledges and returns credits; a NAK has what is left sent again, or the port retrain. -/
theorem Port.control_eq (x : Port) (f : Flit) : ∃ tries replay retraining wire,
    x.control f = { x with replayBuf := freeAcked x.replayBuf f.ack
                           credits := FMap.set 0 x.credits f.cvc.toNat (FMap.get 0 x.credits f.cvc.toNat + f.cret.toNat)
                           tries := tries, replay := replay, retraining := retraining, wire := wire } ∧
    (f.nak = false → replay = x.replay ∧ retraining = x.retraining ∧ wire = x.wire) ∧
    (f.nak = true → freeAcked x.replayBuf f.ack ≠ [] → (x.tries < 8 ∨ (freeAcked x.replayBuf f.ack).length < x.replayBuf.length) →
      replay = satAdd x.replay 1 ∧ retraining = x.retraining ∧ wire = x.wire ++ freeAcked x.replayBuf f.ack) ∧
    (f.nak = true → freeAcked x.replayBuf f.ack = x.replayBuf → freeAcked x.replayBuf f.ack ≠ [] → 8 ≤ x.tries →
      retraining = true ∧ replay = x.replay) := by
  unfold Port.control
  dsimp only
  generalize freeAcked x.replayBuf f.ack = buf
  cases hnak : f.nak with
  | false => exact ⟨_, _, _, _, rfl, by simp⟩
  | true =>
    by_cases hbuf : buf = []
    · subst hbuf
      exact ⟨_, _, _, _, rfl, by simp⟩
    · rw [if_pos (by simp [hbuf])]
      by_cases htries : 8 ≤ if buf.length < x.replayBuf.length then 0 else x.tries
      · have hkept : ¬ buf.length < x.replayBuf.length := fun h => by simp [h] at htries
        rw [if_pos htries]
        rw [if_neg hkept] at htries
        exact ⟨_, _, _, _, rfl, by simp, fun _ _ h => absurd h (by omega), by simp⟩
      · rw [if_neg htries]
        refine ⟨_, _, _, _, rfl, by simp, by simp, fun _ heq _ h8 => absurd h8 ?_⟩
        rw [if_neg (by simp [heq])] at htries
        exact htries

/-- Flits up to the one acknowledged are freed. -/
theorem freeAcked_of_split {a b : List Flit} {q : Flit} {ack : BitVec 12} (hq : q.seq = ack) (ha : ∀ r ∈ a, r.seq ≠ ack) :
    freeAcked (a ++ q :: b) ack = b := by
  have hfind : (a ++ q :: b).findIdx? (fun f => f.seq = ack) = some a.length := by
    rw [List.findIdx?_append, List.findIdx?_eq_none_iff.mpr fun r hr => decide_eq_false (ha r hr), List.findIdx?_cons, if_pos (decide_eq_true hq)]
    simp
  rw [freeAcked, hfind]
  simp

theorem freeAcked_of_absent {l : List Flit} {ack : BitVec 12} (h : ∀ r ∈ l, r.seq ≠ ack) : freeAcked l ack = l := by
  rw [freeAcked, List.findIdx?_eq_none_iff.mpr fun r hr => decide_eq_false (h r hr)]

/-- A port that has taken the next flit in order, with the packets that it completes. -/
def Port.taken (x : Port) (f : Flit) : Port :=
  Port.control { x with rxSeq := x.rxSeq + 1, awaiting := false, rxBytes := (x.arrive f).2, rxQ := x.rxQ ++ (x.arrive f).1 } f

/-- Something is due back that no traffic carries. -/
def Port.owesFlit (x : Port) (f : Flit) : Bool :=
  !(x.taken f).retraining && (x.taken f).txSeq == x.txSeq && (!(x.arrive f).1.isEmpty || (upto 4).any (fun v => decide ((x.taken f).owes v ≠ 0)))

/-- The same port once what is due back has left. -/
def Port.answered (x : Port) (f : Flit) : Port := if x.owesFlit f then (x.taken f).sendFlit [] else x.taken f

theorem doFabricFlit_inOrder {s : State} {p : Nat} {f : Flit} (hp : p < 24) (hidle : (s.port p).retraining = false) (hup : (s.port p).state = .up)
    (hcrc : f.crcOk = true) (hseq : f.seq = (s.port p).rxSeq) (hout : (s.port p).outQ = []) (htypes : ∀ q ∈ ((s.port p).arrive f).1, q.ptype ≠ .reserved) :
    doFabricFlit s p f = s.setPort p ((s.port p).answered f) := by
  have htrained : (s.port p).trained = true := by rw [Port.trained, hup]; rfl
  have hpass : ((s.port p).arrive f).1.filter (fun k => k.ptype != .reserved) = ((s.port p).arrive f).1 :=
    List.filter_eq_self.mpr fun q hq => bne_iff_ne.mpr (htypes q hq)
  have hnone : ((s.port p).arrive f).1.filter (fun k => k.ptype == .reserved && decide (k.hops.length ≤ k.hidx)) = [] :=
    List.filter_eq_nil_iff.mpr fun q hq => by simp [htypes q hq]
  have hall : ((s.port p).arrive f).1.filter (fun k => (s.port p).state == .up || (s.port p).state == .drained || k.ptype == .link) = ((s.port p).arrive f).1 :=
    List.filter_eq_self.mpr fun q _ => by rw [hup]; rfl
  have hpump : ((s.port p).taken f).pump = (s.port p).taken f := by
    obtain ⟨_, _, _, _, hcontrol, -⟩ := Port.control_eq { s.port p with
      rxSeq := (s.port p).rxSeq + 1, awaiting := false, rxBytes := ((s.port p).arrive f).2, rxQ := (s.port p).rxQ ++ ((s.port p).arrive f).1 } f
    exact Port.pump_of_outQ_nil (by rw [Port.taken, hcontrol]; exact hout)
  rw [doFabricFlit]
  dsimp only
  rw [if_neg (by simp [htrained, hidle, hp]), if_neg (by simp [hcrc]), if_neg (by simp [hseq]), hall, hpass, hnone]
  exact congrArg (s.setPort p) (by rw [Port.answered, Port.owesFlit, ← hpump]; rfl)

end Sys2Proof.Machine
end

section
/-! The rotation of lanes and the equaliser (O29), and the obligation's clauses (R269, R304). -/

namespace Sys2Proof.Machine

/-! ### Rotation (R269) -/

/-- The lane whose turn it is, while it is active. -/
theorem Port.rotateLane_next {x : Port} (hlane : x.nextLane < 5) (hactive : x.lmask.getLsbD x.nextLane = true) : x.rotateLane = some x.nextLane := by
  have hfirst : (x.nextLane + 0) % 5 = x.nextLane := Nat.mod_eq_of_lt hlane
  simp [Port.rotateLane, upto, List.range_succ_eq_map, Nat.mod_eq_of_lt hlane, hactive]

/-- After a lane's role has moved: the lane is out of the mask, the spare in it, and the others as before. -/
theorem Port.getLsbD_lmask_moveRole (x : Port) {l : Nat} (hspare : x.spare.toNat < 5) (hne : x.spare.toNat ≠ l) :
    (x.moveRole l).lmask.getLsbD l = false ∧ (x.moveRole l).lmask.getLsbD x.spare.toNat = true ∧
      ∀ i, i ≠ l → i ≠ x.spare.toNat → (x.moveRole l).lmask.getLsbD i = x.lmask.getLsbD i := by
  have hbit : ∀ i, (x.moveRole l).lmask.getLsbD i = ((x.lmask.getLsbD i && (decide (i < 5) && !decide (l = i))) || (decide (i < 5) && decide (x.spare.toNat = i))) := by
    intro i
    simp only [Port.moveRole, BitVec.getLsbD_or, BitVec.getLsbD_and, BitVec.getLsbD_not, BitVec.getLsbD_ofNat, Nat.testBit_two_pow]
    by_cases hi : i < 5 <;> simp [hi]
  refine ⟨?_, ?_, fun i hil his => ?_⟩
  · simp [hbit, hne]
  · simp [hbit, hspare]
  · rw [hbit, decide_eq_false (Ne.symm hil), decide_eq_false (Ne.symm his)]
    by_cases hi : i < 5
    · simp [hi]
    · simp [hi, BitVec.getLsbD_of_ge x.lmask i (by omega)]

section
variable {s : State} {p : Nat} (hp : p < 24) (htrained : (s.port p).trained = true) (hidle : (s.port p).retraining = false)
  (hspare : (s.port p).spare.toNat ≤ 4)
include hp htrained hidle hspare

/-- What stands in the way of a rotation does not. -/
theorem rotation_open :
    ¬ (decide (p ≥ 24) || !(s.port p).trained || (s.port p).retraining || decide ((s.port p).spare.toNat > 4)) = true := by
  simp [hp, htrained, hidle, hspare]

theorem doRotation_failed : doRotation s p false = s.setPort p { s.port p with tested := some false, lepoch := (s.port p).lepoch + 1 } :=
  (if_neg (by omega)).trans ((if_neg (rotation_open hp htrained hidle hspare)).trans (if_pos rfl))

theorem doRotation_moves {l : Nat} (hlane : (s.port p).nextLane = l) (hl : l < 5) (hactive : (s.port p).lmask.getLsbD l = true) :
    doRotation s p true = (s.setPort p (Port.moveRole { s.port p with tested := some true } l)).output p (linkPacket s (.rotate l ((s.port p).txSeq + 1))) := by
  subst hlane
  have hnext := Port.rotateLane_next (x := { s.port p with tested := some true }) hl hactive
  refine (if_neg (by omega)).trans ((if_neg (rotation_open hp htrained hidle hspare)).trans ((if_neg (by decide)).trans ?_))
  rw [hnext]

end

/-! ### The equaliser (R304) -/

theorem tap_step (up : Bool) (v : Int) : (if up then v + 1 else v - 1) = v + (if up then 1 else -1) := by cases up <;> rfl

section
variable {s : State} {p lane : Nat} (up : Bool) (hp : p < 24) (hlane : lane < 5)
include hp hlane

theorem doEqualiser_moves (hin : (FMap.get 0 (s.port p).taps lane + (if up then 1 else -1) : Int).natAbs ≤ Config.tapMax) :
    doEqualiser s p lane up = s.setPort p
      { s.port p with taps := FMap.set 0 (s.port p).taps lane (FMap.get 0 (s.port p).taps lane + (if up then 1 else -1)) } := by
  rw [doEqualiser]
  dsimp only
  rw [if_neg (by omega), tap_step, if_pos hin]

/-- At the end of its range a tap stays where it is. -/
theorem doEqualiser_stays (hend : Config.tapMax < (FMap.get 0 (s.port p).taps lane + (if up then 1 else -1) : Int).natAbs) :
    ∃ y, doEqualiser s p lane up = s.setPort p y ∧ y.taps = (s.port p).taps := by
  rw [doEqualiser, if_neg (by omega), tap_step, if_neg (by omega)]
  split
  · exact ⟨_, rfl, rfl⟩
  · split <;> exact ⟨_, rfl, rfl⟩

end

/-! ### The clauses -/

theorem doRetrainComplete_good {s : State} {p : Nat} (hp : p < 24) (htrained : (s.port p).trained = true) (hout : (s.port p).outQ = []) :
    doRetrainComplete s p none = s.setPort p
      { s.port p with retraining := false, awaiting := false, tries := 0, wire := (s.port p).wire ++ (s.port p).replayBuf,
                      lepoch := (s.port p).lepoch + 1, retrain := satAdd (s.port p).retrain 1 } := by
  rw [doRetrainComplete]
  dsimp only
  rw [if_neg (by simp [htrained, hp])]
  exact congrArg (s.setPort p) (Port.pump_of_outQ_nil hout)

/-- What the port that has taken a flit is, and what it sends back. -/
theorem Port.answered_eq (x : Port) (f : Flit) : ∃ sent txSeq nakDue owed,
    x.answered f = { x.taken f with txSeq := txSeq, nakDue := nakDue, owed := owed, replayBuf := (x.taken f).replayBuf ++ sent,
                                    wire := (x.taken f).wire ++ sent } ∧
    (sent = [] ∨ ∃ g : Flit, sent = [g] ∧ g.seq = (x.taken f).txSeq ∧ g.ack = (x.taken f).rxSeq - 1 ∧ g.content = List.replicate 240 0) ∧
    (x.owesFlit f = true → sent ≠ []) ∧ (x.owesFlit f = false → sent = []) := by
  unfold Port.answered
  split
  · next howes =>
    obtain ⟨g, m, heq, hseq, hack, -, hcontent⟩ := (x.taken f).sendFlit_eq []
    exact ⟨[g], _, _, _, heq, .inr ⟨g, rfl, hseq, hack, hcontent⟩, by simp, by simp [howes]⟩
  · next howes => exact ⟨[], _, _, _, by simp; rfl, .inl rfl, fun h => absurd h howes, fun _ => rfl⟩

/-- Settles O29: `doFabricFlit` by the branch that a flit takes, where `control` is the sender's side of a good one; with an empty output queue
nothing else leaves a port. -/
theorem flitProtocol : Obligations.FlitProtocol := by
  unfold Obligations.FlitProtocol
  intro s p f x put nak hp htrained hidle hout
  have hnak (errs : FMap (List Nat)) : nak (Port.sendNak { x with laneErr := errs }) := ⟨_, rfl, rfl, rfl, rfl, rfl, rfl, rfl⟩
  refine ⟨fun hcrc hasked hfew => ?_, fun hcrc hwait hseq => congrArg Host.Outcome.next (doFabricFlit_bad_awaiting htrained hidle hcrc hwait hseq),
    fun hcrc hasked hfew hlane hrecent => ?_, fun hcrc hseq => ⟨fun hwait => ?_, fun hwait => ?_⟩, fun hcrc hseq hup htypes => ?_,
    fun l hspare hnext hl hactive hne => ⟨?_, congrArg Host.Outcome.next (doRotation_failed hp htrained hidle hspare)⟩,
    fun lane up hlane => ⟨fun hin => congrArg Host.Outcome.next (doEqualiser_moves up hp hlane hin), fun hend => ?_⟩,
    fun q hq htr ho => congrArg Host.Outcome.next (doRetrainComplete_good hq htr ho)⟩
  · have hlen := length_within1s_le (FMap.get [] x.laneErr f.lane) (s.half (portHalf p)).time.toNat
    refine ⟨s.nakked p f.lane, congrArg Host.Outcome.next ?_, hnak _, fun l hl => FMap.get_set_other _ _ _ _ _ hl⟩
    rw [doFabricFlit_bad hp htrained hidle hcrc hasked, if_neg]
    exact Nat.not_le.mpr (Nat.lt_of_le_of_lt hlen (by omega))
  · have hlen : 16 ≤ (s.replayTimes p f.lane).length := by
      rw [State.replayTimes, length_within1s_of_recent, hfew]
      rw [portHalf, if_pos hp]
      exact hrecent
    refine ⟨_, congrArg Host.Outcome.next ((doFabricFlit_bad hp htrained hidle hcrc hasked).trans (if_pos hlen)), ?_⟩
    rw [State.port_failLane, State.port_setPort_same]
    refine ⟨rfl, rfl, ?_⟩
    simp only [BitVec.getLsbD_and, BitVec.getLsbD_not, getLsbD_ofNat_two_pow _ hlane]
    simp
  · exact congrArg Host.Outcome.next ((doFabricFlit_outOfOrder hp htrained hidle hcrc hseq).trans (if_pos hwait))
  · exact ⟨_, congrArg Host.Outcome.next ((doFabricFlit_outOfOrder hp htrained hidle hcrc hseq).trans (if_neg (Bool.eq_false_iff.mp hwait))), hnak x.laneErr, rfl⟩
  · obtain ⟨sent, txSeq, nakDue, owed, hanswered, hsent, howes, howesNot⟩ := x.answered_eq f
    obtain ⟨tries, replay, retraining, wire, htaken, hquiet, hreplay, hretrain⟩ := Port.control_eq { x with
      rxSeq := x.rxSeq + 1, awaiting := false, rxBytes := (x.arrive f).2, rxQ := x.rxQ ++ (x.arrive f).1 } f
    have htaken : x.taken f = _ := htaken
    rw [htaken] at hanswered hsent
    refine ⟨_, freeAcked x.replayBuf f.ack, sent,
      congrArg Host.Outcome.next ((doFabricFlit_inOrder hp hidle hup hcrc hseq hout htypes).trans (congrArg (s.setPort p) hanswered)),
      rfl, rfl, rfl, rfl, fun a q b hsplit hq ha => ?_, freeAcked_of_absent, rfl, ?_, fun harrived hgo => howes ?_, FMap.get_set_same _ _ _ _,
      fun hn => ?_, fun hn hbuf htries => ?_, fun hn hbuf hne htries => hretrain hn hbuf hne htries, rfl⟩
    · rw [hsplit, freeAcked_of_split hq ha]
    · simpa using hsent
    · have hgo : retraining = false := hgo
      simp [Port.owesFlit, htaken, hgo, harrived]
    · obtain ⟨hr, hre, hw⟩ := hquiet hn
      exact ⟨hr, hre.trans hidle, congrArg (· ++ sent) hw⟩
    · obtain ⟨hr, hre, hw⟩ := hreplay hn hbuf htries
      exact ⟨hr, hre.trans hidle, congrArg (· ++ sent) hw⟩
  · refine ⟨Port.moveRole { x with tested := some true } l, linkPacket s (.rotate l (x.txSeq + 1)),
      congrArg Host.Outcome.next (doRotation_moves hp htrained hidle hspare hnext hl hactive), rfl, rfl, Packet.crcOk_sealed _, ?_⟩
    obtain ⟨hout, hin, hothers⟩ := Port.getLsbD_lmask_moveRole { x with tested := some true } (show x.spare.toNat < 5 by omega) hne
    exact ⟨hout, hin, hothers, by simp [Port.moveRole]; omega, by simp [Port.moveRole], rfl⟩
  · obtain ⟨y, heq, htaps⟩ := doEqualiser_stays up hp hlane hend
    exact ⟨y, congrArg Host.Outcome.next heq, htaps⟩

end Sys2Proof.Machine
end

section
/-! The states of a port (O30): training, the quad check of a HELLO, the HELLO that a port sends, a stalled output, and the sampled queues
(R266, R274-R276, R282, R305, R371). -/

namespace Sys2Proof.Machine

theorem portHalf_of_lt {p : Nat} (hp : p < 24) : portHalf p = p / 12 := if_pos hp

/-! ### Training (R371) -/

section
variable {s : State} {p : Nat} (hp : p < 24) (hstate : (s.port p).state = .training) (hlink : (s.half (p / 12)).linkable = true)
  (hhbm : s.hbmTrained (p / 12) = true) (lanes : BitVec 5)
include hp hstate hlink hhbm

/-- A port in training ends it by the number of its lanes. -/
theorem training_open : (decide (p < 24) && (s.half (portHalf p)).linkable && s.hbmTrained (portHalf p) &&
    ((s.port p).state == .down || (s.port p).state == .training)) = true := by
  rw [portHalf_of_lt hp, hstate, hlink, hhbm, decide_eq_true hp]
  rfl

theorem doPortTraining_fails (hfew : ((s.port p).usable lanes).length < 4) :
    doPortTraining s p lanes = s.setPort p { s.port p with state := .down } :=
  (if_pos (training_open hp hstate hlink hhbm)).trans (if_pos hfew)

theorem doPortTraining_trains (hlanes : 4 ≤ ((s.port p).usable lanes).length) : doPortTraining s p lanes = s.setPort p
    { s.port p with state := .linkOnly, lmask := BitVec.ofNat 5 (maskOf (fun i => (((s.port p).usable lanes).take 4).contains i) 5)
                    spare := BitVec.ofNat 3 (((s.port p).usable lanes).getD 4 7), lepoch := 1, nextLane := 0
                    txSeq := 0, rxSeq := 0, replayBuf := [], wire := [], rxBytes := [], awaiting := false, owed := []
                    credits := [(0, portCredits), (1, portCredits), (2, portCredits), (3, portCredits)] } :=
  (if_pos (training_open hp hstate hlink hhbm)).trans (if_neg (Nat.not_lt.mpr hlanes))

end

/-- Four lanes are active after training. -/
theorem getLsbD_lanes (l : List Nat) {i : Nat} (hi : i < 5) : (BitVec.ofNat 5 (maskOf (fun j => l.contains j) 5)).getLsbD i = true ↔ i ∈ l := by
  rw [BitVec.getLsbD_ofNat, testBit_maskOf]
  simp [hi]

/-- The spare lane is the fifth of those that trained, or none. -/
theorem Port.toNat_spare_usable (x : Port) (lanes : BitVec 5) :
    (BitVec.ofNat 3 ((x.usable lanes).getD 4 7)).toNat = (x.usable lanes).getD 4 7 := by
  have hlt : (x.usable lanes).getD 4 7 < 8 := by
    rw [List.getD_eq_getElem?_getD]
    cases hlane : (x.usable lanes)[4]? with
    | none => decide
    | some l =>
      have hmem : l ∈ upto 5 := (List.mem_filter.mp (List.mem_of_getElem? hlane)).1
      exact Nat.lt_trans (List.mem_range.mp hmem) (by decide)
  rw [BitVec.toNat_ofNat, Nat.mod_eq_of_lt hlt]

theorem doPortRetry_down {s : State} {p : Nat} (hp : p < 24) (hstate : (s.port p).state = .down) (hlink : (s.half (p / 12)).linkable = true) :
    doPortRetry s p = s.setPort p { s.port p with state := .training } :=
  if_pos ⟨hp, hstate, by rw [portHalf_of_lt hp]; exact hlink⟩

/-! ### The quad check (R276) -/

/-- A port that is in no quad. -/
def farPort (p : Nat) : Prop := ¬ ((9 ≤ p ∧ p ≤ 11) ∨ (21 ≤ p ∧ p ≤ 23))

theorem quadCheck_far {p : Nat} (hfar : farPort p) (s : State) (y : Hello) : quadCheck s p y = .up := by
  have hnone : closeD p = none := by
    rw [closeD, if_neg fun h => hfar (.inl h), if_neg fun h => hfar (.inr h)]
  rw [quadCheck, hnone]

section
variable {p : Nat} (hclose : (9 ≤ p ∧ p ≤ 11) ∨ (21 ≤ p ∧ p ≤ 23))
include hclose

theorem closeD_close : closeD p = some (p - (if p < 12 then 8 else 20)) := by
  rw [closeD]
  obtain h | h := hclose
  · rw [if_pos h, if_pos (by omega)]
  · rw [if_neg (by omega), if_pos h, if_neg (by omega)]

/-- A close port's neighbour is at its own place in the quad. -/
theorem closeD_opposite {q : Nat} (hq : q = 8 + (p - (if p < 12 then 8 else 20)) ∨ q = 20 + (p - (if p < 12 then 8 else 20))) :
    closeD q = some (p - (if p < 12 then 8 else 20)) := by
  have hd : 1 ≤ p - (if p < 12 then 8 else 20) ∧ p - (if p < 12 then 8 else 20) ≤ 3 := by split <;> omega
  generalize p - (if p < 12 then 8 else 20) = d at hq hd
  rw [closeD]
  obtain rfl | rfl := hq
  · rw [if_pos (by omega), Nat.add_sub_cancel_left]
  · rw [if_neg (by omega), if_pos (by omega), Nat.add_sub_cancel_left]

variable (s : State) {y : Hello}

theorem quadCheck_invalid (hy : y.valid = false) : quadCheck s p y = .linkOnly := by
  rw [quadCheck, closeD_close hclose]
  simp [hy]

theorem quadCheck_miswired (hy : y.valid = true)
    (hwrong : fld y.devid 2 18 ≠ fld s.devid 2 18 ∨ fld y.devid 0 2 ≠ fld s.devid 0 2 ^^^ (p - (if p < 12 then 8 else 20))) :
    quadCheck s p y = .miswired := by
  rw [quadCheck, closeD_close hclose]
  dsimp only
  rw [if_neg (by simp [hy]), if_pos (.inr hwrong)]

/-- The neighbour that the quad asks for is checked for its build and revision. -/
theorem quadCheck_wired (hy : y.valid = true) (hquad : fld y.devid 2 18 = fld s.devid 2 18)
    (hplace : fld y.devid 0 2 = fld s.devid 0 2 ^^^ (p - (if p < 12 then 8 else 20)))
    (hport : y.port.toNat = 8 + (p - (if p < 12 then 8 else 20)) ∨ y.port.toNat = 20 + (p - (if p < 12 then 8 else 20))) :
    quadCheck s p y = if y.build.toNat ≠ s.build.code ∨ y.rev ≠ 0 then .mismatch else .up := by
  rw [quadCheck, closeD_close hclose]
  dsimp only
  rw [if_neg (by simp [hy]), if_neg (by simp [closeD_opposite hclose hport, hquad, hplace])]

end

/-! ### HELLO (R275) -/

/-- A port whose head has been taken: its credits are owed to the other end (R266, R282). -/
def Port.popped (x : Port) (k : Packet) (rest : List Packet) : Port :=
  { x with rxQ := rest, owed := FMap.set 0 x.owed (packetVc k) (FMap.get 0 x.owed (packetVc k) + packetUnits k) }

/-- A port that has heard a HELLO, in the state that the check gives. -/
def Port.heard (x : Port) (k : Packet) (rest : List Packet) (y : Hello) (st : PortState) : Port :=
  { x.popped k rest with ndev := y.devid, nport := y.port, nbuild := y.build, nrev := y.rev, lepoch := y.lepoch, state := st }

/-- A LINK packet is for the port that it reaches. -/
theorem State.receive_link {s : State} {p : Nat} {k : Packet} {rest : List Packet} (hq : (s.port p).rxQ = k :: rest) (htype : k.ptype = .link)
    (hcrc : k.crcOk = true) (go : State → Nat → Packet → State) : s.receive p .link anyPacket go = go (s.popRx p) (portHalf p) k := by
  have harrived : s.arrived p .link = some k := by simp [State.arrived, hq, htype]
  have haccepts : (s.popRx p).accepts (portHalf p) k = true := by unfold State.accepts; rw [htype]
  simp [State.receive, harrived, anyPacket, hcrc, haccepts]

/-- A HELLO that reaches a port in service is recorded; once the device has a DEVID the port follows the check. -/
theorem exec_helloReceive {s : State} {p : Nat} {k : Packet} {rest : List Packet} {y : Hello} (hstate : (s.port p).state ∈ [PortState.up, .linkOnly])
    (hout : (s.port p).outQ = []) (hq : (s.port p).rxQ = k :: rest) (htype : k.ptype = .link) (hcrc : k.crcOk = true) (hbody : k.body = .hello y) :
    exec (.helloReceive p) s = .next (s.setPort p ((s.port p).heard k rest y (if s.devValid then quadCheck s p y else (s.port p).state))) := by
  have hserves : (s.port p).state ≠ .drained ∧ (s.port p).state ≠ .failed ∧ (s.port p).state ≠ .down := by
    simp only [List.mem_cons, List.not_mem_nil, or_false] at hstate
    obtain h | h := hstate <;> rw [h] <;> decide
  obtain ⟨hdrained, hfailed, hdown⟩ := hserves
  have hne : (s.port p).popped k rest ≠ Port.reset := fun hreset => hdown (congrArg Port.state hreset)
  have hpop : s.popRx p = s.setPort p ((s.port p).popped k rest) := State.popRx_cons hq
  have hpopped : (s.setPort p ((s.port p).popped k rest)).port p = (s.port p).popped k rest := State.port_setPort_same ..
  show Host.Outcome.next (doHelloReceive s p) = _
  rw [doHelloReceive, State.receive_link hq htype hcrc, hbody, hpop]
  dsimp only
  rw [hpopped, State.setPort_setPort_of_ne hne, Port.pump_of_outQ_nil (by exact hout)]
  refine congrArg (fun st => Host.Outcome.next (s.setPort p ((s.port p).heard k rest y st))) ?_
  cases hdev : s.devValid with
  | false => exact if_pos (.inr (.inr (by simp [hdev])))
  | true => exact if_neg (by simp [Port.popped, hdrained, hfailed, hdev])

/-- The HELLO that a port sends. -/
def State.ownHello (s : State) (p : Nat) : Hello :=
  ⟨s.devid, s.devValid, BitVec.ofNat 5 p, BitVec.ofNat 2 s.build.code, 0, (s.port p).lepoch, Config.serial⟩

/-- The content of a HELLO: a header and the 16 bytes of its record. -/
theorem packetContent_hello {k : Packet} {y : Hello} (hbody : k.body = .hello y) : packetContent k = 48 := by
  simp [packetContent, hbody, bodyLen, cdiv]

theorem Packet.length_bytes_hello {k : Packet} {y : Hello} (hbody : k.body = .hello y) : k.bytes.length = 48 := by
  simp [Packet.bytes, Packet.length_header, packetContent_hello hbody, hbody, Payload.data, bodyLen, Hello.bytes, length_leBytes]

/-- An UP port with a credit of channel 0 and room for one flit sends its HELLO in a flit of its own. -/
theorem doHelloSend_sends {s : State} {p : Nat} (hp : p < 24) (hout : (s.port p).outQ = []) (hup : (s.port p).state = .up)
    (hroom : (s.port p).replayBuf.length < 512) (hidle : (s.port p).retraining = false) (hcredit : 0 < FMap.get 0 (s.port p).credits 0) :
    ∃ credits, doHelloSend s p = s.setPort p
      (Port.sendFlit { s.port p with outQ := [], credits := credits } (linkPacket s (.hello (s.ownHello p))).bytes) := by
  have hcontent : packetContent (linkPacket s (.hello (s.ownHello p))) = 48 := packetContent_hello rfl
  have hunits : packetUnits (linkPacket s (.hello (s.ownHello p))) = 1 := by rw [packetUnits, hcontent]; rfl
  have hvc : packetVc (linkPacket s (.hello (s.ownHello p))) = 0 := by simp [packetVc, linkPacket, Packet.sealed]
  have hsends : Port.sendsNow { s.port p with outQ := [] } [] (linkPacket s (.hello (s.ownHello p))) = true := by
    have hone : cdiv (contentOf [] + 48) 240 = 1 := by decide
    simp only [Port.sendsNow, Port.mayCarry, Port.credit, hidle, hup, hvc, hunits, hcontent, hone]
    simp only [List.all_nil, Bool.and_true, decide_eq_true (show 1 ≤ FMap.get 0 (s.port p).credits 0 from hcredit),
      decide_eq_true (show (s.port p).replayBuf.length + 1 ≤ 512 from hroom)]
    rfl
  have hbytes := Packet.length_bytes_hello (k := linkPacket s (.hello (s.ownHello p))) rfl
  have htrained : (s.port p).trained = true := by rw [Port.trained, hup]; rfl
  have hpump := Port.pump_lone hout hsends (by rw [hcontent]; decide) (by rw [hbytes]; decide)
  exact ⟨_, (if_neg (by simp [hp, htrained])).trans (congrArg (s.setPort p) hpump)⟩

/-! ### A stalled output, and the samples (R281, R282, R305) -/

theorem doDrainedEnd_drained {s : State} {p : Nat} (hout : (s.port p).outQ = []) (hstate : (s.port p).state = .drained) :
    doDrainedEnd s p = s.setPort p { s.port p with state := (s.port p).resume } :=
  (if_pos hstate).trans (congrArg (s.setPort p) (Port.pump_of_outQ_nil hout))

/-- What an UP port could not send for 50 ms is discarded. -/
theorem doOutputStall_up {s : State} {p : Nat} (hp : p < 24) (hout : (s.port p).outQ ≠ []) (hup : (s.port p).state = .up) :
    doOutputStall s p = (s.setPort p { s.port p with outQ := [], state := .drained, resume := .up }).originate (p / 12)
      ((s.setPort p { s.port p with outQ := [], state := .drained, resume := .up }).portKey p 4) := by
  have htrained : (s.port p).trained = true := by rw [Port.trained, hup]; rfl
  rw [doOutputStall]
  dsimp only
  rw [if_neg (by simp [hout, hp]), htrained, hup, portHalf_of_lt hp]
  rfl

/-- A port with a sample of the queue of each channel. -/
def Port.sampled (x : Port) : Port := { x with samples := (upto 4).foldl (fun m vc => FMap.set 0 m vc (x.queued vc)) [] }

theorem Port.get_samples_sampled (x : Port) {vc : Nat} (hvc : vc < 4) : FMap.get 0 x.sampled.samples vc = x.queued vc := by
  have hwalk : x.sampled.samples = ((upto 4).map fun i => (i, ())).foldl (fun m e => FMap.set 0 m e.1 (x.queued e.1)) [] := by
    rw [List.foldl_map]
    rfl
  rw [hwalk, FMap.get_foldl_set, if_pos]
  simpa [upto] using hvc

/-- A walk over ports changes each by what it was before the walk. -/
theorem State.port_foldl_sampled (s : State) (a : Nat) (l : List Nat) (p : Nat) :
    (l.foldl (fun s i => s.setPort (a + i) (s.port (a + i)).sampled) s).port p =
      if ∃ i ∈ l, p = a + i then (s.port p).sampled else s.port p := by
  induction l generalizing s with
  | nil => simp
  | cons i l ih =>
    rw [List.foldl_cons, ih, State.port_setPort]
    by_cases hi : p = a + i
    · subst hi
      simp only [if_true, List.mem_cons, exists_eq_or_imp, true_or]
      split <;> rfl
    · simp [hi]

theorem doDepthSample_eq {s : State} {h : Nat} (hh : h < 2) :
    doDepthSample s h = (upto 12).foldl (fun s i => s.setPort (12 * h + i) (s.port (12 * h + i)).sampled) s := if_neg (by omega)

theorem port_doDepthSample (s : State) {h : Nat} (hh : h < 2) (q : Nat) :
    (doDepthSample s h).port q = if q / 12 = h then (s.port q).sampled else s.port q := by
  have hrange : (∃ i ∈ upto 12, q = 12 * h + i) ↔ q / 12 = h := by
    constructor
    · rintro ⟨i, hi, rfl⟩
      have := List.mem_range.mp hi
      omega
    · exact fun hq => ⟨q - 12 * h, List.mem_range.mpr (by omega), by omega⟩
  rw [doDepthSample_eq hh, State.port_foldl_sampled]
  exact if_congr hrange rfl rfl

theorem doDepthSample_ports (s : State) {h : Nat} (hh : h < 2) : ∃ ps, doDepthSample s h = { s with ports := ps } := by
  rw [doDepthSample_eq hh]
  refine List.foldlRecOn (motive := fun t : State => ∃ ps, t = { s with ports := ps }) _ _ ⟨_, rfl⟩ ?_
  rintro _ ⟨ps, rfl⟩ i -
  exact ⟨_, rfl⟩

/-! ### The clauses -/

/-- Settles O30: each event by what it does to its port; `quadCheck` gives a close port's state by the cases of R276. -/
theorem portStates : Obligations.PortStates := by
  unfold Obligations.PortStates
  intro s p lanes k rest y x d close good heard hp hout
  refine ⟨fun hstate hlink hhbm => ⟨fun hfew => congrArg Host.Outcome.next (doPortTraining_fails hp hstate hlink hhbm lanes hfew), fun hlanes =>
      ⟨_, congrArg Host.Outcome.next (doPortTraining_trains hp hstate hlink hhbm lanes hlanes), rfl, rfl, rfl, rfl, rfl, fun l hl => getLsbD_lanes _ hl,
        Port.toNat_spare_usable x lanes, rfl⟩⟩,
    fun hstate hlink => congrArg Host.Outcome.next (doPortRetry_down hp hstate hlink), fun hstate hq htype hcrc hbody => ?_,
    fun hup hroom hidle hcredit => ?_, fun hstate => congrArg Host.Outcome.next (doDrainedEnd_drained hout hstate),
    fun q hq ho hup => congrArg Host.Outcome.next (doOutputStall_up hq ho hup), fun h hh => ?_⟩
  · have hhello := exec_helloReceive hstate hout hq htype hcrc hbody
    have hchecked (hdev : s.devValid = true) {st : PortState} (hst : quadCheck s p y = st) : heard st := by
      rw [hdev, if_pos rfl, hst] at hhello
      exact hhello
    refine ⟨fun hdev => ?_, fun hdev hfar => hchecked hdev (quadCheck_far hfar s y), fun hdev hclose =>
      ⟨fun hy => hchecked hdev (quadCheck_invalid hclose s hy), fun hy => ⟨fun hquad => hchecked hdev (quadCheck_miswired hclose s hy (.inl hquad)),
        fun hplace => hchecked hdev (quadCheck_miswired hclose s hy (.inr hplace)), fun hquad hplace hport => ⟨fun hbuild hrev => ?_, fun hbuild => ?_⟩⟩⟩⟩
    · rw [hdev] at hhello
      exact hhello
    · exact hchecked hdev ((quadCheck_wired hclose s hy hquad hplace hport).trans (if_neg (by simp [hbuild, hrev])))
    · exact hchecked hdev ((quadCheck_wired hclose s hy hquad hplace hport).trans (if_pos (.inl hbuild)))
  · obtain ⟨credits, hsend⟩ := doHelloSend_sends hp hout hup hroom hidle hcredit
    obtain ⟨g, owed, hflit, hseq, hack, hnak, hcontent⟩ :=
      Port.sendFlit_eq { x with outQ := [], credits := credits } (linkPacket s (.hello (s.ownHello p))).bytes
    refine ⟨_, g, linkPacket s (.hello (s.ownHello p)), s.ownHello p, congrArg Host.Outcome.next (hsend.trans (congrArg (s.setPort p) hflit)),
      rfl, rfl, rfl, hseq, hack, hnak, hcontent, rfl, Packet.crcOk_sealed _, rfl, rfl, rfl, ?_, ?_, rfl⟩
    · exact Nat.mod_eq_of_lt (by omega)
    · have hcode : s.build.code < 4 := by cases s.build <;> decide
      exact Nat.mod_eq_of_lt hcode
  · have hexec : exec (.queueDepthSample h) s = .next (doDepthSample s h) := congrArg Host.Outcome.next (onHalf_of_lt hh ..)
    obtain ⟨ps, hps⟩ := doDepthSample_ports s hh
    refine ⟨_, hexec, fun q hq vc hvc => ?_, fun q hq => ?_, by rw [hps]⟩
    · rw [port_doDepthSample s hh, if_pos hq, Port.get_samples_sampled _ hvc]
    · rw [port_doDepthSample s hh, if_neg hq]

end Sys2Proof.Machine
end

section
/-! Paths and packets (O31): the paths that an entry gives, how a packet leaves, is forwarded and is sent again, and what giving one up leaves
(R271, R272, R280-R283). -/

namespace Sys2Proof.Machine

/-! ### Usable paths (R281) -/

/-- The usable paths of an entry, by number. -/
def State.usablePaths (s : State) (x : Partner) : List (Nat × List Nat) :=
  ((x.paths.take (x.np1 + 1)).zipIdx.filter (fun e => s.pathUsable x.ddev e.1)).map (fun e => (e.2, e.1))

theorem State.mem_usablePaths {s : State} {x : Partner} {i : Nat} {hops : List Nat} :
    (i, hops) ∈ s.usablePaths x ↔ i ≤ x.np1 ∧ x.paths[i]? = some hops ∧ s.pathUsable x.ddev hops = true := by
  have hlisted : (hops, i) ∈ (x.paths.take (x.np1 + 1)).zipIdx ↔ i ≤ x.np1 ∧ x.paths[i]? = some hops := by
    rw [List.mk_mem_zipIdx_iff_getElem?, List.getElem?_take]
    split
    · simp; omega
    · simp; omega
  simp only [State.usablePaths, List.mem_map, List.mem_filter, Prod.exists, Prod.mk.injEq]
  constructor
  · rintro ⟨l, j, ⟨hmem, huse⟩, rfl, rfl⟩
    exact ⟨(hlisted.mp hmem).1, (hlisted.mp hmem).2, huse⟩
  · exact fun ⟨hi, hpath, huse⟩ => ⟨hops, i, ⟨hlisted.mpr ⟨hi, hpath⟩, huse⟩, rfl, rfl⟩

/-- They stand in the order of their numbers. -/
theorem State.usablePaths_sorted (s : State) (x : Partner) : (s.usablePaths x).Pairwise (fun a b => a.1 < b.1) := by
  have hnumbers : ((x.paths.take (x.np1 + 1)).zipIdx).Pairwise (fun a b => a.2 < b.2) := by
    have hrange := List.pairwise_lt_range' (s := 0) (n := (x.paths.take (x.np1 + 1)).length)
    rw [← List.zipIdx_map_snd] at hrange
    exact List.pairwise_map.mp hrange
  exact List.pairwise_map.mpr (hnumbers.filter _)

/-- With ADPT the first of the least score is chosen, else the first. -/
theorem State.choosePath_eq (s : State) (h : Nat) (x : Partner) (f : Flow) : s.choosePath h x f =
    if x.adpt then (s.usablePaths x).argmin (fun e => s.pathScore f ((s.half h).time.toNat + 1) e.1 e.2) else (s.usablePaths x).head? := by
  unfold State.choosePath
  refine ite_congr rfl (fun _ => ?_) fun _ => rfl
  exact congrArg (fun step => List.foldl step none (s.usablePaths x)) (funext fun best => funext fun e => by cases best <;> rfl)

theorem State.choosePath_eq_none {s : State} {h : Nat} {x : Partner} {f : Flow} : s.choosePath h x f = none ↔ s.usablePaths x = [] := by
  rw [State.choosePath_eq]
  split
  · exact List.argmin_eq_none
  · exact List.head?_eq_none_iff

theorem State.choosePath_mem {s : State} {h : Nat} {x : Partner} {f : Flow} {e : Nat × List Nat} (he : s.choosePath h x f = some e) :
    e ∈ s.usablePaths x := by
  rw [State.choosePath_eq] at he
  split at he
  · exact List.argmin_mem he
  · exact List.mem_of_head? he

theorem State.choosePath_first {s : State} {h : Nat} {x : Partner} {f : Flow} {e e' : Nat × List Nat} (hadpt : x.adpt = false)
    (he : s.choosePath h x f = some e) (he' : e' ∈ s.usablePaths x) : e.1 ≤ e'.1 := by
  rw [State.choosePath_eq, if_neg (by simp [hadpt]), List.head?_eq_some_iff] at he
  obtain ⟨l, hl⟩ := he
  have hsorted := s.usablePaths_sorted x
  rw [hl] at hsorted he'
  obtain rfl | htail := List.mem_cons.mp he'
  · exact Nat.le_refl _
  · exact Nat.le_of_lt (List.rel_of_pairwise_cons hsorted htail)

theorem State.choosePath_least {s : State} {h : Nat} {x : Partner} {f : Flow} {e e' : Nat × List Nat} (hadpt : x.adpt = true)
    (he : s.choosePath h x f = some e) (he' : e' ∈ s.usablePaths x) :
    s.pathScore f ((s.half h).time.toNat + 1) e.1 e.2 ≤ s.pathScore f ((s.half h).time.toNat + 1) e'.1 e'.2 := by
  rw [State.choosePath_eq, if_pos hadpt] at he
  exact List.le_of_mem_argmin he' he

/-! ### A message leaves (R280, R281) -/

section
variable {s : State} {h i p q : Nat} {m : OutMsg} {hops : List Nat}

/-- The flow of the DATA that a binding sends to a partner. -/
def Partner.dataFlow (x : Partner) (b : Nat) : FlowKey := ⟨b, x.ddev, x.dbind, .dataGreq⟩

/-- A message as it leaves in a DATA packet by path `p`. -/
def State.dataPacket (s : State) (m : OutMsg) (x : Partner) (p : Nat) (hops : List Nat) : Packet :=
  Packet.sealed
    { ddev := x.ddev, sdev := s.devid, dbind := x.dbind, sbind := m.b, ptype := .data, hidx := 0, path := p, cong := false,
      hops := hops, rw2 := m.rw2, psn := (s.flow (x.dataFlow m.b)).nextPsn, xtag := m.xtag, ecrc := 0, body := m.body }

variable (hmsg : (s.engine h).outbox[i]? = some m) (htype : m.ptype = .data) (hnotice : m.isRollback = false)
  (hvalid : (s.partner h m.b m.partner).valid = true)
  (hpath : s.choosePath h (s.partner h m.b m.partner) (s.flow ((s.partner h m.b m.partner).dataFlow m.b)) = some (p, hops))
  (hfirst : ∀ j o, j < i → (s.engine h).outbox[j]? = some o → ¬ (o.b = m.b ∧ o.partner = m.partner ∧ flowClass o.ptype = some .dataGreq))
  (hfree : s.hopHeld h hops = false)
include hmsg htype hnotice hvalid hpath hfirst hfree

/-- The first DATA message of its flow leaves by the chosen path, where fewer than 256 packets are unacknowledged. -/
theorem doPacketInject_data :
    let x := s.partner h m.b m.partner
    let f := s.flow (x.dataFlow m.b)
    let k := s.dataPacket m x p hops
    doPacketInject s h i = if f.unacked.length ≥ 256 then s
      else ((s.setEngine h { s.engine h with outbox := (s.engine h).outbox.eraseIdx i }).setFlow
        { f with nextPsn := f.nextPsn + 1, waits := 0, unacked := f.unacked ++ [(k, 0)] }).launchPacket h k := by
  intro x f k
  have hpartner : s.msgPartner h m = x := if_neg (by simp [hnotice])
  have hearlier : (((s.engine h).outbox.take i).any fun o =>
      decide (o.b = m.b ∧ o.partner = m.partner) && decide (flowClass o.ptype = flowClass m.ptype)) = false := by
    rw [List.any_eq_false, htype]
    intro o ho hsame
    obtain ⟨j, hj⟩ := List.mem_iff_getElem?.mp ho
    rw [List.getElem?_take] at hj
    split at hj
    · next hlt =>
      simp only [Bool.and_eq_true, decide_eq_true_eq] at hsame
      exact hfirst j o hlt hj ⟨hsame.1.1, hsame.1.2, hsame.2⟩
    · cases hj
  have hyields : s.yields h m = false := by rw [State.yields, htype]; rfl
  rw [htype] at hearlier
  rw [doPacketInject]
  dsimp only
  rw [hmsg]
  dsimp only
  rw [hpartner, if_neg (by simp [x, hvalid]), htype]
  have hchosen : s.choosePath h x (s.flow ⟨m.b, x.ddev, x.dbind, (flowClass PType.data).getD .dataGreq⟩) = some (p, hops) := hpath
  rw [hchosen]
  dsimp only
  rw [hearlier, hfree, hyields]
  rfl

end

end Sys2Proof.Machine
end

section
/-! SUPPORT. Ending collectives leaves the flows (R272): each operation that giving a packet up goes through. -/

namespace Sys2Proof.Machine

theorem State.flow_congr {s t : State} (h : t.flows = s.flows) (k : FlowKey) : t.flow k = s.flow k := by rw [State.flow, State.flow, h]

@[simp] theorem State.foldl_flows {β : Type} (l : List β) (f : State → β → State) (hf : ∀ s b, (f s b).flows = s.flows) (s : State) :
    (l.foldl f s).flows = s.flows := foldl_keeps l f State.flows hf s

theorem State.CachesUsed.flows {s t : State} (h : s.CachesUsed t) : t.flows = s.flows := by
  obtain ⟨_, _, _, _, _, rfl⟩ := h.state
  rfl

@[simp] theorem State.writeNat_flows (s : State) (c a n v : Nat) : (s.writeNat c a n v).flows = s.flows := (State.cachesUsed_writeBytes ..).flows
@[simp] theorem State.setEngine_flows (s : State) (h : Nat) (e : Engine) : (s.setEngine h e).flows = s.flows := State.setHalf_flows ..

@[simp] theorem State.setGroup_flows (s : State) (h gid : Nat) (g : Group) : (s.setGroup h gid g).flows = s.flows := by
  unfold State.setGroup State.ctrl
  split
  · rfl
  · exact State.setHalf_flows ..

@[simp] theorem State.endColl_flows (s : State) (h : Nat) (c : CollCmd) (status count : Nat) : (s.endColl h c status count).flows = s.flows := by
  simp [State.endColl_eq]

@[simp] theorem State.sendMember_flows (s : State) (h b : Nat) (g : Group) (m : Nat) (t : PType) (rw2 : Word) (xtag : Nat) (body : Payload) :
    (s.sendMember h b g m t rw2 xtag body).flows = s.flows := State.setEngine_flows ..

/-! ### Closes (R245) -/

@[simp] theorem State.putClose_flows (s : State) (h : Nat) (k : CloseRec) : (s.putClose h k).flows = s.flows := State.setEngine_flows ..

@[simp] theorem State.tellClose_flows (s : State) (h b : Nat) (g : Group) (k : CloseRec) (good : Bool) : (s.tellClose h b g k good).flows = s.flows :=
  State.foldl_flows _ _ (fun t _ => t.sendMember_flows ..) s

@[simp] theorem State.watchClose_flows (s : State) (h : Nat) (g : Group) (k : CloseRec) : (s.watchClose h g k).flows = s.flows := by
  unfold State.watchClose
  dsimp only
  split <;> split <;> simp

@[simp] theorem State.finishClose_flows (s : State) (h : Nat) (c : CollCmd) (g : Group) (k : CloseRec) (done : Bool) :
    (s.finishClose h c g k done).flows = s.flows := by
  unfold State.finishClose
  dsimp only
  split <;> simp

@[simp] theorem State.settleClose_flows (s : State) (h : Nat) (k : CloseRec) : (s.settleClose h k).flows = s.flows := by
  unfold State.settleClose
  split
  · split
    · split <;> simp
    · rfl
  · split
    · rfl
    · dsimp only
      split <;> split <;> simp

@[simp] theorem State.settleCloses_flows (s : State) : s.settleCloses.flows = s.flows :=
  State.foldl_flows _ _ (fun t i => State.foldl_flows _ _ (fun u k => u.settleClose_flows i k) t) s

/-! ### A packet that is given up (R272) -/

@[simp] theorem State.endGather_flows (s : State) (h : Nat) (x : Gather) : (s.endGather h x).flows = s.flows := by
  rw [State.endGather_eq, State.setEngine_flows]
@[simp] theorem State.dropPost_flows (s : State) (h id : Nat) : (s.dropPost h id).flows = s.flows := State.setEngine_flows ..

@[simp] theorem State.loseDrain_flows (s : State) (b : Nat) : (s.loseDrain b).flows = s.flows := by
  unfold State.loseDrain
  dsimp only
  split
  · split
    · exact (State.settleCloses_flows _).trans (State.foldl_flows _ _ (fun t h => t.setEngine_flows h _) _)
    · rfl
  · split <;> rfl

/-- The end of the command that a packet belonged to leaves the flows. -/
theorem State.peerLost_flows (s : State) (b : Nat) (t : PType) (step xtag : Nat) (body : Payload) : (s.peerLost b t step xtag body).flows = s.flows := by
  unfold State.peerLost
  dsimp only
  split
  case h_1 => split <;> simp
  case h_2 => split <;> simp
  case h_3 => split <;> simp
  case h_4 =>
    split
    · simp
    · split
      · split <;> simp
      · rfl
  case h_5 | h_6 =>
    refine State.foldl_flows _ _ (fun u h => ?_) s
    split
    · split <;> simp
    · rfl
  case h_7 => rfl

@[simp] theorem State.launchPacket_flows (s : State) (h : Nat) (k : Packet) : (s.launchPacket h k).flows = s.flows := by
  unfold State.launchPacket
  split <;> rfl

end Sys2Proof.Machine
end

section
/-! Forwarding and sending again, and the clauses of O31 (R272, R281, R283; log 68). -/

namespace Sys2Proof.Machine

/-! ### Forwarding (R283) -/

/-- A transit packet whose next hop is within reach goes out of it, alone on an output that holds nothing. -/
theorem doForward_transit {s : State} {a q : Nat} {t : Packet} {rest : List Packet} (hq : (s.port a).rxQ = t :: rest) (hbeacon : t.ptype ≠ .beacon)
    (hlink : t.ptype ≠ .link) (hhop : t.hops[t.hidx]? = some q) (hlt : q < 24) (hreach : portHalf q = portHalf a ∨ (s.half (portHalf a)).link = .up)
    (hout : (s.port q).outQ = []) : doForward s a = (s.popRx a).output q { t with hidx := t.hidx + 1, cong := t.cong } := by
  have hcong : (s.port q).congested = false := by simp [Port.congested, hout]
  have hpopped : ((s.popRx a).port q).outQ = [] := by
    rw [State.popRx_cons hq, State.port_setPort]
    split
    · next heq => rw [← heq]; exact hout
    · exact hout
  have hopen : ¬ (q ≥ 24 ∨ (portHalf q ≠ portHalf a ∧ (s.half (portHalf a)).link ≠ .up)) := by
    rintro (h | ⟨hne, hdown⟩)
    · omega
    · exact hreach.elim hne hdown
  rw [doForward, hq]
  dsimp only
  rw [if_neg (by simp [hbeacon, hlink]), hhop]
  dsimp only
  rw [if_neg hopen, hcong, Bool.or_false, State.outputCombining, hpopped]
  rfl

/-! ### Sending again (R272) -/

section
variable {s : State} {fk : FlowKey} {psn n : Nat} {u : Packet} (hfound : (s.flow fk).unacked.find? (fun e => decide (e.1.psn.toNat = psn)) = some (u, n))
include hfound

/-- After three sends a packet is given up. -/
theorem doRetransmit_givesUp (hn : 3 ≤ n) : doRetransmit s fk psn =
    (s.setFlow { s.flow fk with unacked := (s.flow fk).unacked.filter (fun e => decide (e.1.psn.toNat ≠ psn)) }).peerLost
      fk.local' u.ptype u.rw2.toNat u.xtag.toNat u.body := by
  rw [doRetransmit]
  dsimp only
  rw [hfound]
  exact if_pos hn

/-- Before that it is counted once more, and sent where a path is usable. -/
theorem doRetransmit_flows (hn : n < 3) : (doRetransmit s fk psn).flows = (s.setFlow { s.flow fk with
    unacked := (s.flow fk).unacked.map (fun e => if e.1.psn.toNat = psn then (e.1, n + 1) else e) }).flows := by
  rw [doRetransmit]
  dsimp only
  rw [hfound]
  dsimp only
  rw [if_neg (by omega)]
  split
  · rfl
  · split <;> simp

end

/-- A request that is given up ends its `pgather` LATE. -/
theorem State.peerLost_gather {s : State} {b gid shard planes cmd step xtag : Nat} {v : Bool} {t : PType} {x : Gather}
    (hx : (s.engine (idHalf cmd)).gathers.find? (fun y => y.id == cmd && decide (y.cmd.b = b) && y.live) = some x) :
    s.peerLost b t step xtag (.greq (.gather gid shard planes v cmd)) = (s.endGather (idHalf cmd) x).endColl (idHalf cmd) x.cmd stLate 0 := by
  rw [State.peerLost, hx]

/-! ### The clauses -/

/-- Settles O31: `choosePath` is the first of the usable paths, or the first of least score; the other rows by their guards. -/
theorem pathsAndPackets : Obligations.PathsAndPackets := by
  unfold Obligations.PathsAndPackets
  refine ⟨?_, ?_⟩
  · intro s h x f now usable
    have husable {i : Nat} {hops : List Nat} : (i, hops) ∈ s.usablePaths x ↔ usable i hops := State.mem_usablePaths
    refine ⟨?_, fun i hops he => ⟨husable.mp (State.choosePath_mem he), fun hadpt j l hlt hl => ?_, fun hadpt j l hl => ?_⟩⟩
    · rw [State.choosePath_eq_none, List.eq_nil_iff_forall_not_mem]
      exact ⟨fun hnone i hops hu => hnone _ (husable.mpr hu), fun hnone e he => hnone _ _ (husable.mp he)⟩
    · exact absurd (State.choosePath_first hadpt he (husable.mpr hl)) (Nat.not_le.mpr hlt)
    · exact State.choosePath_least hadpt he (husable.mpr hl)
  · intro s h i m p q hops e x key f k
    refine ⟨fun hh hmsg htype hnotice hvalid hpath hfirst hfree => ?_, fun a t rest hq hbeacon hlink hhop hlt hreach hout => ?_,
      fun fk psn u n hfound => ⟨fun hn => ⟨?_, fun gid shard planes v cmd ga htype hbody hga => ?_⟩, fun hn => ?_⟩⟩
    · have hexec : exec (.packetInject h i) s = .next (doPacketInject s h i) := congrArg Host.Outcome.next (onHalf_of_lt hh ..)
      rw [hexec, doPacketInject_data hmsg htype hnotice hvalid hpath hfirst hfree]
      exact ⟨fun hfew => congrArg Host.Outcome.next (if_neg (Nat.not_le.mpr hfew)), fun hmany => congrArg Host.Outcome.next (if_pos hmany)⟩
    · have hforward := doForward_transit hq hbeacon hlink hhop hlt hreach hout
      rw [State.popRx_cons hq] at hforward
      exact congrArg Host.Outcome.next hforward
    · exact ⟨_, congrArg Host.Outcome.next (doRetransmit_givesUp hfound hn), State.peerLost_flows ..⟩
    · refine congrArg Host.Outcome.next ((doRetransmit_givesUp hfound hn).trans ?_)
      rw [hbody]
      exact State.peerLost_gather hga
    · have hflow := (State.flow_congr (doRetransmit_flows hfound hn) fk).trans (State.flow_setFlow_same s (s.key_flow fk))
      exact ⟨_, rfl, by rw [hflow], by rw [hflow]⟩

end Sys2Proof.Machine
end

section
/-! What arrives in a flow (O32): packets that are dropped and counted, held, delivered and acknowledged (R271-R273, R287; log 38). -/

namespace Sys2Proof.Machine

/-! ### What is dropped and counted (R273, R287) -/

section
variable {s : State} {p : Nat} {k : Packet} {rest : List Packet} (hq : (s.port p).rxQ = k :: rest) (hhere : k.hops.length ≤ k.hidx)
include hq hhere

theorem State.arrived_here : s.arrived p k.ptype = some k := by simp [State.arrived, hq, hhere]

theorem State.receive_badEcrc (hcrc : k.crcOk = false) (go : State → Nat → Packet → State) :
    s.receive p k.ptype anyPacket go = (s.popRx p).countEcrc k.dbind (portHalf p) := by
  simp [State.receive, State.arrived_here hq hhere, anyPacket, hcrc]

theorem State.receive_refused (hcrc : k.crcOk = true) (hrefused : (s.popRx p).accepts (portHalf p) k = false) (go : State → Nat → Packet → State) :
    s.receive p k.ptype anyPacket go = (s.popRx p).countUnauth k.dbind (portHalf p) := by
  simp [State.receive, State.arrived_here hq hhere, anyPacket, hcrc, hrefused]

end

/-! ### Order (R272) -/

/-- A flow that has seen a packet. -/
def Flow.seen (f : Flow) (k : Packet) : Flow := { f with sinceAck := f.sinceAck + 1, lastPath := k.path, lastCong := k.cong }

section
variable {s : State} {h : Nat} {cls : FlowClass} {k : Packet} {f : Flow} (hf : s.flow ⟨k.dbind, k.sdev, k.sbind, cls⟩ = f) (hpsn : k.psn ≠ f.expPsn)
include hf hpsn

/-- A packet ahead of order is held. -/
theorem State.flowArrive_ahead (hahead : (k.psn - f.expPsn).toNat < 256) (hnew : ∀ q ∈ f.held, q.psn ≠ k.psn) :
    s.flowArrive h cls k = s.setFlow { f.seen k with held := f.held ++ [k] } := by
  subst hf
  exact (if_neg hpsn).trans (if_pos ⟨hahead, by simpa using hnew⟩)

/-- A packet behind order is a duplicate. -/
theorem State.flowArrive_behind (hbehind : 256 ≤ (k.psn - f.expPsn).toNat) : s.flowArrive h cls k = s.setFlow (f.seen k) := by
  subst hf
  exact (if_neg hpsn).trans (if_neg fun hahead => Nat.not_le.mpr hahead.1 hbehind)

end

/-! ### CELLAR (R273) -/

/-- The granules that a run of bytes touches. -/
theorem mem_granulesTouched {a n g : Nat} : g ∈ granulesTouched a n ↔ a / 2 ^ 30 ≤ g ∧ g ≤ (a + n - 1) / 2 ^ 30 := by
  simp only [granulesTouched, upto, List.mem_map, List.mem_range]
  constructor
  · rintro ⟨i, hi, rfl⟩
    omega
  · exact fun hg => ⟨g - a / 2 ^ 30, by omega, by omega⟩

/-- Snapshot bytes are accepted where every granule they touch is granted. -/
theorem State.accepts_cellar {s : State} {h : Nat} {k : Packet} {l : List Byte} (htype : k.ptype = .cellar) (hbody : k.body = .bytes l)
    (hdir : bitAt k.rw2 63 = false) : s.accepts h k = true ↔
      ∀ g, fld k.rw2 0 44 / 2 ^ 30 ≤ g → g ≤ (fld k.rw2 0 44 + l.length - 1) / 2 ^ 30 → g ∈ s.grantOf h k.dbind k.sdev k.sbind := by
  have hrestore : cellarRestore k = false := hdir
  unfold State.accepts
  rw [htype]
  dsimp only
  rw [hrestore, if_neg (by decide), hbody, List.all_eq_true]
  simp only [mem_granulesTouched, List.contains_iff_mem, and_imp]
  rfl

/-! ### Acknowledgements (R272) -/

/-- Bits [4:3] of the XTAG of an ACKF name the class of DATA and GREQ where they are 0 (log 38). -/
theorem classOfCode_dataGreq {xtag : BitVec 16} (h : xtag.toNat < 8) : classOfCode (fld xtag 3 2) = .dataGreq := by
  have hcode : fld xtag 3 2 = 0 := by rw [fld, Nat.shiftRight_eq_div_pow]; omega
  rw [hcode]
  rfl

theorem not_psnLe (a b : BitVec 16) : (!psnLe a b) = decide (2 ^ 15 ≤ (b - a).toNat) := by
  rw [psnLe, ← decide_not]
  exact decide_eq_decide.mpr Nat.not_lt

/-- The acknowledgement of what a flow has received since its last one. -/
def State.ackFor (s : State) (fk : FlowKey) (j : Nat) (hops : List Nat) : Packet :=
  Packet.sealed
    { ddev := fk.dev, sdev := s.devid, dbind := fk.bind, sbind := fk.local', ptype := .ackf, hidx := 0, path := j, cong := false,
      hops := hops, rw2 := BitVec.ofNat 64 ((s.flow fk).expPsn - 1).toNat, psn := 0
      xtag := BitVec.ofNat 16 ((s.flow fk).lastPath + 4 * b2n (s.flow fk).lastCong + 8 * classCode fk.cls), ecrc := 0, body := .none }

theorem doAckfSend_sends {s : State} {fk : FlowKey} {n j : Nat} {hops : List Nat} (hdue : (s.flow fk).sinceAck ≠ 0)
    (hpartner : s.partnerNo (s.homeOf fk.local') fk.local' fk.dev fk.bind = some n)
    (hpath : s.choosePath (s.homeOf fk.local') (s.partner (s.homeOf fk.local') fk.local' n) (s.flow fk) = some (j, hops))
    (hfree : s.hopHeld (s.homeOf fk.local') hops = false) :
    doAckfSend s fk = (s.setFlow { s.flow fk with sinceAck := 0 }).launchPacket (s.homeOf fk.local') (s.ackFor fk j hops) := by
  rw [doAckfSend]
  dsimp only
  rw [if_neg hdue, hpartner]
  dsimp only
  rw [hpath]
  dsimp only
  rw [hfree]
  rfl

/-! ### The clauses -/

/-- Settles O32: `receive` drops and counts what R273 refuses, and `flowArrive` orders what it accepts. -/
theorem flowDelivery : Obligations.FlowDelivery := by
  unfold Obligations.FlowDelivery
  intro s p k rest l h b popped key f seen trusted addr hq hhere
  have hpop : s.popRx p = popped := State.popRx_cons hq
  refine ⟨fun htype => ?_, fun htype hcrc hbody hne hdir => ?_, fun htype hcrc htrusted hclass hcong => ?_, fun fk n j hops hdue hpartner hpath hfree => ?_⟩
  · have hexec : exec (.dataReceive p) s = .next (s.receive p k.ptype anyPacket (fun s h k => s.flowArrive h .dataGreq k)) := by rw [htype]; rfl
    have haccepts : popped.accepts h k = (popped.partnerNo h k.dbind k.sdev k.sbind).isSome := by unfold State.accepts; rw [htype]
    rw [hexec]
    refine ⟨fun hcrc => ?_, fun hcrc hnot => ?_, fun hcrc htrusted => ?_⟩
    · rw [State.receive_badEcrc hq hhere hcrc, hpop]
      rfl
    · rw [State.receive_refused hq hhere hcrc (by rw [hpop, haccepts]; exact Bool.eq_false_iff.mpr hnot), hpop]
      rfl
    · rw [State.receive_accepted hq hhere hcrc rfl (by rw [hpop, haccepts]; exact htrusted), hpop]
      refine ⟨fun hpsn hheld => ?_, fun hpsn hahead hnew => congrArg Host.Outcome.next (State.flowArrive_ahead rfl hpsn hahead hnew), fun hbehind =>
        congrArg Host.Outcome.next (State.flowArrive_behind rfl (fun hpsn => ?_) hbehind)⟩
      · rw [State.flowArrive_inOrder hpsn hheld, State.deliver, htype]
        rfl
      · rw [show k.psn = f.expPsn from hpsn, BitVec.sub_self] at hbehind
        exact absurd hbehind (by decide)
  · have hexec : exec (.cellarReceive p) s = .next (s.receive p k.ptype anyPacket (fun s h k => s.flowArrive h .cellar k)) := by rw [htype]; rfl
    intro ck cf granted
    have haccepts : popped.accepts h k = true ↔ granted := State.accepts_cellar htype hbody hdir
    rw [hexec]
    refine ⟨fun hgranted hpsn hheld => ?_, fun hnot => ?_⟩
    · rw [State.receive_accepted hq hhere hcrc rfl (by rw [hpop]; exact haccepts.mpr hgranted), hpop, State.flowArrive_inOrder hpsn hheld, State.deliver,
        htype, hbody]
      rfl
    · rw [State.receive_refused hq hhere hcrc (by rw [hpop]; exact Bool.eq_false_iff.mpr (mt haccepts.mp hnot)), hpop]
      rfl
  · have haccepts : popped.accepts h k = true := by unfold State.accepts; rw [htype]; exact htrusted
    have hexec : exec (.ackfReceive p) s = .next (doAckfReceive s p) := rfl
    rw [hexec, doAckfReceive, ← htype, State.receive_accepted hq hhere hcrc rfl (by rw [hpop]; exact haccepts), hpop]
    dsimp only
    rw [classOfCode_dataGreq hclass, if_neg (by simp [hcong])]
    simp only [not_psnLe]
    rfl
  · refine ⟨_, congrArg Host.Outcome.next (doAckfSend_sends hdue hpartner hpath hfree), rfl, Packet.crcOk_sealed _, rfl, rfl, rfl, ?_⟩
    exact Nat.mod_eq_of_lt (Nat.lt_of_lt_of_le ((s.flow fk).expPsn - 1).isLt (by decide))

end Sys2Proof.Machine
end

section
/-! Primacy (O52): what becoming PRIMARY and giving way leave of a half, and `PRIMACY_SET` by its guards (R293-R295, R369). -/

namespace Sys2Proof.Machine

/-! ### HOLD and what goes with a change of primacy (R293-R295) -/

section
variable (s : State) (h j : Nat)

@[simp] theorem State.half_setHold_same (v : Bool) : (s.setHold h v).half h = { s.half h with hold := v } := by
  rw [State.setHold, State.half_setHalf_iff, if_neg (by omega), State.half_setHalf_same]

@[simp] theorem State.half_setHold_far (v : Bool) : (s.setHold h v).half (1 - h) = { s.half (1 - h) with peerHold := v } := by
  rw [State.setHold, State.half_setHalf_same, State.half_setHalf_far]

@[simp] theorem Half.pstate_raise (x : Half) (e : BitVec 4) : (x.raise e).pstate = x.pstate := rfl

@[simp] theorem State.half_primacyEvent (d : List Nat) : (s.primacyEvent d).half j = s.half j := by
  obtain ⟨_, _, _, _, _, heq⟩ := s.postEvent_eq ⟨3, 0, 0, 0, 0, d⟩
  rw [State.primacyEvent, heq]
  rfl

/-- A held completion ends its command, where it still runs (R292). -/
def State.endHeld (s : State) (e : Nat × Nat) : State :=
  match s.cmd e.1 e.2 with
  | some c => if c.phase = .running then s.setCmd { c with phase := .ended } else s
  | none => s

theorem State.takeHeld_eq : s.takeHeld h = ((s.half h).compHeld.foldl State.endHeld s).setHalf h
    { ((s.half h).compHeld.foldl State.endHeld s).half h with compHeld := [] } := rfl

theorem State.half_foldl_endHeld (l : List (Nat × Nat)) : (l.foldl State.endHeld s).half j = s.half j := by
  refine foldl_keeps l State.endHeld (State.half · j) (fun t e => ?_) s
  unfold State.endHeld
  split
  · split <;> rfl
  · rfl

/-- Taking up held completions changes no half but for the list of them. -/
theorem State.half_takeHeld : ∃ held, (s.takeHeld h).half j = { s.half j with compHeld := held } := by
  rw [State.takeHeld_eq, State.half_setHalf_iff]
  split
  · next hj => exact ⟨[], by rw [State.half_foldl_endHeld, s.half_eq_of_iff hj]⟩
  · exact ⟨_, s.half_foldl_endHeld j _⟩

/-- HEAD of the rings alone goes past accepted commands. -/
theorem State.half_passAccepted : ∃ rings, (s.passAccepted h).half j = { s.half j with rings := rings } := by
  refine List.foldlRecOn (motive := fun t : State => ∃ rings, t.half j = { s.half j with rings := rings }) _ _ ⟨_, rfl⟩ ?_
  rintro t ⟨rings, ht⟩ c -
  rw [State.half_setHalf_iff]
  split
  · next hj => exact ⟨_, by rw [← t.half_eq_of_iff hj, ht]; rfl⟩
  · exact ⟨_, ht⟩

/-- A half that becomes PRIMARY counts its epoch above its own and its peer's last (R294). -/
theorem State.half_becomePrimary_same : ∃ held rings event, (s.becomePrimary h).half h = { s.half h with
    pstate := .primary, epoch := (if (s.half h).epoch.toNat < (s.half h).peerEpoch.toNat then (s.half h).peerEpoch else (s.half h).epoch) + 1
    leftReset := false, hold := true, compHeld := held, rings := rings, event := event } := by
  obtain ⟨held, htake⟩ := s.half_takeHeld h h
  obtain ⟨rings, hpass⟩ := (s.takeHeld h).half_passAccepted h h
  rw [htake] at hpass
  rw [State.becomePrimary]
  dsimp only
  rw [State.half_flushEvents, State.half_primacyEvent, State.half_setHold_same, State.half_setHalf_same, hpass]
  exact ⟨held, rings, _, rfl⟩

theorem State.link_becomePrimary_far : ((s.becomePrimary h).half (1 - h)).link = (s.half (1 - h)).link := by
  obtain ⟨held, htake⟩ := s.half_takeHeld h (1 - h)
  obtain ⟨rings, hpass⟩ := (s.takeHeld h).half_passAccepted h (1 - h)
  rw [htake] at hpass
  rw [State.becomePrimary]
  rw [State.half_flushEvents, State.half_primacyEvent, State.half_setHold_far, State.half_setHalf_far, hpass]

theorem State.linkUp_becomePrimary (hh : h < 2) : (s.becomePrimary h).linkUp = s.linkUp := by
  have hlink : ((s.becomePrimary h).half 0).link = (s.half 0).link := by
    obtain rfl | rfl : h = 0 ∨ h = 1 := by omega
    · obtain ⟨_, _, _, heq⟩ := s.half_becomePrimary_same 0
      rw [heq]
    · exact s.link_becomePrimary_far 1
  show decide (((s.becomePrimary h).half 0).link = .up) = decide ((s.half 0).link = .up)
  rw [hlink]

/-- A half that gives way has its wire HOLD low, and is PRIMARY no more (R295). -/
theorem State.half_giveWay : ((s.giveWay h).half h).hold = false ∧ ((s.giveWay h).half h).pstate =
    if (s.half h).pstate ≠ .primary then (s.half h).pstate else if s.linkUp then .follower else .split := by
  by_cases hp : (s.half h).pstate = .primary
  · have hgive : s.giveWay h = if s.linkUp then s.becomeFollower h else s.becomeSplit h := if_pos hp
    rw [hgive, if_neg (not_not_intro hp)]
    cases s.linkUp with
    | true => simp [State.becomeFollower]
    | false => simp [State.becomeSplit]
  · have hgive : s.giveWay h = s.setHold h false := if_neg hp
    rw [hgive, if_pos hp, State.half_setHold_same]
    exact ⟨rfl, rfl⟩

theorem State.pstate_giveWay_ne : ((s.giveWay h).half h).pstate ≠ .primary := by
  rw [(s.half_giveWay h).2]
  split
  · assumption
  · split <;> exact PState.noConfusion

end

/-! ### The named half (R295) -/

section
variable {s : State} {h : Nat}

theorem State.claimHold_of_primary (hp : (s.half h).pstate = .primary) (c : Cmd) : s.claimHold c h = s.doneCmd c := if_pos hp

/-- Without the link it samples the other half's HOLD as it stands. -/
theorem State.claimHold_of_down (hp : (s.half h).pstate ≠ .primary) (hdown : s.linkUp = false) (c : Cmd) : s.claimHold c h =
    if (s.half (1 - h)).hold then s.endCmd c 6 0 0 [] else (s.setHold h true).setCmd { c with phase := .running } := by
  refine (if_neg hp).trans ?_
  rw [hdown]
  rfl

/-- With the link UP the other half gives way first. -/
theorem State.claimHold_of_up (hp : (s.half h).pstate ≠ .primary) (hup : s.linkUp = true) (c : Cmd) : s.claimHold c h =
    ((s.giveWay (1 - h)).setHold h true).setCmd { c with phase := .running } := by
  refine (if_neg hp).trans ?_
  rw [hup]
  exact if_neg (Bool.eq_false_iff.mp (s.half_giveWay (1 - h)).1)

theorem State.settleHold_yields (hother : h = 1 ∧ (s.half 0).hold = true) (c : Cmd) : s.settleHold c h = (s.setHold h false).endCmd c 6 0 0 [] :=
  if_pos hother

/-- The state in which a named half has become PRIMARY, SOLO where the link is not UP. -/
def State.claimed (s : State) (h : Nat) : State :=
  if s.linkUp then s.becomePrimary h else (s.becomePrimary h).setHalf h { (s.becomePrimary h).half h with solo := true }

theorem State.settleHold_claims (hh : h < 2) (hfree : ¬ (h = 1 ∧ (s.half 0).hold = true)) (c : Cmd) : s.settleHold c h = (s.claimed h).doneCmd c := by
  refine (if_neg hfree).trans ?_
  rw [State.claimed, ← s.linkUp_becomePrimary h hh]

theorem State.half_claimed (s : State) (h : Nat) : ((s.claimed h).half h).pstate = .primary ∧ ((s.claimed h).half h).hold = true ∧
    (s.linkUp = false → ((s.claimed h).half h).solo = true) ∧ ((s.claimed h).half h).epoch =
      (if (s.half h).epoch.toNat < (s.half h).peerEpoch.toNat then (s.half h).peerEpoch else (s.half h).epoch) + 1 := by
  obtain ⟨_, _, _, heq⟩ := s.half_becomePrimary_same h
  rw [State.claimed]
  split
  · next hup =>
    rw [heq]
    exact ⟨rfl, rfl, fun hdown => by simp [hup] at hdown, rfl⟩
  · rw [State.half_setHalf_same, heq]
    exact ⟨rfl, rfl, fun _ => rfl, rfl⟩

end

/-! ### `PRIMACY_SET` (R295, R369) -/

section
variable {s : State} {h seq : Nat} {c : Cmd} (hh : h < 2) (hcmd : s.cmd 0 seq = some c) (hopc : c.opc = 0x13) (hready : (s.half h).ready = true)
  (hheld : c.jseq ∈ (s.half h).journal) (hahead : ∀ d ∈ s.cmds, d.func = 0 → d.seq < seq → d.phase ≠ .accepted) (late : Bool)
include hh hcmd hopc hready hheld hahead

/-- A half whose journal holds the command takes part in it once those ahead of it have started. -/
theorem doPrimacySet_eq : doPrimacySet s h seq late =
    if c.phase = .accepted then
      (if s.linkUp && s.imagesDiffer then s.refuseCmd c 370 else if h ≠ c.arg 40 1 then s.giveWay h else if late then s else s.claimHold c h)
    else if c.phase = .running ∧ late ∧ h = c.arg 40 1 then s.settleHold c h else s := by
  have hstarted : ¬ s.cmds.any (fun d => decide (d.func = 0 ∧ d.seq < seq) && d.phase == .accepted) = true := by
    simp only [List.any_eq_true, Bool.and_eq_true, decide_eq_true_eq, beq_iff_eq, not_exists, not_and]
    exact fun d hd hlt hphase => hahead d hd hlt.1 hlt.2 hphase
  rw [doPrimacySet, hcmd]
  dsimp only
  rw [if_neg (by simp [hopc, hh, hready, hheld]), if_neg hstarted]

theorem exec_primacySet_accepted (hphase : c.phase = .accepted) : exec (.primacySet h seq late) s = .next
    (if s.linkUp && s.imagesDiffer then s.refuseCmd c 370 else if h ≠ c.arg 40 1 then s.giveWay h else if late then s else s.claimHold c h) := by
  refine congrArg Host.Outcome.next ((onHalf_of_lt hh ..).trans ?_)
  rw [doPrimacySet_eq hh hcmd hopc hready hheld hahead, if_pos hphase]

theorem exec_primacySet_late (hphase : c.phase = .running) (hnamed : h = c.arg 40 1) :
    exec (.primacySet h seq true) s = .next (s.settleHold c h) := by
  refine congrArg Host.Outcome.next ((onHalf_of_lt hh ..).trans ?_)
  rw [doPrimacySet_eq hh hcmd hopc hready hheld hahead, if_neg (by simp [hphase]), if_pos ⟨hphase, rfl, hnamed⟩]

end

end Sys2Proof.Machine
end

section
/-! Commands of the device (O52): the identifier, keys, events, tests and images, and the obligation's clauses (R274, R301, R319, R337, R338, R368). -/

namespace Sys2Proof.Machine

/-! ### `KEY_SET` and `KEY_CLEAR` (R289, R318, R319) -/

section
variable (s : State) (h k : Nat) (go : KeySlot → KeySlot)

/-- A half that takes a write of a key slot has it changed, and every other slot as it was. -/
theorem State.key_keyWrite {i : Nat} (hi : i = h ∨ s.linkUp = true) (j : Nat) :
    ((s.keyWrite h k go).half i).key j = if j = k then go ((s.half i).key k) else (s.half i).key j := by
  obtain ⟨owes, hhalf⟩ := State.half_ctrl_copied hi (fun x => x.setKey k (go (x.key k)))
  rw [State.keyWrite, hhalf]
  exact Half.key_setKey (s.half i) k (go ((s.half i).key k)) j

theorem State.mem_keyWrite : (s.keyWrite h k go).mem = s.mem := by
  rw [State.keyWrite, State.ctrl, apply_ite State.mem, State.setHalf_mem]
  exact ite_self _

theorem State.threads_keyWrite : (s.keyWrite h k go).threads = s.threads := by
  rw [State.keyWrite, State.ctrl, apply_ite State.threads, State.setHalf_threads]
  exact ite_self _

/-- The slot in the half that writes it, the slot's copy while the link is UP, and what stays as it was. -/
theorem State.keyWrite_slot : ((s.keyWrite h k go).half h).key k = go ((s.half h).key k) ∧
    (∀ j, j ≠ k → ((s.keyWrite h k go).half h).key j = (s.half h).key j) ∧
    (s.linkUp = true → h < 2 → ((s.keyWrite h k go).half (1 - h)).key k = go ((s.half (1 - h)).key k)) ∧
    (s.keyWrite h k go).mem = s.mem ∧ (s.keyWrite h k go).threads = s.threads := by
  refine ⟨?_, fun j hj => ?_, fun hup _ => ?_, s.mem_keyWrite h k go, s.threads_keyWrite h k go⟩
  · rw [s.key_keyWrite h k go (.inl rfl), if_pos rfl]
  · rw [s.key_keyWrite h k go (.inl rfl), if_neg hj]
  · rw [s.key_keyWrite h k go (.inr hup), if_pos rfl]

end

/-! ### Tests (R337, R338) -/

theorem isLinkUnit_iff {u : BitVec 16} : isLinkUnit u = true ↔ unitClass u = 2 ∨ unitClass u = 3 := by
  rw [isLinkUnit, Bool.or_eq_true, decide_eq_true_iff, decide_eq_true_iff]

/-- The unit that a test names. -/
def Cmd.testedUnit (c : Cmd) : BitVec 16 := BitVec.ofNat 16 (c.arg 40 2)

/-- The ports whose latest rotation the test of a link reports: the one of a fabric port, those of the half link. -/
def linkPorts (u : BitVec 16) : List Nat := if unitClass u = 2 then [unitIdx u] else [24, 25]

section
variable (s : State) (c : Cmd) (t : Option Word)

theorem State.testLink_passed (h : ∀ p ∈ linkPorts c.testedUnit, (s.port p).tested ≠ some false) : s.testLink c t = s.doneCmd c := by
  have hpassed : ¬ (linkPorts c.testedUnit).any (fun p => (s.port p).tested == some false) = true := by
    rw [List.any_eq_true]
    rintro ⟨p, hp, hfailed⟩
    exact h p hp (eq_of_beq hfailed)
  exact congrArg (s.testCmd c) (if_neg hpassed)

theorem State.testLink_failed (h : ∃ p ∈ linkPorts c.testedUnit, (s.port p).tested = some false) :
    s.testLink c t = s.endCmd c 7 c.testedUnit 0 (leBytes 8 (t.getD 0).toNat ++ leBytes 8 0) := by
  obtain ⟨p, hp, hfailed⟩ := h
  exact congrArg (s.testCmd c) (if_pos (List.any_eq_true.mpr ⟨p, hp, by simp [hfailed]⟩))

theorem State.deferTest_eq : s.deferTest c = State.endCmd
    { s with deferredTests := if c.testedUnit ∈ s.deferredTests then s.deferredTests else s.deferredTests ++ [c.testedUnit] } c 5 c.testedUnit 0 [] := by
  have hmem : (if s.deferredTests.contains c.testedUnit then s.deferredTests else s.deferredTests ++ [c.testedUnit]) =
      if c.testedUnit ∈ s.deferredTests then s.deferredTests else s.deferredTests ++ [c.testedUnit] := if_congr List.contains_iff_mem rfl rfl
  rw [← hmem]
  rfl

end

/-! ### `FW_UPDATE` (R368) -/

section
variable (x : Flash) (im : Image)

theorem Flash.update_keeps : (x.update im).active = x.active ∧ (x.update im).running = x.running ∧ (x.update im).ran = x.ran := by
  rw [Flash.update, Flash.setBank]
  split <;> exact ⟨rfl, rfl, rfl⟩

theorem Flash.bank_setBank (b j : Bool) : (x.setBank b im).bank j = if j = b then im else x.bank j := by
  cases b <;> cases j <;> rfl

theorem Flash.bank_update (j : Bool) : (x.update im).bank j = if j = !x.active then im else x.bank j :=
  x.bank_setBank im (!x.active) j

end

/-! ### The commands by their guards -/

section
variable {s : State} {f seq : Nat} {c : Cmd}

theorem exec_fabricIdSet (hmay : s.toStart f seq 0x14 = some c) : exec (.fabricIdSet f seq) s = .next
    (if s.liveBindings.any (fun b => !(s.binding b).ranges.isEmpty) then s.refuseCmd c 269
    else State.doneCmd { s with devid := BitVec.ofNat 20 (c.arg 40 4), devValid := true } c) :=
  congrArg Host.Outcome.next (State.command_of_start hmay _)

section
variable (hmay : s.toStart f seq 0x15 = some c)
include hmay

theorem exec_keySet (hset : c.arg 41 1 = 0) : exec (.keySet f seq) s = .next
    (match ((s.half (s.posterOf c)).key 0).key.bind (fun k => keyUnwrap k c.buf) with
    | some k => if k.length = 32 then (s.keyWrite (s.posterOf c) (c.arg 40 1) (fun _ => ⟨some k, 0, 0, 0⟩)).doneCmd c else s.refuseCmd c 319
    | none => s.refuseCmd c 319) :=
  congrArg Host.Outcome.next ((State.command_of_start hmay _).trans (if_neg (not_not_intro hset)))

theorem exec_keyClear (hclear : c.arg 41 1 = 1) : exec (.keyClear f seq) s = .next
    ((s.keyWrite (s.posterOf c) (c.arg 40 1) (fun k => { k with key := none })).doneCmd c) :=
  congrArg Host.Outcome.next ((State.command_of_start hmay _).trans (if_neg (not_not_intro hclear)))

end

section
variable (hmay : s.toStart f seq 0x17 = some c) (t : Option Word)
include hmay

theorem exec_selftest (hflags : c.arg 42 1 = 0) : exec (.selftest f seq t) s = .next
    (if isLinkUnit c.testedUnit then s.testLink c t else if s.unitBound c.testedUnit then s.deferTest c else s.testCmd c t) :=
  congrArg Host.Outcome.next ((State.command_of_start hmay _).trans (if_neg (not_not_intro hflags)))

theorem exec_selftestSpareOk (hflags : c.arg 42 1 = 1) : exec (.selftestSpareOk f seq t) s = .next
    (if isLinkUnit c.testedUnit then s.testLink c t else if s.spareLeft c.testedUnit then s.testSpare c t
    else if s.unitBound c.testedUnit then s.deferTest c else s.testCmd c t) :=
  congrArg Host.Outcome.next ((State.command_of_start hmay _).trans (if_neg (not_not_intro hflags)))

end

theorem exec_fwUpdate (hmay : s.toStart f seq 0x19 = some c) (im : Image) : exec (.fwUpdate f seq im) s = .next
    (if !s.linkUp then s
    else if imageOk s.half0.flash im && imageOk s.half1.flash im then (s.bothHalves (fun h => { h with flash := h.flash.update im })).doneCmd c
    else s.refuseCmd c 358) :=
  congrArg Host.Outcome.next (State.command_of_start hmay _)

end

/-! ### The clauses -/

/-- Settles O52: each command by its guards, `PRIMACY_SET` at the half that holds it. -/
theorem deviceCommands : Obligations.DeviceCommands := by
  unfold Obligations.DeviceCommands
  intro s f seq c may ends done b
  refine ⟨fun h late hh hcmd hopc hready hheld hahead => ?_, fun hmay => ?_, fun hmay => ?_, fun hmay => ?_, fun hmay t => ?_, fun hmay im => ?_⟩
  · intro differ x
    have hdiffer : (s.linkUp && s.imagesDiffer) = true ↔ differ := by rw [Bool.and_eq_true, State.imagesDiffer, decide_eq_true_iff]
    have hexec := exec_primacySet_accepted hh hcmd hopc hready hheld hahead late
    refine ⟨fun hphase hdiff => ?_, fun hphase hsame hnot => ?_, fun hphase hsame hnamed => ?_, fun hphase hlate hnamed => ?_⟩
    · exact (hexec hphase).trans (congrArg _ (if_pos (hdiffer.mpr hdiff)))
    · refine ⟨s.giveWay h, ?_, s.half_giveWay h⟩
      rw [hexec hphase, if_neg (mt hdiffer.mp hsame), if_pos hnot]
    · have hclaim := hexec hphase
      rw [if_neg (mt hdiffer.mp hsame), if_neg (not_not_intro hnamed)] at hclaim
      refine ⟨fun hlate => ?_, fun hlate hp => ?_, fun hlate hp hdown => ⟨fun hhold => ?_, fun hhold => ?_⟩, fun hlate hp hup => ?_⟩
      · rw [hclaim, if_pos hlate]
      all_goals rw [hlate] at hclaim ⊢
      · exact hclaim.trans (congrArg _ (State.claimHold_of_primary hp c))
      · exact hclaim.trans (congrArg _ ((State.claimHold_of_down hp hdown c).trans (if_pos hhold)))
      · exact hclaim.trans (congrArg _ ((State.claimHold_of_down hp hdown c).trans (if_neg (Bool.eq_false_iff.mp hhold))))
      · refine ⟨(s.giveWay (1 - h)).setHold h true, hclaim.trans (congrArg _ (State.claimHold_of_up hp hup c)), ?_⟩
        rw [State.half_setHold_same, State.half_setHold_far]
        exact ⟨rfl, (s.half_giveWay (1 - h)).1, s.pstate_giveWay_ne (1 - h)⟩
    · subst hlate
      have hsettle := exec_primacySet_late hh hcmd hopc hready hheld hahead hphase hnamed
      refine ⟨fun hone hhold => hsettle.trans (congrArg _ (State.settleHold_yields ⟨hone, hhold⟩ c)), fun hfree => ?_⟩
      refine ⟨s.claimed h, hsettle.trans (congrArg _ (State.settleHold_claims hh ?_ c)), s.half_claimed h⟩
      rintro ⟨rfl, hhold⟩
      exact hfree.elim one_ne_zero (fun hlow => Bool.eq_false_iff.mp hlow hhold)
  · have hranged : s.liveBindings.any (fun y => !(s.binding y).ranges.isEmpty) = true ↔ ∃ y, (s.binding y).live = true ∧ (s.binding y).ranges ≠ [] := by
      simp [List.any_eq_true, State.mem_liveBindings]
    refine ⟨fun hsome => (exec_fabricIdSet hmay).trans (congrArg _ (if_pos (hranged.mpr hsome))), fun hnone =>
      (exec_fabricIdSet hmay).trans (congrArg _ (if_neg (mt hranged.mp ?_)))⟩
    exact fun ⟨y, hlive, hranges⟩ => hranges (hnone y hlive)
  · intro h key slot
    refine ⟨fun hset => ⟨fun k hkey hlen => ⟨_, ?_, s.keyWrite_slot h b (fun _ => ⟨some k, 0, 0, 0⟩)⟩, fun hnot => ?_⟩, fun hclear =>
      ⟨_, exec_keyClear hmay hclear, s.keyWrite_slot h b (fun k => { k with key := none })⟩⟩
    · refine (exec_keySet hmay hset).trans ?_
      rw [show ((s.half (s.posterOf c)).key 0).key.bind (fun k => keyUnwrap k c.buf) = some k from hkey]
      exact congrArg _ (if_pos hlen)
    · refine (exec_keySet hmay hset).trans ?_
      split
      · next k hkey => exact congrArg _ (if_neg (hnot k hkey))
      · rfl
  · exact congrArg Host.Outcome.next (State.command_of_start hmay _)
  · intro u link fails reports rotation spare defers
    have hreports : ∀ i, exec i s = .next (s.testCmd c t) → reports i := by
      intro i hi
      refine ⟨fun ht => ?_, fun w ht => ?_⟩ <;> subst ht <;> exact hi
    have hrotation : ∀ i, exec i s = .next (s.testLink c t) → rotation i := fun i hi =>
      ⟨fun hpass => hi.trans (congrArg _ (s.testLink_passed c t hpass)), fun hfail => hi.trans (congrArg _ (s.testLink_failed c t hfail))⟩
    have hdefers : ∀ i, exec i s = .next (s.deferTest c) → defers i := fun i hi => hi.trans (congrArg _ (s.deferTest_eq c))
    have hlink : isLinkUnit c.testedUnit = true ↔ link := isLinkUnit_iff
    refine ⟨fun hflags => ?_, fun hflags => ?_⟩
    · have hexec := exec_selftest hmay t hflags
      refine ⟨fun hl => ?_, fun hl hfree => ?_, fun hl hbound => ?_⟩
      · exact hrotation _ (hexec.trans (congrArg _ (if_pos (hlink.mpr hl))))
      all_goals rw [if_neg (mt hlink.mp hl)] at hexec
      · exact hreports _ (hexec.trans (congrArg _ (if_neg (Bool.eq_false_iff.mp hfree))))
      · exact hdefers _ (hexec.trans (congrArg _ (if_pos hbound)))
    · have hexec := exec_selftestSpareOk hmay t hflags
      refine ⟨fun hl => ?_, fun hl hspare => ?_, fun hl hspare hfree => ?_, fun hl hspare hbound => ?_⟩
      · exact hrotation _ (hexec.trans (congrArg _ (if_pos (hlink.mpr hl))))
      all_goals rw [if_neg (mt hlink.mp hl)] at hexec
      · have hrun := hexec.trans (congrArg _ (if_pos hspare))
        refine ⟨fun ht => ?_, fun w ht => ?_⟩ <;> subst ht <;> exact hrun
      all_goals have hrun := hexec.trans (congrArg _ (if_neg (Bool.eq_false_iff.mp hspare)))
      · exact hreports _ (hrun.trans (congrArg _ (if_neg (Bool.eq_false_iff.mp hfree))))
      · exact hdefers _ (hrun.trans (congrArg _ (if_pos hbound)))
  · have hexec := exec_fwUpdate hmay im
    refine ⟨fun hdown => ?_, fun hup hok0 hok1 => ⟨s.bothHalves (fun h => { h with flash := h.flash.update im }), ?_, fun i _ => ?_⟩, fun hup hbad => ?_⟩
    · rw [hexec, hdown]
      rfl
    · rw [hup, hok0, hok1] at hexec
      exact hexec
    · rw [State.half_bothHalves]
      intro o w
      obtain ⟨hactive, hrunning, hran⟩ := o.update_keeps im
      exact ⟨hactive, hrunning, hran, rfl, (o.bank_update im _).trans (if_pos rfl), (o.bank_update im _).trans (if_neg (Bool.eq_not_self _).mp)⟩
    · rw [hup] at hexec
      refine hexec.trans (congrArg _ ((if_neg Bool.false_ne_true).trans (if_neg ?_)))
      rw [Bool.and_eq_true]
      rintro ⟨hok0, hok1⟩
      exact hbad.elim (fun h => Bool.eq_false_iff.mp h hok0) (fun h => Bool.eq_false_iff.mp h hok1)

end Sys2Proof.Machine
end
